-- ==== Sys2Proof/Word.lean ====
section
/-! DEFINITION. The word types of the module: bytes and the 16-, 32- and 64-bit words of its registers (R95, R374). -/

namespace Sys2Proof

/-- A byte. -/
abbrev Byte := BitVec 8
/-- A 16-bit field. -/
abbrev Word16 := BitVec 16
/-- A 32-bit field; also the bits of one FP32 value (R102). -/
abbrev Word32 := BitVec 32
/-- A 64-bit register (R374) or JVI scalar (R188). -/
abbrev Word64 := BitVec 64

end Sys2Proof
end

