-- ==== Sys2Proof/Types.lean ====
section
/-! DEFINITION. The types of the commands' operands: who sends, which engine or context, and the physical readings and
outcomes that a command brings from outside the module. -/

namespace Sys2Proof

/-- The route of a Stavmon command: one of the PCIe mailboxes MB[0] to MB[14], the management bus, or MB[15] over chords
(section Mailboxes of chapter 13). -/
inductive Route where
  | pcie (n : Fin 15)
  | smb
  | chord
deriving DecidableEq, Repr

/-- A JVI execution context: an engine's vector unit or a companion core (R188). -/
inductive Ctx where
  | engine (e : Fin 64)
  | core (c : Fin 32)
deriving DecidableEq, Repr

/-- An engine window of BAR0: of a logical engine or of a physical tile (R95, Table 03-9). -/
inductive Win where
  | logical (e : Fin 64)
  | phys (p : Fin 68)
deriving DecidableEq, Repr

/-- The halves of an engine in split mode (R88); outside split mode the one item runs as half U. -/
inductive Half where
  | u
  | l
deriving DecidableEq, Repr

/-- A detected upset inside a tile, by the detectors of Table 03-6. -/
inductive TileUpset where
  | feeder (queue : Fin 128)
  | weight (array : Fin 4) (half : Half)
  | chain (array : Fin 4)
  | acc (array : Fin 4) (half : Half)
  | wide
deriving DecidableEq, Repr

/-- What a reader finds in a codeword that is not clean (R222). -/
inductive CwFind where
  | corrected
  | uncorrectable
deriving DecidableEq, Repr

/-- Who operates a sync counter (R181). PCIe, chord and FDT operations are the external ones of R186. -/
inductive ScSource where
  | pcie
  | chord (p : Fin 8)
  | fdt (slot : Fin 64)
  | queue (q : Fin 76)
  | engine (e : Fin 64)
  | core (c : Fin 32)
  | landing (p : Fin 8)
deriving DecidableEq, Repr

/-- What a TRAIN flit carries (R248). -/
structure PeerId where
  group : Word32
  x : Nat
  y : Nat
  port : Nat
  dir : Nat
  split : Nat
deriving DecidableEq, Repr

/-- A control codeword as it arrives: the port it came by (none over FDT), the logical source of its flit and its 32 data
bytes (Table 09-6). -/
structure CtlMsg where
  port : Option (Fin 8)
  srcX : Nat
  srcY : Nat
  bytes : List Byte
deriving DecidableEq, Repr

/-- The kinds of temperature sensor (R348). -/
inductive Sensor where
  | tile (p : Fin 68)
  | edge (i : Nat)
  | companion (i : Fin 8)
deriving DecidableEq, Repr

/-- What the power manager measures and estimates in a governor period (R344): estimates of CORE_ARR and CORE_ENG before
their gains, the measured power and current of each rail of Table 01-6, the regulator loss, the mean power at input P over
the last 1 ms, the estimate of each partition (R346) in W, the estimate of one quarter at 0.45 V; all others in mW and mA. -/
structure PowerReading where
  arrEst : Nat
  engEst : Nat
  railPower : List Nat
  railCurrent : List Nat
  loss : Nat
  input : Nat
  shareEst : List Nat
  unparkCost : Nat
deriving DecidableEq, Repr

/-- The window means of a calibration window (R345), in mW: estimates, with the gains in force at
its start, and measurements of CORE_ARR and CORE_ENG. -/
structure CalReading where
  arrEst : Nat
  arrMeas : Nat
  engEst : Nat
  engMeas : Nat
deriving DecidableEq, Repr

/-- The traffic classes of the die-to-die link (R28). -/
inductive D2dClass where
  | workingCopy
  | gradMirror
  | control
deriving DecidableEq, Repr

/-- The memory BARs (Table 11-2). -/
inductive Bar where
  | bar2
  | bar4
deriving DecidableEq, Repr

/-- A frame that is not FDT (R322): a request that names an address, a pause frame of the FDT priority with its time in quanta of 512
bit times (R321), any other. -/
inductive EthKind where
  | arp (target : Nat)
  | neighborDiscovery (target : Nat)
  | echo (target : Nat)
  | pfcPause (quanta : Nat)
  | other
deriving DecidableEq, Repr

/-- A configuration request of the host: the writes that R315 gives an effect, a read of a dword of the header (Table 11-1), a read
of the AER uncorrectable error status and a write that clears bits of it. -/
inductive CfgOp where
  | busMaster (on : Bool)
  | msixEnable (on : Bool)
  | power (d3hot : Bool)
  | read (dword : Nat)
  | aerRead
  | aerClear (mask : Nat)
deriving DecidableEq, Repr

/-- TAP instructions that R412 names, and any other by its code. -/
inductive TapIr where
  | idcode
  | bypass
  | extest
  | intest
  | clamp
  | other (code : Nat)
deriving DecidableEq, Repr

/-- The requests of Table 11-7 row 3 besides configuration requests. -/
inductive UrKind where
  | io
  | atomicOp
deriving DecidableEq, Repr

/-- How a frame reaches a port (R321, R47): its bytes from the MAC header to the FCS, the codewords the FEC corrected, whether
the FCS holds, whether the receiving FIFO has room. -/
structure EthRx where
  len : Nat
  fecCorr : Nat
  fcsOk : Bool
  fits : Bool
deriving DecidableEq, Repr

/-- An FDT packet as it arrives: the port, the sender's address, whether it carries the CE mark, the length UDP gives, the bytes
from the FDT header to the CRC-32C, the UDP destination port, whether the UDP checksum is zero or holds (R323), and the frame. -/
structure FdtPacket where
  port : Fin 2
  src : Nat
  ce : Bool
  udpLen : Nat
  bytes : List Byte
  dstPort : Nat
  checkOk : Bool
  rx : EthRx
deriving DecidableEq, Repr

end Sys2Proof
end

