-- ==== Sys2Proof/Syntax.lean ====
section
/-! DEFINITION. The commands of the module: one constructor for each row of spec/opcode_table.json, with the operands that the
step it names takes from outside. A docstring names the row and its governing rule; the row's summary is the table's. -/

namespace Sys2Proof

/-- A command. Stavmon commands take the route whose mailbox holds them (R375); JVI instructions take the context whose
program counter names them (R188); events take the readings and outcomes that come from outside the module. -/
inductive Instr where
  /-- STANDBY_APPLY (R51). Application of the 12 V standby input starts MOD_COUNT from zero and begins start-up. -/
  | standbyApply (mv : Nat)
  /-- STARTUP_ROM (R362). Start-up phase 0: the ROM reads the flash header, then verifies, loads and locks a firmware image. -/
  | startupRom
  /-- STARTUP_IDENTITY (R367). Start-up phase 1 reconstructs the device seed and keys from the SRAM key array and helper data. -/
  | startupIdentity (pattern : List Byte)
  /-- STARTUP_CONFIG (R370). Start-up phase 2 reads and checks the MCB and falls back to the factory defaults on any mismatch. -/
  | startupConfig
  /-- MAIN_INPUT_APPLY (R372). Main input P becomes present, which ends phase 3 when power-on has been given. -/
  | mainInputApply (mv : Nat)
  /-- STARTUP_RAILS (R418). Start-up phase 4 raises the main-domain rails in order, enters Spring at 0.55 V and trains PCIe. -/
  | startupRails (bad : Option (Fin 6)) (gen : Nat) (width : Nat)
  /-- STARTUP_TILES (R20). Start-up phase 5 runs the tile self-test and builds TILE_MAP. -/
  | startupTiles (failing : List (Fin 68 × Nat))
  /-- STARTUP_MEMORY (R361). Start-up phase 6 trains the G7 and LP5X data buses and brings up the companion. -/
  | startupMemory (g7 : Bool) (lp : Bool)
  /-- STARTUP_LINKS (R248). Start-up phase 7 trains the chords, checks the cabling and brings up the Ethernet ports. -/
  | startupLinks (peers : List (Fin 8 × PeerId)) (eth0 : Bool) (eth1 : Bool)
  /-- STARTUP_RECOVER (R212). Start-up phase 8 tests the accumulators, finishes every open commit record and leaves Spring. -/
  | startupRecover (accOk : Bool)
  /-- MAIN_INPUT_LOSS (R415). MAIN stays below 40 V for 20 µs or is disconnected; the module gates waves, stops the queues, drops to 250 W or less and starts the ordered shutdown. -/
  | mainInputLoss
  /-- EMERG_OFF (R415). EMERG_OFF# held low for 10 µs or more acts as a loss of main input. -/
  | emergOff
  /-- MAIN_RAILS_OFF (R416). Once any MCB write and the Almanac flush have ended, the power manager switches the main-domain rails off in reverse order. -/
  | mainRailsOff
  /-- STANDBY_LOSS (R417). Loss of standby with main input present starts the ordered shutdown on the fallback converter. -/
  | standbyLoss
  /-- DUAL_INPUT_LOSS (R417). Both inputs are lost within 1 ms of each other; the always-on domain falls with no ordered shutdown. -/
  | dualInputLoss
  /-- MAIN_OFF_INTERVAL_EXPIRY (R419). The 100 ms minimum off interval of the main domain ends, so phase 4 may run again. -/
  | mainOffIntervalExpiry
  /-- GOVERNOR_PERIOD (R340). Every 1,000 ticks the power manager compares the governed power with the effective limit and moves the setpoint, the wave gate or the parking. -/
  | governorPeriod (rd : PowerReading)
  /-- CALIBRATION_WINDOW (R345). Every 10 ms the rail gains are recalibrated and CALIBRATION is entered or left. -/
  | calibrationWindow (rd : CalReading)
  /-- ENVELOPE_EFFECTIVE (R337). The DELAY of an announced envelope expires and its CEILING takes effect. -/
  | envelopeEffective
  /-- ENVELOPE_LEASE_EXPIRY (R338). No PWR_ENVELOPE arrives within LEASE ticks, so the ceiling becomes SAFE and WARN PWR_ENV_LEASE is written. -/
  | envelopeLeaseExpiry
  /-- DROOP_TRIP (R351). A quadrant droop detector trips; the wave gate stops new waves die-wide and any slew pauses. -/
  | droopTrip (q : Fin 4) (depth : Nat)
  /-- DROOP_RELEASE (R351). A droop detector releases when the voltage is back within 25 mV. -/
  | droopRelease (q : Fin 4)
  /-- DROOP_GATE_END (R351). The droop gate ends 2 wave-times after the release, or after 20 wave-times at most. -/
  | droopGateEnd (ns : Nat) (waves : Nat)
  /-- DROOP_CLEAR (R352). Every detector has stayed released for 100 ns; droop clears and a paused slew resumes. -/
  | droopClear (pauseNs : Nat)
  /-- SLEW_DONE (R333). A setpoint slew reaches its target; PWR_SLEW_PAUSED is written if it had paused. -/
  | slewDone (ns : Nat)
  /-- OVERCURRENT_DETECT (R350). Core current exceeds 1,900 A and the current ceiling is lowered, or it reaches 2,100 A and the regulator trips. -/
  | overcurrentDetect (peak : Nat)
  /-- DIE_TEMP_STEP (R348). A periodic thermal step lowers or raises the thermal ceilings, or parks or unparks a quarter by temperature. -/
  | dieTempStep (readings : List (Sensor × Int))
  /-- QUARTER_PARK_DONE (R341). The running items of a halted quarter have completed, so its logic is switched off at retention. -/
  | quarterParkDone (q : Fin 4)
  /-- QUARTER_UNPARK_DONE (R341). A quarter's supply is restored, HALT is cleared and its arrays ramp up. -/
  | quarterUnparkDone (q : Fin 4)
  /-- SOLSTICE_PHASE_START (R353). LEAD ticks after a granted hint, the announced phase starts. -/
  | solsticePhaseStart
  /-- SOLSTICE_PHASE_END (R353). The queue's engines complete DURATION × 2^20 waves and the reservation ends. -/
  | solsticePhaseEnd
  /-- CP_WATCHDOG_EXPIRY (R358). 100,000 ticks pass without a watchdog restart, so a warm restart of the CP begins. -/
  | cpWatchdogExpiry (pc : BitVec 48)
  /-- CP_MEM_UE (R359). An uncorrectable codeword in CP code or data memory starts a warm restart with a page reload or a structure rebuild. -/
  | cpMemUe (code : Bool) (page : Nat) (word : Nat)
  /-- CP_WARM_RESTART_DONE (R382). The warm restart completes, and each interrupted command is answered by whether it reached its commit point. -/
  | cpWarmRestartDone (ticks : Nat)
  /-- MOD_COUNT_WRAP (R55). Bits 47:0 of MOD_COUNT wrap, and INFO MOD_COUNT_EPOCH is written. -/
  | modCountWrap
  /-- MOD_COUNT_LOW_READ (R52). A read of the low half of MOD_COUNT latches the high half for the next read. -/
  | modCountLowRead
  /-- MOD_INFO (R384). Returns MOD_ID, MOD_SERIAL, MOD_FW and the flash header. -/
  | modInfo (r : Route)
  /-- MOD_POWER_ON (R372). Gives power-on so that phase 3 can end, refused when main input is absent or the module is hot. -/
  | modPowerOn (r : Route)
  /-- MOD_POWER_OFF (R384). Flushes the Almanac, then switches the main domain off. -/
  | modPowerOff (r : Route)
  /-- MOD_RESET (R373). Reruns the start-up phases for a CP cold load, the main domain, or both. -/
  | modReset (r : Route)
  /-- MOD_STATUS (R384). Returns MOD_STATUS, MOD_COUNT and the management-bus LAST_SEQ and state. -/
  | modStatus (r : Route)
  /-- CFG_MCB_READ (R370). Returns the Module Configuration Block. -/
  | cfgMcbRead (r : Route)
  /-- CFG_MCB_WRITE (R371). Writes a checked MCB to flash and verifies it by reading it back. -/
  | cfgMcbWrite (r : Route)
  /-- CFG_SCALE_READ (R118). Returns scale records as they stand for the present step. -/
  | cfgScaleRead (r : Route)
  /-- CFG_SCALE_WRITE (R118). Writes scale records, in effect at the next step boundary or at once while no job runs. -/
  | cfgScaleWrite (r : Route)
  /-- CFG_FDT_PORT (R322). Sets the Ethernet addresses, VLAN, DSCP, UDP port and congestion constants. -/
  | cfgFdtPort (r : Route)
  /-- CFG_FDT_OPEN (R325). Opens an FDT connection in a slot by sending OPEN. -/
  | cfgFdtOpen (r : Route)
  /-- CFG_FDT_CLOSE (R325). Closes an FDT connection. -/
  | cfgFdtClose (r : Route)
  /-- PWR_CAP (R336). Sets the power cap; a cap below 150 W is recorded and the module runs at the floor. -/
  | pwrCap (r : Route)
  /-- PWR_ENVELOPE (R337). Announces a feed envelope with its ceiling, delay, ramp, lease, safe ceiling and ballast. -/
  | pwrEnvelope (r : Route)
  /-- PWR_TARGET (R333). Sets TARGET, the setpoint used when no limit binds. -/
  | pwrTarget (r : Route)
  /-- PWR_SHARE (R346). Defines or deletes a power partition with its engine mask and share. -/
  | pwrShare (r : Route)
  /-- PWR_PARK (R341). Sets the quarters parked by command. -/
  | pwrPark (r : Route)
  /-- PWR_STATUS (R332). Returns every power register. -/
  | pwrStatus (r : Route)
  /-- MEM_QUOTA (R385). Sets the G7 quota of a job slot. -/
  | memQuota (r : Route)
  /-- MEM_ALLOC (R385). Grants a G7 range to a job slot within its quota. -/
  | memAlloc (r : Route)
  /-- MEM_FREE (R385). Returns a granted G7 range. -/
  | memFree (r : Route)
  /-- MEM_USAGE (R384). Returns the quota and use of each job slot. -/
  | memUsage (r : Route)
  /-- CHD_STATUS (R384). Returns the chord port registers. -/
  | chdStatus (r : Route)
  /-- JOB_START (R386). Starts a job in a slot: writes the key and slice and takes the counter snapshot. -/
  | jobStart (r : Route)
  /-- JOB_STOP (R384). Ends the job in a slot. -/
  | jobStop (r : Route)
  /-- JOB_ABORT (R90). Aborts a named work item of an engine queue. -/
  | jobAbort (r : Route)
  /-- JOB_STATUS (R384). Returns the slot, step committed, HOST_LOST and slice. -/
  | jobStatus (r : Route)
  /-- UPD_LAYOUT (R197). Writes the slow-tier layout directory and resets every group descriptor. -/
  | updLayout (r : Route)
  /-- UPD_GROUP_WRITE (R198). Writes a parameter group descriptor, in effect at the next step boundary. -/
  | updGroupWrite (r : Route)
  /-- UPD_GROUP_READ (R198). Returns a parameter group descriptor. -/
  | updGroupRead (r : Route)
  /-- UPD_SCHEDULE_WRITE (R201). Writes one schedule, in effect at the next step boundary. -/
  | updScheduleWrite (r : Route)
  /-- UPD_PROGRAM_LOAD (R203). Checks and stores an update program. -/
  | updProgramLoad (r : Route)
  /-- UPD_COMMIT (R205). Runs a commit with the fields of a COMMIT body, with the same effects. -/
  | updCommit (r : Route)
  /-- UPD_RESTORE (R215). The buddy rebuilds its −X neighbour's shard at a target step and sends it with the derived scale records. -/
  | updRestore (r : Route)
  /-- UPD_DIGEST_VERDICT (R219). Delivers AGREE, REPAIR or REVERT for a digest step and releases or skips the awaiting COMMIT. -/
  | updDigestVerdict (r : Route)
  /-- UPD_REPAIR (R219). Takes the shard state from a majority replica over Ethernet in export segments. -/
  | updRepair (r : Route)
  /-- UPD_EXPORT_START (R220). Starts or resumes a checkpoint export to an FDT endpoint. -/
  | updExportStart (r : Route)
  /-- UPD_EXPORT_ABORT (R221). Closes an export and releases the commit. -/
  | updExportAbort (r : Route)
  /-- ALM_READ (R403). Returns Almanac records from the ring or flash in ascending SEQ. -/
  | almRead (r : Route)
  /-- ALM_CONFIG (R400). Sets FLUSH_LEVEL, or clears the flash area under a new policy. -/
  | almConfig (r : Route)
  /-- ALM_FLUSH (R395). Starts a flush and completes when every earlier record is in flash. -/
  | almFlush (r : Route)
  /-- SEC_IDENTITY (R384). Returns part of the provisioning certificate and the factory MACs. -/
  | secIdentity (r : Route)
  /-- SEC_ATTEST (R369). Returns a signed attestation report for a nonce. -/
  | secAttest (r : Route)
  /-- SEC_FW_WRITE (R364). Writes a piece of an image into the slot that is not running. -/
  | secFwWrite (r : Route)
  /-- SEC_FW_ACTIVATE (R364). Checks the written image and points the flash header selector at it. -/
  | secFwActivate (r : Route)
  /-- SEC_LMS_STATUS (R384). Returns the next LMS index and the indices left. -/
  | secLmsStatus (r : Route)
  /-- DIAG_INJECT (R405). Arms an injection slot for a detector and target. -/
  | diagInject (r : Route)
  /-- DIAG_SELFTEST (R407). Runs the self-test of a spare, failed or command-parked tile. -/
  | diagSelftest (r : Route)
  /-- DIAG_CLEAR (R405). Disarms the injection slots in a mask. -/
  | diagClear (r : Route)
  /-- GRP_CONFIG (R305). Sets the group id, lists, vote counters and limits. -/
  | grpConfig (r : Route)
  /-- GRP_POLICY (R293). Sets the straggler policy and factor from the next step boundary. -/
  | grpPolicy (r : Route)
  /-- GRP_STATUS (R305). Returns role, epoch, position, CHD_POS, recovery phase and step. -/
  | grpStatus (r : Route)
  /-- GRP_STATS (R305). Returns the vote, skip, late and recovery counts. -/
  | grpStats (r : Route)
  /-- GRP_SUBSTITUTE (R277). The Apex writes CHD_POS on every module. -/
  | grpSubstitute (r : Route)
  /-- GRP_RECOVER (R305). The Apex directs a recovery phase with its step, target and case. -/
  | grpRecover (r : Route)
  /-- GRP_READY (R298). The substitute's runtime reports the configure phase complete. -/
  | grpReady (r : Route)
  /-- GRP_RETURN (R302). Moves a substituted position back to its replaced module. -/
  | grpReturn (r : Route)
  /-- HST_CORRELATE (R56). Writes a correlation record that pairs host time with the MOD_COUNT at receipt. -/
  | hstCorrelate (r : Route)
  /-- HST_FENCE (R179). Completes once every earlier PCIe write is visible in module memory. -/
  | hstFence (r : Route)
  /-- HST_BUF_REGISTER (R387). Records host buffer ranges; FINAL ends HOST_LOST at the next boundary. -/
  | hstBufRegister (r : Route)
  /-- HST_BUF_LIST (R384). Returns the recorded host buffer ranges. -/
  | hstBufList (r : Route)
  /-- SMB_BLOCK_WRITE (R378). A management-bus Block Write writes one piece into the management-bus mailbox. -/
  | smbBlockWrite (pecOk : Bool) (offset : Nat) (data : List Byte)
  /-- SMB_BLOCK_READ (R378). A management-bus process call returns up to 255 mailbox bytes. -/
  | smbBlockRead (pecOk : Bool) (offset : Nat)
  /-- WAVE (R37). One handshake step of the arrays: the cells take operands, multiply and hand partial sums to the column chains. -/
  | wave (e : Fin 64) (up : Option TileUpset)
  /-- RAMP_WAVE (R86). A ramp wave runs with partial columns enabled and advances the ramp step. -/
  | rampWave (e : Fin 64)
  /-- RAMP_DOWN_START (R86). After RAMP_IDLE ticks with no MATMUL running or ready, the arrays begin to ramp down. -/
  | rampDownStart (e : Fin 64)
  /-- FEEDER_WRITE (R59). Once every queue it writes has a free entry, the stream reader writes one row vector into the feeder queues. -/
  | feederWrite (e : Fin 64) (h : Half)
  /-- WEIGHT_LOAD_DONE (R65). A weight port finishes loading a K-block into the shadow registers. -/
  | weightLoadDone (e : Fin 64) (h : Half) (a : Fin 4)
  /-- OUTPUT_ROW_DRAIN (R76). The output stage drains a finished accumulator row, applies the affine step and mode, and writes it to scratchpad. -/
  | outputRowDrain (e : Fin 64) (h : Half) (up : Option TileUpset)
  /-- TILE_HANG (R91). ENG_WAVES does not advance for 1,000 ticks while the tile should run, so the handshake watchdog declares it hung. -/
  | tileHang (e : Fin 64) (spareStage : Nat)
  /-- ENG_SNAP (R42). A write latches ENG_WAVES, ENG_HALT_TICKS and MOD_COUNT into the snapshot set. -/
  | engSnap (w : Win)
  /-- ENG_ABORT (R90). A write aborts a named work item, arbitrated against its completion record. -/
  | engAbort (w : Win) (seq : Word32)
  /-- REGISTER_WRITE (R13). A write to a register with no row of its own sets or clears its fields by their access codes. -/
  | registerWrite (hdr : Word64) (off : Nat) (size : Nat) (v : Word64)
  /-- QDOORBELL (R174). A doorbell write allows the queue to fetch and check descriptors up to D − 1. -/
  | qdoorbell (q : Fin 76) (d : Word32)
  /-- DESCRIPTOR_REPOLL (R175). A stale slot is polled again after its wait; after attempt 64 the queue enters STALE. -/
  | descriptorRepoll (q : Fin 76)
  /-- QUEUE_ENABLE (R154). Setting QCTRL.ENABLE starts the queue at SEQ_START, or is refused for a bad ring address. -/
  | queueEnable (q : Fin 76) (v : Word64)
  /-- QUEUE_DISABLE (R154). Clearing QCTRL.ENABLE disables the queue once no descriptor is running. -/
  | queueDisable (q : Fin 76) (v : Word64)
  /-- QUEUE_RESUME (R168). Writing QCTRL.RESUME takes the queue out of STOPPED. -/
  | queueResume (q : Fin 76) (v : Word64)
  /-- DESCRIPTOR_SKIP (R159). A descriptor whose COND does not hold completes SKIPPED when it becomes oldest-eligible. -/
  | descriptorSkip (q : Fin 76)
  /-- NOP (R155). A NOP descriptor is taken and completes. -/
  | nop (q : Fin 76)
  /-- MATMUL (R162). A MATMUL is taken once its conditions hold, and its operand block is checked before its first wave. -/
  | matmul (e : Fin 64)
  /-- VECTOR (R165). A VECTOR checks its kernel image and runs a JVI kernel on a vector unit or on companion cores. -/
  | vector (q : Fin 76)
  /-- VECTOR_STEP_LIMIT (R165). A kernel runs STEP_LIMIT vector steps without ending and completes with ST_TIMEOUT. -/
  | vectorStepLimit (c : Ctx)
  /-- DMA (R166). A DMA copies or zeroes LEN bytes between module address spaces. -/
  | dma (d : Fin 8)
  /-- OFFLOAD (R167). An OFFLOAD copies a saved set from G7 to host memory. -/
  | offload (d : Fin 8)
  /-- PREFETCH (R167). A PREFETCH copies a saved set from host memory to G7. -/
  | prefetch (d : Fin 8)
  /-- WAIT (R168). A WAIT takes effect when its tickets are met, subtracting with DEC. -/
  | wait (q : Fin 76)
  /-- WAIT_TIMEOUT (R168). A WAIT not met within TIMEOUT completes ST_TIMEOUT and stops the queue. -/
  | waitTimeout (q : Fin 76)
  /-- POST (R169). A POST performs its local or remote counter targets in order. -/
  | post (q : Fin 76)
  /-- FENCE (R170). A FENCE completes once earlier descriptors and their scoped host or remote writes are acknowledged. -/
  | fence (q : Fin 76)
  /-- SOLSTICE (R171). A SOLSTICE hint asks the power manager for a reservation and completes DONE or DENIED. -/
  | solstice (e : Fin 64)
  /-- SPLIT (R172). A SPLIT enters or leaves split mode once the engine's running items complete. -/
  | split (e : Fin 64)
  /-- COMMIT (R205). A COMMIT runs the update programs and the shard commit sequence, or recovers an interrupted commit. -/
  | commit (c : Fin 4)
  /-- DESCRIPTOR_COMPLETE (R157). A finished descriptor makes its completion post, writes its completion record and sends MSI-X. -/
  | descriptorComplete (q : Fin 76) (seq : Word32)
  /-- SC_ADD (R180). An ADD to a sync counter at its home router, saturating with OVF. -/
  | scAdd (n : Fin 16384) (v : Word32) (src : ScSource)
  /-- SC_SET (R180). A SET of a sync counter, which also clears its flags. -/
  | scSet (n : Fin 16384) (v : Word32) (src : ScSource)
  /-- SC_SUB (R180). A SUB from a sync counter, saturating with UNF. -/
  | scSub (n : Fin 16384) (v : Word32) (src : ScSource)
  /-- SC_CLEAR_FLAGS (R180). Clears a sync counter's OVF and UNF flags. -/
  | scClearFlags (n : Fin 16384) (src : ScSource)
  /-- SC_OP_UNDEFINED (R194). A 64-bit counter write with an undefined OP is ignored and counted as a host violation. -/
  | scOpUndefined (hdr : Word64) (n : Fin 16384) (v : Word64)
  /-- HST_WATCH_ARM (R317). Arming HST_WATCH compares the counter with the threshold at once. -/
  | hstWatchArm (k : Fin 1024) (v : Word64)
  /-- SCALE_DERIVE (R121). After a commit record the CP derives every counted scale record for the next step. -/
  | scaleDerive
  /-- END (R190). Ends the kernel. -/
  | jEnd (c : Ctx)
  /-- JMP (R190). Unconditional relative branch. -/
  | jJmp (c : Ctx)
  /-- BZ (R190). Branches when a scalar is zero. -/
  | jBz (c : Ctx)
  /-- BNZ (R190). Branches when a scalar is nonzero. -/
  | jBnz (c : Ctx)
  /-- LOOP (R190). Decrements a scalar and branches while it is nonzero. -/
  | jLoop (c : Ctx)
  /-- JVI_NOP (R190). The JVI instruction that does nothing. -/
  | jNop (c : Ctx)
  /-- SADD (R190). Scalar add with immediate. -/
  | jSadd (c : Ctx)
  /-- SSUB (R190). Scalar subtract. -/
  | jSsub (c : Ctx)
  /-- SMUL (R190). Scalar multiply, low 64 bits. -/
  | jSmul (c : Ctx)
  /-- SAND (R190). Scalar and. -/
  | jSand (c : Ctx)
  /-- SOR (R190). Scalar or. -/
  | jSor (c : Ctx)
  /-- SXOR (R190). Scalar xor. -/
  | jSxor (c : Ctx)
  /-- SSHL (R190). Scalar shift left. -/
  | jSshl (c : Ctx)
  /-- SSHR (R190). Scalar logical shift right. -/
  | jSshr (c : Ctx)
  /-- SSRA (R190). Scalar arithmetic shift right. -/
  | jSsra (c : Ctx)
  /-- SLUI (R190). Loads an immediate into the upper 32 bits of a scalar. -/
  | jSlui (c : Ctx)
  /-- SCMPLT (R190). Scalar unsigned less-than compare. -/
  | jScmplt (c : Ctx)
  /-- SCMPEQ (R190). Scalar equality compare. -/
  | jScmpeq (c : Ctx)
  /-- SCMPLTS (R190). Scalar signed less-than compare. -/
  | jScmplts (c : Ctx)
  /-- SRD (R190). Reads a read-only register into a scalar. -/
  | jSrd (c : Ctx)
  /-- VADD (R190). Vector FP32 add. -/
  | jVadd (c : Ctx)
  /-- VSUB (R190). Vector FP32 subtract. -/
  | jVsub (c : Ctx)
  /-- VMUL (R190). Vector FP32 multiply. -/
  | jVmul (c : Ctx)
  /-- VFMA (R190). Vector fused multiply-add with one rounding. -/
  | jVfma (c : Ctx)
  /-- VMIN (R190). Vector minimum. -/
  | jVmin (c : Ctx)
  /-- VMAX (R190). Vector maximum. -/
  | jVmax (c : Ctx)
  /-- VABS (R190). Vector absolute value. -/
  | jVabs (c : Ctx)
  /-- VNEG (R190). Vector negation. -/
  | jVneg (c : Ctx)
  /-- VCMPLT (R190). Vector less-than compare into a predicate. -/
  | jVcmplt (c : Ctx)
  /-- VCMPLE (R190). Vector less-or-equal compare into a predicate. -/
  | jVcmple (c : Ctx)
  /-- VCMPEQ (R190). Vector equality compare into a predicate. -/
  | jVcmpeq (c : Ctx)
  /-- VSEL (R190). Vector select by predicate. -/
  | jVsel (c : Ctx)
  /-- VBCAST (R190). Broadcasts a scalar to every lane. -/
  | jVbcast (c : Ctx)
  /-- VIMM (R190). Sets every lane to an immediate. -/
  | jVimm (c : Ctx)
  /-- VRSUBI (R190). Subtracts a vector from an FP32 immediate. -/
  | jVrsubi (c : Ctx)
  /-- VMULI (R190). Multiplies a vector by an FP32 immediate. -/
  | jVmuli (c : Ctx)
  /-- VEXP2 (R84). Vector exp2 through the fixed-point rounding unit. -/
  | jVexp2 (c : Ctx)
  /-- VSQRT (R190). Correctly rounded vector square root. -/
  | jVsqrt (c : Ctx)
  /-- VRECIP (R190). Correctly rounded vector reciprocal. -/
  | jVrecip (c : Ctx)
  /-- VRSQRT (R190). Correctly rounded vector reciprocal square root. -/
  | jVrsqrt (c : Ctx)
  /-- VLOG2 (R190). Correctly rounded vector log2. -/
  | jVlog2 (c : Ctx)
  /-- VDERIV (R423). Evaluates an activation derivative from the output or the derivative code. -/
  | jVderiv (c : Ctx)
  /-- VDCODE (R423). Writes the derivative code of f′(x). -/
  | jVdcode (c : Ctx)
  /-- VIADD (R190). Vector 32-bit integer add. -/
  | jViadd (c : Ctx)
  /-- VISUB (R190). Vector 32-bit integer subtract. -/
  | jVisub (c : Ctx)
  /-- VIMUL (R190). Vector 32-bit integer multiply, low bits. -/
  | jVimul (c : Ctx)
  /-- VIAND (R190). Vector bitwise and. -/
  | jViand (c : Ctx)
  /-- VIOR (R190). Vector bitwise or. -/
  | jVior (c : Ctx)
  /-- VIXOR (R190). Vector bitwise xor. -/
  | jVixor (c : Ctx)
  /-- VISHL (R190). Vector shift left. -/
  | jVishl (c : Ctx)
  /-- VISHR (R190). Vector logical shift right. -/
  | jVishr (c : Ctx)
  /-- VISRA (R190). Vector arithmetic shift right. -/
  | jVisra (c : Ctx)
  /-- VCVTF (R190). Converts signed integers to FP32. -/
  | jVcvtf (c : Ctx)
  /-- VCVTI (R190). Converts FP32 to saturating signed integers. -/
  | jVcvti (c : Ctx)
  /-- VLANE (R190). Writes each lane's index. -/
  | jVlane (c : Ctx)
  /-- VICMPLT (R190). Vector signed integer less-than compare. -/
  | jVicmplt (c : Ctx)
  /-- VICMPEQ (R190). Vector integer equality compare. -/
  | jVicmpeq (c : Ctx)
  /-- VQUANT (R107). Quantises each 32-lane block with quantise_block. -/
  | jVquant (c : Ctx)
  /-- VEFQ (R112). Quantises each block with error feedback and writes the residuals. -/
  | jVefq (c : Ctx)
  /-- VDQ (R190). Dequantises element codes with their scales, or widens B16. -/
  | jVdq (c : Ctx)
  /-- VRB16 (R101). Rounds FP32 to B16 held as FP32. -/
  | jVrb16 (c : Ctx)
  /-- VPACK (R190). Packs F4 codes two to a byte, or gathers scale bytes. -/
  | jVpack (c : Ctx)
  /-- VUNPACK (R190). Unpacks packed F4 codes. -/
  | jVunpack (c : Ctx)
  /-- VSPILL (R77). Applies the W64 spill to a pair of vector registers. -/
  | jVspill (c : Ctx)
  /-- VSUMR (R191). Cross-lane sum by the fixed pairwise tree. -/
  | jVsumr (c : Ctx)
  /-- VMAXR (R190). Cross-lane maximum. -/
  | jVmaxr (c : Ctx)
  /-- VBRD (R190). Broadcasts one lane to every lane. -/
  | jVbrd (c : Ctx)
  /-- VPERM (R190). Permutes lanes by an index vector. -/
  | jVperm (c : Ctx)
  /-- VEXT (R190). Extracts one lane into a scalar. -/
  | jVext (c : Ctx)
  /-- VLD (R190). Contiguous vector load. -/
  | jVld (c : Ctx)
  /-- VST (R190). Contiguous vector store. -/
  | jVst (c : Ctx)
  /-- VLDS (R190). Strided vector load. -/
  | jVlds (c : Ctx)
  /-- VSTS (R190). Strided vector store. -/
  | jVsts (c : Ctx)
  /-- VGATH (R190). Gather load. -/
  | jVgath (c : Ctx)
  /-- VSCAT (R191). Scatter store; on a shared address the highest lane wins. -/
  | jVscat (c : Ctx)
  /-- VLD16 (R190). 16-bit vector load. -/
  | jVld16 (c : Ctx)
  /-- VST16 (R190). 16-bit vector store. -/
  | jVst16 (c : Ctx)
  /-- VLD8 (R190). 8-bit vector load. -/
  | jVld8 (c : Ctx)
  /-- VST8 (R190). 8-bit vector store. -/
  | jVst8 (c : Ctx)
  /-- SLD (R190). Scalar 8-byte load. -/
  | jSld (c : Ctx)
  /-- SST (R190). Scalar 8-byte store. -/
  | jSst (c : Ctx)
  /-- TRD (R161). Starts a copy from the slow tier to companion local memory. -/
  | jTrd (c : Ctx)
  /-- TWR (R161). Starts a copy from companion local memory to the slow tier. -/
  | jTwr (c : Ctx)
  /-- TFDT (R190). Starts an FDT WRITE message from local memory on a connection. -/
  | jTfdt (c : Ctx)
  /-- TWAIT (R190). Waits until every started stream copy of the core has completed. -/
  | jTwait (c : Ctx)
  /-- STREAM_COPY_DONE (R190). A TRD, TWR or TFDT copy completes and may release a waiting TWAIT. -/
  | streamCopyDone (c : Fin 32)
  /-- SCADD (R181). Adds to a local sync counter. -/
  | jScadd (c : Ctx)
  /-- SCWAIT (R190). Waits until a sync counter reaches a value. -/
  | jScwait (c : Ctx)
  /-- VHASH (R110). Computes the stochastic-rounding hash per lane. -/
  | jVhash (c : Ctx)
  /-- PATROL_SCRUB (R225). The scrubber reads a granule and rewrites corrected codewords. -/
  | patrolScrub (slow : Bool) (finds : List (Fin 16 × CwFind))
  /-- G7_TEMP_READ (R241). The per-millisecond temperature readout sets the throttle level of a G7 channel. -/
  | g7TempRead (ch : Fin 80) (temp : Int) (linkErrs : Nat)
  /-- G7_RETRAIN_DONE (R231). A retrain ends: the park queue drains, or a failed attempt is retried. -/
  | g7RetrainDone (ch : Fin 80) (ok : Bool)
  /-- THERMAL_RETURN_START (R242). After 1 s below 90 °C, the retired channel is migrated back. -/
  | thermalReturnStart
  /-- MIGRATION_COPY (R236). The migration engine copies the next slot to or from the reserve. -/
  | migrationCopy
  /-- MEM_RELEASE (R237). Writing MEM_CTRL.RELEASE clears HOLD and replays the step. -/
  | memRelease (v : Word64)
  /-- MEM_HOLD_TIMEOUT (R238). RELEASE is not written within HOLD_LIMIT, and the module faults. -/
  | memHoldTimeout
  /-- LP_TEMP_READ (R243). The LP5X package readout throttles or faults the package. -/
  | lpTempRead (l : Fin 16) (temp : Int)
  /-- LP5X_RETRAIN_DONE (R243). An LP5X retrain ends; the third consecutive failure faults the module. -/
  | lp5xRetrainDone (l : Fin 64) (ok : Bool)
  /-- D2D_UNIT_RECEIVE (R29). A die-to-die transfer unit is CRC-checked and delivered, or retried. -/
  | d2dUnitReceive (m : Fin 8) (toComp : Bool) (badLanes : List (Fin 68)) (cls : D2dClass) (data : List Byte)
  /-- D2D_RETRAIN_DONE (R30). A link module finishes retraining onto a redundant lane, or at half width. -/
  | d2dRetrainDone (m : Fin 8) (toComp : Bool)
  /-- FLIT_DATA (R254). A DATA flit is corrected, CRC-checked and accepted in SEQ order, or answered by NAK. -/
  | flitData (p : Fin 8) (bytes : List Byte)
  /-- FLIT_IDLE (R255). An IDLE flit returns ACK and credits. -/
  | flitIdle (p : Fin 8) (bytes : List Byte)
  /-- FLIT_NAK (R254). A NAK makes the sender resend from ACK + 1. -/
  | flitNak (p : Fin 8) (bytes : List Byte)
  /-- FLIT_MARKER (R258). A MARKER aligns the lanes and applies a new lane map. -/
  | flitMarker (p : Fin 8) (bytes : List Byte)
  /-- FLIT_TRAIN (R248). A TRAIN flit is checked against the cabling, or taken as a violation. -/
  | flitTrain (p : Fin 8) (peer : PeerId)
  /-- FLIT_SEND (R256). The arbiter gives a free flit slot with credit to a VC and sends a flit. -/
  | flitSend (p : Fin 8)
  /-- LANE_LOSS_OF_LOCK (R258). A chord lane loses lock and is spared, or the port halves or fails. -/
  | laneLossOfLock (p : Fin 8) (lanes : List (Fin 9))
  /-- CHD_PORT_RETRAIN (R260). Writing CHD_PORT_CTRL.RETRAIN starts a port retrain. -/
  | chdPortRetrain (p : Fin 8) (v : Word64)
  /-- CHORD_RETRAIN_DONE (R260). A port retrain ends and the port resumes from ACK + 1. -/
  | chordRetrainDone (p : Fin 8) (ok : Bool)
  /-- REDUCE_HOP (R271). The reduce unit adds an incoming partial to its own block and re-quantises it for the next hop. -/
  | reduceHop (st : Fin 1024) (hop : Nat) (blk : Nat) (elems : List Byte) (scale : Byte) (late : Bool)
  /-- REDUCE_DEADLINE_EXPIRY (R274). The straggler deadline expires, and blocks without their own contribution are passed over as LATE. -/
  | reduceDeadlineExpiry
  /-- WSTREAM_LAND (R267). Once its slots are released, a landing entry lands in the named engines and posts their landing counters. -/
  | wstreamLand (w : Fin 256) (i : Nat)
  /-- POST_MSG (R169). A remote POST control message is applied at the counter's home router. -/
  | postMsg (m : CtlMsg)
  /-- POST_APPLIED (R169). The acknowledgement of an applied remote POST completes the POST. -/
  | postApplied (m : CtlMsg)
  /-- WRITE_ACK (R263). A cumulative remote write acknowledgement advances the remote FENCE counts. -/
  | writeAck (m : CtlMsg)
  /-- GRAD_ACK (R213). The buddy acknowledges kept gradients, so the waiting commit proceeds. -/
  | gradAck (m : CtlMsg)
  /-- MIRROR_ACK (R214). The buddy acknowledges a full mirror, and the owner sets MIRROR_ACKED. -/
  | mirrorAck (m : CtlMsg)
  /-- HEARTBEAT_PERIOD (R279). Every 100,000 ticks the heartbeats are sent and missed periods are counted. -/
  | heartbeatPeriod
  /-- HEARTBEAT (R279). A received HEARTBEAT group message is recorded. -/
  | heartbeat (m : CtlMsg)
  /-- APEX_CLAIM_TIMER (R280). A succession entry's wait ends and it sends APEX_CLAIM. -/
  | apexClaimTimer
  /-- APEX_CLAIM (R280). A received claim of a higher epoch makes its sender the Apex. -/
  | apexClaim (m : CtlMsg)
  /-- APEX_STATE (R281). The next succession entry stores the Apex's state. -/
  | apexState (m : CtlMsg)
  /-- VOTE (R287). A Vertex or Apex combines a received VOTE. -/
  | vote (m : CtlMsg)
  /-- VOTE_GRACE_EXPIRY (R286). VOTE_GRACE after the deadline passes, and the module votes as a straggler. -/
  | voteGraceExpiry
  /-- VOTE_LIMIT_EXPIRY (R288). A position's VOTE is missing at VOTE_LIMIT, and the Apex declares it failed. -/
  | voteLimitExpiry
  /-- XVOTE_LIMIT_EXPIRY (R289). The lead Apex hears nothing from a group for XVOTE_LIMIT, so the group is lost. -/
  | xvoteLimitExpiry (g : Fin 28)
  /-- RECOVERING_PERIOD (R289). A group in recovery sends RECOVERING every 1,000,000 ticks. -/
  | recoveringPeriod
  /-- VOTE_RESULT (R290). A module receives the verdict, writes the deadline, posts RESULT_SC and settles the step. -/
  | voteResult (m : CtlMsg)
  /-- DIGEST (R292). A received shard digest is compared across groups to issue verdicts. -/
  | digest (m : CtlMsg)
  /-- FAIL_SELF (R279). A module's FAIL_SELF makes the Apex declare it failed. -/
  | failSelf (m : CtlMsg)
  /-- RECOVERY (R298). A RECOVERY message moves a module into the announced recovery phase. -/
  | recovery (m : CtlMsg)
  /-- RECOVERY_PHASE_END (R298). A recovery phase ends and the Apex starts the next one. -/
  | recoveryPhaseEnd
  /-- WEIGHT_REQUEST (R296). An owner regenerates its copy for a replaying straggler and sends it to that module alone. -/
  | weightRequest (m : CtlMsg)
  /-- MB_CMD_FIRST (R379). The first piece of an MB[15] command arrives over chords. -/
  | mbCmdFirst (m : CtlMsg)
  /-- MB_CMD_NEXT (R379). A further piece of an MB[15] command arrives; the mailbox is posted when complete. -/
  | mbCmdNext (m : CtlMsg)
  /-- MB_CMD_DONE (R379). The Apex receives the status and response of an MB[15] command. -/
  | mbCmdDone (m : CtlMsg)
  /-- BAR_MEMORY_WRITE (R309). A PCIe write through BAR2 or BAR4 to G7, the slow tier or scratchpad. -/
  | barMemoryWrite (hdr : Word64) (b : Bar) (off : Nat) (data : List Byte) (ep : Bool)
  /-- BAR_MEMORY_READ (R309). A PCIe read through BAR2 or BAR4, with poisoned completion on an uncorrectable codeword. -/
  | barMemoryRead (hdr : Word64) (b : Bar) (off : Nat) (len : Nat)
  /-- HST_FLUSH_READ (R312). A read of HST_FLUSH completes once earlier posted writes are visible and returns MOD_COUNT. -/
  | hstFlushRead
  /-- PCIE_LINK_DOWN (R318). The PCIe link goes down and host-bound requests stop. -/
  | pcieLinkDown
  /-- PCIE_LINK_UP (R318). The link is back in L0 with BME, so the logged writes are rewritten and reads reissued. -/
  | pcieLinkUp (gen : Nat) (width : Nat)
  /-- LINK_DOWN_LIMIT_EXPIRY (R319). A link down lasting past DOWN_LIMIT is treated as a host reset. -/
  | linkDownLimitExpiry
  /-- HOST_RESET (R320). PERST# or a hot reset drops the write log, disables host rings and enters HOST_LOST. -/
  | hostReset
  /-- FUNCTION_LEVEL_RESET (R315). A function-level reset resets only configuration space and MSI-X. -/
  | functionLevelReset
  /-- D3HOT_ENTRY (R315). Entry to D3hot stops host-bound traffic and leaves the rest running. -/
  | d3hotEntry
  /-- FLUSH_READ_ISSUE (R314). At FLUSH_PERIOD, at half log or for a host FENCE, the module issues a flush read. -/
  | flushReadIssue
  /-- FLUSH_READ_COMPLETE (R314). A flush read's completion acknowledges the earlier host writes and frees the log. -/
  | flushReadComplete
  /-- ETH_FRAME_RECEIVE (R322). A non-FDT frame is answered if it is ARP, ND or echo, and otherwise dropped and counted. -/
  | ethFrameReceive (i : Fin 2) (kind : EthKind) (rx : EthRx)
  /-- ETH_PORT_DOWN (R325). An Ethernet port goes down and its connections move to the other port. -/
  | ethPortDown (i : Fin 2)
  /-- FDT_DATA (R326). A DATA packet is placed, acknowledged or NAKed, and completes its message. -/
  | fdtData (pkt : FdtPacket)
  /-- FDT_ACK (R326). An ACK releases packets, completes messages or triggers retransmission. -/
  | fdtAck (pkt : FdtPacket)
  /-- FDT_NAK (R326). A NAK makes the sender retransmit unacknowledged packets. -/
  | fdtNak (pkt : FdtPacket)
  /-- FDT_OPEN (R325). A peer's OPEN is answered with OPEN_ACK. -/
  | fdtOpen (pkt : FdtPacket)
  /-- FDT_OPEN_ACK (R325). OPEN_ACK completes the opening of a connection. -/
  | fdtOpenAck (pkt : FdtPacket)
  /-- FDT_CLOSE (R325). A CLOSE closes a connection. -/
  | fdtClose (pkt : FdtPacket)
  /-- FDT_CNP (R328). A CNP cuts the connection's rate. -/
  | fdtCnp (pkt : FdtPacket)
  /-- FDT_PROBE (R326). A PROBE on a silent connection is answered. -/
  | fdtProbe (pkt : FdtPacket)
  /-- FDT_RETX_TIMEOUT (R326). The retransmission timer expires; after RETRY_LIMIT expiries the connection is LOST. -/
  | fdtRetxTimeout (c : Fin 64)
  /-- FDT_ACK_TIMER (R326). The receiver sends an ACK after 1,000 ticks with data unacknowledged. -/
  | fdtAckTimer (c : Fin 64)
  /-- FDT_PROBE_TIMER (R326). After 1,000,000 ticks of silence a PROBE is sent. -/
  | fdtProbeTimer (c : Fin 64)
  /-- FDT_RATE_PERIOD (R328). Each period T without CNP decays α and raises the rate. -/
  | fdtRatePeriod (c : Fin 64)
  /-- ALM_CTRL_FLUSH (R395). Writing ALM_CTRL.FLUSH starts a flush. -/
  | almCtrlFlush (v : Word64)
  /-- ALMANAC_FLUSH_END (R396). A flush ends when no unflushed record remains. -/
  | almanacFlushEnd
  /-- ALMANAC_SECTOR_ERASE (R397). A background erase of a flash sector completes, keeping two erased sectors ahead. -/
  | almanacSectorErase
  /-- MBX_DOORBELL (R377). A write to MBX_DOORBELL[n] posts MB[n], which is checked for CRC, SEQ, opcode and state, or is taken as a host violation. -/
  | mbxDoorbell (hdr : Word64) (n : Fin 16)
  /-- SMB_SEND_BYTE (R378). A management-bus Send Byte with command code 0x21 posts the management-bus mailbox and stamps its receipt. -/
  | smbSendByte (pecOk : Bool)
  /-- SMB_BAD_COMMAND_CODE (R408). A management-bus transaction with a command code other than 0x20, 0x21 or 0x22 is NACKed, counted in SMB_VIOL and recorded. -/
  | smbBadCommandCode (code : Byte) (addr : Byte)
  /-- ETH_PORT_UP (R325). An Ethernet port comes back up and its connections may use it again. -/
  | ethPortUp (i : Fin 2)
  /-- SELFTEST_DONE (R407). A tile self-test ends, sets TILE_HEALTH and writes NOTE SELFTEST_RESULT. -/
  | selftestDone (stage : Nat)
  /-- MCB_WRITE_DONE (R371). A CFG_MCB_WRITE finishes its flash write and read-back, and a deferred Almanac flush may then begin. -/
  | mcbWriteDone (ok : Bool)
  /-- CP_DEBUG_HALT (R412). The CP debug port halts the CP, which suspends the watchdog and the heartbeats. -/
  | cpDebugHalt
  /-- CP_DEBUG_RELEASE (R412). The CP debug port releases a halted CP, and the watchdog and heartbeats resume. -/
  | cpDebugRelease
  /-- TAP_INSTRUCTION (R412). An IEEE 1149.1 instruction loaded through the TAP takes effect, with EXTEST, INTEST and CLAMP acting as BYPASS while MAIN_ON is 1. -/
  | tapInstruction (ir : TapIr)
  /-- CONFIG_REQUEST (R315). A PCIe configuration request sets Bus Master Enable, MSI-X enable or the power state, or is answered Unsupported Request for a function other than 0. -/
  | configRequest (hdr : Word64) (fn : Nat) (op : CfgOp)
  /-- MALFORMED_TLP (R329). A malformed TLP is dropped, reported through AER, counted and recorded. -/
  | malformedTlp (hdr : Word64)
  /-- UNSUPPORTED_REQUEST (R329). An I/O request or an AtomicOp is answered with Unsupported Request, counted and recorded. -/
  | unsupportedRequest (hdr : Word64) (k : UrKind)
  /-- UNEXPECTED_COMPLETION (R329). A completion with no matching tag or a wrong length is dropped, reported as AER Unexpected Completion, counted and recorded. -/
  | unexpectedCompletion (hdr : Word64)
  /-- UNASSIGNED_OPCODE (R189). A JVI instruction word whose opcode is of a reserved class or is unassigned makes the VECTOR complete with ST_BAD_OPCODE. -/
  | unassignedOpcode (c : Ctx)
  /-- BAR0_BAD_SIZE_READ (R310). A BAR0 read of a size or alignment other than 4 or 8 bytes naturally aligned returns zeros and is counted and recorded as a host violation. -/
  | bar0BadSizeRead (hdr : Word64) (off : Nat) (size : Nat)
deriving DecidableEq, Repr

end Sys2Proof
end

