-- ==== Sys2Proof/Decode.lean ====
section
/-! DEFINITION. Decoding of command words. No row of spec/opcode_table.json gives bits: a command comes from outside as an
access, a message or an event, not as a word (notes/assumptions/1.md). Descriptors, operand blocks and JVI words, which the
spec does encode, are read by Machine/Operands.lean. -/

namespace Sys2Proof

/-- The command that a word spells by the table's bits: no row gives bits, so no word spells one. -/
def decodeTableWord (_nbits _w : Nat) : Option Instr := none

end Sys2Proof
end

