-- ==== Sys2Proof/Config.lean ====
section
/-! DEFINITION. The free values and the constants that an implementation fixes. None has a body: a claim holds whatever
they are (notes/assumptions/6.md, 7.md). -/

namespace Sys2Proof.Config

/-- The n-th free value drawn by the machine (State.free counts the draws). -/
opaque freeWord : Nat → BitVec 64

/-- The 256-bit seed and the count of corrected bits that the CP reconstructs from the start-up pattern of the SRAM key
array and the helper data (R367), or none. The spec does not give the reconstruction. -/
opaque reconstructSeed : List (BitVec 8) → List (BitVec 8) → Option (List (BitVec 8) × Nat)

/-- SHA-384 as R362, R366 and R369 use it; the spec names the hash and does not define it. -/
opaque sha384 : List (BitVec 8) → List (BitVec 8)

/-- Whether an ECDSA P-384 signature verifies: key, signed digest, signature (R362). -/
opaque ecdsaVerify : List (BitVec 8) → List (BitVec 8) → List (BitVec 8) → Bool

/-- Whether an LMS signature verifies: key, signed digest, signature (R362, RFC 8554). -/
opaque lmsVerify : List (BitVec 8) → List (BitVec 8) → List (BitVec 8) → Bool

/-- The device's ECDSA P-384 signature of a digest from its seed (R367, R369), 96 bytes. -/
opaque ecdsaSign : List (BitVec 8) → List (BitVec 8) → List (BitVec 8)

/-- The device's HSS signature of a digest from its seed at a state index (R368, R369), 3,124 bytes. -/
opaque hssSign : List (BitVec 8) → Nat → List (BitVec 8) → List (BitVec 8)

/-- MOD_SERIAL as the provisioning certificate binds it (R366, Table 13-6); the spec does not give its place in the DER. -/
opaque certSerial : List (BitVec 8) → BitVec 64

/-- The key digests held in ROM: of the ECDSA image-signing key and of the LMS image-signing key (R362). -/
opaque romKeyDigestEcdsa : List (BitVec 8)
/-- See `romKeyDigestEcdsa`. -/
opaque romKeyDigestLms : List (BitVec 8)

/-- Gwerrava's 11-bit manufacturer code in the IDCODE register (R412). -/
opaque manufacturerCode : BitVec 11

/-- The hash of two connection ids that picks the UDP source port (R323); the spec names no hash. -/
opaque fdtPortHash : BitVec 32 → BitVec 32 → Nat

/-- The vendor ID that PCI-SIG assigned to Gwerrava Systems (Table 11-1). -/
opaque vendorId : BitVec 16

/-- The dwords of configuration space whose contents PCIe 6.0 leaves to the function and the spec does not give (R307). -/
opaque configDword : Nat → BitVec 32

/-- The dwords at which the function places its PCI Express, MSI-X and AER capabilities; PCIe 6.0 leaves the places to it. -/
opaque pcieCap : Nat
/-- See `pcieCap`. -/
opaque msixCap : Nat
/-- See `pcieCap`. -/
opaque aerCap : Nat

/-- The record of a block that the buddy's mirror holds with the tag STEP_COMMITTED (R209): step, block; none where its tag is
another. The spec names no message that fetches it. -/
opaque mirrorRecord : Nat → Nat → Option (List (BitVec 8))

/-- CBL_PRESENT# of a chord port's cage (R413): whether a cable is fitted at start-up. -/
opaque cablePresent : Nat → Bool

end Sys2Proof.Config
end

