-- ==== Sys2Proof/Machine/State.lean ====
section
/-! DEFINITION. The state of the module as plain data, the faults and refusals of the machine, and the state after reset.
A register array is a sparse list of (index, value) whose unlisted entries hold the array's reset value; a memory is a list
of cells whose unlisted bytes read as 0 (notes/assumptions/2.md). Each field's docstring cites the rule that names it. -/

namespace Sys2Proof.Machine

open Host (Cell)

/-- A sparse array: strictly rising indices, no entry equal to the array's default. -/
abbrev Sparse (α : Type) := List (Nat × α)

/-! ### Almanac -/

/-- Table 14-1. -/
inductive Severity where
  | info
  | note
  | warn
  | fault
deriving DecidableEq, Repr

/-- One Almanac record (Table 14-1); `frozen` and `flushed` are the marks of R396. -/
structure AlmRec where
  code : Word16
  injected : Bool
  sev : Severity
  kind : Byte
  index : Word16
  stamp : BitVec 48
  rep : Nat
  seq : Word32
  payload : List Byte
  frozen : Bool
  flushed : Bool
deriving DecidableEq, Repr

/-- One injection slot (Table 14-10, R405). `count` counts the opportunities seen since it was armed. -/
structure InjSlot where
  armed : Bool
  everyN : Bool
  detector : Word16
  kind : Byte
  index : Word16
  sub : Byte
  n : Word32
  limit : Word32
  fired : Word32
  count : Nat
  tile : Nat
deriving DecidableEq, Repr

/-- The last record of a violation row and what R393 keeps for it: the row's key, the tick and SEQ of its last record, and
the repeats kept after that record was frozen. -/
structure ViolRow where
  key : Nat
  tick : Nat
  seq : Word32
  kept : Nat
deriving DecidableEq, Repr

/-- The Almanac and the injection slots (chapter 14). -/
structure Alm where
  /-- R394: the volatile ring, oldest first, at most 2,048. -/
  ring : List AlmRec
  /-- R391: SEQ of the next record appended. -/
  nextSeq : Word32
  /-- R395: a flush is running. -/
  flushing : Bool
  /-- R395: a flush fell due during an MCB write and waits for it. -/
  flushDue : Bool
  /-- Table 14-10 ALM_CTRL.FLUSH_LEVEL. -/
  flushLevel : Nat
  /-- R398, R399: policy of the flash area, true BY_SEVERITY. -/
  bySeverity : Bool
  /-- R398: N in units of 1,024 records. -/
  keepUnits : Nat
  /-- R400. -/
  cfgMismatch : Bool
  /-- R399. -/
  flashFull : Bool
  /-- R394: ALM_LOST. -/
  lost : Word64
  /-- R394: losses not yet reported by a WARN ALM_LOST record, in the ring and in flash. -/
  lostRing : Nat
  lostFlash : Nat
  /-- Table 14-5: SEQ of the record before the loss, in the ring and in flash. -/
  lostSeq : Word32
  lostSeqFlash : Word32
  /-- R392, R393: ALM_FOLDED. -/
  folded : Word64
  /-- R408: SMB_VIOL. -/
  smbViol : Word64
  /-- R397: flash positions that hold a record, 0 to 262,143. -/
  flash : Sparse AlmRec
  /-- ALM_FLASH_STATE.HEAD: next position to be programmed. -/
  head : Nat
  /-- Sectors erased and empty (R397). -/
  erased : List Nat
  /-- ALM_FLUSHED_SEQ. -/
  flushedSeq : Option Word32
  /-- R393. -/
  rows : List ViolRow
  /-- R405: slots 0 to 15. -/
  slots : Sparse InjSlot
  /-- R404: sources (kind × 65,536 + index) whose present handling belongs to an injected fault. -/
  injKeys : List Nat
deriving DecidableEq, Repr

/-! ### Outputs -/

/-- What a frame of an FDT packet carries before the FDT header (R323): the VLAN of its 802.1Q tag, 0 without a tag; IPv6, or IPv4
with DF set; DSCP; the ECN codepoint, ECT(0) being 2; the UDP destination port; the UDP checksum. -/
structure FdtHead where
  vlan : Nat
  v6 : Bool
  df : Bool
  dscp : Nat
  ecn : Nat
  dstPort : Nat
  checksum : Nat
deriving DecidableEq, Repr

/-- What the module puts on its links, pins and buses. -/
inductive Out where
  /-- An MSI-X message (R316). -/
  | msix (vector : Nat)
  /-- A control codeword sent to a logical position over chords (Table 09-6). -/
  | control (x y : Nat) (bytes : List Byte)
  /-- A flit put on a chord port (R250). -/
  | flit (p : Nat) (bytes : List Byte)
  /-- An FDT packet (R323): the port, the remote address, the UDP source port, what else the frame carries, the bytes from the FDT
  header on. -/
  | fdt (port remote source : Nat) (head : FdtHead) (bytes : List Byte)
  /-- A management-bus response, or a NACK when empty (R378, R408). -/
  | smb (bytes : List Byte)
  /-- A die-to-die transfer unit delivered (R28): class, direction (0 compute die to companion), data. -/
  | d2d (cls : D2dClass) (dir : Nat) (data : List Byte)
  /-- A PCIe read completion with its EP bit (R309). -/
  | completion (ep : Bool) (data : List Byte)
  /-- A posted write to host memory with its attribute Relaxed Ordering (R313). -/
  | hostWrite (relaxed : Bool) (addr : Nat) (data : List Byte)
  /-- A read of host memory issued by the module (R314, R318). -/
  | hostRead (addr len : Nat)
  /-- An error reported through AER (Table 11-7): 0 Malformed TLP, 1 Poisoned TLP Received, 2 Unexpected Completion. -/
  | aer (kind : Nat)
  /-- Unsupported Request (Table 11-7 row 3). -/
  | unsupported
  /-- An answer to ARP, Neighbor Discovery or echo (R322). -/
  | ethReply (port : Nat) (kind : EthKind)
  /-- The TAP's data register selected (R412): the IDCODE, or BYPASS when none. -/
  | tap (idcode : Option Word32)
deriving DecidableEq, Repr

/-! ### Always-on domain, start-up, identity -/

/-- Why the ordered shutdown runs (R415 to R417, R349, R384, R373). -/
inductive Shutdown where
  | mainLoss
  | standbyLoss
  | thermal
  | overcurrent
  | powerOff
  | reset (kind : Nat)
deriving DecidableEq, Repr

/-- Supplies, start-up and status (chapters 13 and 15). -/
structure Boot where
  /-- R32: standby input present; R372: main input present; R417: fallback converter in use. -/
  standby : Bool
  main : Bool
  fallback : Bool
  /-- R417: the tick at which standby was lost while the fallback converter carries the domain. -/
  standbyLost : Option Nat
  /-- R51. -/
  modCount : Word64
  /-- R52: the latched high half, while a low-half read waits for its high half. -/
  hiLatch : Option Word32
  /-- Table 13-6 MOD_STATUS. -/
  phase : Nat
  holdCause : Nat
  springHeld : Bool
  ready : Bool
  mainOn : Bool
  cfgDefaulted : Bool
  image : Nat
  imageFallback : Bool
  identityOk : Bool
  lmsLow : Bool
  /-- R363: both images failed and the CP stays in ROM. -/
  romOnly : Bool
  /-- R372: power-on given; AUTO_POWER_ON not honoured. -/
  powerOn : Bool
  autoInhibit : Bool
  /-- R419: the main domain stays off until this tick. -/
  offUntil : Option Nat
  /-- R416: the ordered shutdown in progress. -/
  shutdown : Option Shutdown
  /-- Table 13-6 MOD_STARTUP_TICK; the tick phase 8 began (Table 13-10 STARTUP_DONE). -/
  startupTick : Word64
  phase8Tick : Nat
  /-- Table 15-4: rails up, in power-up order SOC, CORE_ARR and CORE_ENG, COMP, G7, LP, SERDES. -/
  rails : List Bool
  /-- The module has faulted: it wrote a FAULT record that ends its own service (R402). -/
  faulted : Bool
  /-- Table 15-1: SMB_ALERT# asserted. -/
  smbAlert : Bool
  /-- R412: the instruction loaded. -/
  tap : TapIr
  /-- R373: the phase at which start-up goes on after phase 2 of a CP cold load. -/
  resume : Option Nat
  /-- The MOD_POWER_ON, MOD_POWER_OFF or MOD_RESET that runs (Table 13-9, long). -/
  waiter : Option Route
deriving DecidableEq, Repr

/-- A CFG_MCB_WRITE (or the MCB write of R400) in progress (R371). -/
structure McbWrite where
  image : List Byte
  route : Option Route
  since : Nat
deriving DecidableEq, Repr

/-- Flash contents other than the Almanac area, and identity (R35, R362 to R371). -/
structure Flash where
  /-- Flash bytes by offset (Table 01-7); an unlisted byte reads as 0. -/
  bytes : List Cell
  /-- R370: the MCB in use. -/
  mcb : List Byte
  /-- Table 13-3: the MCB as read at start-up, empty when defaulted. -/
  mcbRead : List Byte
  mcbWrite : Option McbWrite
  /-- R35: an MCB write that waits for the end of a flush. -/
  mcbNext : Option McbWrite
  /-- R365: the header copy in use, empty when neither copy is valid. -/
  header : List Byte
  /-- Table 13-6 MOD_FW. -/
  running : Word32
  other : Word32
  /-- R369: DIGEST of the running image. -/
  digest : List Byte
  /-- R367: the seed while held in data memory. -/
  seed : Option (List Byte)
  serial : Word64
  /-- R368: next HSS index; the first index not yet claimed by a reserve record. -/
  lmsNext : Nat
  lmsClaimed : Nat
  /-- R369. -/
  lastAttest : Option Nat
  /-- R357: the code memory as loaded from the image, and its lock. -/
  codeMem : List Byte
  codeLocked : Bool
deriving DecidableEq, Repr

/-! ### Control processor and mailboxes -/

/-- MBX_STATE.STATE (Table 13-6). -/
inductive MbState where
  | idle
  | posted
  | running
  | done
deriving DecidableEq, Repr

/-- One mailbox (R374 to R379). -/
structure Mailbox where
  /-- The 4,096 bytes as the sender and the module wrote them. -/
  bytes : List Cell
  lastSeq : Word32
  status : Word16
  state : MbState
  /-- R377: header and payload copied at acceptance. -/
  request : List Byte
  /-- R376: the stored response payload and its status, for a repeated SEQ. -/
  response : List Byte
  /-- R56, R375. -/
  receipt : Word64
  doneTick : Word64
  /-- R376: checks 1 to 4 have been made of the posted command. -/
  checked : Bool
  /-- R381: the status reached once the commit point has passed. -/
  reached : Option Word16
deriving DecidableEq, Repr

/-- The control processor (chapter 13). -/
structure Cp where
  /-- The CP runs firmware; a warm restart is in progress; the debug port holds it halted. -/
  up : Bool
  restarting : Bool
  halted : Bool
  unstable : Bool
  /-- R358: tick of the last watchdog restart. -/
  watchdog : Nat
  /-- R358: the warm restart in progress: program counter at the expiry and the tick of the expiry, or none for R359. -/
  expiry : Option (BitVec 48 × Nat)
  /-- R359: the code page and codeword being reloaded. -/
  reload : Option (Nat × Nat)
  /-- R359: the stored command in which an uncorrectable word of data memory lay, as its place among the routes. -/
  lostCmd : Option Nat
  /-- R360: ticks of the last warm restarts, newest first. -/
  restarts : List Nat
  resets : Word64
  /-- MB[0] to MB[15]; the management-bus mailbox. -/
  mbx : Sparse Mailbox
  smb : Mailbox
  /-- R379: pieces of an MB[15] command received so far. -/
  mb15 : List Byte
  /-- The logical position that sent them (R305). -/
  mb15From : Option (Nat × Nat)
  /-- R379: the last MB_CMD_DONE received from each logical position 8y + x. -/
  mbDone : Sparse (List Byte)
  /-- R57. -/
  lastCorrelate : Option Nat
  /-- Heartbeats withheld by detector 0x0A01 and the vote held by 0x0A02 are injection slots (Table 14-8). -/
  selftest : Option (Nat × Option Route)
deriving DecidableEq, Repr

/-! ### JVI contexts -/

/-- How a TFDT stands: under way, completed, its connection lost, its message rejected (Table 06-18, R327). -/
inductive CopyRes where
  | open_
  | ok
  | timeout
  | rejected
deriving DecidableEq, Repr

/-- A stream copy started by TRD, TWR or TFDT (Table 06-18); a TWR with the queue and SEQ of its VECTOR (R177). -/
inductive StreamCopy where
  | trd (addr loc len : Nat)
  | twr (addr loc len : Nat) (queue : Nat) (seq : Word32)
  | tfdt (slot : Nat) (msg : Word32) (res : CopyRes)
deriving DecidableEq, Repr

/-- One execution context (R188): an engine's vector unit or a companion core. -/
structure JviCtx where
  busy : Bool
  /-- The VECTOR that runs here: its queue and SEQ, and its STEP. -/
  queue : Nat
  seq : Word32
  step : Word32
  /-- v0-v31: the lanes of a listed register; unlisted lanes hold 0. -/
  v : Sparse (List Word32)
  /-- p1-p7: the lanes of a listed predicate; unlisted lanes hold false. p0 is all ones. -/
  p : Sparse (List Bool)
  /-- s1-s31; s0 reads zero. -/
  s : Sparse Word64
  pc : Nat
  code : List Word64
  /-- R165: vector steps run and STEP_LIMIT. -/
  steps : Nat
  limit : Nat
  copies : List StreamCopy
deriving DecidableEq, Repr

/-! ### Tiles -/

/-- Table 03-14 TILE_HEALTH. -/
inductive TileHealth where
  | active
  | spareReady
  | spareUntested
  | failedSelftest
  | retiredRun
deriving DecidableEq, Repr

/-- Table 03-11 ENG_STATUS.STATE. -/
inductive EngState where
  | idle
  | rampUp
  | run
  | rampDown
  | faultStop
  | retired
deriving DecidableEq, Repr

/-- Health of a codeword that is not clean (R222 to R224). -/
inductive CwHealth where
  | good
  | correctable
  | uncorrectable
  | poison
deriving DecidableEq, Repr

/-- A row vector of one K-block in the feeder queues (R59, R60): its item, K-block, output row, element codes, scale bytes. -/
structure FeedRow where
  seq : Word32
  kb : Nat
  row : Nat
  elems : List Nat
  scales : List Byte
deriving DecidableEq, Repr

/-- The weights of one K-block of an item in one array (R63, R65): per column the element codes and the scale bytes along K. -/
structure WBlock where
  seq : Word32
  kb : Nat
  cols : List (List Nat × List Byte)
deriving DecidableEq, Repr

/-- A MATMUL in the arrays: its operand block, what was resolved when it was taken (R117, R163) and its progress. -/
structure Run where
  seq : Word32
  step : Word32
  block : List Byte
  noCount : Bool
  aFmt : Nat
  bFmt : Nat
  outFmt : Nat
  /-- The window and rounding of the output's record as read once (R107, R117). -/
  eLo : Nat
  eHi : Nat
  rnd : Nat
  tensor : Word32
  eHi4 : Option Nat
  /-- Next (K-block, row) to be written to the feeders. -/
  feedKb : Nat
  feedRow : Nat
  /-- Next (K-block, row, sub-wave) to be run. -/
  kb : Nat
  row : Nat
  sub : Nat
  /-- Rows whose last K-block entry has been made; rows drained. -/
  ready : Nat
  drained : Nat
  /-- R80: scratchpad accumulation was in force when the item was taken. -/
  scratch : Bool
deriving DecidableEq, Repr

/-- The registers of an engine window that belong to a tile (Tables 03-10 to 03-13). -/
structure TileRegs where
  ctrl : Word64
  state : EngState
  split : Bool
  /-- R80: the CP has set scratchpad accumulation mode. -/
  cpScratch : Bool
  /-- R341: HALT set by the power manager. -/
  pmHalt : Bool
  /-- R342, R346: the place of the next wave-time in the 1,024 of a duty; the part of a tick, in 1,024ths, that gated wave-times
  have added to ENG_HALT_TICKS. -/
  gateSlot : Nat
  haltPart : Nat
  rampStep : Nat
  /-- R86: ramp waves done in the present step; the tick since which no MATMUL runs or is ready. -/
  rampWaves : Nat
  idleSince : Option Nat
  waves : Word64
  haltTicks : Word64
  snapWaves : Word64
  snapHalt : Word64
  snapTick : Word64
  fault : Word64
  poison : Byte
  abortResult : Word64
  zeroBlocks : Word64
  chainTrunc : Word64
  residueErr : Word64
  /-- R91: a chain residue fault has occurred in this step. -/
  residueStep : Bool
deriving DecidableEq, Repr

/-- The arrays' contents (R58 to R79). -/
structure TileWork where
  /-- The item that takes waves in half U, or in both halves outside split mode; the item of half L. -/
  runU : Option Run
  runL : Option Run
  /-- R65: outside split mode, the items taken behind it, in the order taken. -/
  queued : List Run
  /-- R76: outside split mode, the items whose waves have ended and whose rows still drain, oldest first. -/
  draining : List Run
  /-- R89: the faulted item of a half that stopped; the half goes on once its completion record is written. -/
  stopU : Option Word32
  stopL : Option Word32
  feedU : List FeedRow
  feedL : List FeedRow
  shadowU : Sparse WBlock
  shadowL : Sparse WBlock
  activeU : Sparse WBlock
  activeL : Sparse WBlock
deriving DecidableEq, Repr

/-- The stores of a tile: accumulators (entry a × 65,536 + r × 128 + c), wide buffer (slot), scratchpad, and the health of
their codewords (R72, R78, Table 08-1). A W64 slot holds hi in bits 31:0 and lo in bits 63:32 (R103). -/
structure TileMem where
  acc : Sparse Word32
  wide : Sparse Word64
  pad : List Cell
  badPad : Sparse CwHealth
deriving DecidableEq, Repr

/-- One physical tile (Table 01-4). -/
structure Tile where
  health : TileHealth
  regs : TileRegs
  work : TileWork
  mem : TileMem
  vec : JviCtx
deriving DecidableEq, Repr

/-- TILE_MAP[e] (Table 03-14). -/
structure TileMapEntry where
  valid : Bool
  ptile : Nat
  subst : Nat
deriving DecidableEq, Repr

/-! ### Queues, counters, journal -/

/-- QSTATUS.STATE (Table 06-16). -/
inductive QState where
  | disabled
  | idle
  | run
  | repoll
  | stale
  | stopped
  | replay
deriving DecidableEq, Repr

/-- Where a descriptor of the window stands: accepted; running; finished, waiting for its completion record (with status,
outcome, rows); complete, waiting for older ones. -/
inductive ItemRun where
  | waiting
  | running
  | finished (status : Word16) (outcome : Nat) (rows : Nat)
  | complete
deriving DecidableEq, Repr

/-- What an item adds to a scale record when it completes (R117, R120). -/
structure Tally where
  index : Nat
  blocks : Nat
  sat : Nat
  sat4 : Nat
  amax : Word32
deriving DecidableEq, Repr

/-- A descriptor that a queue has accepted: its 64 bytes, its operand or argument block, and whether it is replayed. -/
structure Item where
  seq : Word32
  desc : List Byte
  block : List Byte
  run : ItemRun
  replay : Bool
  tally : Option Tally
deriving DecidableEq, Repr

/-- One queue (Table 06-16, R151 to R176). -/
structure Queue where
  base : Word64
  enable : Bool
  log2n : Nat
  seqStart : Word32
  /-- R174: the last doorbell value written. -/
  bell : Option Word32
  /-- Next SEQ to fetch; HEAD. -/
  expect : Word32
  head : Word32
  state : QState
  staleCount : Word16
  attempts : Nat
  /-- R160: STEP of the last descriptor taken. -/
  lastStep : Option Word32
  /-- Accepted descriptors not yet completed, in SEQ order. -/
  window : List Item
  /-- R170: the host writes handed over when the last descriptor before an open FENCE completed (Hst.handed). -/
  hostMark : Nat
  /-- R157: descriptors from HEAD on that completed before a replay and have left the window. -/
  doneAhead : List Word32
  /-- R154: ENABLE was cleared while a descriptor ran. -/
  disabling : Bool
  /-- R168: the tick at which the WAIT became the oldest uncompleted descriptor. -/
  waitSince : Option Nat
  /-- R185: the queue stopped for want of journal room. -/
  jnlFull : Bool
deriving DecidableEq, Repr

/-- One journaled descriptor (R184). -/
structure JnlEntry where
  queue : Nat
  seq : Word32
  step : Word32
  desc : List Byte
  block : List Byte
  taken : Bool
  /-- Where the entry stands in the ring of JNL_SIZE bytes. -/
  pos : Nat
deriving DecidableEq, Repr

/-- The queues' global registers and the journal (Table 06-16). -/
structure Streams where
  queues : Sparse Queue
  qerr0 : Word64
  qerr1 : Word64
  jnlBase : Word64
  jnlSize : Word64
  jnlUsed : Word64
  /-- Where in the journal the next entry is written (R184). -/
  jnlPos : Nat
  jnlFail : Word64
  /-- R187: records appended at JNL_FAIL since it was written. -/
  jnlFails : Nat
  hostLost : Bool
  dbViolations : Word64
  journal : List JnlEntry
  /-- R185: the step for which JOURNAL_FULL has been written. -/
  fullStep : Option Word32
  /-- R415: the power manager, and R237: HOLD, stop the queues from taking descriptors. -/
  held : Bool
  /-- R169: tags (queue, SEQ) of remote POSTs not yet applied. -/
  posts : List (Nat × Word32)
  /-- R263: codewords sent to and acknowledged by each logical position, key 16y + x. -/
  wrSent : Sparse Nat
  wrAcked : Sparse Nat
deriving DecidableEq, Repr

/-- One sync counter (Table 06-17). -/
structure Counter where
  value : Word32
  ovf : Bool
  unf : Bool
deriving DecidableEq, Repr

/-- What a home router keeps of the external operations (R186). -/
structure ExtNet where
  base : Option Word32
  sum : Int
deriving DecidableEq, Repr

/-- The sync counters (R180, R186). -/
structure Sync where
  sc : Sparse Counter
  snapshot : Sparse Word32
  ext : Sparse ExtNet
deriving DecidableEq, Repr

/-! ### Scale records, job, group -/

/-- A scale record as its four words (Table 04-7). -/
structure ScaleRec where
  w0 : Word64
  w1 : Word64
  w2 : Word64
  w3 : Word64
deriving DecidableEq, Repr

/-- The record store (R117 to R125). -/
structure Scales where
  recs : Sparse ScaleRec
  /-- R118: writes that wait for the boundary, oldest first; those of the step that ended, which follow its derivation. -/
  waiting : List (Nat × ScaleRec)
  applying : List (Nat × ScaleRec)
  /-- R121: the step whose counts await derivation, and the records with those counts. -/
  due : Option Word32
  ended : Sparse ScaleRec
  /-- R123. -/
  probed : Bool
  /-- Table 04-9: steps each record has spent in FALLEN. -/
  fallenSteps : Sparse Nat
  /-- R116, R210, R291: the non-finite flag of the step; groups that keep it set. -/
  nonfinite : Bool
  badGroups : List Nat
  /-- R113: the residual banks of the output stage: tensor id, element index and bank as one key (notes/assumptions/16.md). -/
  resid : Sparse Word16
deriving DecidableEq, Repr

/-- One job slot (R386). -/
structure JobSlot where
  first : Word32
  key : BitVec 128
  slice : Nat × Nat × Nat × Nat
deriving DecidableEq, Repr

/-- A G7 range granted to a job slot (R385). -/
structure MemGrant where
  slot : Nat
  addr : Nat
  size : Nat
deriving DecidableEq, Repr

/-- A register or table write that waits for the step boundary (R422). -/
inductive Waiting where
  | pgd (group : Nat) (bytes : List Byte)
  | schedule (k : Nat) (bytes : List Byte)
  | policy (p factor : Nat)
  | reduceWord (s w : Nat) (v : Word64)
  | wstreamWord (s w : Nat) (v : Word64)
  | chdPos (vals : List Word64)
deriving DecidableEq, Repr

/-- Jobs, the present step and what waits for its boundary (R386, R385, R422). -/
structure Job where
  slots : Sparse JobSlot
  /-- The step being run and the number of steps the job has committed (R113). -/
  step : Word32
  committed : Nat
  waiting : List Waiting
  /-- R387: FINAL was given, HOST_LOST ends at the boundary. -/
  finalGiven : Bool
  /-- R186: replay of the step in progress; R296: abandoned. -/
  replaying : Bool
  /-- Table 03-6: an item of the step has faulted and the step is replayed once nothing of it runs (notes/assumptions/17.md). -/
  faultReplay : Bool
  /-- Layers switched from OFFLOAD to RECOMPUTE by the last host reset (R148, R167). -/
  switched : Nat
  quota : Sparse Nat
  grants : List MemGrant
  /-- R290: the verdict received for the present step: 0 none, 1 COMMIT, 2 SKIP. -/
  verdict : Nat
  /-- The last step whose verdict was COMMIT, the last whose verdict was SKIP, with the number of its VOTE_RESULT. -/
  lastCommit : Option Word32
  lastSkip : Option Word32
deriving DecidableEq, Repr

/-- Table 10-1. -/
inductive Role where
  | member
  | vertex
  | apex
  | leadApex
  | spare
deriving DecidableEq, Repr

/-- A VOTE as combined (Table 10-2). -/
structure Vote where
  finite : Bool
  straggler : Bool
  digest : Bool
  replay : Bool
  epoch : Word16
  step : Word32
  voters : Nat
  stragglers : Nat
  lateBlocks : Nat
  span : Nat
  firstNf : Nat
  group : Nat
deriving DecidableEq, Repr

/-- GRP_CONFIG (Table 10-9). -/
structure GrpCfg where
  groupId : Word32
  groups : List Nat
  succession : List Nat
  hbMiss : Nat
  voteSc : Nat
  voteThreshold : Word32
  resultSc : Nat
  voteGrace : Nat
  voteLimit : Nat
  xvoteLimit : Nat
  deadlineMin : Nat
  deadlineMax : Nat
  foldBase : Word64
  foldSize : Nat
  /-- GRP_POLICY: 0 NONE, 1 FOLD, 2 DROP, and the factor (R293). -/
  policy : Nat
  factor : Nat
deriving DecidableEq, Repr

/-- The group's state on this module (chapter 10). -/
structure Grp where
  cfg : GrpCfg
  role : Role
  epoch : Word16
  /-- Logical position, or none for a spare. -/
  pos : Option (Nat × Nat)
  /-- Table 10-6: 0 D, 1 Q, 2 S, 3 C, 4 R, 5 run. -/
  phase : Nat
  recCase : Nat
  recStep : Word32
  recTarget : Word32
  recStart : Nat
  /-- Failed physical positions 9y + x. -/
  failed : List Nat
  /-- R280: the entry of the succession list whose Apex is followed; the claim this module will send, with its due tick. -/
  apexEntry : Nat
  claimDue : Option Nat
  /-- R279: periods since the Apex's HEARTBEAT; positions heard in this period; consecutive periods missed per position. -/
  apexMissed : Nat
  heard : List Nat
  missed : Sparse Nat
  /-- R286: the vote of this step attempt; R281: the last VOTE and DIGEST sent. -/
  voted : Bool
  /-- R303: the vote that waits for the cross-group ring, with its STRAGGLER. -/
  voteHeld : Option Bool
  /-- The FDT connection slot of each group of the list (notes/assumptions/306.md). -/
  slots : List Nat
  lastVote : Option Vote
  lastDigest : Option (List Byte)
  /-- R287, R289: votes received: by position, by row, by group. -/
  rowVotes : Sparse Vote
  colVotes : Sparse Vote
  groupVotes : Sparse Vote
  /-- R288: the starting event of VOTE_LIMIT; R289: ticks at which each group was last heard. -/
  voteStart : Option Nat
  groupHeard : Sparse Nat
  /-- R289: groups in recovery, for which the lead Apex holds the step. -/
  groupHeld : List Nat
  /-- R301: this group is lost, which its own Apex knows. -/
  lost : Bool
  /-- R298: the SEQ of each UPD_RESTORE (true) or UPD_REPAIR that the Apex has commanded and that has not answered. -/
  restoring : List (Word32 × Bool)
  /-- R274: the tick of the first reduce-VC flit of the step; whether the deadline has passed; R286 grace due. -/
  spanStart : Option Nat
  lastOwn : Nat
  expired : Bool
  lateStart : Word64
  prevDeadline : Nat
  /-- R281: the last APEX_STATE held. -/
  apexState : Option (List Byte)
  /-- R292: digests by position, and by group. -/
  digests : Sparse (List Byte)
  /-- R219: the substitute awaits GRP_READY; R302 return in progress. -/
  substitute : Bool
  returning : Option (Nat × Nat)
  /-- R298: the position being recovered; its spare waits; GRP_READY has come; the first step after a recovery has no deadline. -/
  recPos : Nat
  readyStep : Option Word32
  noDeadline : Bool
  /-- R296: the module replays the step while its group runs on. -/
  straggles : Bool
  /-- CHD_POS as GRP_SUBSTITUTE or GRP_RETURN gave it, until the boundary or the end of phase S (R277). -/
  newPos : Option (List Word64)
  /-- Detector 0x0A01: heartbeats still to be withheld. -/
  hbHeld : Nat
  /-- R379: SEQ of the next MB[15] command that this module sends as Apex. -/
  mbSeq : Word32
deriving DecidableEq, Repr

/-- GRP_STATS (Table 10-9). -/
structure GrpStats where
  votes : Word64
  skips : Sparse Word64
  lateFolded : Word64
  lateDropped : Word64
  lateNonfinite : Word64
  recoveries : Word64
  takeovers : Word64
deriving DecidableEq, Repr

/-! ### Companion -/

/-- A COMMIT in progress (R205): its stage is 0 before the record, 1 awaiting the buddy's gradient acknowledgement. -/
structure CommitRun where
  queue : Option (Nat × Word32)
  route : Option Route
  recAddr : Nat
  step : Word32
  pgFirst : Nat
  pgCount : Nat
  blocks : Nat
  redone : Nat
  recovery : Bool
  fromState : Nat
  /-- R204: SEQ of the COMMIT. -/
  seq : Word32
deriving DecidableEq, Repr

/-- A checkpoint export or a repair in progress (R219 to R221). -/
structure ExportRun where
  slot : Nat
  route : Option Route
  step : Word32
  acked : Nat
  total : Nat
  sent : Nat
deriving DecidableEq, Repr

/-- The companion's engines (chapter 7). The regions of Table 07-1 are slow-tier memory. -/
structure Comp where
  /-- Local memory and context of each core. -/
  local_ : Sparse (List Cell)
  cores : Sparse JviCtx
  commit : Option CommitRun
  /-- R117: what the blocks updated so far add to their FWD_REC when the commit ends. -/
  tallies : List Tally
  /-- R219: the digest verdict awaited, and the verdict received (0 AGREE, 1 REPAIR, 2 REVERT) with its step. -/
  verdictDue : Option Word32
  verdict : Option (Nat × Word32)
  export_ : Option ExportRun
  repair : Option ExportRun
  /-- R213: NSCALE of the step has been sent. -/
  scaleSent : Option Word32
  /-- R213: the step whose kept gradients arrive, codewords received of each neighbour group, of NSCALE. -/
  gradStep : Option Word32
  gradSeen : Sparse Nat
  scaleSeen : Nat
  /-- R213: neighbour groups of which NGRAD holds every place, with their step. -/
  gradTag : List (Nat × Word32)
  /-- R214: codewords of mirror blocks not yet whole, as 36 bytes; R215: codewords received of a rebuilt shard, its records. -/
  mirrorIn : Sparse (List Byte)
  rebuildSeen : Nat
  restoreScale : List Cell
deriving DecidableEq, Repr

/-! ### Memory system and die-to-die link -/

/-- MEM_CH_STATUS.STATE (Table 08-7). -/
inductive ChState where
  | up
  | retrain
  | migrating
  | retiredThermal
  | dead
  | returning
deriving DecidableEq, Repr

/-- One G7 channel (Table 08-7, R231 to R242). -/
structure Channel where
  state : ChState
  throttle : Nat
  park : Nat
  peakPark : Nat
  ce : Word64
  ue : Word64
  retrains : Word64
  temp : Int
  /-- R231: temperature at the last training; the ticks of the last 1,024 corrected codewords since then, latest first. -/
  trainTemp : Int
  ceTicks : List Nat
  /-- Present retrain: start tick, cause, failed attempts so far; the state it interrupted. -/
  since : Nat
  cause : Nat
  fails : Nat
  under : ChState
deriving DecidableEq, Repr

/-- MEM_REMAP[g] (Table 08-7). -/
structure Remap where
  valid : Bool
  kind : Nat
  step : Word32
  ch : Nat
deriving DecidableEq, Repr

/-- One slow-tier channel (Table 08-7). -/
structure LpChannel where
  dead : Bool
  throttle : Nat
  ue : Word32
  ce : Word32
  fails : Nat
deriving DecidableEq, Repr

/-- MEM_STATUS.RESERVE_STATE (Table 08-7). -/
inductive Reserve where
  | free
  | migrating
  | thermal
  | repaired
  | returning
deriving DecidableEq, Repr

/-- The G7 and slow-tier controllers (chapter 8). -/
structure Mem where
  g7 : List Cell
  slow : List Cell
  /-- Codewords of G7 and of the slow tier whose health differs from the rule of `dead` and good. -/
  badG7 : Sparse CwHealth
  badSlow : Sparse CwHealth
  /-- R200, R269: what the model notes of the data in the slow tier: the F8 format of a kept-gradient block at its offset (1 E4M3,
  2 E5M2); SEQ of the COMMIT of a record slot (R204, R212). -/
  gradFmt : Sparse Nat
  crecSeq : Sparse Word32
  /-- R212: what a commit record's COMMIT quantised with: whether in Spring, and the FWD_REC records as derived for its step. -/
  crecFwd : Sparse (Bool × List (Nat × ScaleRec))
  /-- R237: channels that died with the slots they lost, from the first to before the second: poison unless listed in `badG7`. -/
  deadFrom : List (Nat × Nat × Nat)
  /-- R232: the writes that wait in park queues, in arrival order: offset and bytes within one codeword. -/
  parked : List (Nat × List Byte)
  reserve : Reserve
  reserveCh : Nat
  hold : Bool
  holdSince : Nat
  gen : Nat
  ctrl : Word64
  remap0 : Remap
  remap1 : Remap
  /-- R236: the next generation is built and waits for the boundary; it frees the reserve when returning. -/
  switchDue : Bool
  migDone : Word64
  jnlCopy : Word64
  scrubPass : Word64
  scrubG7 : Nat
  scrubSlow : Nat
  channels : Sparse Channel
  lps : Sparse LpChannel
  lpTemp : Sparse Int
  /-- R242: tick since which the retired channel's device has stayed below 90 °C. -/
  coolSince : Option Nat
deriving DecidableEq, Repr

/-- One direction of one die-to-die link module (R30, R31): redundant lanes left, the lanes in service in order, consecutive
failed units per lane, the lane being replaced with the tick its retrain began. -/
structure D2dLink where
  spares : Nat
  lanes : List Nat
  fails : Sparse Nat
  retrain : Option (Nat × Nat)
  failed : Bool
deriving DecidableEq, Repr

/-- Traffic of the die-to-die link that waits at its source (R29, R30). -/
inductive D2dTraffic where
  /-- A unit given to the link from outside: its class, its direction and its data. -/
  | unit (cls : D2dClass) (dir : Nat) (data : List Byte)
  /-- Codewords of the slow tier on their way out on a stream of the mirror VC, to logical (x, y). -/
  | mirrorOut (stream cw x y : Nat) (data : List Byte)
  /-- Codewords of the mirror VC from logical (x, y), bound for the slow tier. -/
  | mirrorIn (x y stream cw : Nat) (raws : List (List Byte))
  /-- The final sum of a block of a reduce stream, bound for its KGRAD place. -/
  | reduced (stream block : Nat) (elems : List Byte) (scale : Byte)
deriving DecidableEq, Repr

/-- The die-to-die link (R26 to R31), indexed by module × 2 + direction (0 compute die to companion). -/
structure D2d where
  links : Sparse D2dLink
  /-- What waits at its source, in issue order: held by a retrain, or a unit to be sent again and what came after it (R28 to R30). -/
  waiting : List D2dTraffic
deriving DecidableEq, Repr

/-! ### Chords -/

/-- CHD_PORT_STATUS.STATE (Table 09-10). -/
inductive PortState where
  | down
  | training
  | up
  | swap
  | retrain
  | miscabled
  | failed
  | unassigned
deriving DecidableEq, Repr

/-- A flit waiting for a slot: VC, STREAM, OFFSET, destination and source, LATE, ORIG_VC and its codewords (R250). -/
structure FlitOut where
  vc : Nat
  stream : Nat
  offset : Nat
  dx : Nat
  dy : Nat
  sx : Nat
  sy : Nat
  late : Bool
  origVc : Nat
  data : List Byte
deriving DecidableEq, Repr

/-- One chord port (Table 09-10, R249 to R260). -/
structure Port where
  state : PortState
  dir : Nat
  spareFor : Nat
  lanes : Nat
  retrains : Nat
  peer : Word64
  tx : Word64
  rx : Word64
  fecCorr : Word64
  crcErr : Word64
  retries : Word64
  viol : Word64
  transit : Word64
  /-- Lane map: physical lane of each lane position. -/
  laneMap : List Nat
  swapSince : Nat
  swapCause : Nat
  swapLane : Nat
  /-- R254: next SEQ to send, replay buffer oldest first, flits to resend, last SEQ acknowledged by the other side. -/
  txSeq : Word16
  replay : List (Word16 × FlitOut)
  resend : List (Word16 × FlitOut)
  acked : Word16
  /-- R254: last SEQ received in order; a NAK is outstanding; NAKs in a row naming the same SEQ. -/
  rxSeq : Word16
  nakOut : Bool
  nakSeq : Word16
  nakRun : Nat
  /-- R255, by VC: credits left of each reserved pool; what is left of the shared pool, and what each VC holds of it; credits to
  return to the other side. -/
  credits : List Nat
  shared : Nat
  usedShared : List Nat
  returns : List Nat
  /-- Table 09-10: CHD_ARB.TRANSIT_CREDITS as the last retrain took it. -/
  transitCr : Nat
  /-- R256: VCs of the last 64 slots, newest first, 8 for a slot without a DATA flit; weighted round robin position. -/
  slots : List Nat
  wrr : List Nat
  sendQ : List FlitOut
  /-- R258: corrected bytes per lane position, as pairs of tick and count. -/
  laneErrs : Sparse (List (Nat × Nat))
  /-- R275: ticks of the violations that count toward CHD_VIOL_LIMIT; Table 09-8 row 8. -/
  viols : List Nat
  trainPending : Bool
  failsInRow : Nat
  retrainSince : Nat
  /-- The present retrain follows a loss of lock beyond what R259 absorbs; flit slots since the last MARKER (R253). -/
  lossRetrain : Bool
  sinceMarker : Nat
deriving DecidableEq, Repr

/-- The chord interface and its reduce units (chapter 9). -/
structure Chd where
  cfg : Word64
  arb : Word64
  deadline : Word64
  slice : Word64
  violLimit : Word64
  frozenDrop : Word64
  lateBlocks : Word64
  dropped : Word64
  pos : Sparse Word64
  ports : Sparse Port
  /-- REDUCE_STREAM[s] word w at 8s + w; WSTREAM[w] word k at 4w + k (Table 09-11). -/
  reduce : Sparse Word64
  wstream : Sparse Word64
  /-- R267: codewords received of each weight stream: (w × 2^32 + codeword, data); entries landed; streams stopped. -/
  wrecv : Sparse (List Byte)
  /-- R296: this owner's codewords of the step's weight streams, as the companion sent them. -/
  wown : Sparse (List Byte)
  landed : Sparse (List Nat)
  stopped : List Nat
  /-- R269: codewords written to the reduce channel in this step: (stream × 2^32 + codeword, 32 bytes). -/
  own : Sparse (List Byte)
  /-- R271: 1 + the STEP of the descriptor that wrote each of those codewords. -/
  ownStep : Sparse Nat
  /-- Reduce codewords received and not yet consumed, and those that carried LATE (R274): stream 1,024 × phase + stream. -/
  rin : Sparse (List Byte)
  rinLate : List Nat
  /-- R270: row sums formed here, as elements and scale byte: (stream × 2^32 + block, 33 bytes). -/
  partials : Sparse (List Byte)
  /-- R250: row sums that a deadline passed over. -/
  partLate : List Nat
  /-- R303, by stream × 2^32 + block or 1,024-element unit of this owner's chunk: blocks whose in-group sum stands in KGRAD; units
  whose partial has left for the next group; units whose final sum stands in KGRAD; what has come over FDT, and what waits for a
  connection, oldest first, as 1,024 elements and 32 scale bytes. -/
  ringSum : List Nat
  ringSent : List Nat
  ringDone : List Nat
  ringIn : List (Nat × List Byte)
  ringOut : List (Nat × List Byte)
  /-- Scale bytes of results waiting for the rest of their codeword: ((stream × 16 + hop) × 2^32 + scale codeword). -/
  scaleOut : Sparse (List (Nat × Byte))
  /-- R274, R294: blocks passed over (stream × 2^32 + block) whose own contribution is still to come. -/
  late : List Nat
  /-- R294: the blocks (stream × 2^32 + block) that the fold area in G7 holds. -/
  fold : List Nat
  /-- Control codewords accepted from flits for this module and not yet applied (R257). -/
  ctlIn : List CtlMsg
  /-- R263: codewords of remote writes written for each source, key 16y + x, since the job started. -/
  wrDone : Sparse Nat
  /-- R296: weight streams this module has requested for a replay; they arrive for it alone. -/
  wreq : List Nat
  /-- R259: directions recorded as lost. -/
  dirLost : List Nat
  /-- R257: flits handed so far to each direction's ports in turn. -/
  turn : Sparse Nat
deriving DecidableEq, Repr

/-! ### Host and Ethernet -/

/-- A host write not yet acknowledged (R314): with HST_WLOG_SIZE 0 it is not kept for a rewrite (R319). -/
structure HostWrite where
  addr : Nat
  data : List Byte
  relaxed : Bool
  /-- Issued before the flush read now outstanding. -/
  covered : Bool
  /-- The vector of an MSI-X message. -/
  msix : Option Nat
deriving DecidableEq, Repr

/-- HST_LINK.STATE (Table 11-9). -/
inductive LinkState where
  | down
  | l0
  | recovery
  | rewrite
deriving DecidableEq, Repr

/-- The host interface (chapter 11). -/
structure Hst where
  gen : Nat
  width : Nat
  bme : Bool
  msixEn : Bool
  d3hot : Bool
  link : LinkState
  ctrl : Word64
  wlogBase : Word64
  wlogSize : Word64
  linkDowns : Word64
  replayed : Word64
  viol : Word64
  oor : Word64
  watch : Sparse Word64
  /-- MSI-X table bytes (Table 11-8), the mask bit of each vector stored complemented since PCIe resets it to 1
  (notes/assumptions/8.md); pending vectors. -/
  msixTable : List Cell
  pba : List Nat
  /-- R314: the log, oldest first; the place in its ring of G7 that the next entry takes; the writes handed over so far; the flush
  read outstanding; tick of the last one; the last host address written. -/
  wlog : List HostWrite
  wlogPos : Nat
  handed : Nat
  flushOut : Bool
  flushTick : Nat
  lastAddr : Option Nat
  /-- R315, R318: host-bound writes and messages that wait, oldest first; one more than the tick at which a
  link down of R318 began, 0 while none lasts. -/
  wait : List Out
  downSince : Nat
  /-- AER uncorrectable error status (Table 11-1, Table 11-7 rows 1, 2, 3 and 6). -/
  aer : Word32
  /-- The AER correctable error status (R307, Table 11-1). -/
  aerCorr : Word32
  /-- R387: recorded ranges; the next call replaces the list. -/
  ranges : List (Nat × Nat)
  replaceList : Bool
  /-- Host memory as the module reads and writes it. -/
  mem : List Cell
deriving DecidableEq, Repr

/-- FDT_CONN_STATUS.STATE (Table 11-9). -/
inductive ConnState where
  | closed
  | opening
  | open_
  | lost
deriving DecidableEq, Repr

/-- A message being received (R327): its id, kind, POST target, address and length once its FIRST packet has come; the pieces
placed (offset, length); the data of a CONTROL or SEGMENT message; whether it is rejected (Table 11-7 row 12). -/
structure FdtMsg where
  id : Word32
  kind : Nat
  post : List Byte
  addr : Nat
  len : Nat
  placed : List (Nat × Nat)
  reject : Bool
  data : List Cell
deriving DecidableEq, Repr

/-- A DATA packet to be sent: message, FIRST and LAST, offset, message header and payload. -/
structure FdtPart where
  msg : Word32
  first : Bool
  last : Bool
  offset : Nat
  header : List Byte
  data : List Byte
deriving DecidableEq, Repr

/-- An unacknowledged packet: its PSN, the tick it was sent, whether it has been retransmitted. -/
structure FdtSent where
  psn : Word32
  part : FdtPart
  tick : Nat
  retx : Bool
deriving DecidableEq, Repr

/-- The operation that a message carries out for its sender: a TFDT of a core, a CONTROL message of the CP, a piece of the
cross-group ring (R303), a segment of an
export or of a repair (R219, R220). -/
inductive FdtOwner where
  | core (c : Nat)
  | control
  | ring
  | segment (i : Nat)
deriving DecidableEq, Repr

/-- One FDT connection slot (R325 to R328). Rates are in Mb/s, α in units of 2^-16 (notes/assumptions/18.md). -/
structure Conn where
  state : ConnState
  localId : Word32
  remoteId : Word32
  remote : Nat
  ports : Nat
  lastPort : Nat
  mtu : Nat
  openRoute : Option Route
  rate : Nat
  target : Nat
  alpha : Nat
  sinceCut : Nat
  rateTick : Nat
  txBytes : Word64
  retx : Word64
  cnp : Word64
  /-- Sender (R326): next PSN, packets waiting for the window, unacknowledged packets, the last ACK_PSN and its repeats, the
  window granted, next MSG_ID, operations pending. -/
  psn : Word32
  sendQ : List FdtPart
  unacked : List FdtSent
  lastAck : Word32
  dupAcks : Nat
  window : Nat
  nextMsg : Word32
  pending : List (Word32 × FdtOwner)
  /-- Receiver (R326): next PSN expected in order, PSNs received beyond it, packets waiting for their message's FIRST packet
  (message, offset, data), messages in progress, highest message completed, DATA packets not yet acknowledged and the tick of
  the oldest, the tick of the last CNP sent. -/
  rxPsn : Word32
  rxAhead : List Word32
  reorder : List (Word32 × Nat × List Byte)
  msgs : List FdtMsg
  doneMsg : Word32
  unackedRx : Nat
  ackTick : Nat
  cnpTick : Option Nat
  /-- The tick of the last packet sent or received; the retransmission timer (R326): its start, its timeout, 8 × SRTT and
  4 × RTTVAR once measured, consecutive expiries. -/
  lastHeard : Nat
  timer : Option Nat
  rto : Nat
  srtt8 : Nat
  rttvar4 : Nat
  expiries : Nat
deriving DecidableEq, Repr

/-- One Ethernet port (Table 11-9, R322); `config` holds address and VLAN as CFG_FDT_PORT set them. -/
structure EthPort where
  state : Nat
  mac : BitVec 48
  txFrames : Word64
  rxFrames : Word64
  rxDrop : Word64
  fcsErr : Word64
  fecCorr : Word64
  other : Word64
  config : List Byte
  /-- Priority flow control is enabled; the tick up to which a pause frame holds the FDT priority; the frames it holds (R321,
  R328). -/
  pfc : Bool
  pausedTo : Nat
  held : List Out
deriving DecidableEq, Repr

/-- Ethernet and FDT (chapter 11). -/
structure Eth where
  ports : Sparse EthPort
  conns : Sparse Conn
  retryLimit : Nat
  dscp : Nat
  udpPort : Nat
  viol : Word64
  dropped : Word64
  /-- Table 11-6: g as a power of two (1/2^g), T in ticks, A in Mb/s. -/
  gShift : Nat
  periodT : Nat
  stepA : Nat
  /-- Table 11-7 row 10: one more than the tick of the last CLOSE answered, per source address. -/
  closeTicks : Sparse Nat
  /-- The connection ids that this module has chosen (R325). -/
  ids : List Word32
  /-- R289: group messages delivered to the CP by CONTROL messages, oldest first, with their slots. -/
  inbox : List (Nat × List Byte)
deriving DecidableEq, Repr

/-! ### Power manager -/

/-- Table 12-1. -/
inductive Regime where
  | none_
  | spring
  | summer
  | autumn
  | winter
deriving DecidableEq, Repr

/-- An envelope (R337). -/
structure Envelope where
  ceiling : Nat
  due : Nat
deriving DecidableEq, Repr

/-- A power partition (R346, Table 12-9). -/
structure Share where
  valid : Bool
  watts : Nat
  est : Nat
  duty : Nat
  mask : Word64
  time : Word64
  back : Bool
deriving DecidableEq, Repr

/-- An open phase that a SOLSTICE announced, granted or denied (R353, R354): its start, and the waves its engine had
completed when it began. -/
structure Solstice where
  phase : Nat
  cls : Nat
  granted : Bool
  queue : Nat
  start : Nat
  duration : Nat
  begun : Bool
  waves0 : Nat
  /-- Waves of the phase completed by tiles that have been retired since (R92, R353). -/
  before : Nat
deriving DecidableEq, Repr

/-- The power manager (chapter 12). Voltages in mV, power in W unless stated. -/
structure Pwr where
  regime : Regime
  target : Nat
  setpoint : Nat
  compSp : Nat
  parkedLimit : BitVec 4
  parkedTemp : BitVec 4
  parkedCmd : BitVec 4
  /-- Quarters whose HALT is set and whose logic is not yet off; quarters being restored (R341). -/
  parking : BitVec 4
  unparking : BitVec 4
  lastPark : Option Nat
  cap : Nat
  envelope : Nat
  pending : Option Envelope
  rampUp : Nat
  lease : Nat
  safe : Nat
  ballast : Bool
  leaseFrom : Nat
  leased : Bool
  rampCeil : Nat
  /-- Cap, TARGET and parked quarters that a command set on standby alone, in force when the main domain comes up (Table 12-6). -/
  heldCap : Option Nat
  heldTarget : Option Nat
  heldPark : Option (BitVec 4)
  /-- R342: the wave gate driven by the governor; R415: closed for the hold-up. -/
  gate : Bool
  closed : Bool
  /-- Wave-times of 1,024 that the gate of the governor lets pass (R340, R342). -/
  gateDuty : Nat
deriving DecidableEq, Repr

/-- Slew, droop, ceilings, calibration, temperature and the power manager's readings. -/
structure PwrDyn where
  /-- R333, R352: slew in progress: from, to, its start tick; paused. -/
  slew : Option (Nat × Nat × Nat)
  slewPaused : Bool
  slewPause : Nat
  /-- R351: tripped detectors with the depth of the trip; the droop gate. -/
  droop : Sparse Nat
  droopGate : Bool
  droopActive : Bool
  droopQuad : Nat
  droopDepth : Nat
  /-- The trips since the gate began, each of which writes a record at its end (R352). -/
  droopTrips : List (Nat × Nat)
  /-- R348, R350: core and companion thermal ceilings, core current ceiling, over-current episode. -/
  coreCeil : Nat
  compCeil : Nat
  currCeil : Nat
  episode : Bool
  readings : Sparse Int
  compReadings : Sparse Int
  edgeReadings : Sparse Int
  /-- Ticks of the last lowering and raising of the core and of the companion ceiling. -/
  lastLower : Option Nat
  lastRaise : Option Nat
  compLower : Option Nat
  compRaise : Option Nat
  coolTick : Option Nat
  lastTempPark : Option Nat
  /-- R345: gains, disagreement, windows that disagree, windows that agree, CALIBRATION active. -/
  gainArr : Nat
  gainEng : Nat
  disagree : Nat
  windows : Nat
  agree : Nat
  followHigh : Bool
deriving DecidableEq, Repr

/-- The power manager's registers that report (Table 12-9). -/
structure PwrRegs where
  input : Nat
  est : Nat
  /-- PWR_ENERGY in units of 10 nJ: one mW over a governor period of 10 µs (R340). -/
  energy : Nat
  railPower : Sparse Nat
  railCurrent : Sparse Nat
  thrNow : BitVec 12
  thrTime : Sparse Word64
  thrEvents : Sparse Word64
  shares : Sparse Share
  /-- The open phases, oldest hint first. -/
  phases : List Solstice
deriving DecidableEq, Repr

/-! ### The machine -/

/-- The module. -/
structure State where
  boot : Boot
  flash : Flash
  cp : Cp
  tileMap : Sparse TileMapEntry
  tiles : Sparse Tile
  streams : Streams
  sync : Sync
  scales : Scales
  job : Job
  grp : Grp
  grpStats : GrpStats
  comp : Comp
  mem : Mem
  d2d : D2d
  chd : Chd
  hst : Hst
  eth : Eth
  pwr : Pwr
  pwrDyn : PwrDyn
  pwrRegs : PwrRegs
  alm : Alm
  /-- What the module has put on its links, newest first (the model's own record of its outputs). -/
  out : List Out
  /-- Draws of free values so far (the model's own field; Config.freeWord). -/
  free : Nat
  /-- The commands that wait, first in, first out. -/
  pending : List Instr
deriving DecidableEq, Repr

/-- The faults of the machine. The module's own faults are Almanac records, statuses and register bits; none of them stops
the machine. -/
inductive Fault where
  /-- Raised by the commands that apply a supply when its voltage lies beyond the absolute limits of Table 15-3, where
  'damage may occur, and no rule of this manual holds' (R414). Safe: the machine stops where the spec gives no effect. -/
  | supplyBeyondAbsolute
deriving DecidableEq, Repr

/-- The refusals of the machine. -/
inductive Refusal where
  /-- Raised by an arm of exec whose command has no meaning yet. Safe: nothing is claimed of it. -/
  | notModelled (mnemonic : String)
deriving DecidableEq, Repr

/-! ### Reset values -/

namespace Reset

def slot : InjSlot := ⟨false, false, 0, 0, 0, 0, 0, 0, 0, 0, 0⟩

def alm : Alm where
  ring := []; nextSeq := 0; flushing := false; flushDue := false; flushLevel := 1536; bySeverity := false
  keepUnits := 64; cfgMismatch := false; flashFull := false; lost := 0; lostRing := 0; lostFlash := 0; lostSeq := 0; lostSeqFlash := 0; folded := 0
  smbViol := 0; flash := []; head := 0; erased := List.range 128; flushedSeq := none; rows := []; slots := []
  injKeys := []

def boot : Boot where
  standby := false; main := false; fallback := false; standbyLost := none; modCount := 0; hiLatch := none; phase := 0; holdCause := 0
  springHeld := false; ready := false; mainOn := false; cfgDefaulted := false; image := 0; imageFallback := false
  identityOk := false; lmsLow := false; romOnly := false; powerOn := false; autoInhibit := false; offUntil := none
  shutdown := none; startupTick := 0; phase8Tick := 0; rails := [false, false, false, false, false, false]
  faulted := false; smbAlert := false; tap := .idcode; resume := none; waiter := none

def flash : Flash where
  bytes := []; mcb := []; mcbRead := []; mcbWrite := none; mcbNext := none; header := []; running := 0; other := 0; digest := []
  seed := none; serial := 0; lmsNext := 0; lmsClaimed := 0; lastAttest := none; codeMem := []; codeLocked := false

/-- Table 13-6: LAST_SEQ starts at 0xFFFF_FFFF. -/
def mailbox : Mailbox := ⟨[], 0xFFFFFFFF, 0, .idle, [], [], 0, 0, false, none⟩

def cp : Cp where
  up := false; restarting := false; halted := false; unstable := false; watchdog := 0; expiry := none; reload := none; lostCmd := none
  restarts := []; resets := 0; mbx := []; smb := mailbox; mb15 := []; mb15From := none; mbDone := []; lastCorrelate := none; selftest := none

def jvi : JviCtx := ⟨false, 0, 0, 0, [], [], [], 0, [], 0, 0, []⟩

/-- Table 03-10: ENG_CTRL resets to 0x0000_0000_0064_0000, RAMP_IDLE 100. -/
def tileRegs : TileRegs where
  ctrl := 0x640000; state := .idle; split := false; cpScratch := false; pmHalt := false; gateSlot := 0; haltPart := 0; rampStep := 0; rampWaves := 0
  idleSince := none; waves := 0; haltTicks := 0; snapWaves := 0; snapHalt := 0; snapTick := 0; fault := 0; poison := 0
  abortResult := 0; zeroBlocks := 0; chainTrunc := 0; residueErr := 0; residueStep := false

def tileWork : TileWork := ⟨none, none, [], [], none, none, [], [], [], [], [], []⟩
def tileMem : TileMem := ⟨[], [], [], []⟩
def tile : Tile := ⟨.spareUntested, tileRegs, tileWork, tileMem, jvi⟩
def tileMapEntry : TileMapEntry := ⟨false, 0, 0⟩

/-- Table 06-16: LOG2N resets to 6. -/
def queue : Queue where
  base := 0; enable := false; log2n := 6; seqStart := 0; bell := none; expect := 0; head := 0; state := .disabled
  staleCount := 0; attempts := 0; lastStep := none; window := []; hostMark := 0; doneAhead := []; disabling := false; waitSince := none; jnlFull := false

def streams : Streams where
  queues := []; qerr0 := 0; qerr1 := 0; jnlBase := 0; jnlSize := 0; jnlUsed := 0; jnlPos := 0; jnlFail := 0; jnlFails := 0; hostLost := false
  dbViolations := 0; journal := []; fullStep := none; held := false; posts := []; wrSent := []; wrAcked := []

def counter : Counter := ⟨0, false, false⟩
def sync : Sync := ⟨[], [], []⟩

/-- Table 04-7: LAYER 0xFFFF; RETURN_STEPS 256, E_HI 127, THR 12, H 1. -/
def scaleRec : ScaleRec := ⟨0x00000000FFFF0000, 0x010000000003FB08, 0, 0⟩
def scales : Scales := ⟨[], [], [], none, [], false, [], false, [], []⟩

def job : Job where
  slots := []; step := 0; committed := 0; waiting := []; finalGiven := false; replaying := false; faultReplay := false; switched := 0
  quota := []; grants := []; verdict := 0; lastCommit := none; lastSkip := none

/-- Table 10-9: HB_MISS 5, VOTE_LIMIT 10,000,000, XVOTE_LIMIT 20,000,000; R280: the default succession list; R293: factor
72. -/
def grpCfg : GrpCfg where
  groupId := 0; groups := []; succession := [0, 36, 32, 4, 18, 54, 50, 22]; hbMiss := 5; voteSc := 0; voteThreshold := 0
  resultSc := 0; voteGrace := 0; voteLimit := 10000000; xvoteLimit := 20000000; deadlineMin := 0; deadlineMax := 0
  foldBase := 0; foldSize := 0; policy := 0; factor := 72

def grp : Grp where
  cfg := grpCfg; role := .member; epoch := 0; pos := none; phase := 5; recCase := 0; recStep := 0; recTarget := 0
  recStart := 0; failed := []; apexEntry := 0; claimDue := none; apexMissed := 0; heard := []; missed := []; voted := false; voteHeld := none; slots := []
  lastVote := none; lastDigest := none; rowVotes := []; colVotes := []; groupVotes := []; voteStart := none
  groupHeard := []; groupHeld := []; lost := false; restoring := []; spanStart := none; lastOwn := 0; expired := false; lateStart := 0; prevDeadline := 0
  apexState := none; digests := []; substitute := false; returning := none; recPos := 0; readyStep := none; noDeadline := false; straggles := false; newPos := none
  hbHeld := 0; mbSeq := 0

def grpStats : GrpStats := ⟨0, [], 0, 0, 0, 0, 0⟩

def comp : Comp := ⟨[], [], none, [], none, none, none, none, none, none, [], 0, [], [], 0, []⟩

def channel : Channel := ⟨.up, 0, 0, 0, 0, 0, 0, 0, 0, [], 0, 0, 0, .up⟩
def remap : Remap := ⟨false, 0, 0, 0⟩
def lpChannel : LpChannel := ⟨false, 0, 0, 0, 0⟩

/-- Table 08-7: MIG_RATE 16, HOLD_LIMIT 50, SCRUB_EN 1, THERM_RETIRE_EN 1. -/
def mem : Mem where
  g7 := []; slow := []; badG7 := []; badSlow := []; gradFmt := []; crecSeq := []; crecFwd := []; deadFrom := []; parked := []; reserve := .free; reserveCh := 0; hold := false
  holdSince := 0; gen := 0; ctrl := 0x0000100000320003; remap0 := remap; remap1 := remap; switchDue := false; migDone := 0
  jnlCopy := 0; scrubPass := 0; scrubG7 := 0; scrubSlow := 0; channels := []; lps := []; lpTemp := []; coolSince := none

/-- R30: 64 data lanes and 4 redundant lanes at bring-up. -/
def d2dLink : D2dLink := ⟨4, List.range 64, [], none, false⟩
def d2d : D2d := ⟨[], []⟩

/-- Table 09-10: SPARE_FOR 0xF, DIR 0xF, STATE DOWN, ACTIVE_LANES 0; R255: 32 credits in their pools. -/
def port : Port where
  state := .down; dir := 15; spareFor := 15; lanes := 0; retrains := 0; peer := 0; tx := 0; rx := 0; fecCorr := 0
  crcErr := 0; retries := 0; viol := 0; transit := 0; laneMap := [0, 1, 2, 3, 4, 5, 6, 7, 8]; swapSince := 0; swapCause := 0
  swapLane := 0; txSeq := 0; replay := []; resend := []; acked := 0xFFFF; rxSeq := 0xFFFF; nakOut := false; nakSeq := 0
  nakRun := 0; credits := [2, 2, 2, 2, 4]; shared := 20; usedShared := [0, 0, 0, 0, 0]; returns := [0, 0, 0, 0, 0]
  slots := []; wrr := [0, 0, 0]; sendQ := []; laneErrs := []; viols := []; transitCr := 4
  trainPending := false; failsInRow := 0; retrainSince := 0; lossRetrain := false; sinceMarker := 0

/-- Table 09-10: CHD_ARB 4, 2, 4, 4, 1; CHD_SLICE 0 to 7; CHD_VIOL_LIMIT 16. -/
def chd : Chd where
  cfg := 0; arb := 0x42040401; deadline := 0; slice := 0x070700; violLimit := 16; frozenDrop := 0; lateBlocks := 0
  dropped := 0; pos := []; ports := []; reduce := []; wstream := []; wrecv := []; wown := []; landed := []; stopped := []; own := []; ownStep := []
  rin := []; rinLate := []; partials := []; partLate := []; ringSum := []; ringSent := []; ringDone := []; ringIn := []; ringOut := []
  scaleOut := []; late := []; fold := []; ctlIn := []; wrDone := []; wreq := []; dirLost := []; turn := []

/-- Table 09-10: COL_k resets to k. -/
def chdPos : Word64 := 0x76543210

/-- Table 11-9: DOWN_LIMIT 100, FLUSH_PERIOD 100. -/
def hst : Hst where
  gen := 0; width := 0; bme := false; msixEn := false; d3hot := false; link := .down; ctrl := 0x640064; wlogBase := 0
  wlogSize := 0; linkDowns := 0; replayed := 0; viol := 0; oor := 0; watch := []; msixTable := []; pba := []; wlog := []; wlogPos := 0; handed := 0
  flushOut := false; flushTick := 0; lastAddr := none; wait := []; downSince := 0; aer := 0; aerCorr := 0; ranges := []; replaceList := false
  mem := []

/-- RFC 6298 starts the timeout at 1 s, which R326 clamps to 6,400,000 ticks. -/
def conn : Conn where
  state := .closed; localId := 0; remoteId := 0; remote := 0; ports := 0; lastPort := 0; mtu := 0; openRoute := none
  rate := 0; target := 0; alpha := 65536; sinceCut := 0; rateTick := 0; txBytes := 0; retx := 0; cnp := 0; psn := 0; sendQ := []
  unacked := []; lastAck := 0; dupAcks := 0; window := 4096; nextMsg := 1; pending := []; rxPsn := 0; rxAhead := []; reorder := []
  msgs := []; doneMsg := 0; unackedRx := 0; ackTick := 0; cnpTick := none; lastHeard := 0; timer := none; rto := 6400000; srtt8 := 0
  rttvar4 := 0; expiries := 0

def ethPort : EthPort := ⟨0, 0, 0, 0, 0, 0, 0, 0, [], false, 0, []⟩

/-- Table 11-9 FDT_CFG: RETRY_LIMIT 12, PORT 47,207; Table 11-6: g 1/16, T 5,500, A 2 Gb/s. -/
def eth : Eth where
  ports := []; conns := []; retryLimit := 12; dscp := 0; udpPort := 47207; viol := 0; dropped := 0; gShift := 4
  periodT := 5500; stepA := 2000; closeTicks := []; ids := []; inbox := []

/-- Table 12-9: TARGET 620, SETPOINT and COMP_SP 550, limits 1,200; before main input REGIME is NONE (R332). -/
def pwr : Pwr where
  regime := .none_; target := 620; setpoint := 550; compSp := 550; parkedLimit := 0; parkedTemp := 0; parkedCmd := 0
  parking := 0; unparking := 0; lastPark := none; cap := 1200; envelope := 1200; pending := none; rampUp := 0; lease := 0
  safe := 1200; ballast := false; leaseFrom := 0; leased := false; rampCeil := 1200; heldCap := none; heldTarget := none; heldPark := none
  gate := false; closed := false; gateDuty := 1024

def pwrDyn : PwrDyn where
  slew := none; slewPaused := false; slewPause := 0; droop := []; droopGate := false; droopActive := false; droopQuad := 0
  droopDepth := 0; droopTrips := []; coreCeil := 680; compCeil := 680; currCeil := 680; episode := false; readings := []; compReadings := []
  edgeReadings := []; lastLower := none; lastRaise := none; compLower := none; compRaise := none; coolTick := none; lastTempPark := none; gainArr := 0x4000
  gainEng := 0x4000; disagree := 0; windows := 0; agree := 0; followHigh := false

/-- Table 12-9: DUTY resets to 1,024. -/
def share : Share := ⟨false, 0, 0, 1024, 0, 0, false⟩

def pwrRegs : PwrRegs where
  input := 0; est := 0; energy := 0; railPower := []; railCurrent := []; thrNow := 0; thrTime := []; thrEvents := []
  shares := []; phases := []

end Reset

/-- The module as it leaves the factory test, before standby is applied: every register at the reset value that the spec
states, every other at the value that notes/assumptions/2.md names. Start-up then runs by commands, from STANDBY_APPLY. -/
def State.reset : State where
  boot := Reset.boot; flash := Reset.flash; cp := Reset.cp; tileMap := []; tiles := []; streams := Reset.streams
  sync := Reset.sync; scales := Reset.scales; job := Reset.job; grp := Reset.grp; grpStats := Reset.grpStats
  comp := Reset.comp; mem := Reset.mem; d2d := Reset.d2d; chd := Reset.chd; hst := Reset.hst; eth := Reset.eth
  pwr := Reset.pwr; pwrDyn := Reset.pwrDyn; pwrRegs := Reset.pwrRegs; alm := Reset.alm; out := []; free := 0; pending := []

end Sys2Proof.Machine
end

