-- ==== Sys2Proof/Machine/Assoc.lean ====
section
/-! DEFINITION. Sparse arrays and memories in their one canonical form: strictly rising indices and no entry equal to the
default. A memory is a sparse array of bytes whose default is 0 (notes/assumptions/2.md). -/

namespace Sys2Proof.Machine

/-- The entry of index i, the default where none is listed. -/
def Sparse.get {α : Type} (d : α) : Sparse α → Nat → α
  | [], _ => d
  | (k, v) :: r, i => if k = i then v else Sparse.get d r i

/-- Insertion before the first larger index. -/
def Sparse.ins {α : Type} (i : Nat) (v : α) : Sparse α → Sparse α
  | [] => [(i, v)]
  | (k, w) :: r => if i < k then (i, v) :: (k, w) :: r else (k, w) :: Sparse.ins i v r

/-- The list without index i. -/
def Sparse.del {α : Type} (i : Nat) : Sparse α → Sparse α
  | [] => []
  | (k, w) :: r => if k = i then Sparse.del i r else (k, w) :: Sparse.del i r

/-- The array with v at index i: an entry equal to the default is not listed. -/
def Sparse.put {α : Type} [DecidableEq α] (d : α) (l : Sparse α) (i : Nat) (v : α) : Sparse α :=
  if v = d then Sparse.del i l else Sparse.ins i v (Sparse.del i l)

/-- The canonical form. -/
def Sparse.wf {α : Type} [DecidableEq α] (d : α) : Sparse α → Bool
  | [] => true
  | (_, v) :: [] => decide (v ≠ d)
  | (k, v) :: (j, w) :: r => decide (v ≠ d) && decide (k < j) && Sparse.wf d ((j, w) :: r)

/-- The byte at an address. -/
def Memory.read (m : List Host.Cell) (a : Nat) : Byte := Sparse.get 0 m a

/-- The n bytes from an address on. -/
def Memory.bytes (m : List Host.Cell) (a n : Nat) : List Byte := (List.range n).map fun i => Memory.read m (a + i)

/-- Stores bytes at rising addresses from a. -/
def Memory.write (m : List Host.Cell) (a : Nat) : List Byte → List Host.Cell
  | [] => m
  | b :: bs => Memory.write (Sparse.put 0 m a b) (a + 1) bs

/-- The canonical form of a memory. -/
def Memory.wf (m : List Host.Cell) : Bool := Sparse.wf 0 m

end Sys2Proof.Machine
end

