-- ==== Sys2Proof/Machine/Bits.lean ====
section
/-! DEFINITION. Bit fields, byte order (R11), the CRCs of the module, and the 288/256 code's field arithmetic (R222). -/

namespace Sys2Proof.Machine

/-- Bits lo + n − 1 down to lo of a number. -/
def bitsOf (v lo n : Nat) : Nat := v / 2 ^ lo % 2 ^ n

/-- Bit i of a number. -/
def bitOf (v i : Nat) : Bool := v / 2 ^ i % 2 == 1

/-- A field of a 64-bit register. -/
def fld (w : Word64) (lo n : Nat) : Nat := bitsOf w.toNat lo n

/-- A 64-bit register with one field replaced. -/
def setFld (w : Word64) (lo n v : Nat) : Word64 :=
  BitVec.ofNat 64 (w.toNat - fld w lo n * 2 ^ lo + v % 2 ^ n * 2 ^ lo)

/-- A Bool as a bit. -/
def bit (b : Bool) : Nat := if b then 1 else 0

/-- The number that little-endian bytes spell (R11). -/
def leNat : List Byte → Nat
  | [] => 0
  | b :: bs => b.toNat + 256 * leNat bs

/-- n little-endian bytes of a number (R11). -/
def leBytes : Nat → Nat → List Byte
  | 0, _ => []
  | n + 1, v => BitVec.ofNat 8 v :: leBytes n (v / 256)

/-- The number that big-endian bytes spell (FDT headers, R323). -/
def beNat (bs : List Byte) : Nat := leNat bs.reverse
/-- n big-endian bytes of a number. -/
def beBytes (n v : Nat) : List Byte := (leBytes n v).reverse

/-- Bytes off to off + n − 1 of a block, zero beyond its end. -/
def slice (bs : List Byte) (off n : Nat) : List Byte :=
  let t := (bs.drop off).take n
  t ++ List.replicate (n - t.length) 0

/-- The little-endian field of n bytes at an offset. -/
def le (bs : List Byte) (off n : Nat) : Nat := leNat (slice bs off n)
/-- The big-endian field of n bytes at an offset. -/
def be (bs : List Byte) (off n : Nat) : Nat := beNat (slice bs off n)

/-- A block of n bytes from bytes given, zero-filled. -/
def padTo (n : Nat) (bs : List Byte) : List Byte := slice bs 0 n

/-- Replaces the bytes at an offset inside a block. -/
def patch (bs : List Byte) (off : Nat) (v : List Byte) : List Byte :=
  bs.take off ++ v ++ bs.drop (off + v.length)

/-- All bytes are zero. -/
def allZero (bs : List Byte) : Bool := bs.all (· == 0)

/-- A signed reading of an n-bit field. -/
def signedOf (n v : Nat) : Int := if v < 2 ^ (n - 1) then v else (v : Int) - 2 ^ n

/-- The n-bit two's complement of an integer. -/
def twos (n : Nat) (v : Int) : Nat := (v % (2 ^ n : Int)).toNat

/-- Eight steps of a CRC register that shifts right, reflected polynomial p. -/
def crcStepR (p c : Nat) : Nat → Nat
  | 0 => c
  | n + 1 => crcStepR p (if c % 2 = 1 then (c / 2) ^^^ p else c / 2) n

/-- CRC-32C: polynomial 0x1EDC6F41 reflected, initial and final value all ones. -/
def crc32c (bs : List Byte) : Nat :=
  bs.foldl (fun c b => crcStepR 0x82F63B78 (c ^^^ b.toNat) 8) 0xFFFFFFFF ^^^ 0xFFFFFFFF

/-- Eight steps of a 16-bit CRC register that shifts left. -/
def crcStepL (p c : Nat) : Nat → Nat
  | 0 => c
  | n + 1 => crcStepL p (if c / 32768 % 2 = 1 then (c * 2 % 65536) ^^^ p else c * 2 % 65536) n

/-- CRC-16 of polynomial 0x1021, initial value 0xFFFF, most significant bit first. -/
def crc16 (bs : List Byte) : Nat :=
  bs.foldl (fun c b => crcStepL 0x1021 (c ^^^ (b.toNat * 256)) 8) 0xFFFF

end Sys2Proof.Machine
end

