-- ==== Sys2Proof/Machine/Code.lean ====
section
/-! DEFINITION. The 288/256 code (R222, R223) and the flit FEC (R251): Reed-Solomon codes over GF(2^8) with four check
bytes. -/

namespace Sys2Proof.Machine

/-- Multiplication by x in GF(2^8), field polynomial x^8 + x^4 + x^3 + x^2 + 1 (R222). -/
def gfDouble (a : Nat) : Nat := if a < 128 then 2 * a else (2 * a - 256) ^^^ 0x1D

def gfMulFrom (a b : Nat) : Nat → Nat
  | 0 => 0
  | n + 1 => (if b % 2 = 1 then a else 0) ^^^ gfMulFrom (gfDouble a) (b / 2) n

/-- Multiplication in GF(2^8). -/
def gfMul (a b : Nat) : Nat := gfMulFrom a b 8

/-- α^n. -/
def gfExp : Nat → Nat
  | 0 => 1
  | n + 1 => gfDouble (gfExp n)

def gfPow (a : Nat) : Nat → Nat
  | 0 => 1
  | n + 1 => gfMul a (gfPow a n)

/-- The inverse: a^254. -/
def gfInv (a : Nat) : Nat := gfPow a 254

/-- One step of division by g(x) = x^4 + 15 x^3 + 54 x^2 + 120 x + 64, the product of (x − α^i) for i from 0 to 3. -/
def rsStep (c : Nat × Nat × Nat × Nat) (b : Byte) : Nat × Nat × Nat × Nat :=
  let f := c.1 ^^^ b.toNat
  (c.2.1 ^^^ gfMul f 15, c.2.2.1 ^^^ gfMul f 54, c.2.2.2 ^^^ gfMul f 120, gfMul f 64)

/-- The four check bytes of data bytes, the first the highest coefficient (R222, R251). -/
def rsCheck (data : List Byte) : List Byte :=
  let c := data.foldl rsStep (0, 0, 0, 0)
  [BitVec.ofNat 8 c.1, BitVec.ofNat 8 c.2.1, BitVec.ofNat 8 c.2.2.1, BitVec.ofNat 8 c.2.2.2]

/-- The value of the codeword polynomial at α^i. -/
def rsSyndrome (cw : List Byte) (i : Nat) : Nat := cw.foldl (fun s b => gfMul s (gfExp i) ^^^ b.toNat) 0

/-- What a decoder finds: the data, corrected bytes counted, or an uncorrectable word. -/
inductive RsResult where
  | clean
  | fixed (errs : List (Nat × Nat))
  | bad
deriving DecidableEq, Repr

/-- Decodes a word with four check bytes, correcting at most t bytes (R222: one of 36; R251: two of 128). The errors are
(byte index, value to XOR). -/
def rsDecode (cw : List Byte) (t : Nat) : RsResult :=
  let n := cw.length
  let s0 := rsSyndrome cw 0
  let s1 := rsSyndrome cw 1
  let s2 := rsSyndrome cw 2
  let s3 := rsSyndrome cw 3
  if s0 = 0 ∧ s1 = 0 ∧ s2 = 0 ∧ s3 = 0 then .clean
  else
    match (List.range n).find? fun p => gfMul s0 (gfExp p) == s1 && gfMul s1 (gfExp p) == s2 && gfMul s2 (gfExp p) == s3 with
    | some p => if s0 = 0 then .bad else .fixed [(n - 1 - p, s0)]
    | none =>
      let det := gfMul s0 s2 ^^^ gfMul s1 s1
      if t < 2 ∨ det = 0 then .bad
      else
        let di := gfInv det
        let l1 := gfMul (gfMul s0 s3 ^^^ gfMul s1 s2) di
        let l2 := gfMul (gfMul s1 s3 ^^^ gfMul s2 s2) di
        let roots := (List.range n).filter fun p => gfMul (gfExp p) (gfExp p) ^^^ gfMul l1 (gfExp p) ^^^ l2 == 0
        match roots with
        | [p, q] =>
          let x := gfExp p
          let y := gfExp q
          let ep := gfMul (s1 ^^^ gfMul s0 y) (gfInv (x ^^^ y))
          .fixed [(n - 1 - p, ep), (n - 1 - q, s0 ^^^ ep)]
        | _ => .bad

/-- A word with the errors found removed. -/
def rsApply (cw : List Byte) (errs : List (Nat × Nat)) : List Byte :=
  errs.foldl (fun w e => w.set e.1 ((w[e.1]?.getD 0) ^^^ BitVec.ofNat 8 e.2)) cw

/-- The poison word (R223). -/
def poisonWord : List Byte := List.replicate 32 0 ++ List.replicate 4 0xFF

/-- The codeword of 32 data bytes (R222). -/
def codeword (data : List Byte) : List Byte := data ++ rsCheck data

/-- What the decoder of the 288/256 code reports of 36 bytes: the data and the health (R222, R223). -/
def decodeWord (cw : List Byte) : List Byte × CwHealth :=
  if cw = poisonWord then (List.replicate 32 0, .poison)
  else
    match rsDecode cw 1 with
    | .clean => (cw.take 32, .good)
    | .fixed e => ((rsApply cw e).take 32, .correctable)
    | .bad => (cw.take 32, .uncorrectable)

end Sys2Proof.Machine
end

