-- ==== Sys2Proof/Machine/Ops.lean ====
section
/-! DEFINITION. The shared operations of the machine: parts of the state, outputs, host-bound requests (R313 to R318), control
messages over chords (R262), the Almanac (R389 to R406) and module time (R51, R55). -/

namespace Sys2Proof.Machine

/-! ### Parts of the state -/

def State.onBoot (s : State) (f : Boot → Boot) : State := { s with boot := f s.boot }
def State.onFlash (s : State) (f : Flash → Flash) : State := { s with flash := f s.flash }
def State.onCp (s : State) (f : Cp → Cp) : State := { s with cp := f s.cp }
def State.onStreams (s : State) (f : Streams → Streams) : State := { s with streams := f s.streams }
def State.onSync (s : State) (f : Sync → Sync) : State := { s with sync := f s.sync }
def State.onScales (s : State) (f : Scales → Scales) : State := { s with scales := f s.scales }
def State.onJob (s : State) (f : Job → Job) : State := { s with job := f s.job }
def State.onGrp (s : State) (f : Grp → Grp) : State := { s with grp := f s.grp }
def State.onGrpStats (s : State) (f : GrpStats → GrpStats) : State := { s with grpStats := f s.grpStats }
def State.onComp (s : State) (f : Comp → Comp) : State := { s with comp := f s.comp }
def State.onMem (s : State) (f : Mem → Mem) : State := { s with mem := f s.mem }
def State.onD2d (s : State) (f : D2d → D2d) : State := { s with d2d := f s.d2d }
def State.onChd (s : State) (f : Chd → Chd) : State := { s with chd := f s.chd }
def State.onHst (s : State) (f : Hst → Hst) : State := { s with hst := f s.hst }
def State.onEth (s : State) (f : Eth → Eth) : State := { s with eth := f s.eth }
def State.onPwr (s : State) (f : Pwr → Pwr) : State := { s with pwr := f s.pwr }
def State.onPwrDyn (s : State) (f : PwrDyn → PwrDyn) : State := { s with pwrDyn := f s.pwrDyn }
def State.onPwrRegs (s : State) (f : PwrRegs → PwrRegs) : State := { s with pwrRegs := f s.pwrRegs }
def State.onAlm (s : State) (f : Alm → Alm) : State := { s with alm := f s.alm }

/-- Puts an output on the module's links. -/
def State.emit (s : State) (o : Out) : State := { s with out := o :: s.out }

/-- Draws a free value: the word and the state with the draw counted. -/
def State.draw (s : State) : BitVec 64 × State := (Config.freeWord s.free, { s with free := s.free + 1 })

/-- Physical tile p (Table 01-4). -/
def State.tile (s : State) (p : Nat) : Tile := Sparse.get Reset.tile s.tiles p
def State.onTile (s : State) (p : Nat) (f : Tile → Tile) : State :=
  { s with tiles := Sparse.put Reset.tile s.tiles p (f (s.tile p)) }
/-- TILE_MAP[e]. -/
def State.tmap (s : State) (e : Nat) : TileMapEntry := Sparse.get Reset.tileMapEntry s.tileMap e
def State.setTmap (s : State) (e : Nat) (m : TileMapEntry) : State :=
  { s with tileMap := Sparse.put Reset.tileMapEntry s.tileMap e m }
/-- The physical tile that serves logical engine e, if one does (R93, R95). -/
def State.ptile (s : State) (e : Nat) : Option Nat := if (s.tmap e).valid then some (s.tmap e).ptile else none

def State.queue (s : State) (q : Nat) : Queue := Sparse.get Reset.queue s.streams.queues q
def State.onQueue (s : State) (q : Nat) (f : Queue → Queue) : State :=
  s.onStreams fun t => { t with queues := Sparse.put Reset.queue t.queues q (f (s.queue q)) }
def State.port (s : State) (p : Nat) : Port := Sparse.get Reset.port s.chd.ports p
def State.onPort (s : State) (p : Nat) (f : Port → Port) : State :=
  s.onChd fun c => { c with ports := Sparse.put Reset.port c.ports p (f (s.port p)) }
def State.conn (s : State) (k : Nat) : Conn := Sparse.get Reset.conn s.eth.conns k
def State.onConn (s : State) (k : Nat) (f : Conn → Conn) : State :=
  s.onEth fun t => { t with conns := Sparse.put Reset.conn t.conns k (f (s.conn k)) }
def State.ethPort (s : State) (i : Nat) : EthPort := Sparse.get Reset.ethPort s.eth.ports i
def State.onEthPort (s : State) (i : Nat) (f : EthPort → EthPort) : State :=
  s.onEth fun t => { t with ports := Sparse.put Reset.ethPort t.ports i (f (s.ethPort i)) }
def State.channel (s : State) (c : Nat) : Channel := Sparse.get Reset.channel s.mem.channels c
def State.onChannel (s : State) (c : Nat) (f : Channel → Channel) : State :=
  s.onMem fun m => { m with channels := Sparse.put Reset.channel m.channels c (f (s.channel c)) }
def State.lp (s : State) (l : Nat) : LpChannel := Sparse.get Reset.lpChannel s.mem.lps l
def State.onLp (s : State) (l : Nat) (f : LpChannel → LpChannel) : State :=
  s.onMem fun m => { m with lps := Sparse.put Reset.lpChannel m.lps l (f (s.lp l)) }
def State.scaleRec (s : State) (i : Nat) : ScaleRec := Sparse.get Reset.scaleRec s.scales.recs i
def State.setScaleRec (s : State) (i : Nat) (r : ScaleRec) : State :=
  s.onScales fun c => { c with recs := Sparse.put Reset.scaleRec c.recs i r }
/-- CHD_POS[y] (Table 09-10). -/
def State.chdPos (s : State) (y : Nat) : Word64 := Sparse.get Reset.chdPos s.chd.pos y
/-- Word w of REDUCE_STREAM[st], word k of WSTREAM[w] (Table 09-11). -/
def State.rword (s : State) (st w : Nat) : Word64 := Sparse.get 0 s.chd.reduce (8 * st + w)
def State.wword (s : State) (w k : Nat) : Word64 := Sparse.get 0 s.chd.wstream (4 * w + k)

/-- REDUCE_STREAM[st]: VALID, FROZEN; CHUNK; blocks of the stream. -/
def rValid (s : State) (st : Nat) : Bool := fld (s.rword st 0) 63 1 == 1
def rFrozen (s : State) (st : Nat) : Bool := fld (s.rword st 0) 62 1 == 1
def State.chunk (s : State) (st : Nat) : Nat := (s.rword st 6).toNat
def State.rBlocks (s : State) (st : Nat) : Nat := ((s.rword st 1).toNat + 31) / 32
/-- Key of a block, codeword or unit n of a stream. -/
def rKey (st n : Nat) : Nat := st * 2 ^ 32 + n

/-- Groups of the installation (R278). -/
def State.groups (s : State) : Nat := max 1 s.grp.cfg.groups.length
/-- The place of this group in the list of active groups; a list that does not name it, or names no other, makes it group 0. -/
def State.groupNo (s : State) : Nat :=
  let g := s.grp.cfg.groups
  if g.contains s.grp.cfg.groupId.toNat then g.idxOf s.grp.cfg.groupId.toNat else 0
/-- The FDT connection slot of a group, and the group of a slot. -/
def State.groupSlot (s : State) (g : Nat) : Nat := s.grp.slots.getD g g
def State.slotGroup (s : State) (k : Nat) : Nat := if s.grp.slots.contains k then s.grp.slots.idxOf k else k

/-- A JVI context (R188). -/
def State.ctx (s : State) : Ctx → JviCtx
  | .core c => Sparse.get Reset.jvi s.comp.cores c.val
  | .engine e => match s.ptile e.val with
    | some p => (s.tile p).vec
    | none => Reset.jvi
def State.setCtx (s : State) (c : Ctx) (x : JviCtx) : State :=
  match c with
  | .core k => s.onComp fun t => { t with cores := Sparse.put Reset.jvi t.cores k.val x }
  | .engine e => match s.ptile e.val with
    | some p => s.onTile p fun t => { t with vec := x }
    | none => s

/-- Present time: MOD_COUNT as a number. -/
def State.now (s : State) : Nat := s.boot.modCount.toNat
/-- The present step number (R422), modulo 2^32. -/
def State.stepNo (s : State) : Nat := s.job.step.toNat
/-- Whether a job runs on the module (R386). -/
def State.jobRuns (s : State) : Bool := !s.job.slots.isEmpty
/-- Whether the main domain is up (Table 13-6 MAIN_ON). -/
def State.mainUp (s : State) : Bool := s.boot.mainOn

/-- The always-on domain is powered: by standby, or by the fallback converter during an ordered shutdown (R32). -/
def State.aoUp (s : State) : Bool := s.boot.standby || s.boot.fallback

/-- Adds 1 to a 64-bit counter, which wraps to zero. -/
def inc (w : Word64) : Word64 := w + 1
/-- Adds to a 64-bit counter. -/
def addW (w : Word64) (n : Nat) : Word64 := w + BitVec.ofNat 64 n

/-! ### Codewords of G7 (R228, R237) -/

/-- The exclusive or of the 7-bit pieces of a row (R228). -/
def rowFold : Nat → Nat → Nat
  | 0, _ => 0
  | n + 1, x => if x = 0 then 0 else (x % 128) ^^^ rowFold n (x / 128)

/-- place(offset) of R228: channel and slot of a G7 byte offset. -/
def g7Place (off : Nat) : Nat × Nat :=
  let g := off / 512
  let row := g / 80
  ((g % 80 + row + 3 * rowFold 8 row) % 80, row)

/-- The health of a codeword not listed in Mem.badG7: poison in the slots a dead channel lost (R237), else good. -/
def State.g7Rule (s : State) (cw : Nat) : CwHealth :=
  let p := g7Place (32 * cw)
  if s.mem.deadFrom.any fun d => d.1 == p.1 && decide (d.2.1 ≤ p.2) && decide (p.2 < d.2.2) then .poison else .good

def State.g7Health (s : State) (cw : Nat) : CwHealth := Sparse.get (s.g7Rule cw) s.mem.badG7 cw
def State.setG7Health (s : State) (cw : Nat) (h : CwHealth) : State :=
  s.onMem fun m => { m with badG7 := Sparse.put (s.g7Rule cw) m.badG7 cw h }

/-- The codewords that `len` bytes from `off` touch. -/
def cwSpan (off len : Nat) : List Nat :=
  if len = 0 then [] else (List.range ((off + len - 1) / 32 - off / 32 + 1)).map (off / 32 + ·)

/-! ### Host-bound requests -/

/-- Host-bound requests can be issued: link in L0, Bus Master Enable set, not in D3hot (R315, R318). -/
def State.hostOpen (s : State) : Bool := s.hst.link == .l0 && s.hst.bme && !s.hst.d3hot

/-- Bytes of G7 that an entry of the host write log takes: 16 bytes of address and attributes and the data, in whole codewords. -/
def logSize (n : Nat) : Nat := 32 * ((16 + n + 31) / 32)

/-- An entry of the host write log in G7: address, length, attributes (bit 0 Relaxed Ordering, bit 1 an MSI-X message), data. -/
def logEntry (w : HostWrite) : List Byte :=
  padTo (logSize w.data.length) (leBytes 8 w.addr ++ leBytes 4 w.data.length ++ leBytes 4 (bit w.relaxed + 2 * bit w.msix.isSome) ++ w.data)

/-- Bytes held in the host write log (R314). -/
def State.logUsed (s : State) : Nat := (s.hst.wlog.map fun w => logSize w.data.length).sum

/-- A host-bound write: a posted write or an MSI-X message, which is one too (R318). -/
def Out.isWrite : Out → Bool
  | .hostWrite _ _ _ => true
  | .msix _ => true
  | _ => false

/-- Data bytes of a host-bound write. -/
def Out.dataLen : Out → Nat
  | .hostWrite _ _ d => d.length
  | .msix _ => 4
  | _ => 0

/-- Whether a request finds room in the log: a write when a log exists and would overflow waits (R314). -/
def State.logRoom (s : State) (o : Out) : Bool :=
  !o.isWrite || s.hst.wlogSize == 0 || decide (s.logUsed + logSize o.dataLen ≤ s.hst.wlogSize.toNat)

/-- Stores bytes in G7 as whole codewords. -/
def State.storeG7 (s : State) (off : Nat) (d : List Byte) : State :=
  ((cwSpan off d.length).foldl (fun s cw => s.setG7Health cw .good) s).onMem fun m => { m with g7 := Memory.write m.g7 off d }

/-- Writes an entry into the ring at HST_WLOG_BASE in G7; it goes round the end of the ring (R314). -/
def State.logStore (s : State) (w : HostWrite) : State :=
  let size := s.hst.wlogSize.toNat
  let base := s.hst.wlogBase.toNat
  if size = 0 ∨ 75382128640 < base + size then s
  else
    let pos := s.hst.wlogPos % size
    let e := logEntry w
    let s := (s.storeG7 (base + pos) (e.take (size - pos))).storeG7 base (e.drop (size - pos))
    s.onHst fun h => { h with wlogPos := (pos + e.length) % size }

/-- The log takes a write that is issued; the oldest entries are those that no flush read has acknowledged (R314). -/
def State.logWrite (s : State) (w : HostWrite) : State := (s.logStore w).onHst fun h => { h with wlog := h.wlog ++ [w] }

/-- The memory write that an MSI-X message is: address and data of its table entry. -/
def State.msixWrite (s : State) (v : Nat) : HostWrite :=
  ⟨leNat (Memory.bytes s.hst.msixTable (16 * v) 8), Memory.bytes s.hst.msixTable (16 * v + 8) 4, false, false, some v⟩

/-- Issues a host-bound request: a write lands in host memory and is logged until acknowledged (R314). -/
def State.issueHost (s : State) (o : Out) : State :=
  match o with
  | .hostWrite r a d =>
    ((s.logWrite ⟨a, d, r, false, none⟩).onHst fun h => { h with mem := Memory.write h.mem a d, lastAddr := some a }).emit o
  | .msix v => let w := s.msixWrite v
    ((s.logWrite w).onHst fun h => { h with lastAddr := some w.addr }).emit o
  | o => s.emit o

/-- The host-bound writes acknowledged so far: all handed over but those logged and those that wait (R314). -/
def State.hostAcked (s : State) : Nat := s.hst.handed - (s.hst.wlog.length + (s.hst.wait.filter Out.isWrite).length)

/-- Issues a host-bound request, or lets it wait behind those that wait (R314, R315, R318). -/
def State.hostBound (s : State) (o : Out) : State :=
  let s := if o.isWrite then s.onHst fun h => { h with handed := h.handed + 1 } else s
  if s.hostOpen && s.hst.wait.isEmpty && s.logRoom o then s.issueHost o
  else s.onHst fun h => { h with wait := h.wait ++ [o] }

/-- Issues waiting requests in order while the link and the log allow. -/
def State.drainHostFrom (s : State) : List Out → State
  | [] => s.onHst fun h => { h with wait := [] }
  | o :: r =>
    if s.hostOpen && s.logRoom o then State.drainHostFrom (s.issueHost o) r
    else s.onHst fun h => { h with wait := o :: r }
def State.drainHost (s : State) : State := s.drainHostFrom s.hst.wait

/-- The mask bit of an MSI-X vector (stored complemented). -/
def State.masked (s : State) (v : Nat) : Bool := (Memory.read s.hst.msixTable (16 * v + 12)).toNat % 2 == 0

/-- Sends an MSI-X message (R316): not sent and not held while MSI-X is disabled (R315), pending while masked (R402). -/
def State.msix (s : State) (v : Nat) : State :=
  if !s.hst.msixEn then s
  else if s.masked v then
    (if v ∈ s.hst.pba then s else s.onHst fun h => { h with pba := v :: h.pba })
  else s.hostBound (.msix v)

/-- Writes bytes to host memory; `relaxed` is the Relaxed Ordering attribute (R313). -/
def State.hostWrite (s : State) (relaxed : Bool) (a : Nat) (d : List Byte) : State :=
  if d.isEmpty then s else s.hostBound (.hostWrite relaxed a d)

/-! ### The die-to-die link (R30) -/

def State.d2dLink (s : State) (m dir : Nat) : D2dLink := Sparse.get Reset.d2dLink s.d2d.links (2 * m + dir)
def State.onD2dLink (s : State) (m dir : Nat) (f : D2dLink → D2dLink) : State :=
  s.onD2d fun d => { d with links := Sparse.put Reset.d2dLink d.links (2 * m + dir) (f (s.d2dLink m dir)) }

/-- A link module retrains, in either direction. -/
def State.d2dHeld (s : State) (m : Nat) : Bool := (s.d2dLink m 0).retrain.isSome || (s.d2dLink m 1).retrain.isSome
/-- Some link module retrains. -/
def State.d2dBusy (s : State) : Bool := (List.range 8).any s.d2dHeld

/-- Direction of Table 14-8: 0 compute die to companion, 1 companion to compute die. -/
def d2dDir (toComp : Bool) : Nat := if toComp then 0 else 1

/-- The class and the direction of what waits (R28). -/
def D2dTraffic.lane : D2dTraffic → D2dClass × Nat
  | .unit cls dir _ => (cls, dir)
  | .mirrorOut _ _ _ _ _ => (.gradMirror, 1)
  | .mirrorIn _ _ _ _ _ => (.gradMirror, 0)
  | .reduced _ _ _ _ => (.gradMirror, 0)

/-- Traffic of a class and direction crosses at once: no module retrains, and nothing of its class waits before it (R28, R30). -/
def State.d2dClear (s : State) (cls : D2dClass) (dir : Nat) : Bool :=
  !s.d2dBusy && !s.d2d.waiting.any fun w => w.lane == (cls, dir)

/-- Traffic waits at its source. -/
def State.d2dWait (s : State) (w : D2dTraffic) : State := s.onD2d fun d => { d with waiting := d.waiting ++ [w] }

/-! ### Routing and control messages over chords -/

/-- The physical column that serves logical (x, y): CHD_POS[y].COL_x. -/
def State.col (s : State) (x y : Nat) : Nat := fld (s.chdPos y) (4 * x) 4

/-- Physical coordinates of this module (CHD_CFG). -/
def State.physX (s : State) : Nat := fld s.chd.cfg 8 4
def State.physY (s : State) : Nat := fld s.chd.cfg 5 3
/-- CHD_CFG.SPLIT. -/
def State.split (s : State) : Nat := fld s.chd.cfg 0 2

/-- The columns passed between two columns of the physical ring of nine, going up or down, ends excluded. -/
def ringBetween (a b : Nat) (up : Bool) : List Nat :=
  let d := if up then (b + 9 - a) % 9 else (a + 9 - b) % 9
  (List.range (d - 1)).map fun i => if up then (a + 1 + i) % 9 else (a + 9 - 1 - i) % 9

/-- The direction of an X hop between physical columns of row y (R262, R283): the shorter way round the ring of nine that
crosses no failed module, else the way that crosses none. 0 is +X, 1 is −X. -/
def State.xDir (s : State) (a b y : Nat) : Nat :=
  let clear (up : Bool) : Bool := (ringBetween a b up).all fun c => !(s.grp.failed.contains (9 * y + c))
  let upShort := decide ((b + 9 - a) % 9 ≤ (a + 9 - b) % 9)
  if clear upShort then (if upShort then 0 else 1) else if upShort then 1 else 0

/-- The physical column of row y that serves no position: column 8 until a position is substituted. -/
def State.freeCol (s : State) (y : Nat) : Nat := ((List.range 9).find? fun c => (List.range 8).all fun x => s.col x y != c).getD 8

/-- The physical column of logical x in row y; 8 names the module of the row that serves no position. -/
def State.colOf (s : State) (x y : Nat) : Nat := if x < 8 then s.col x y else s.freeCol y

/-- The physical column of row y by which a flit goes to column x of row dy: a spare's rows are passed along column 8 (R283). -/
def State.colVia (s : State) (x dy y : Nat) : Nat := if x < 8 ∨ y = dy then s.colOf x y else 8

/-- A flit that reached column 8 travelling in X is still on its way to DEST_X: it is in the row where it started, and column 8 lies
between its source and DEST_X in its direction (R262, R283). -/
def State.stillInX (s : State) (arr : Option Nat) (src : Nat × Nat) (c : Nat) : Bool :=
  src.2 == s.physY && ((arr == some 0 && (ringBetween (s.colOf src.1 s.physY) c true).contains 8) ||
    (arr == some 1 && (ringBetween (s.colOf src.1 s.physY) c false).contains 8))

/-- The direction of the next physical hop toward logical (dx, dy), for a flit from logical `src` that arrived travelling in direction
`arr` or that starts here; none at the destination (R262, R283). X goes before Y. A flit that travels keeps its direction, in X up to a
failed module: a ring narrower than 8 closes through the positions outside its slice (R264). 0 +X, 1 −X, 2 +Y, 3 −Y. -/
def State.dirTo (s : State) (arr : Option Nat) (src : Nat × Nat) (dx dy : Nat) : Option Nat :=
  let px := s.physX
  let py := s.physY
  let c := s.colVia dx dy py
  let up := if arr = some 2 then true else if arr = some 3 then false else decide ((dy + 8 - py) % 8 ≤ 4)
  let b := s.colVia dx dy (if up then (py + 1) % 8 else (py + 7) % 8)
  let yd := if up then 2 else 3
  if px = c then
    if py = dy then none
    else if b = 8 ∧ px ≠ 8 then some (s.xDir px 8 py)
    else some yd
  else if px = 8 ∧ py ≠ dy ∧ b = 8 ∧ (arr = some 0 ∨ arr = some 1) ∧ !s.stillInX arr src c then some yd
  else
    let start := match s.grp.pos with
      | some (x, _) =>
        -- a Y hop that ran along column 8 goes on in the row by the physical way (R283)
        if dx < 8 ∧ !(px = 8 ∧ (arr = some 2 ∨ arr = some 3)) then
          s.xDir px (s.colOf (if (dx + 8 - x) % 8 ≤ 4 then (x + 1) % 8 else (x + 7) % 8) py) py
        else s.xDir px c py
      | none => s.xDir px c py
    match arr with
    | some 0 => some (if s.grp.failed.contains (9 * py + (px + 1) % 9) then start else 0)
    | some 1 => some (if s.grp.failed.contains (9 * py + (px + 8) % 9) then start else 1)
    | _ => some start

/-- The ports of a direction under a split (Table 09-1). -/
def splitPorts (split dir : Nat) : List Nat :=
  match split, dir with
  | 0, 0 => [0, 1] | 0, 1 => [2, 3] | 0, 2 => [4, 5] | 0, 3 => [6, 7]
  | 1, 0 => [0, 1, 2] | 1, 1 => [3, 4, 5] | 1, 2 => [6] | 1, 3 => [7]
  | 2, 0 => [0, 1, 2, 3] | 2, 1 => [4, 5, 6, 7]
  | 3, 0 => [0] | 3, 1 => [1] | 3, 2 => [2, 3, 4] | 3, 3 => [5, 6, 7]
  | _, _ => []

/-- The ports of a direction that are UP. -/
def State.upPorts (s : State) (dir : Nat) : List Nat := (splitPorts s.split dir).filter fun p => (s.port p).state == .up

/-- The ports that take a direction's flits: those that are UP; while none is, those at which a flit waits for the end of a swap or
retrain (R258, R260). -/
def State.livePorts (s : State) (dir : Nat) : List Nat :=
  if (s.upPorts dir).isEmpty then
    (splitPorts s.split dir).filter fun p => (s.port p).state == .swap || (s.port p).state == .retrain
  else s.upPorts dir

/-- Control, on its own VC or in transit. -/
def FlitOut.isControl (f : FlitOut) : Bool := f.vc == 0 || (f.vc == 4 && f.origVc == 0)

/-- Control that still waits at another port of the direction goes ahead of what is sent now by port p (R257). -/
def State.gatherControl (s : State) (dir p : Nat) : State :=
  let others := (splitPorts s.split dir).filter (· != p)
  let ahead := others.flatMap fun q => (s.port q).sendQ.filter (·.isControl)
  if ahead.isEmpty then s
  else
    let s := others.foldl (fun (s : State) q => s.onPort q fun o => { o with sendQ := o.sendQ.filter (!·.isControl) }) s
    s.onPort p fun o => { o with sendQ := ahead ++ o.sendQ }

/-- Hands a flit to the ports of a direction: control to the lowest, the other VCs to the ports in turn (R257). -/
def State.sendDir (s : State) (dir : Nat) (f : FlitOut) : State :=
  let ps := s.livePorts dir
  let t := Sparse.get 0 s.chd.turn dir
  let pick := if f.isControl then ps.head? else ps[t % ps.length]?
  match pick with
  | none => s
  | some p =>
    let s := if f.isControl then s.gatherControl dir p else s
    (s.onChd fun c => { c with turn := if f.isControl then c.turn else Sparse.put 0 c.turn dir (t + 1) }).onPort p fun o =>
      { o with sendQ := o.sendQ ++ [f] }

/-- The position that this module writes as SRC: its logical one, or its physical one when it serves none. -/
def State.ownPos (s : State) : Nat × Nat := s.grp.pos.getD (s.physX, s.physY)

/-- Routes a flit that starts at this module (R262), in the direction of the ring that it closes where there is one (R264). -/
def State.routeBy (s : State) (by' : Option Nat) (vc stream offset : Nat) (dest : Nat × Nat) (late : Bool) (data : List Byte) : State :=
  match s.dirTo by' s.ownPos dest.1 dest.2 with
  | none => s
  | some d => s.sendDir d ⟨vc, stream, offset, dest.1, dest.2, s.ownPos.1, s.ownPos.2, late, 0, data⟩
def State.route (s : State) : Nat → Nat → Nat → Nat × Nat → Bool → List Byte → State := s.routeBy none

/-- Sends a control message of at most 32 bytes to a logical position (Table 09-6). One to the module's own position waits among those
that have arrived (notes/assumptions/88.md). -/
def State.sendControl (s : State) (x y : Nat) (bytes : List Byte) : State :=
  let b := padTo 32 bytes
  let s := s.emit (.control x y b)
  if s.grp.pos = some (x, y) then s.onChd fun c => { c with ctlIn := c.ctlIn ++ [⟨some 0, x, y, b⟩] }
  else s.route 0 0 0 (x, y) false (codeword b)

/-- The logical position of the Apex that this module follows (R280). -/
def State.apexPos (s : State) : Nat × Nat :=
  let v := (s.grp.cfg.succession[s.grp.apexEntry]?).getD 0
  (v % 8, v / 8)

/-! ### Injection -/

def State.injSlot (s : State) (k : Nat) : InjSlot := Sparse.get Reset.slot s.alm.slots k
def State.setSlot (s : State) (k : Nat) (x : InjSlot) : State :=
  s.onAlm fun a => { a with slots := Sparse.put Reset.slot a.slots k x }

/-- The key of a source in Alm.injKeys. -/
def srcKey (kind index : Nat) : Nat := kind * 65536 + index

/-- The handling that an injected firing started at a source begins; it ends (R404). -/
def State.injBegin (s : State) (kind index : Nat) : State :=
  s.onAlm fun a => { a with injKeys := srcKey kind index :: a.injKeys }
def State.injEnd (s : State) (kind index : Nat) : State :=
  s.onAlm fun a => { a with injKeys := a.injKeys.filter (· != srcKey kind index) }

/-! ### The Almanac -/

/-- Severity as a number (Table 14-1). -/
def sevNum : Severity → Nat
  | .info => 0
  | .note => 1
  | .warn => 2
  | .fault => 3

/-- The 32 bytes of a record (Table 14-1) with the POLICY bit given; CHECK as R156 computes it. -/
def recBytes (r : AlmRec) (policy : Bool) : List Byte :=
  let head := leBytes 2 r.code.toNat ++ leBytes 1 (bit policy * 8 + bit r.injected * 4 + sevNum r.sev) ++ [r.kind] ++
    leBytes 2 r.index.toNat ++ leBytes 6 r.stamp.toNat ++ leBytes 2 (min r.rep 0xFFFF)
  let tail := leBytes 4 r.seq.toNat ++ padTo 12 r.payload
  head ++ leBytes 2 (crc16 (head ++ [0, 0] ++ tail)) ++ tail

/-- Unflushed records of the ring. -/
def State.unflushed (s : State) : Nat := (s.alm.ring.filter fun r => !r.flushed).length

/-- A flush starts, and freezes the unflushed records (R395, R396); during an MCB write it waits (R371). -/
def State.startFlush (s : State) : State :=
  if s.alm.flushing then s
  else if s.flash.mcbWrite.isSome then s.onAlm fun a => { a with flushDue := true }
  else s.onAlm fun a => { a with
    flushing := true, flushDue := false, ring := a.ring.map fun r => if r.flushed then r else { r with frozen := true } }

/-- Removes the first record of the ring that satisfies a test. -/
def dropFirst (p : AlmRec → Bool) : List AlmRec → List AlmRec
  | [] => []
  | r :: rs => if p r then rs else r :: dropFirst p rs

/-- Counts a record lost or dropped (R394). -/
def State.almLoss (s : State) : State :=
  s.onAlm fun a => { a with
    lost := inc a.lost, lostSeq := if a.lostRing = 0 then a.nextSeq - 1 else a.lostSeq, lostRing := a.lostRing + 1 }

/-- Appends a record with the next SEQ, frozen when a flush runs (R391, R396); the flush level starts a flush (R395). -/
def State.pushRec (s : State) (r : AlmRec) : State :=
  let s := s.onAlm fun a => { a with
    ring := a.ring ++ [{ r with seq := a.nextSeq, frozen := a.flushing, flushed := false }], nextSeq := a.nextSeq + 1 }
  -- values above 2,048 are taken as 2,048 (Table 14-9)
  if s.alm.flushLevel ≠ 0 ∧ s.unflushed ≥ min 2048 s.alm.flushLevel then s.startFlush else s

/-- The WARN ALM_LOST record owed for losses of the ring (place 0) or of flash (place 1) (R394, R399). -/
def State.lostRec (s : State) (place count : Nat) : AlmRec :=
  { code := 0x0E01, injected := false, sev := .warn, kind := 0x14, index := 0, stamp := s.boot.modCount.setWidth 48, rep := 0,
    seq := 0, payload := padTo 12 (leBytes 4 place ++ leBytes 4 count ++ leBytes 4 (if place = 0 then s.alm.lostSeq else s.alm.lostSeqFlash).toNat), frozen := false,
    flushed := false }

/-- Room in the ring: fewer than 2,048 records, or a flushed one whose place can be taken (R394, R396). -/
def State.ringRoom (s : State) : Bool := decide (s.alm.ring.length < 2048) || s.alm.ring.any (·.flushed)

/-- Makes a place: the oldest flushed record leaves a full ring. -/
def State.makePlace (s : State) : State :=
  if s.alm.ring.length < 2048 then s else s.onAlm fun a => { a with ring := dropFirst (·.flushed) a.ring }

/-- The message on vector 272 of a WARN or FAULT record appended or folded into (R402), and SMB_ALERT#, asserted with it (P-23,
Table 15-1). -/
def State.alert (s : State) : State := (s.onBoot fun b => { b with smbAlert := true }).msix 272

/-- Appends the ALM_LOST records owed once the ring has room (R394, R399), each with its message on vector 272 (R402). -/
def State.payLost (s : State) : State :=
  let one (s : State) (place count : Nat) : State :=
    if count = 0 ∨ !s.ringRoom then s
    else
      let r := s.lostRec place count
      let s := (s.makePlace.pushRec r).alert
      s.onAlm fun a => if place = 0 then { a with lostRing := 0 } else { a with lostFlash := 0 }
  let s := one s 0 s.alm.lostRing
  one s 1 s.alm.lostFlash

/-- Appends a record that was not folded: into free room, or by the replacement rule of R394. -/
def State.appendRec (s : State) (r : AlmRec) : State :=
  if s.ringRoom then s.payLost.makePlace.pushRec r
  else if r.sev = .info ∨ r.sev = .note then s.almLoss
  else
    let low (x : AlmRec) : Bool := !x.flushed && (x.sev == .info || x.sev == .note)
    if s.alm.ring.any low then (s.almLoss.onAlm fun a => { a with ring := dropFirst low a.ring }).pushRec r
    else s.almLoss

/-- Messages of a WARN or FAULT record (R402). A fold repeats the message on vector 272 only. -/
def State.recMessages (s : State) (r : AlmRec) (fold : Bool) : State :=
  let s := if r.sev = .warn ∨ r.sev = .fault then s.alert else s
  if r.sev = .fault ∧ !fold then
    let s := s.startFlush
    if r.code = 0x0A09 then s
    else
      let a := s.apexPos
      (s.onBoot fun b => { b with faulted := true }).sendControl a.1 a.2
        (leBytes 2 0x14 ++ leBytes 2 s.grp.epoch.toNat ++ leBytes 2 r.code.toNat)
  else s

/-- A record that does not fold is appended with its messages, or dropped without any (R394, R402); a FAULT's condition ends
the module's own service either way. -/
def State.takeRec (s : State) (r : AlmRec) : State :=
  let t := s.appendRec r
  if t.alm.nextSeq = s.alm.nextSeq then
    if r.sev = .fault ∧ r.code ≠ 0x0A09 then t.onBoot fun b => { b with faulted := true } else t
  else t.recMessages r false

/-- The job slot of this module, CHD_SLICE.JOB: the index of source JOB (Table 14-2). -/
def State.jobSlot (s : State) : Nat := s.chd.slice.toNat % 256

/-- Whether a record folds into the most recent one (R392). -/
def foldsInto (last r : AlmRec) : Bool :=
  last.code == r.code && last.sev == r.sev && last.kind == r.kind && last.index == r.index && !last.frozen

/-- One event reaches the Almanac writer: folded, appended, or lost (R391 to R394), starting with REPEAT `rep`. -/
def State.reportRep (s : State) (rep : Nat) (code : Nat) (sev : Severity) (kind index : Nat) (payload : List Byte) : State :=
  let r : AlmRec := ⟨BitVec.ofNat 16 code, decide (srcKey kind index ∈ s.alm.injKeys), sev, BitVec.ofNat 8 kind,
    BitVec.ofNat 16 index, s.boot.modCount.setWidth 48, rep, 0, padTo 12 payload, false, false⟩
  match s.alm.ring.getLast? with
  | some last =>
    if foldsInto last r then
      (s.onAlm fun a => { a with
        ring := a.ring.dropLast ++ [{ last with rep := min (last.rep + rep + 1) 0xFFFF }], folded := inc a.folded }).recMessages r true
    else s.takeRec r
  | none => s.takeRec r

/-- One event reaches the Almanac writer. -/
def State.report (s : State) (code : Nat) (sev : Severity) (kind index : Nat) (payload : List Byte) : State :=
  s.reportRep 0 code sev kind index payload

/-- A violation or other event of which at most one record per row per 100,000,000 ticks is written: the rest fold into the
last record of the row, or are kept for the next one once that record is frozen (R393, R408). -/
def State.rowReport (s : State) (key code : Nat) (sev : Severity) (kind index : Nat) (payload : List Byte) : State :=
  match s.alm.rows.find? (·.key == key) with
  | some w =>
    if s.now < w.tick + 100000000 then
      let fits (r : AlmRec) : Bool := r.seq == w.seq && !r.frozen && r.code.toNat == code
      let s := s.onAlm fun a => { a with folded := inc a.folded }
      if s.alm.ring.any fits then
        let s := s.onAlm fun a => { a with ring := a.ring.map fun r => if fits r then { r with rep := min (r.rep + 1) 0xFFFF } else r }
        if sev = .warn ∨ sev = .fault then s.alert else s
      else s.onAlm fun a => { a with rows := a.rows.map fun v => if v.key = key then { v with kept := v.kept + 1 } else v }
    else
      let s := s.reportRep w.kept code sev kind index payload
      s.onAlm fun a => { a with rows := a.rows.map fun v => if v.key = key then ⟨key, s.now, a.nextSeq - 1, 0⟩ else v }
  | none =>
    let s := s.report code sev kind index payload
    s.onAlm fun a => { a with rows := ⟨key, s.now, a.nextSeq - 1, 0⟩ :: a.rows }

/-! ### Firing of injections (R404 to R406) -/

/-- Disarms a slot and writes INFO INJECT_DONE with its cause (R405, Table 14-5). -/
def State.disarm (s : State) (k cause : Nat) : State :=
  let x := s.injSlot k
  if !x.armed then s
  else (s.setSlot k { x with armed := false }).report 0x0E04 .info x.kind.toNat x.index.toNat
    (leBytes 2 x.detector.toNat ++ leBytes 2 (k * 256) ++ leBytes 4 x.fired.toNat ++ leBytes 1 cause)

/-- Whether a slot watches a detector and target: a target of kind ENGINE is its physical tile (R405). -/
def slotMatches (x : InjSlot) (det kind index tile : Nat) (ok : Nat → Bool) : Bool :=
  x.armed && x.detector.toNat == det && x.kind.toNat == kind && (if kind = 1 then x.tile == tile else x.index.toNat == index) &&
    ok x.sub.toNat

/-- One opportunity of a detector at a target (R404): the slots that watch it count it, and the first that fires gives its
sub-target. Firing marks the source's records INJECTED until the handling ends. -/
def State.opportunity (s : State) (det kind index tile : Nat) (ok : Nat → Bool) : Option Nat × State :=
  (List.range 16).foldl (fun (acc : Option Nat × State) k =>
    let s := acc.2
    let x := s.injSlot k
    if slotMatches x det kind index tile ok then
      let c := x.count + 1
      let hit := if x.everyN then c % x.n.toNat == 0 else true
      let f := if hit then x.fired + 1 else x.fired
      let s := s.setSlot k { x with count := c, fired := f }
      if hit then
        let s := s.injBegin x.kind.toNat x.index.toNat
        let s := if !x.everyN then s.disarm k 2 else if x.limit ≠ 0 ∧ f = x.limit then s.disarm k 0 else s
        (if acc.1.isSome then acc.1 else some x.sub.toNat, s)
      else (acc.1, s)
    else acc) (none, s)

/-- An opportunity whose sub-target does not matter. -/
def State.fires (s : State) (det kind index : Nat) : Bool × State :=
  let r := s.opportunity det kind index 0 fun _ => true
  (r.1.isSome, r.2)

/-- Disarms the slots of a target that is retired (R405). -/
def State.disarmTarget (s : State) (p : InjSlot → Bool) : State :=
  (List.range 16).foldl (fun s k => if p (s.injSlot k) then s.disarm k 3 else s) s

end Sys2Proof.Machine
end

