-- ==== Sys2Proof/Machine/Almanac.lean ====
section
/-! DEFINITION. The flash area of the Almanac (R397 to R399): positions, the choice of sectors, and the writing of a flush. -/

namespace Sys2Proof.Machine

/-! ### The flash area (R397 to R399) -/

/-- Positions of one sector. -/
def inSector (k : Nat) (p : Nat × AlmRec) : Bool := p.1 / 2048 == k

/-- Erases a sector. -/
def Alm.erase (a : Alm) (k : Nat) : Alm :=
  { a with flash := a.flash.filter (fun p => !inSector k p), erased := if k ∈ a.erased then a.erased else a.erased ++ [k] }

/-- Programs a record at a position; a sector whose first position is programmed is no longer erased. -/
def Alm.program (a : Alm) (pos : Nat) (r : AlmRec) : Alm :=
  let a := if pos % 2048 = 0 ∧ pos / 2048 ∉ a.erased then a.erase (pos / 2048) else a
  { a with
    flash := Sparse.ins pos r (Sparse.del pos a.flash), erased := a.erased.filter (· != pos / 2048)
    flushedSeq := some (match a.flushedSeq with | some q => if q.toNat < r.seq.toNat then r.seq else q | none => r.seq) }

/-- The position of a record under KEEP_EDGES (R398). -/
def keepPos (n seq : Nat) : Nat := if seq < n then seq else n + (seq - n) % (262144 - n)

/-- The sector that R399 chooses for a record of severity v: one that holds a record of severity v or lower, its highest
severity lowest, then the lowest SEQ. The sector being filled is not chosen. -/
def Alm.victim (a : Alm) (v : Nat) : Option Nat :=
  (List.range 128).foldl (fun (best : Option Nat) k =>
    let rs := a.flash.filter (inSector k)
    let key (k : Nat) : Nat × Nat :=
      let rs := a.flash.filter (inSector k)
      (rs.foldl (fun m p => max m (sevNum p.2.sev)) 0, rs.foldl (fun m p => min m p.2.seq.toNat) (2 ^ 32))
    if rs.any fun p => sevNum p.2.sev ≤ v then
      match best with
      | none => some k
      | some b => if (key k).1 < (key b).1 ∨ ((key k).1 = (key b).1 ∧ (key k).2 < (key b).2) then some k else some b
    else best) none

/-- Programs records at rising positions from a sector's start. -/
def Alm.programAll (a : Alm) (pos : Nat) : List (Nat × AlmRec) → Alm × Nat
  | [] => (a, pos)
  | (_, r) :: rest => (a.program pos r).programAll (pos + 1) rest

/-- Writes one record to flash under BY_SEVERITY (R399); none when no sector is eligible. -/
def Alm.writeSev (a : Alm) (r : AlmRec) : Option Alm :=
  if a.head % 2048 ≠ 0 then some { a.program a.head r with head := a.head + 1 }
  else if 2 < a.erased.length then
    match a.erased with
    | k :: _ => some { a.program (2048 * k) r with head := 2048 * k + 1 }
    | [] => none
  else
    match a.victim (sevNum r.sev), a.erased with
    | some k, e :: _ =>
      let keep := a.flash.filter fun p => inSector k p && decide (sevNum r.sev < sevNum p.2.sev)
      let a := a.erase k
      let c := a.programAll (2048 * e) keep
      some { c.1.program c.2 r with head := c.2 + 1, flashFull := false }
    | _, _ => none

/-- Writes the records of a flush in order (R395). -/
def State.flushRecs (s : State) : List AlmRec → State
  | [] => s
  | r :: rest =>
    if s.alm.bySeverity then
      match s.alm.writeSev r with
      | some a => ({ s with alm := a } : State).flushRecs rest
      | none => (s.onAlm fun a => { a with
          lost := inc a.lost, lostSeqFlash := if a.lostFlash = 0 then r.seq - 1 else a.lostSeqFlash
          lostFlash := a.lostFlash + 1, flashFull := true }).flushRecs rest
    else
      let pos := keepPos (1024 * s.alm.keepUnits) r.seq.toNat
      (s.onAlm fun a => { a.program pos r with head := keepPos (1024 * a.keepUnits) (r.seq.toNat + 1) }).flushRecs rest

/-- HEAD: the next position to be programmed. Under BY_SEVERITY a full sector is followed by the first erased one (R399). -/
def Alm.nextPos (a : Alm) : Nat := if a.bySeverity ∧ a.head % 2048 = 0 then 2048 * (a.erased.headD 0) else a.head

/-- Flushes every unflushed record. -/
def State.flushNow (s : State) : State :=
  let s := s.flushRecs (s.alm.ring.filter fun r => !r.flushed)
  s.onAlm fun a => { a with ring := a.ring.map fun r => { r with flushed := true, frozen := true } }

end Sys2Proof.Machine
end

