-- ==== Sys2Proof/Machine/Float.lean ====
section
/-! DEFINITION. Exact values and FP32 arithmetic (R101, R102): IEEE 754 binary32, round to nearest even, subnormals kept,
every NaN result the quiet NaN 0x7FC0_0000. -/

namespace Sys2Proof.Machine

/-- A decoded value: NaN, infinity, or ± m × 2^e. -/
inductive Fp where
  | nan (neg : Bool)
  | inf (neg : Bool)
  | fin (neg : Bool) (m : Nat) (e : Int)
deriving DecidableEq, Repr

/-- A binary format: precision p, the exponent of its lowest subnormal bit, the code of infinity. -/
structure BinFmt where
  p : Nat
  emin : Int
  infCode : Nat
deriving DecidableEq, Repr

def fp32 : BinFmt := ⟨24, -149, 0x7F800000⟩
def b16 : BinFmt := ⟨8, -133, 0x7F80⟩

/-- The sign bit and the magnitude of a decoded code of a binary format of w bits. -/
def decodeBin (f : BinFmt) (signBit c : Nat) : Fp :=
  let neg := c / signBit % 2 == 1
  let g := c % signBit
  let h := 2 ^ (f.p - 1)
  if g > f.infCode then .nan neg
  else if g = f.infCode then .inf neg
  else if g < h then .fin neg g f.emin
  else .fin neg (g % h + h) (f.emin + (g / h : Nat) - 1)

def decode32 (w : Word32) : Fp := decodeBin fp32 (2 ^ 31) w.toNat
def decodeB16 (w : Word16) : Fp := decodeBin b16 (2 ^ 15) w.toNat

/-- The magnitude code nearest m × 2^e, ties to even: the count of units above zero in the format's own spacing. `sticky`
says that the exact value lies a little above m × 2^e. -/
def roundCode (f : BinFmt) (m : Nat) (e : Int) (sticky : Bool) : Nat :=
  if m = 0 then 0
  else
    let l : Int := (Nat.log2 m + 1 : Nat)
    let ex : Int := max (e + l - f.p) f.emin
    let d : Int := ex - e
    let q : Nat :=
      if d ≤ 0 then m * 2 ^ (-d).toNat
      else
        let k := 2 ^ d.toNat
        let r := m % k
        let q := m / k
        if 2 * r > k ∨ (2 * r = k ∧ (sticky ∨ q % 2 = 1)) then q + 1 else q
    (ex - f.emin).toNat * 2 ^ (f.p - 1) + q

/-- The FP32 bits of a signed exact value. -/
def encode32 (neg : Bool) (m : Nat) (e : Int) (sticky : Bool := false) : Word32 :=
  BitVec.ofNat 32 (bit neg * 2 ^ 31 + min (roundCode fp32 m e sticky) fp32.infCode)

/-- The B16 bits of a signed exact value (R101). -/
def encodeB16 (neg : Bool) (m : Nat) (e : Int) : Word16 :=
  BitVec.ofNat 16 (bit neg * 2 ^ 15 + min (roundCode b16 m e false) b16.infCode)

/-- The quiet NaN of R102. -/
def qnan : Word32 := 0x7FC00000
def inf32 (neg : Bool) : Word32 := if neg then 0xFF800000 else 0x7F800000
def zero32 (neg : Bool) : Word32 := if neg then 0x80000000 else 0

/-- FP32 bits of a decoded value, NaN as the quiet NaN. -/
def toFp32 : Fp → Word32
  | .nan _ => qnan
  | .inf n => inf32 n
  | .fin n m e => if m = 0 then zero32 n else encode32 n m e

/-- FP32 to B16 (R101): NaN as 0x7FC0 with the input's sign. -/
def toB16 : Fp → Word16
  | .nan n => if n then 0xFFC0 else 0x7FC0
  | .inf n => if n then 0xFF80 else 0x7F80
  | .fin n m e => encodeB16 n m e

/-- The signed mantissa. -/
def sgn (neg : Bool) (m : Nat) : Int := if neg then -(m : Int) else m

/-- The exact sum of two dyadics as mantissa and exponent. -/
def dyAdd (a : Int × Int) (b : Int × Int) : Int × Int :=
  let e := min a.2 b.2
  (a.1 * 2 ^ (a.2 - e).toNat + b.1 * 2 ^ (b.2 - e).toNat, e)

/-- a < b for dyadics. -/
def dyLt (a b : Int × Int) : Bool := decide ((dyAdd a (-b.1, b.2)).1 < 0)

/-- FP32 of an exact dyadic; an exact zero takes the sign given. -/
def ofDy (x : Int × Int) (zeroNeg : Bool) : Word32 :=
  if x.1 = 0 then zero32 zeroNeg else encode32 (decide (x.1 < 0)) x.1.natAbs x.2

/-- Sum of two decoded values, one rounding. -/
def addFp (a b : Fp) : Word32 :=
  match a, b with
  | .nan _, _ => qnan
  | _, .nan _ => qnan
  | .inf n, .inf k => if n = k then inf32 n else qnan
  | .inf n, _ => inf32 n
  | _, .inf n => inf32 n
  | .fin n m e, .fin k l d => ofDy (dyAdd (sgn n m, e) (sgn k l, d)) (m == 0 && l == 0 && n && k)

/-- The exact product, as a decoded value. -/
def mulExact (a b : Fp) : Fp :=
  match a, b with
  | .nan _, _ => .nan false
  | _, .nan _ => .nan false
  | .inf n, .inf k => .inf (n != k)
  | .inf n, .fin k m _ => if m = 0 then .nan false else .inf (n != k)
  | .fin k m _, .inf n => if m = 0 then .nan false else .inf (n != k)
  | .fin n m e, .fin k l d => .fin (n != k) (m * l) (e + d)

def negFp : Fp → Fp
  | .nan n => .nan (!n)
  | .inf n => .inf (!n)
  | .fin n m e => .fin (!n) m e

def fadd (a b : Word32) : Word32 := addFp (decode32 a) (decode32 b)
def fsub (a b : Word32) : Word32 := addFp (decode32 a) (negFp (decode32 b))
def fmul (a b : Word32) : Word32 := toFp32 (mulExact (decode32 a) (decode32 b))
/-- a × b + c with one rounding. -/
def ffma (a b c : Word32) : Word32 := addFp (mulExact (decode32 a) (decode32 b)) (decode32 c)

def isNan (a : Word32) : Bool := a.toNat % 2 ^ 31 > 0x7F800000
def isFinite (a : Word32) : Bool := a.toNat % 2 ^ 31 < 0x7F800000
def isNeg (a : Word32) : Bool := a.toNat ≥ 2 ^ 31

/-- a < b, false when either is NaN. -/
def flt (a b : Word32) : Bool :=
  match decode32 a, decode32 b with
  | .nan _, _ => false
  | _, .nan _ => false
  | .inf n, .inf k => n && !k
  | .inf n, _ => n
  | _, .inf k => !k
  | .fin n m e, .fin k l d => dyLt (sgn n m, e) (sgn k l, d)

/-- a = b, false when either is NaN; zeros of both signs are equal. -/
def feq (a b : Word32) : Bool :=
  !isNan a && !isNan b && (a == b || (a.toNat % 2 ^ 31 == 0 && b.toNat % 2 ^ 31 == 0))

/-- One digit of the integer square root: r is the root so far of the high bits. -/
def isqrtFrom (n : Nat) : Nat → Nat → Nat
  | 0, r => r
  | k + 1, r => let c := r + 2 ^ k; isqrtFrom n k (if c * c ≤ n then c else r)

/-- Integer square root. -/
def isqrt (n : Nat) : Nat := isqrtFrom n (Nat.log2 n / 2 + 1) 0

/-- Correctly rounded square root: R190 and IEEE 754. -/
def fsqrt (a : Word32) : Word32 :=
  match decode32 a with
  | .nan _ => qnan
  | .inf n => if n then qnan else inf32 false
  | .fin n m e =>
    if m = 0 then zero32 n
    else if n then qnan
    else
      let sh : Nat := 64 + (e % 2).toNat
      let v := m * 2 ^ sh
      let r := isqrt v
      encode32 false r ((e - sh) / 2) (r * r ≠ v)

/-- Correctly rounded num / den × 2^e, den above 0. -/
def fquot (neg : Bool) (num den : Nat) (e : Int) : Word32 :=
  let v := num * 2 ^ 64
  encode32 neg (v / den) (e - 64) (v % den ≠ 0)

/-- Correctly rounded reciprocal. -/
def frecip (a : Word32) : Word32 :=
  match decode32 a with
  | .nan _ => qnan
  | .inf n => zero32 n
  | .fin n m e => if m = 0 then inf32 n else fquot n 1 m (-e)

/-- Correctly rounded reciprocal square root. -/
def frsqrt (a : Word32) : Word32 :=
  match decode32 a with
  | .nan _ => qnan
  | .inf n => if n then qnan else zero32 false
  | .fin n m e =>
    if m = 0 then inf32 n
    else if n then qnan
    else
      -- with e even, 1 / sqrt(m 2^e) = sqrt(2^128 / m) 2^(-64 - e/2); the floor keeps a sticky bit
      let odd := (e % 2).toNat
      let m' := m * 2 ^ odd
      let e' := e - odd
      let v := 2 ^ 160 / m'
      let r := isqrt v
      encode32 false r (-80 - e' / 2) (r * r * m' ≠ 2 ^ 160)

end Sys2Proof.Machine
end

