-- ==== Sys2Proof/Machine/Formats.lean ====
section
/-! DEFINITION. The block element formats, the quantiser, error feedback and the stochastic-rounding hash (R96 to R116). -/

namespace Sys2Proof.Machine

/-- The element formats of blocks (Table 04-1). -/
inductive Elem where
  | e2m1
  | e4m3
  | e5m2
deriving DecidableEq, Repr

/-- The rounding a quantiser uses (R109, R112). -/
inductive Rounding where
  | rne
  | ef
  | sr
deriving DecidableEq, Repr

/-- ELEM of a scale record (Table 04-7). -/
def elemOf (n : Nat) : Elem := if n = 1 then .e4m3 else if n = 2 then .e5m2 else .e2m1
/-- ROUND of a scale record: other values are taken as RNE (Table 04-7). -/
def roundOf (n : Nat) : Rounding := if n = 1 then .ef else if n = 2 then .sr else .rne

/-- Bits of an element code (Table 04-1). -/
def elemBits : Elem → Nat
  | .e2m1 => 4
  | _ => 8

/-- Precision and lowest exponent of an element format (R99, R100); the code that follows its largest finite code. -/
def elemFmt : Elem → BinFmt
  | .e2m1 => ⟨2, -1, 8⟩
  | .e4m3 => ⟨4, -9, 127⟩
  | .e5m2 => ⟨3, -16, 124⟩

/-- t of Table 04-4. -/
def elemT : Elem → Int
  | .e2m1 => 2
  | .e4m3 => 8
  | .e5m2 => 15

/-- m of Table 04-4 in quarters. -/
def elemM4 : Elem → Nat
  | .e2m1 => 6
  | _ => 7

/-- The default window width of Table 04-4. -/
def defaultW : Elem → Nat
  | .e2m1 => 32
  | .e4m3 => 24
  | .e5m2 => 12

/-- Bytes of a block with its scale byte apart (Table 04-1, R104). -/
def elemBytes : Elem → Nat
  | .e2m1 => 16
  | _ => 32

/-- The value of an element code (Table 04-3, R100). -/
def elemValue (f : Elem) (c : Nat) : Fp :=
  let b := elemBits f
  let neg := c / 2 ^ (b - 1) % 2 == 1
  let g := c % 2 ^ (b - 1)
  let q := elemFmt f
  let h := 2 ^ (q.p - 1)
  let fin := if g < h then Fp.fin neg g q.emin else .fin neg (g % h + h) (q.emin + (g / h : Nat) - 1)
  match f with
  | .e2m1 => fin
  | .e4m3 => if g = 127 then .nan neg else fin
  | .e5m2 => if g > 124 then .nan neg else if g = 124 then .inf neg else fin

/-- The exponent of a block's scale: E − 63 (R97, R98). -/
def scaleExp (s : Byte) : Int := (s.toNat % 128 : Nat) - 63

/-- Only 0x00 marks a zero block (R98). -/
def zeroBlock (s : Byte) : Bool := s == 0

/-- The value of an element of a block: element times scale, +0 in a zero block (R96, Table 04-2). -/
def blockValue (f : Elem) (s : Byte) (c : Nat) : Fp :=
  if zeroBlock s then .fin false 0 0
  else
    match elemValue f c with
    | .fin n m e => .fin n m (e + scaleExp s)
    | v => v

/-- need(a, fmt) of R106 for a magnitude m × 2^e above zero. -/
def need (f : Elem) (m : Nat) (e : Int) : Nat :=
  let l := Nat.log2 m
  let k : Int := e + l
  let x := k - elemT f + 63
  let x := if 4 * m > elemM4 f * 2 ^ l then x + 1 else x
  (max x 1).toNat

/-- Magnitude of a finite value as mantissa and exponent; none for NaN, infinities and zero. -/
def finMag : Fp → Option (Nat × Int)
  | .fin _ m e => if m = 0 then none else some (m, e)
  | _ => none

/-- The larger of two magnitudes. -/
def maxMag : Option (Nat × Int) → Option (Nat × Int) → Option (Nat × Int)
  | none, b => b
  | a, none => a
  | some a, some b => if dyLt ((a.1 : Int), a.2) ((b.1 : Int), b.2) then some b else some a

/-- a of R107: the largest finite magnitude of a block. -/
def blockMax (y : List Fp) : Option (Nat × Int) := y.foldl (fun a v => maxMag a (finMag v)) none

/-- The hash of R110 as its four rounds. -/
def srRound (k0 : Word64) (x y : Word64) (i : Nat) : Word64 × Word64 :=
  let x := x + y
  let y := y.rotateLeft 29 ^^^ x
  let x := x * 0x8F5C3B19E4A76D2B
  let x := x ^^^ (x >>> 31)
  (x, y + k0.rotateLeft (16 * i))

/-- sr_hash(s, tid, idx, k0, k1) of R110: 24 bits. -/
def srHash (s tid : Word32) (idx k0 k1 : Word64) : Nat :=
  let x := idx ^^^ k0
  let y := (s.setWidth 64 <<< 32) ^^^ tid.setWidth 64 ^^^ k1
  let r := [0, 1, 2, 3].foldl (fun p i => srRound k0 p.1 p.2 i) (x, y)
  ((r.1 ^^^ r.2.rotateLeft 17) >>> 40).toNat

/-- round_elem of R109 on the exact magnitude m × 2^e: the code of the chosen magnitude; `r` is the hash under SR. -/
def roundElemMag (f : Elem) (sr : Bool) (r : Nat) (m : Nat) (e : Int) : Nat :=
  let q := elemFmt f
  if sr then
    let l : Int := (Nat.log2 m + 1 : Nat)
    let ex : Int := max (e + l - q.p) q.emin
    let d : Int := ex - e
    let c : Nat :=
      if m = 0 then 0
      else if d ≤ 0 then (ex - q.emin).toNat * 2 ^ (q.p - 1) + m * 2 ^ (-d).toNat
      else
        let k := 2 ^ d.toNat
        let base := (ex - q.emin).toNat * 2 ^ (q.p - 1) + m / k
        if m % k * 2 ^ 24 > r * k then base + 1 else base
    min c (q.infCode - 1)
  else min (roundCode q m e false) (q.infCode - 1)

/-- An element code with its sign; a zero result is +0 (R109). -/
def signCode (f : Elem) (neg : Bool) (c : Nat) : Nat := if c = 0 then 0 else c + bit neg * 2 ^ (elemBits f - 1)

/-- The code that Table 04-6 gives for a non-finite input. -/
def nonFiniteCode (f : Elem) (v : Fp) : Nat :=
  match f, v with
  | .e2m1, .inf n => 7 + bit n * 8
  | .e2m1, _ => 0
  | .e4m3, .nan n => 127 + bit n * 128
  | .e4m3, .inf n => 127 + bit n * 128
  | .e5m2, .nan n => 127 + bit n * 128
  | .e5m2, .inf n => 124 + bit n * 128
  | _, .fin _ _ _ => 0

/-- What a quantiser makes of one block: its scale byte, its element codes, whether it counts in SAT, whether it met a
non-finite input, its largest finite magnitude, and which elements were clamped. -/
structure Quant where
  scale : Byte
  codes : List Nat
  sat : Bool
  nonfinite : Bool
  amax : Option (Nat × Int)
  clamped : List Bool
deriving DecidableEq, Repr

/-- Whether a value is NaN or infinite. -/
def nonFinite : Fp → Bool
  | .fin _ _ _ => false
  | _ => true

/-- quantise_block of R107. `r i` is the hash of element i under SR (R109). -/
def quantiseBlock (y : List Fp) (eLo eHi : Nat) (f : Elem) (sr : Bool) (r : Nat → Nat) : Quant :=
  let a := blockMax y
  let nf := y.any nonFinite
  if a.isNone ∧ !nf then ⟨0, y.map fun _ => 0, false, false, none, y.map fun _ => false⟩
  else
    let e := match a with
      | none => eHi
      | some (m, x) => need f m x
    let eb := min (max e eLo) eHi
    let above := decide (e > eHi)
    let at' (v : Fp) (i : Nat) : Nat := match v with
      | .fin n m x => signCode f n (roundElemMag f sr (r i) m (x + 63 - eb))
      | v => nonFiniteCode f v
    let codes := y.zipIdx.map fun p => at' p.1 p.2
    let clamp (v : Fp) : Bool := match v with
      | .fin _ m x =>
        -- |v| × 2^(63 − eb) above maxf = elemM4 × 2^(t − 2)
        m ≠ 0 && dyLt ((elemM4 f : Int), elemT f - 2) ((m : Int), x + 63 - eb)
      | _ => false
    if codes.all (· == 0) ∧ !nf then ⟨0, y.map fun _ => 0, above, false, a, y.map fun _ => false⟩
    else ⟨BitVec.ofNat 8 (bit (above || nf) * 128 + eb), codes, above, nf, a, y.map clamp⟩

/-- A B16 value as the bits of FP32 (R102). -/
def b16to32 (r : Word16) : Word32 := r.setWidth 32 <<< 16

/-- The residual of ef_block: what y differs from its quantised value by, as B16; none for a clamped or non-finite element. -/
def residOf (f : Elem) (y : List Fp) (q : Quant) : List Word16 :=
  (y.zip (q.codes.zip q.clamped)).map fun p =>
    match p.1 with
    | .fin n m e =>
      if p.2.2 then (0 : Word16)
      else
        match blockValue f q.scale p.2.1 with
        | .fin n' m' e' =>
          let d := dyAdd (sgn n m, e) (-(sgn n' m'), e')
          if d.1 = 0 then (if m = 0 ∧ n then 0x8000 else 0) else encodeB16 (decide (d.1 < 0)) d.1.natAbs d.2
        | _ => 0
    | _ => 0

/-- ef_block with a rounding: RNE, or SR by the hashes `h` (R112, R205). -/
def efRound (x : List Word32) (rin : List Word16) (eLo eHi : Nat) (f : Elem) (sr : Bool) (h : Nat → Nat) : Quant × List Word16 :=
  let y := (x.zip rin).map fun p => decode32 (fadd p.1 (b16to32 p.2))
  let q := quantiseBlock y eLo eHi f sr h
  (q, residOf f y q)

/-- ef_block of R112: FP32 inputs and B16 residuals give the quantised block and the new residuals. -/
def efBlock (x : List Word32) (rin : List Word16) (eLo eHi : Nat) (f : Elem) : Quant × List Word16 :=
  efRound x rin eLo eHi f false fun _ => 0

/-- The window of a record (R107): its lowest and highest exponent; a record in state NEW has [1, 127]. W outside 4 to 64
means the default of the format. -/
def windowOf (isNew : Bool) (eHi w : Nat) (f : Elem) : Nat × Nat :=
  if isNew then (1, 127)
  else
    let w := if 4 ≤ w ∧ w ≤ 64 then w else defaultW f
    (max 1 (eHi + 1 - w), eHi)

/-- Packs element codes as they are stored (R104). -/
def packCodes (f : Elem) : List Nat → List Byte
  | [] => []
  | [a] => [BitVec.ofNat 8 a]
  | a :: b :: r =>
    match f with
    | .e2m1 => BitVec.ofNat 8 (a + 16 * b) :: packCodes f r
    | _ => BitVec.ofNat 8 a :: BitVec.ofNat 8 b :: packCodes f r

/-- The element codes of stored bytes (R104). -/
def unpackCodes (f : Elem) (bs : List Byte) : List Nat :=
  match f with
  | .e2m1 => bs.flatMap fun b => [b.toNat % 16, b.toNat / 16]
  | _ => bs.map (·.toNat)

end Sys2Proof.Machine
end

