-- ==== Sys2Proof/Machine/Operands.lean ====
section
/-! DEFINITION. The operand forms: module addresses (Table 06-4), descriptor headers and bodies (Tables 06-2 to 06-12), the
MATMUL operand block (Table 06-6), JVI words (R189), statuses (Table 13-8) and completion outcomes (Table 06-3). -/

namespace Sys2Proof.Machine

/-! ### Status codes (Table 13-8) -/

def stOk : Word16 := 0x0000
def stBusy : Word16 := 0x0001
def stBadCheck : Word16 := 0x0002
def stBadOpcode : Word16 := 0x0003
def stBadSeq : Word16 := 0x0004
def stDeniedRegime : Word16 := 0x0005
def stCapBelowFloor : Word16 := 0x0006
def stFrozen : Word16 := 0x0007
def stAlreadyDone : Word16 := 0x0008
def stOverQuota : Word16 := 0x0009
def stTimeout : Word16 := 0x000A
def stFaulted : Word16 := 0x000B

/-! ### Module addresses (Table 06-4) -/

/-- A place in one of the spaces of Table 06-4. -/
inductive Loc where
  | g7 (off : Nat)
  | pad (e off : Nat)
  | acc (e off : Nat)
  | slow (off : Nat)
  | host (a : Nat)
  | remote (x y : Nat) (pad : Bool) (e off : Nat)
  | reduce (st off : Nat)
deriving DecidableEq, Repr

/-- Usable bytes of G7 (R227). -/
def g7Size : Nat := 75382128640
/-- Usable bytes of the slow tier: 910 GiB (Table 00-1). -/
def slowSize : Nat := 910 * 2 ^ 30
/-- Bytes of a scratchpad and of a companion core's local memory (Tables 01-4, 01-5). -/
def padSize : Nat := 6 * 2 ^ 20
def localSize : Nat := 2 ^ 20

/-- The place a 64-bit module address names; none outside every space (R161). -/
def locOf (a : Nat) : Option Loc :=
  let sp := bitsOf a 60 4
  if sp = 0 then (if bitsOf a 40 20 = 0 ∧ bitsOf a 0 40 < g7Size then some (.g7 (bitsOf a 0 40)) else none)
  else if sp = 1 then
    (if bitsOf a 46 14 = 0 ∧ bitsOf a 23 17 = 0 ∧ bitsOf a 0 23 < padSize then some (.pad (bitsOf a 40 6) (bitsOf a 0 23)) else none)
  else if sp = 2 then
    (if bitsOf a 46 14 = 0 ∧ bitsOf a 21 19 = 0 ∧ bitsOf a 0 21 < 0x180000 then some (.acc (bitsOf a 40 6) (bitsOf a 0 21)) else none)
  else if sp = 3 then (if bitsOf a 40 20 = 0 ∧ bitsOf a 0 40 < slowSize then some (.slow (bitsOf a 0 40)) else none)
  else if sp = 4 then (if bitsOf a 57 3 = 0 then some (.host (bitsOf a 0 57)) else none)
  else if sp = 5 then
    let pad := bitOf a 52
    if bitsOf a 46 6 = 0 ∧ bitsOf a 56 4 < 9 then
      (if pad then (if bitsOf a 23 17 = 0 ∧ bitsOf a 0 23 < padSize then
          some (.remote (bitsOf a 56 4) (bitsOf a 53 3) true (bitsOf a 40 6) (bitsOf a 0 23)) else none)
       else if bitsOf a 40 6 = 0 ∧ bitsOf a 0 40 < g7Size then
          some (.remote (bitsOf a 56 4) (bitsOf a 53 3) false 0 (bitsOf a 0 40)) else none)
    else none
  else if sp = 6 then (if bitsOf a 36 14 = 0 then some (.reduce (bitsOf a 50 10) (bitsOf a 0 36)) else none)
  else none

/-- Bytes from a place to the end of its space. The accumulators and the wide buffer end at 0x18_0000. -/
def Loc.room : Loc → Nat
  | .g7 o => g7Size - o
  | .pad _ o => padSize - o
  | .acc _ o => 0x180000 - o
  | .slow o => slowSize - o
  | .host a => 2 ^ 57 - a
  | .remote _ _ p _ o => if p then padSize - o else g7Size - o
  | .reduce _ o => 2 ^ 36 - o

/-- The place n bytes further on. -/
def Loc.add : Loc → Nat → Loc
  | .g7 o, n => .g7 (o + n)
  | .pad e o, n => .pad e (o + n)
  | .acc e o, n => .acc e (o + n)
  | .slow o, n => .slow (o + n)
  | .host a, n => .host (a + n)
  | .remote x y p e o, n => .remote x y p e (o + n)
  | .reduce st o, n => .reduce st (o + n)

/-- The place of an address whose `len` bytes lie inside its space and satisfy a test on the space (R161). -/
def locRange (a len : Nat) (ok : Loc → Bool) : Option Loc :=
  match locOf a with
  | some l => if ok l && decide (len ≤ l.room) then some l else none
  | none => none

def Loc.isG7 : Loc → Bool | .g7 _ => true | _ => false
def Loc.isPad : Loc → Bool | .pad _ _ => true | _ => false
def Loc.isSlow : Loc → Bool | .slow _ => true | _ => false
def Loc.isHost : Loc → Bool | .host _ => true | _ => false
def Loc.isG7OrHost (l : Loc) : Bool := l.isG7 || l.isHost
/-- Blocks and kernels lie in space 0x0 or 0x1 (Tables 06-5, 06-8). -/
def Loc.isBlock (l : Loc) : Bool := l.isG7 || l.isPad
/-- DMA sources (Table 06-4). -/
def Loc.isSource : Loc → Bool
  | .remote _ _ _ _ _ => false
  | .reduce _ _ => false
  | _ => true
/-- DMA destinations (Table 06-4). -/
def Loc.isDest : Loc → Bool
  | .acc _ _ => false
  | _ => true

/-! ### Descriptors (Table 06-2) -/

/-- KIND of a descriptor. -/
inductive Kind where
  | nop | matmul | vector | dma | wait | post | fence | solstice | split | offload | prefetch | commit
deriving DecidableEq, Repr

def kindOf (n : Nat) : Option Kind :=
  match n with
  | 0 => some .nop | 1 => some .matmul | 2 => some .vector | 3 => some .dma | 4 => some .wait | 5 => some .post
  | 6 => some .fence | 7 => some .solstice | 8 => some .split | 9 => some .offload | 10 => some .prefetch | 11 => some .commit
  | _ => none

/-- The kinds a queue accepts (Table 06-1). -/
def queueTakes (q : Nat) (k : Kind) : Bool :=
  match k with
  | .nop => true | .wait => true | .post => true | .fence => true
  | .matmul => q < 64 | .solstice => q < 64 | .split => q < 64
  | .vector => q < 64 || q ≥ 72
  | .dma => 64 ≤ q && q < 72 | .offload => 64 ≤ q && q < 72 | .prefetch => 64 ≤ q && q < 72
  | .commit => q ≥ 72

def dSeq (d : List Byte) : Word32 := BitVec.ofNat 32 (le d 0 4)
def dKind (d : List Byte) : Option Kind := kindOf (le d 6 1)
def dCond (d : List Byte) : Nat := bitsOf (le d 7 1) 2 2
def dNoCount (d : List Byte) : Bool := bitOf (le d 7 1) 1
def dIrq (d : List Byte) : Bool := bitOf (le d 7 1) 0
def dStep (d : List Byte) : Word32 := BitVec.ofNat 32 (le d 8 4)
def dPostAmount (d : List Byte) : Nat := bitsOf (le d 12 4) 16 16
def dPostValid (d : List Byte) : Bool := bitOf (le d 12 4) 15
def dPostSc (d : List Byte) : Nat := bitsOf (le d 12 4) 0 14
def dThreshold (d : List Byte) (t : Nat) : Nat := bitsOf (le d (16 + 6 * t) 6) 16 32
def dTValid (d : List Byte) (t : Nat) : Bool := bitOf (le d (16 + 6 * t) 6) 15
def dTsc (d : List Byte) (t : Nat) : Nat := bitsOf (le d (16 + 6 * t) 6) 0 14
/-- The 64-bit body field at an offset. -/
def dAddr (d : List Byte) (off : Nat) : Nat := le d off 8

/-- CRC16 of a block whose CRC bytes stand at `off` holds (R156). -/
def crc16Holds (b : List Byte) (off : Nat) : Bool := crc16 (patch b off [0, 0]) == le b off 2

/-- Bytes of a body that Tables 06-5 to 06-11 leave reserved are zero (R155), by kind; the reserved bits of the header too. -/
def reservedClear (d : List Byte) : Bool :=
  let z (off n : Nat) : Bool := le d off n == 0
  let head := bitsOf (le d 7 1) 4 4 == 0 && !bitOf (le d 12 4) 14 &&
    (List.range 4).all fun t => !bitOf (le d (16 + 6 * t) 6) 14
  head && match dKind d with
    | some .nop => z 40 24
    | some .matmul => z 48 16
    | some .vector => true
    | some .dma => bitsOf (le d 60 1) 2 6 == 0 && z 61 3
    | some .offload => z 62 2
    | some .prefetch => z 62 2
    | some .wait => bitsOf (le d 40 1) 1 7 == 0 && z 41 3 && z 48 16
    | some .post => z 61 3
    | some .fence => bitsOf (le d 40 1) 2 6 == 0 && z 41 23
    | some .solstice => z 41 1 && z 52 12
    | some .split => z 41 23
    | some .commit => z 45 3 && z 56 8
    | none => true

/-- The check of R151 and R155 that refuses a descriptor with ST_BAD_OPCODE before anything else. -/
def descriptorBad (q : Nat) (d : List Byte) : Bool :=
  match dKind d with
  | none => true
  | some k => !queueTakes q k || !reservedClear d || dCond d == 3

/-- The barrier kinds of Table 05-7. -/
def isBarrier : Kind → Bool
  | .wait => true
  | .fence => true
  | .split => true
  | _ => false

/-! ### POST targets (Table 06-12) -/

structure PostTarget where
  sc : Nat
  op : Nat
  x : Nat
  y : Nat
  remote : Bool
  value : Nat
deriving DecidableEq, Repr

def postTarget (b : List Byte) : PostTarget :=
  let v := le b 0 7
  ⟨bitsOf v 0 14, bitsOf v 14 2, bitsOf v 16 4, bitsOf v 20 3, bitOf v 23, bitsOf v 24 32⟩

/-! ### The MATMUL operand block (Table 06-6) -/

def obKb (b : List Byte) : Nat := le b 6 2
def obABase (b : List Byte) : Nat := le b 8 4
def obAScale (b : List Byte) : Nat := le b 12 4
def obAPitch (b : List Byte) : Nat := le b 16 4
def obBBase (b : List Byte) : Nat := le b 20 4
def obBScale (b : List Byte) : Nat := le b 24 4
def obBPitch (b : List Byte) : Nat := le b 28 4
def obFlag (b : List Byte) (i : Nat) : Bool := bitOf (le b 32 4) i
def obHalfL (b : List Byte) : Bool := obFlag b 26
def obTiedDrain (b : List Byte) : Bool := obFlag b 25
def obTied (b : List Byte) : Bool := obFlag b 24
def obW64Out (b : List Byte) : Bool := obFlag b 23
def obW64In (b : List Byte) : Bool := obFlag b 22
def obInitAdd (b : List Byte) : Bool := obFlag b 21
def obBStream (b : List Byte) : Bool := obFlag b 20
def obBTrans (b : List Byte) : Bool := obFlag b 19
def obATrans (b : List Byte) : Bool := obFlag b 18
def obMask (b : List Byte) : Bool := obFlag b 17
def obCombine (b : List Byte) : Bool := obFlag b 16
def obP (b : List Byte) : Bool := obFlag b 15
def obMode (b : List Byte) : Nat := bitsOf (le b 32 4) 12 3
def obOutFmt (b : List Byte) : Nat := bitsOf (le b 32 4) 8 4
def obBFmt (b : List Byte) : Nat := bitsOf (le b 32 4) 4 4
def obAFmt (b : List Byte) : Nat := bitsOf (le b 32 4) 0 4
def obSRaw (b : List Byte) : Nat := bitsOf (le b 36 4) 19 9
/-- The spill interval S: 0 means 64. -/
def obS (b : List Byte) : Nat := if obSRaw b = 0 then 64 else obSRaw b
def obM (b : List Byte) : Nat := bitsOf (le b 36 4) 9 10
def obAccRow (b : List Byte) : Nat := bitsOf (le b 36 4) 0 9
def obBRec (b : List Byte) : Nat := bitsOf (le b 40 4) 13 13
def obARec (b : List Byte) : Nat := bitsOf (le b 40 4) 0 13
def obLandSc (b : List Byte) : Nat := bitsOf (le b 44 4) 16 14
def obOutRec (b : List Byte) : Nat := bitsOf (le b 44 4) 0 13
def obBWstream (b : List Byte) : Nat := bitsOf (le b 48 4) 16 8
def obRelSc (b : List Byte) : Nat := bitsOf (le b 48 4) 0 14
def obLandBase (b : List Byte) : Nat := le b 52 4
def obNBase (b : List Byte) : Nat := le b 56 4
def obMBase (b : List Byte) : Nat := le b 60 4
def obRowLen (b : List Byte) : Nat := le b 64 4
def obMaskOffset (b : List Byte) : Int := signedOf 32 (le b 68 4)
def obAlpha (b : List Byte) : Word32 := BitVec.ofNat 32 (le b 72 4)
def obBeta (b : List Byte) : Word32 := BitVec.ofNat 32 (le b 76 4)
def obBias (b : List Byte) : Nat := le b 80 4
def obZrow (b : List Byte) : Nat := le b 84 4
def obStats (b : List Byte) : Nat := le b 88 4
def obOutBase (b : List Byte) : Nat := le b 92 4
def obOutPitch (b : List Byte) : Nat := le b 96 4
def obOutScale (b : List Byte) : Nat := le b 100 4
def obSacc (b : List Byte) : Nat := le b 104 4
def obSw64 (b : List Byte) : Nat := le b 108 4
def obASpitch (b : List Byte) : Nat := le b 112 4
def obBSpitch (b : List Byte) : Nat := le b 116 4
def obOutSpitch (b : List Byte) : Nat := le b 120 4
def obKLen (b : List Byte) : Nat := le b 124 4

/-- The reserved bits of the operand block are zero (R155, Table 06-6). -/
def obReservedClear (b : List Byte) : Bool :=
  bitsOf (le b 32 4) 27 5 == 0 && bitsOf (le b 36 4) 28 4 == 0 && bitsOf (le b 40 4) 26 6 == 0 && bitsOf (le b 44 4) 30 2 == 0 &&
    bitsOf (le b 44 4) 13 3 == 0 && bitsOf (le b 48 4) 24 8 == 0 && bitsOf (le b 48 4) 14 2 == 0

/-- Codes of Table 06-7 after REC is resolved: 0 to 2 the block formats, 3 B16, 4 FP32, 5 W64. -/
def isElem (f : Nat) : Bool := f ≤ 2
/-- The element format of a code of Table 06-7. -/
def fmtElem (f : Nat) : Elem := if f = 1 then .e4m3 else if f = 2 then .e5m2 else .e2m1

/-- Whether Table 03-1 has the pair of resolved formats, streamed × stationary. -/
def pairOk (a b : Nat) : Bool :=
  match a, b with
  | 0, 0 => true
  | 0, 1 => true | 0, 2 => true | 1, 0 => true | 2, 0 => true
  | 1, 1 => true | 1, 2 => true | 2, 1 => true | 2, 2 => true
  | 3, 3 => true | 3, 1 => true | 3, 2 => true | 1, 3 => true | 2, 3 => true
  | _, _ => false

/-- K-block length of Table 03-1; half of it in split mode (R88). -/
def kbLen (a b : Nat) (split : Bool) : Nat :=
  let n := if a = 0 ∧ b = 0 then 512 else 128
  if split then n / 2 else n

/-- Waves per K-block per output row (Table 03-1). -/
def subWaves (a b : Nat) : Nat := if a = 3 ∨ b = 3 then 4 else 1

/-! ### JVI words (R189) -/

def jOp (w : Word64) : Nat := fld w 56 8
def jD (w : Word64) : Nat := fld w 51 5
def jA (w : Word64) : Nat := fld w 46 5
def jB (w : Word64) : Nat := fld w 41 5
def jC (w : Word64) : Nat := fld w 36 5
def jP (w : Word64) : Nat := fld w 33 3
def jNeg (w : Word64) : Bool := fld w 32 1 == 1
def jImm (w : Word64) : Nat := fld w 0 32
/-- sext(imm). -/
def jSext (w : Word64) : Int := signedOf 32 (jImm w)

/-- The opcodes of Table 06-18. -/
def jviAssigned (op : Nat) : Bool :=
  op ≤ 0x05 || (0x10 ≤ op && op ≤ 0x1C) || op == 0x1F || (0x20 ≤ op && op ≤ 0x36) || (0x40 ≤ op && op ≤ 0x4D) ||
    (0x50 ≤ op && op ≤ 0x56) || (0x60 ≤ op && op ≤ 0x64) || (0x70 ≤ op && op ≤ 0x7B) || (0x80 ≤ op && op ≤ 0x83) ||
    op == 0x90 || op == 0x91 || op == 0xA0

end Sys2Proof.Machine
end

