-- ==== Sys2Proof/Machine/Access.lean ====
section
/-! DEFINITION. Reads and writes of the module's memories through the 288/256 code: placement (R228, R234), health of codewords
(R222 to R224), the counters and records of what a reader finds (Table 08-1), the retrain a channel takes (R231). -/

namespace Sys2Proof.Machine

/-! ### Placement -/

/-- Where the reserve keeps slot s of channel c (R234): channel and slot. -/
def reservePlace (c s : Nat) : Nat × Nat :=
  let k := s % 79
  (if k < c then k else k + 1, 1840384 + s / 79)

/-- The channel and slot that the current generation or a migration takes an offset to (R234, R235). -/
def State.g7Where (s : State) (off : Nat) : Nat × Nat :=
  let p := g7Place off
  let cur := if s.mem.gen = 0 then s.mem.remap0 else s.mem.remap1
  let moved := (s.mem.reserve == .migrating && decide (s.mem.reserveCh = p.1) && decide (p.2 < s.mem.migDone.toNat)) ||
    (s.mem.reserve == .returning && decide (s.mem.reserveCh = p.1) && decide (s.mem.migDone.toNat ≤ p.2)) ||
    (cur.valid && decide (cur.ch = p.1) && !(s.mem.reserve == .returning))
  if moved then reservePlace p.1 p.2 else p
def State.g7Channel (s : State) (off : Nat) : Nat := (s.g7Where off).1

/-- The slow-tier channel of an offset: granule mod 64 (section Capacity and the granule hash). -/
def slowChannel (off : Nat) : Nat := off / 512 % 64

/-! ### Codewords -/

/-- A codeword that its reader reports as uncorrectable (R222, R223). -/
def CwHealth.isBad : CwHealth → Bool
  | .uncorrectable => true
  | .poison => true
  | _ => false

/-! ### Retrain of a G7 channel (R231) -/

/-- A channel begins a full retrain and parks its accesses. The causes are numbered in the order of R231. -/
def State.g7Retrain (s : State) (c cause : Nat) : State :=
  let ch := s.channel c
  if ch.state = .retrain ∨ ch.state = .dead then s
  else s.onChannel c fun ch => { ch with
    state := .retrain, under := ch.state, since := s.now, cause := cause, fails := 0, retrains := inc ch.retrains, peakPark := 0 }

/-- An access that places on a retraining channel waits in its park queue of 256 (R232). -/
def State.park (s : State) (c : Nat) : State :=
  if (s.channel c).state = .retrain then
    s.onChannel c fun ch => { ch with park := min 256 (ch.park + 1), peakPark := max ch.peakPark (min 256 (ch.park + 1)) }
  else s

/-- The granules of 512 bytes that `len` bytes from `off` touch: one access each. -/
def granSpan (off len : Nat) : List Nat :=
  if len = 0 then [] else (List.range ((off + len - 1) / 512 - off / 512 + 1)).map (off / 512 + ·)

/-- The accesses of a range of G7 park where they meet a retraining channel. -/
def State.parkAll (s : State) (off len : Nat) : State :=
  (granSpan off len).foldl (fun s g => s.park (s.g7Channel (512 * g))) s

/-- A requester waits before an access to a channel whose park queue is full (R232). -/
def State.parkFull (s : State) (off len : Nat) : Bool :=
  (granSpan off len).any fun g => let c := s.channel (s.g7Channel (512 * g)); c.state == .retrain && decide (256 ≤ c.park)

/-! ### Counters and records of a reader -/

/-- A corrected codeword of G7 counts in MEM_CH_CE; 1,024 within 100,000 ticks start a retrain (Table 08-1, R231). -/
def State.g7Ce (s : State) (cw : Nat) : State :=
  let c := s.g7Channel (32 * cw)
  let ticks := (s.now :: (s.channel c).ceTicks).take 1024
  let s := s.onChannel c fun ch => { ch with ce := inc ch.ce, ceTicks := ticks }
  if ticks.length = 1024 ∧ s.now ≤ ticks.getLastD 0 + 100000 then s.g7Retrain c 0 else s

/-- An uncorrectable codeword of G7: MEM_CH_UE counts, WARN G7_UE, MSI-X vector 273 (Table 08-1, R244, Table 11-3). -/
def State.g7Ue (s : State) (cw : Nat) : State :=
  let p := s.g7Where (32 * cw)
  let c := p.1
  ((s.onChannel c fun ch => { ch with ue := inc ch.ue }).report 0x0804 .warn 7 c
    (leBytes 1 c ++ leBytes 4 p.2 ++ leBytes 1 (cw % 16) ++ leBytes 4 s.stepNo)).msix 273

def State.slowCe (s : State) (cw : Nat) : State := s.onLp (slowChannel (32 * cw)) fun l => { l with ce := l.ce + 1 }
/-- LP_UE carries the payload of G7_UE with the slow-tier channel in byte 0 (chapter 14). -/
def State.slowUe (s : State) (cw : Nat) : State :=
  let l := slowChannel (32 * cw)
  (s.onLp l fun x => { x with ue := x.ue + 1 }).report 0x080F .warn 8 l
    (leBytes 1 l ++ leBytes 4 (cw / 1024) ++ leBytes 1 (cw % 16) ++ leBytes 4 s.stepNo)

/-! ### G7 and the slow tier -/

/-- What a reader of one G7 codeword meets, injections included (detectors 0x0801, 0x0802). -/
def State.g7Look (s : State) (cw : Nat) : CwHealth × State :=
  let c := s.g7Channel (32 * cw)
  let a := s.fires 0x0801 7 c
  let b := a.2.fires 0x0802 7 c
  let h := b.2.g7Health cw
  let h := if h.isBad then h else if b.1 then .uncorrectable else if a.1 then .correctable else h
  let s := if h.isBad then b.2.g7Ue cw else if h = .correctable then b.2.g7Ce cw else b.2
  -- the handling of an injected error goes on through the retrain it starts (R404)
  (h, if (s.channel c).state = .retrain then s else s.injEnd 7 c)

/-- As `g7Look` for the slow tier (detectors 0x0806, 0x0807). -/
def State.slowLook (s : State) (cw : Nat) : CwHealth × State :=
  let l := slowChannel (32 * cw)
  let a := s.fires 0x0806 8 l
  let b := a.2.fires 0x0807 8 l
  let h := Sparse.get .good b.2.mem.badSlow cw
  let h := if h.isBad then h else if b.1 then .uncorrectable else if a.1 then .correctable else h
  let s := if h.isBad then b.2.slowUe cw else if h = .correctable then b.2.slowCe cw else b.2
  (h, s.injEnd 8 l)

/-- Looks at codewords in order: whether any is uncorrectable, and the poisoned ones. -/
def lookAll (look : State → Nat → CwHealth × State) (s : State) : List Nat → Bool × List Nat × State
  | [] => (false, [], s)
  | cw :: r =>
    let a := look s cw
    let b := lookAll look a.2 r
    (a.1.isBad || b.1, if a.1 = .poison then cw :: b.2.1 else b.2.1, b.2.2)

/-- Bytes of a memory where the codewords listed read as zeros (R224). -/
def maskPoison (m : List Host.Cell) (off len : Nat) (poison : List Nat) : List Byte :=
  (List.range len).map fun i => if poison.contains ((off + i) / 32) then 0 else Memory.read m (off + i)

/-- Reads G7: the bytes, whether a codeword was uncorrectable, and the state with what the reader found counted. -/
def State.readG7 (s : State) (off len : Nat) : List Byte × Bool × State :=
  let r := lookAll State.g7Look (s.parkAll off len) (cwSpan off len)
  (maskPoison s.mem.g7 off len r.2.1, r.1, r.2.2)
def State.readSlow (s : State) (off len : Nat) : List Byte × Bool × State :=
  let r := lookAll State.slowLook s (cwSpan off len)
  (maskPoison s.mem.slow off len r.2.1, r.1, r.2.2)

/-- The part of one codeword that `len` bytes from `off` write: offset of its first byte and its length. -/
def cwPart (off len cw : Nat) : Nat × Nat :=
  let a := max off (32 * cw)
  (a, min (off + len) (32 * cw + 32) - a)

/-- Writes one codeword's part to G7: whole codewords replace, partial ones merge, or become the poison word when the read
finds an uncorrectable codeword (R224). -/
def State.writeG7Cw (s : State) (off : Nat) (d : List Byte) (cw : Nat) : State :=
  let p := cwPart off d.length cw
  let b := (d.drop (p.1 - off)).take p.2
  let s := if (s.channel (s.g7Channel (32 * cw))).state = .retrain then s.onMem fun m => { m with parked := m.parked ++ [(p.1, b)] } else s
  if p.2 = 32 then
    (s.setG7Health cw .good).onMem fun m => { m with g7 := Memory.write m.g7 p.1 b }
  else
    let l := s.g7Look cw
    if l.1.isBad then (l.2.setG7Health cw .poison).onMem fun m => { m with g7 := Memory.write m.g7 (32 * cw) (List.replicate 32 0) }
    else (l.2.setG7Health cw .good).onMem fun m => { m with g7 := Memory.write m.g7 p.1 b }

def State.writeG7 (s : State) (off : Nat) (d : List Byte) : State :=
  (cwSpan off d.length).foldl (fun s cw => s.writeG7Cw off d cw) (s.parkAll off d.length)

def State.setSlowHealth (s : State) (cw : Nat) (h : CwHealth) : State :=
  s.onMem fun m => { m with badSlow := Sparse.put .good m.badSlow cw h }

def State.writeSlowCw (s : State) (off : Nat) (d : List Byte) (cw : Nat) : State :=
  let p := cwPart off d.length cw
  let b := (d.drop (p.1 - off)).take p.2
  if p.2 = 32 then (s.setSlowHealth cw .good).onMem fun m => { m with slow := Memory.write m.slow p.1 b }
  else
    let l := s.slowLook cw
    if l.1.isBad then (l.2.setSlowHealth cw .poison).onMem fun m => { m with slow := Memory.write m.slow (32 * cw) (List.replicate 32 0) }
    else (l.2.setSlowHealth cw .good).onMem fun m => { m with slow := Memory.write m.slow p.1 b }

def State.writeSlow (s : State) (off : Nat) (d : List Byte) : State :=
  (cwSpan off d.length).foldl (fun s cw => s.writeSlowCw off d cw) s

/-- A store of the host, of a copy engine or of a stream copy: the layout directory, bytes 0 to 4,095, is written by UPD_LAYOUT alone
and keeps its contents (R197). -/
def State.storeSlow (s : State) (off : Nat) (d : List Byte) : State := s.writeSlow (max off 4096) (d.drop (4096 - off))

/-- Stores the poison word in every codeword of a range: the data of a write that is not retained (R309, R224). -/
def State.poisonG7 (s : State) (off len : Nat) : State :=
  (cwSpan off len).foldl (fun s cw =>
    (s.setG7Health cw .poison).onMem fun m => { m with g7 := Memory.write m.g7 (32 * cw) (List.replicate 32 0) }) s
def State.poisonSlow (s : State) (off len : Nat) : State :=
  (cwSpan off len).foldl (fun s cw =>
    (s.setSlowHealth cw .poison).onMem fun m => { m with slow := Memory.write m.slow (32 * cw) (List.replicate 32 0) }) s

/-! ### Scratchpads -/

def State.onTileMem (s : State) (p : Nat) (f : TileMem → TileMem) : State := s.onTile p fun t => { t with mem := f t.mem }
def State.onTileRegs (s : State) (p : Nat) (f : TileRegs → TileRegs) : State := s.onTile p fun t => { t with regs := f t.regs }
def State.onTileWork (s : State) (p : Nat) (f : TileWork → TileWork) : State := s.onTile p fun t => { t with work := f t.work }

/-- A tile fails its self-test (Table 03-13 bit 10, Table 03-14). -/
def State.selftestFailed (s : State) (p : Nat) : State :=
  s.onTile p fun t => { t with health := .failedSelftest, regs := { t.regs with fault := t.regs.fault ||| 0x400 } }

/-- One codeword of a scratchpad as its reader meets it: a corrected one is corrected in place (Table 08-1); detector 0x0306
with sub-target 0 makes it uncorrectable. -/
def State.padLook (s : State) (p : Nat) (cw : Nat) : CwHealth × State :=
  let i := s.opportunity 0x0306 1 0 p fun sub => sub % 16 == 0
  let h := Sparse.get .good (i.2.tile p).mem.badPad cw
  let h := if h.isBad then h else if i.1.isSome then .uncorrectable else h
  (h, if h = .correctable then i.2.onTileMem p fun m => { m with badPad := Sparse.put .good m.badPad cw .good } else i.2)

/-- Reads a scratchpad: the bytes, whether a codeword was uncorrectable, and the state. -/
def State.readPad (s : State) (p off len : Nat) : List Byte × Bool × State :=
  let r := lookAll (fun s cw => s.padLook p cw) s (cwSpan off len)
  (maskPoison (s.tile p).mem.pad off len r.2.1, r.1, r.2.2)

def State.writePadCw (s : State) (p off : Nat) (d : List Byte) (cw : Nat) : State :=
  let q := cwPart off d.length cw
  let b := (d.drop (q.1 - off)).take q.2
  let h := Sparse.get .good (s.tile p).mem.badPad cw
  if q.2 ≠ 32 ∧ h.isBad then
    s.onTileMem p fun m => { m with
      pad := Memory.write m.pad (32 * cw) (List.replicate 32 0), badPad := Sparse.put .good m.badPad cw .poison }
  else s.onTileMem p fun m => { m with pad := Memory.write m.pad q.1 b, badPad := Sparse.put .good m.badPad cw .good }

def State.writePad (s : State) (p off : Nat) (d : List Byte) : State :=
  (cwSpan off d.length).foldl (fun s cw => s.writePadCw p off d cw) s

/-- Bytes of the accumulators and the wide buffer as space 0x2 lays them out (Table 06-4, R72, R78, R103). -/
def accByte (t : TileMem) (o : Nat) : Byte :=
  if o < 0x100000 then BitVec.ofNat 8 ((Sparse.get 0 t.acc (o / 4)).toNat / 256 ^ (o % 4))
  else BitVec.ofNat 8 ((Sparse.get 0 t.wide ((o - 0x100000) / 8)).toNat / 256 ^ (o % 8))

/-! ### Module addresses -/

/-- A place exists on this module: its engine, if it names one, has a tile (R93). -/
def State.locOk (s : State) : Loc → Bool
  | .pad e _ => (s.ptile e).isSome
  | .acc e _ => (s.ptile e).isSome
  | _ => true

/-- The place of a field's address and length, when it lies in a space the field allows (R161). -/
def State.place (s : State) (a len : Nat) (ok : Loc → Bool) : Option Loc := locRange a len fun l => ok l && s.locOk l

/-- Reads `len` bytes at a place: the bytes, whether any codeword was uncorrectable, and the state. A host read is recorded. -/
def State.readLoc (s : State) (l : Loc) (len : Nat) : List Byte × Bool × State :=
  match l with
  | .g7 o => s.readG7 o len
  | .slow o => s.readSlow o len
  | .pad e o =>
    match s.ptile e with
    | some p => s.readPad p o len
    | none => (List.replicate len 0, false, s)
  | .acc e o =>
    match s.ptile e with
    | some p => ((List.range len).map fun i => accByte (s.tile p).mem (o + i), false, s)
    | none => (List.replicate len 0, false, s)
  | .host a => (Memory.bytes s.hst.mem a len, false, s.emit (.hostRead a len))
  | _ => (List.replicate len 0, false, s)

/-- Writes bytes at a place of this module or of the host. -/
def State.writeLoc (s : State) (l : Loc) (d : List Byte) : State :=
  match l with
  | .g7 o => s.writeG7 o d
  | .slow o => s.storeSlow o d
  | .pad e o =>
    match s.ptile e with
    | some p => s.writePad p o d
    | none => s
  | .host a => s.hostWrite true a d
  | _ => s

/-! ### Companion local memory (Table 08-1) -/

def State.localMem (s : State) (c : Nat) : List Host.Cell := Sparse.get [] s.comp.local_ c
def State.onLocal (s : State) (c : Nat) (f : List Host.Cell → List Host.Cell) : State :=
  s.onComp fun t => { t with local_ := Sparse.put [] t.local_ c (f (s.localMem c)) }

/-- Reads a core's local memory; detector 0x0702 makes a codeword uncorrectable. -/
def State.readLocal (s : State) (c off len : Nat) : List Byte × Bool × State :=
  let i := s.fires 0x0702 5 c
  (Memory.bytes (s.localMem c) off len, i.1, i.2.injEnd 5 c)
/-- Writes a core's local memory. -/
def State.writeLocal (s : State) (c off : Nat) (d : List Byte) : State := s.onLocal c fun m => Memory.write m off d

end Sys2Proof.Machine
end

