-- ==== Sys2Proof/Machine/Vote.lean ====
section
/-! DEFINITION. The VOTE message (Table 10-2), its combining rules (R287) and its posting by a module (R286). -/

namespace Sys2Proof.Machine

/-- The 32 data bytes of a VOTE (Table 10-2). -/
def voteBytes (v : Vote) : List Byte :=
  leBytes 1 0x10 ++ leBytes 1 (bit v.finite + 2 * bit v.straggler + 4 * bit v.digest + 8 * bit v.replay) ++ leBytes 2 v.epoch.toNat ++
    leBytes 4 v.step.toNat ++ leBytes 2 v.voters ++ leBytes 2 v.stragglers ++ leBytes 4 v.lateBlocks ++ leBytes 4 v.span ++
    leBytes 1 v.firstNf ++ leBytes 3 0 ++ leBytes 4 v.group ++ leBytes 4 0

/-- The VOTE that 32 data bytes spell. -/
def voteOf (b : List Byte) : Vote where
  finite := bitOf (le b 1 1) 0
  straggler := bitOf (le b 1 1) 1
  digest := bitOf (le b 1 1) 2
  replay := bitOf (le b 1 1) 3
  epoch := BitVec.ofNat 16 (le b 2 2)
  step := BitVec.ofNat 32 (le b 4 4)
  voters := le b 8 2
  stragglers := le b 10 2
  lateBlocks := le b 12 4
  span := le b 16 4
  firstNf := le b 20 1
  group := le b 24 4

/-- Combines two votes of one epoch and step (Table 10-2). SPAN is the maximum over votes without STRAGGLER. -/
def combineVotes (a b : Vote) : Vote where
  finite := a.finite && b.finite
  straggler := a.straggler || b.straggler
  digest := a.digest || b.digest
  replay := a.replay || b.replay
  epoch := a.epoch
  step := a.step
  voters := a.voters + b.voters
  stragglers := a.stragglers + b.stragglers
  lateBlocks := min (a.lateBlocks + b.lateBlocks) 0xFFFFFFFF
  span := max a.span b.span
  firstNf := min a.firstNf b.firstNf
  group := a.group

/-- The vote of this module (R286, R210, R291): FINITE reflects the non-finite flag and the groups of R210. -/
def State.ownVote (s : State) (straggler : Bool) : Vote :=
  let finite := !s.scales.nonfinite && s.scales.badGroups.isEmpty
  let pos := match s.grp.pos with
    | some (x, y) => 8 * y + x
    | none => 0xFF
  { finite := finite
    straggler := straggler
    digest := s.comp.verdictDue.isSome
    replay := s.job.replaying
    epoch := s.grp.epoch
    step := s.job.step
    voters := 1
    stragglers := bit straggler
    lateBlocks := min (s.chd.lateBlocks - s.grp.lateStart).toNat 0xFFFFFFFF
    span := if straggler then 0 else match s.grp.spanStart with
      | some t => (s.grp.lastOwn - t) / 1024
      | none => 0
    firstNf := if finite then 0xFF else pos
    group := 0 }

/-- SHARD_DIGEST as the directory holds it (Table 07-1). -/
def State.shardDigest (s : State) : List Byte := Memory.bytes s.mem.slow 0x38 16

/-- The DIGEST message of a module (R292). -/
def State.digestMsg (s : State) : List Byte :=
  leBytes 2 0x12 ++ leBytes 2 s.grp.epoch.toNat ++ leBytes 4 (s.comp.verdictDue.getD 0).toNat ++ s.shardDigest

/-- The Vertex of this module's row: logical (x_a, y) (Table 10-1). -/
def State.vertexPos (s : State) : Nat × Nat :=
  match s.grp.pos with
  | some (_, y) => (s.apexPos.1, y)
  | none => (s.apexPos.1, s.physY)

/-- The logical position of this module as 8y + x, 0 for a spare; an event of the group carries it as its source (Table 14-2). -/
def State.ownIndex (s : State) : Nat := match s.grp.pos with | some (x, y) => 8 * y + x | none => 0
def State.groupReport (s : State) (code : Nat) (sev : Severity) (payload : List Byte) : State := s.report code sev 0x11 s.ownIndex payload

/-- The logical positions besides this module's. -/
def State.otherPositions (s : State) : List (Nat × Nat) :=
  ((List.range 64).map fun i => (i % 8, i / 8)).filter fun p => s.grp.pos != some p

/-- Sends a control message to every other position. -/
def State.toPositions (s : State) (b : List Byte) : State := s.otherPositions.foldl (fun s p => s.sendControl p.1 p.2 b) s

/-! ### APEX_STATE (R281) -/

def State.isApex (s : State) : Bool := s.grp.role == .apex || s.grp.role == .leadApex

/-- A set of physical positions 9y + x as 72 bits. -/
def bits72 (l : List Nat) : List Byte := leBytes 9 (((List.range 72).filter fun i => l.contains i).map fun i => 2 ^ i).sum
def set72 (b : List Byte) (off : Nat) : List Nat := (List.range 72).filter fun i => bitOf (le b off 9) i

/-- The physical position 9y + x of a logical one; of a spare, its own. -/
def State.phys (s : State) (p : Nat × Nat) : Nat := 9 * p.2 + s.colOf p.1 p.2

/-- The Apex sends its state to the next healthy entry of the list. -/
def State.sendApexState (s : State) : State :=
  let l := s.grp.cfg.succession
  let at' (k : Nat) : Nat × Nat := ((l.getD k 0) % 8, (l.getD k 0) / 8)
  match (List.range l.length).find? fun k => decide (s.grp.apexEntry < k) && !s.grp.failed.contains (s.phys (at' k)) with
  | none => s
  | some k =>
    s.sendControl (at' k).1 (at' k).2 (leBytes 1 0x19 ++ leBytes 1 s.grp.phase ++ leBytes 2 s.grp.epoch.toNat ++ leBytes 4 s.stepNo ++
      leBytes 8 s.chd.deadline.toNat ++ bits72 s.grp.failed)

/-! ### Streams of a step that is replayed (R296, R298) -/

/-- Weight streams that this module lands. -/
def State.wstreams (s : State) : List Nat := (List.range 256).filter fun w => fld (s.wword w 1) 0 32 != 0 && fld (s.wword w 1) 32 32 != 0

/-- WEIGHT_REQUEST for a stream (Table 10-4). -/
def State.requestWeights (s : State) (w : Nat) : State :=
  s.toPositions (leBytes 2 0x17 ++ leBytes 2 s.grp.epoch.toNat ++ leBytes 4 s.stepNo ++ leBytes 2 w ++ leBytes 1 s.ownIndex)

/-- The weight streams land anew: in a replay by the whole group they are sent anew, as are the reduce streams; a module that replays
alone requests them. -/
def State.restartStreams (s : State) (group : Bool) : State :=
  let s := s.onChd fun c => { c with wrecv := [], landed := [], stopped := [], wreq := [] }
  if group then
    (s.onChd fun c => { c with own := [], ownStep := [], rin := [], rinLate := [], partials := [], partLate := [], scaleOut := [], late := [] }).onGrp fun g => { g with
      spanStart := none, lastOwn := 0, expired := false, lateStart := s.chd.lateBlocks }
  else if s.grp.pos.isNone then s
  else
    let ws := s.wstreams
    ws.foldl State.requestWeights (s.onChd fun c => { c with wreq := ws })

/-- The module reports itself a straggler: it passed over a block in this step (R274), or replays while its group runs on (R296). -/
def State.straggler (s : State) : Bool := s.grp.straggles || s.chd.lateBlocks != s.grp.lateStart

/-! ### The cross-group ring (R303) -/

/-- Units of 1,024 elements in this owner's chunk of a stream. -/
def State.ringUnits (s : State) (st : Nat) : Nat :=
  let c := s.chunk st
  let lo := s.ownIndex * c
  if s.grp.pos.isNone then 0 else (min (lo + c) (s.rword st 1).toNat - lo + 1023) / 1024

/-- A stream whose chunks go round the groups. -/
def State.ringRuns (s : State) (st : Nat) : Bool := decide (1 < s.groups) && rValid s st && !rFrozen s st

/-- The ring has not completed for every chunk that this module owns. -/
def State.ringOpen (s : State) : Bool :=
  decide (1 < s.groups) && s.jobRuns && (List.range 1024).any fun st =>
    s.ringRuns st && (List.range (s.ringUnits st)).any fun u => !s.chd.ringDone.contains (rKey st u)

/-- Posts this module's VOTE once per step attempt (R286), after the cross-group ring has completed for its chunks (R303); what is found non-finite later enters the next vote (R291); its DIGEST when a digest is due (R292). Detector 0x0A02 holds
the vote that a counter releases to grace. -/
def State.postVote (s : State) (straggler : Bool) : State :=
  if s.grp.voted then s
  else if s.ringOpen then s.onGrp fun g => { g with voteHeld := some (straggler || g.voteHeld.getD false) }
  else
    let i := if straggler then (false, s) else s.fires 0x0A02 0 0
    if i.1 then i.2
    else
      let s := i.2
      let v := s.ownVote (straggler || s.straggler)
      let p := s.vertexPos
      let s := ((s.onScales fun c => { c with nonfinite := false }).onGrp fun g => { g with voted := true, voteHeld := none, lastVote := some v }).onGrpStats fun g => { g with votes := inc g.votes }
      let s := s.sendControl p.1 p.2 (voteBytes v)
      if v.digest then
        let a := s.apexPos
        (s.onGrp fun g => { g with lastDigest := some s.digestMsg }).sendControl a.1 a.2 s.digestMsg
      else s

end Sys2Proof.Machine
end

