-- ==== Sys2Proof/Machine/SyncOps.lean ====
section
/-! DEFINITION. Sync counter operations at their home router (R180 to R183), watches (R317) and the vote they post (R286). -/

namespace Sys2Proof.Machine

/-- The operations of R180. -/
inductive ScOp where
  | add
  | sub
  | set
  | clear
deriving DecidableEq, Repr

def State.counter (s : State) (n : Nat) : Counter := Sparse.get Reset.counter s.sync.sc n
def State.setCounter (s : State) (n : Nat) (c : Counter) : State :=
  s.onSync fun y => { y with sc := Sparse.put Reset.counter y.sc n c }

/-- The value of SC[n]. -/
def State.sc (s : State) (n : Nat) : Nat := (s.counter n).value.toNat

/-- The source byte of SC_OVERFLOW: the code of Table 14-2 (R183, R390). -/
def srcByte : ScSource → Nat
  | .pcie => 0x0C
  | .chord _ => 0x09
  | .fdt _ => 0x0B
  | .queue q => if q.val < 72 then 0x03 else 0x04
  | .engine _ => 0x01
  | .core _ => 0x05
  | .landing _ => 0x09

/-- The external operations of R186: from other modules over chords or FDT, and from PCIe masters. -/
def isExternal : ScSource → Bool
  | .pcie => true
  | .chord _ => true
  | .fdt _ => true
  | _ => false

/-- The counter after an operation (R180); `sat` presents the saturated outcome (detector 0x0604). -/
def scResult (c : Counter) (op : ScOp) (v : Word32) (sat : Bool) : Counter :=
  match op with
  | .add =>
    if sat ∨ c.value.toNat + v.toNat > 0xFFFFFFFF then { c with value := 0xFFFFFFFF, ovf := true } else { c with value := c.value + v }
  | .sub => if sat ∨ c.value.toNat < v.toNat then { c with value := 0, unf := true } else { c with value := c.value - v }
  | .set => ⟨v, false, false⟩
  | .clear => { c with ovf := false, unf := false }

/-- The net effect of external operations that the home router keeps (R186). -/
def extResult (x : ExtNet) (op : ScOp) (v : Word32) : ExtNet :=
  match op with
  | .add => { x with sum := x.sum + v.toNat }
  | .sub => { x with sum := x.sum - v.toNat }
  | .set => ⟨some v, 0⟩
  | .clear => x

/-- HST_WATCH[k] fires when armed and its counter is at or above THRESHOLD (R317). -/
def State.watchFire (s : State) (k : Nat) : State :=
  let w := Sparse.get 0 s.hst.watch k
  if fld w 63 1 = 1 ∧ s.sc (fld w 32 14) ≥ fld w 0 32 then
    (s.onHst fun h => { h with watch := Sparse.put 0 h.watch k (setFld w 63 1 0) }).msix (1024 + k)
  else s

/-- Every watch of counter n compares. -/
def State.watchAll (s : State) (n : Nat) : State :=
  s.hst.watch.foldl (fun s kw => if fld kw.2 32 14 = n then s.watchFire kw.1 else s) s

/-- Records and messages of a flag that goes from 0 to 1 (R183). -/
def State.scFlags (s : State) (n : Nat) (old new : Counter) (src : Nat) : State :=
  let rose := (new.ovf && !old.ovf) || (new.unf && !old.unf)
  if rose then
    let s := if old.ovf ∨ old.unf then s
      else s.report 0x0603 .warn 0x13 n (leBytes 2 n ++ leBytes 1 (if new.unf && !old.unf then 1 else 0) ++ leBytes 1 src)
    s.msix 277
  else s

/-- The vote that VOTE_SC releases (R286); a module that replays while its group runs on votes at grace where there is a deadline
(R296). -/
def State.voteCheck (s : State) (n : Nat) : State :=
  if s.jobRuns ∧ s.grp.pos.isSome ∧ n = s.grp.cfg.voteSc ∧ s.sc n ≥ s.grp.cfg.voteThreshold.toNat ∧
      !(s.grp.straggles && s.chd.deadline != 0) then s.postVote false else s

/-- An operation on SC[n] from a source (R180, R181). -/
def State.scOp (s : State) (n : Nat) (op : ScOp) (v : Word32) (src : ScSource) : State :=
  let i := match op with
    | .add => s.opportunity 0x0604 0x13 n 0 fun sub => sub == 0
    | .sub => s.opportunity 0x0604 0x13 n 0 fun sub => sub == 1
    | _ => (none, s)
  let old := i.2.counter n
  let new := scResult old op v i.1.isSome
  let s := i.2.setCounter n new
  let s := if isExternal src then
      s.onSync fun y => { y with ext := Sparse.put ⟨none, 0⟩ y.ext n (extResult (Sparse.get ⟨none, 0⟩ y.ext n) op v) }
    else s
  let s := ((s.scFlags n old new (srcByte src)).injEnd 0x13 n)
  (s.watchAll n).voteCheck n

/-- Restores a counter before a replay (R186, step 3): B + D, or the snapshot + D, clamped. -/
def restoreCounter (snap : Word32) (x : ExtNet) : Counter :=
  let v : Int := (match x.base with | some b => b.toNat | none => snap.toNat) + x.sum
  if v < 0 then ⟨0, false, true⟩ else if v > 0xFFFFFFFF then ⟨0xFFFFFFFF, true, false⟩ else ⟨BitVec.ofNat 32 v.toNat, false, false⟩

/-- The source byte of SC_OVERFLOW for the restore of a replay: JOB (Table 14-2). -/
def restoreSource : Nat := 0x10

/-- Restores one counter: an operation on it, which clears both flags and may set one (R183, R186). -/
def State.restoreOne (s : State) (n : Nat) : State :=
  let new := restoreCounter (Sparse.get 0 s.sync.snapshot n) (Sparse.get ⟨none, 0⟩ s.sync.ext n)
  (s.setCounter n new).scFlags n { s.counter n with ovf := false, unf := false } new restoreSource

/-- Restores every counter; tickets, WAITs and watches compare against the restored values (R186). -/
def State.restoreCounters (s : State) : State :=
  let ks := (s.sync.sc.map (·.1) ++ s.sync.snapshot.map (·.1) ++ s.sync.ext.map (·.1)).dedup
  let s := ks.foldl State.restoreOne s
  ks.foldl (fun s n => s.watchAll n) s

/-- The snapshot of the counters at a step boundary or job start; a replay re-runs what is taken from then on (R186). -/
def State.snapshotCounters (s : State) : State :=
  (s.onStreams fun t => { t with journal := t.journal.map fun e => { e with taken := false } }).onSync fun y => { y with snapshot := y.sc.filterMap (fun c => if c.2.value = 0 then none else some (c.1, c.2.value)), ext := [] }

/-- Every ticket of a descriptor is met (R141). -/
def State.ticketsMet (s : State) (d : List Byte) : Bool :=
  (List.range 4).all fun t => !dTValid d t || decide (dThreshold d t ≤ s.sc (dTsc d t))

end Sys2Proof.Machine
end

