-- ==== Sys2Proof/Machine/Arrays.lean ====
section
/-! DEFINITION. The items in the arrays of a tile (R65, R76, R88): which item takes waves, which were taken behind it, which still
drain; what holds a wave (R40, R61, R65, R76) and which weights load next (R65). -/

namespace Sys2Proof.Machine

/-! ### The items in the arrays -/

/-- The run that takes waves in a half. -/
def TileWork.run (w : TileWork) : Half → Option Run
  | .u => w.runU
  | .l => w.runL
def TileWork.setRun (w : TileWork) (h : Half) (r : Option Run) : TileWork :=
  match h with
  | .u => { w with runU := r }
  | .l => { w with runL := r }
def TileWork.feed (w : TileWork) : Half → List FeedRow
  | .u => w.feedU
  | .l => w.feedL
def TileWork.setFeed (w : TileWork) (h : Half) (f : List FeedRow) : TileWork :=
  match h with
  | .u => { w with feedU := f }
  | .l => { w with feedL := f }
def TileWork.shadow (w : TileWork) : Half → Sparse WBlock
  | .u => w.shadowU
  | .l => w.shadowL
def TileWork.active (w : TileWork) : Half → Sparse WBlock
  | .u => w.activeU
  | .l => w.activeL
def TileWork.setShadow (w : TileWork) (h : Half) (x : Sparse WBlock) : TileWork :=
  match h with
  | .u => { w with shadowU := x }
  | .l => { w with shadowL := x }
def TileWork.setActive (w : TileWork) (h : Half) (x : Sparse WBlock) : TileWork :=
  match h with
  | .u => { w with activeU := x }
  | .l => { w with activeL := x }
def TileWork.stop (w : TileWork) : Half → Option Word32
  | .u => w.stopU
  | .l => w.stopL
def TileWork.setStop (w : TileWork) (h : Half) (q : Option Word32) : TileWork :=
  match h with
  | .u => { w with stopU := q }
  | .l => { w with stopL := q }

/-- Every item in the arrays, in the order taken within a half: those that drain, that take waves, that were taken behind. -/
def TileWork.runs (w : TileWork) : List Run := w.draining ++ w.runU.toList ++ w.runL.toList ++ w.queued
/-- The items of a half; outside split mode all of them, as half U. -/
def TileWork.runsOf (w : TileWork) : Half → List Run
  | .u => w.draining ++ w.runU.toList ++ w.queued
  | .l => w.runL.toList

/-- The half of the arrays that runs an item of a given half operand: outside split mode there is one, U. -/
def halfOf (split : Bool) (h : Half) : Half := if split then h else .u

/-- K-blocks of the item are still to be run. -/
def Run.waves (r : Run) : Bool := decide (r.kb < obKb r.block)

/-- The items behind the one that takes waves follow it into the arrays as its waves end (R65, R76). -/
def advance (draining : List Run) : Option Run → List Run → List Run × Option Run × List Run
  | c, [] => (draining, c, [])
  | none, n :: q => advance draining (some n) q
  | some c, n :: q => if c.waves then (draining, some c, n :: q) else advance (draining ++ [c]) (some n) q

def TileWork.advance (w : TileWork) : TileWork :=
  let a := Machine.advance w.draining w.runU w.queued
  { w with draining := a.1, runU := a.2.1, queued := a.2.2 }

/-- An item enters the arrays: the free half in split mode, else behind the items already in them. -/
def TileWork.enter (w : TileWork) (split : Bool) (h : Half) (r : Run) : TileWork :=
  (if split then w.setRun h (some r) else { w with queued := w.queued ++ [r] }.advance).setStop (halfOf split h) none

/-- A run takes a new value where it stands. -/
def TileWork.put (w : TileWork) (r : Run) : TileWork :=
  let f (x : Run) : Run := if x.seq = r.seq then r else x
  { w with runU := w.runU.map f, runL := w.runL.map f, queued := w.queued.map f, draining := w.draining.map f }.advance

/-- An item leaves the arrays, with what it has in the feeders and the weight registers. -/
def TileWork.drop (w : TileWork) (seq : Word32) : TileWork :=
  let other (x : Run) : Bool := x.seq != seq
  { w with
    runU := w.runU.filter other, runL := w.runL.filter other, queued := w.queued.filter other, draining := w.draining.filter other
    feedU := w.feedU.filter fun f => f.seq != seq, feedL := w.feedL.filter fun f => f.seq != seq
    shadowU := w.shadowU.filter fun x => x.2.seq != seq, shadowL := w.shadowL.filter fun x => x.2.seq != seq
    activeU := w.activeU.filter fun x => x.2.seq != seq, activeL := w.activeL.filter fun x => x.2.seq != seq }.advance

/-- The feeder queues of a half are emptied: the rows they held are read again (Table 03-6). -/
def TileWork.emptyFeed (w : TileWork) (h : Half) : TileWork :=
  let again (r : Run) : Run := { r with feedKb := r.kb, feedRow := r.row }
  match h with
  | .u => { w with feedU := [], runU := w.runU.map again, queued := w.queued.map again }
  | .l => { w with feedL := [], runL := w.runL.map again }

/-- The item whose rows the stream reader reads next (R59). -/
def TileWork.reads (w : TileWork) (h : Half) : Option Run :=
  (match h with | .u => w.runU.toList ++ w.queued | .l => w.runL.toList).find? fun r => decide (r.feedKb < obKb r.block)

/-- The item whose rows the output stage drains next (R76). -/
def TileWork.drains (w : TileWork) (h : Half) : Option Run :=
  (match h with | .u => w.draining ++ w.runU.toList | .l => w.runL.toList).head?

/-! ### Weights -/

/-- The first item behind the one that takes waves which has a K-block to load. -/
def nextItem (q : List Run) : Option (Run × Nat) := (q.find? fun r => obKb r.block != 0).map fun r => (r, 0)

/-- The item and K-block that the weight port of array a loads next: the one after the active one, while the shadow is free; after
an item's last K-block, the first of the item behind it (R65). -/
def nextLoad (w : TileWork) (h : Half) (a : Nat) : Option (Run × Nat) :=
  if ((w.shadow h).find? fun x => x.1 == a).isSome then none
  else
    let behind := match h with | .u => nextItem w.queued | .l => none
    match w.run h with
    | none => none
    | some r =>
      match (w.active h).find? fun x => x.1 == a with
      | some x => if x.2.seq ≠ r.seq then (if r.waves then some (r, 0) else behind)
                  else if x.2.kb + 1 < obKb r.block then some (r, x.2.kb + 1) else behind
      | none => if r.waves then some (r, 0) else behind

/-! ### What a wave waits for -/

/-- The item writes no output row: it leaves merged pairs, or reserved rows (R79, R75). -/
def quiet (b : List Byte) : Bool := obW64Out b || (obTied b && !obTiedDrain b)

/-- Rows that the output stage has yet to drain. -/
def rowsDue (r : Run) : Nat := if quiet r.block then 0 else r.ready - r.drained

/-- Finished rows of a half that the output stage has yet to drain. -/
def TileWork.undrained (w : TileWork) (h : Half) : Nat :=
  ((match h with | .u => w.draining ++ w.runU.toList | .l => w.runL.toList).map rowsDue).sum

/-- Rows that may wait for the output stage: a row is delivered at most 16 wave-times after its last entry (R76). -/
def drainDepth : Nat := 16

/-- The wave of a half would finish one more row than the output stage can take: it waits (R61, R76). -/
def backPressed (w : TileWork) (h : Half) : Bool :=
  match w.run h with
  | some r => !quiet r.block && r.kb + 1 == obKb r.block && r.sub + 1 == subWaves r.aFmt r.bFmt && decide (drainDepth ≤ w.undrained h)
  | none => false

/-- Four weight blocks are those of a K-block of an item. -/
def blocksReady (x : Sparse WBlock) (r : Run) : Bool := x.length == 4 && x.all fun b => b.2.seq == r.seq && b.2.kb == r.kb

/-- The weights of the half's next wave are there (R65). -/
def weightsReady (w : TileWork) (h : Half) (r : Run) : Bool :=
  blocksReady (if r.row = 0 ∧ r.sub = 0 then w.shadow h else w.active h) r

/-- A half can take part in a wave: an entry of its next row waits, its weights are there, and the output stage can take what
the wave finishes (R59, R61, R65). -/
def halfReady (w : TileWork) (h : Half) : Bool :=
  match w.run h, (w.feed h).head? with
  | some r, some f => f.seq == r.seq && r.kb == f.kb && r.row == f.row && weightsReady w h r && !backPressed w h
  | _, _ => false

/-- The next wave of a half waits for a landing of streamed weights on a sync counter (R40, R132). -/
def State.landWait (s : State) (w : TileWork) (h : Half) : Bool :=
  match w.run h with
  | some r => obBStream r.block && r.row == 0 && r.sub == 0 && r.waves && !weightsReady w h r &&
      decide (s.sc (obLandSc r.block) < obLandBase r.block + r.kb + 1)
  | none => false

/-- A half has waves to make and nothing of its own that halts it under R40. -/
def State.halfWorks (s : State) (w : TileWork) (h : Half) : Bool :=
  (match w.run h with | some r => r.waves | none => false) && !backPressed w h && !s.landWait w h

/-- Waves are gated in the tile (R40): ramping or at rest, gated, or parked. -/
def State.wavesGated (s : State) (t : Tile) : Bool :=
  t.regs.state != .run || s.pwr.closed || s.pwrDyn.droopGate

/-- The weights of a half's next wave are not there (R65, R132). -/
def weightWait (w : TileWork) (h : Half) : Bool := match w.run h with | some r => r.waves && !weightsReady w h r | none => false

/-- A half is starved or halted under R40: a feeder queue is empty, its weights are not there, the output stage holds it back. -/
def halfStalled (w : TileWork) (h : Half) : Bool := (w.feed h).isEmpty || weightWait w h || backPressed w h

/-- Every MOD_COUNT tick counts in ENG_HALT_TICKS (R42): no wave can take place, or a half in use is starved or halted (R40, R61). -/
def State.tileHalted (s : State) (t : Tile) : Bool :=
  s.wavesGated t || halfStalled t.work .u || (t.regs.split && halfStalled t.work .l) || !(halfReady t.work .u || halfReady t.work .l)

/-- The logical engine that a physical tile serves. -/
def State.engineOf (s : State) (p : Nat) : Option Nat := (List.range 64).find? fun e => s.ptile e == some p

/-! ### The wave gate at a duty (R340, R342, R346) -/

/-- Wave-times of 1,024 that an engine takes: the least of the governor's duty and that of its partition. -/
def State.waveDuty (s : State) (e : Nat) : Nat :=
  s.pwrRegs.shares.foldl (fun d j => if j.2.valid && j.2.mask.getLsbD e then min d j.2.duty else d) (min 1024 s.pwr.gateDuty)
def State.tileDuty (s : State) (p : Nat) : Nat :=
  match s.engineOf p with
  | some e => s.waveDuty e
  | none => min 1024 s.pwr.gateDuty

/-- Wave-time k of 1,024 is gated at a duty of d: the d that are taken are spread evenly (notes/assumptions/26.md). -/
def slotGated (d k : Nat) : Bool := (k + 1) * d / 1024 == k * d / 1024

/-- A wave-time passes at an engine whose gate is driven: whether it is gated. -/
def State.gateStep (s : State) (e p : Nat) : Bool × State :=
  let d := s.waveDuty e
  if 1024 ≤ d then (false, s)
  else (slotGated d (s.tile p).regs.gateSlot, s.onTileRegs p fun r => { r with gateSlot := (r.gateSlot + 1) % 1024 })

end Sys2Proof.Machine
end

