-- ==== Sys2Proof/Machine/Queue.lean ====
section
/-! DEFINITION. Rings, windows and completion: fetching and accepting descriptors (R152 to R156, R174 to R176, R184), what makes
an item takeable (Table 05-7, R142), completion (R157, R158), aborting an item (R90) and replay (R186). -/

namespace Sys2Proof.Machine

/-! ### Rings -/

/-- N of a queue (R152): LOG2N 6 to 16. -/
def ringSlots (q : Queue) : Nat := 2 ^ (if 6 ≤ q.log2n ∧ q.log2n ≤ 16 then q.log2n else 6)
/-- Address of the descriptor slot and of the completion slot of a sequence number (R152, R153). -/
def slotAddr (q : Queue) (seq : Word32) : Nat := q.base.toNat + 64 * (seq.toNat % ringSlots q)
def recAddr (q : Queue) (seq : Word32) : Nat := q.base.toNat + 64 * ringSlots q + 16 * (seq.toNat % ringSlots q)

/-- The space of a queue's ring is host memory (R320). -/
def ringInHost (q : Queue) : Bool := bitsOf q.base.toNat 60 4 == 4

/-- QERR bit of queue q and its error message (R158, R175). -/
def State.queueError (s : State) (q : Nat) : State :=
  (s.onStreams fun t =>
    if q < 64 then { t with qerr0 := t.qerr0 ||| BitVec.ofNat 64 (2 ^ q) }
    else { t with qerr1 := t.qerr1 ||| BitVec.ofNat 64 (2 ^ (q - 64)) }).msix (128 + q)

/-- Changes one item of a queue's window. -/
def State.onItem (s : State) (q : Nat) (seq : Word32) (f : Item → Item) : State :=
  s.onQueue q fun u => { u with window := u.window.map fun i => if i.seq = seq then f i else i }

def State.item (s : State) (q : Nat) (seq : Word32) : Option Item := (s.queue q).window.find? fun i => i.seq == seq

/-- An item has not yet taken effect or is still running. -/
def Item.open_ (i : Item) : Bool := i.run == .waiting || i.run == .running
def Item.waiting (i : Item) : Bool := i.run == .waiting
def Item.running (i : Item) : Bool := i.run == .running
/-- An item has run and awaits its completion record. -/
def Item.finished (i : Item) : Bool := match i.run with | .finished _ _ _ => true | _ => false

/-- Replayed descriptors of a queue remain (R187). -/
def Queue.replays (u : Queue) : Bool := u.window.any fun i => i.replay && i.run != .complete

/-- QSTATUS.STATE of an enabled queue that is neither polling, stale nor stopped (Table 06-16, R187), and the tick at which a
WAIT became the oldest uncompleted descriptor (R168). A pending disable reads RUN (R154). -/
def State.settle (s : State) (q : Nat) : State :=
  s.onQueue q fun u =>
    let isWait : Bool := match u.window.head? with | some i => i.waiting && dKind i.desc == some .wait | none => false
    let u := { u with waitSince := if isWait then some (u.waitSince.getD s.now) else none }
    if u.state = .idle ∨ u.state = .run ∨ u.state = .replay then
      { u with state := if u.disabling then .run
                        else if u.replays then .replay
                        else if !u.enable then .disabled
                        else if u.window.isEmpty && !u.disabling then .idle else .run }
    else u

/-- An enabled queue whose disable is pending becomes disabled once nothing runs (R154). -/
def State.tryDisable (s : State) (q : Nat) : State :=
  let u := s.queue q
  if u.disabling ∧ !(u.window.any fun i => i.running || i.finished) then
    s.onQueue q fun u => { u with enable := false, disabling := false, state := .disabled, window := [], doneAhead := [], bell := none, jnlFull := false, attempts := 0 }
  else s

/-! ### The journal (R184, R185) -/

def jnlBytes (block : List Byte) : Nat := 64 + block.length

/-- Whether the journal has room for a descriptor and its block; a journal of size 0 is disabled (Table 06-16). -/
def State.jnlRoom (s : State) (block : List Byte) : Bool :=
  s.streams.jnlSize == 0 || decide (s.streams.jnlUsed.toNat + jnlBytes block ≤ s.streams.jnlSize.toNat)

/-- Writes an entry of the journal into the ring at JNL_BASE in G7, and into its copy at MEM_JNL_COPY in the slow tier, which is
kept while MEM_JNL_COPY is not 0 (R184, R239). -/
def State.jnlWrite (s : State) (d : List Byte) : State :=
  let size := s.streams.jnlSize.toNat
  let pos := s.streams.jnlPos % size
  -- an entry goes round the end of the ring
  let a := d.take (size - pos)
  let b := d.drop (size - pos)
  let main (s : State) (at' : Nat) (x : List Byte) : State :=
    match s.place (s.streams.jnlBase.toNat + at') x.length Loc.isG7 with
    | some (.g7 o) => s.writeG7 o x
    | _ => s
  let copy (s : State) (at' : Nat) (x : List Byte) : State :=
    if s.mem.jnlCopy = 0 then s
    else match s.place (s.mem.jnlCopy.toNat + at') x.length Loc.isSlow with
      | some (.slow o) => s.storeSlow o x
      | _ => s
  let s := copy (main s pos a) pos a
  let s := if b.isEmpty then s else copy (main s 0 b) 0 b
  s.onStreams fun t => { t with jnlPos := (pos + d.length) % size }

/-- Appends an accepted descriptor to the journal and its copy (R184, R239). One that R151 or R155 refuses counts as taken: it
completes without being taken. -/
def State.jnlAppend (s : State) (q : Nat) (d block : List Byte) : State :=
  if s.streams.jnlSize = 0 then s
  else
    let pos := s.streams.jnlPos % s.streams.jnlSize.toNat
    (s.jnlWrite (d ++ block)).onStreams fun t => { t with
      jnlUsed := addW t.jnlUsed (jnlBytes block), journal := t.journal ++ [⟨q, dSeq d, dStep d, d, block, descriptorBad q d, pos⟩] }

/-- Bytes of the ring from the oldest entry kept to where the next is written: what an append may not overwrite (R184). -/
def jnlSpan (t : Streams) : Nat :=
  let size := t.jnlSize.toNat
  match t.journal with
  | [] => 0
  | e :: _ => let d := (t.jnlPos + size - e.pos) % size; if d = 0 then size else d

/-- Bytes of the journal as a replay reads them: from the ring, or from the copy where a channel that has died held them (R239).
None where neither can be read. -/
def State.jnlPiece (s : State) (at' n : Nat) : Option (List Byte) × State :=
  match s.place (s.streams.jnlBase.toNat + at') n Loc.isG7 with
  | none => (none, s)
  | some l =>
    let r := s.readLoc l n
    if !r.2.1 then (some r.1, r.2.2)
    else if s.mem.jnlCopy = 0 then (none, r.2.2)
    else match s.place (s.mem.jnlCopy.toNat + at') n Loc.isSlow with
      | none => (none, r.2.2)
      | some c => let q := r.2.2.readLoc c n; (if q.2.1 then none else some q.1, q.2.2)

/-- An entry of the journal as a replay reads it; it may go round the end of the ring. -/
def State.jnlRead (s : State) (e : JnlEntry) : Option (List Byte) × State :=
  let n := min (jnlBytes e.block) (s.streams.jnlSize.toNat - e.pos)
  let a := s.jnlPiece e.pos n
  if n = jnlBytes e.block then a
  else
    let b := a.2.jnlPiece 0 (jnlBytes e.block - n)
    (match a.1, b.1 with | some x, some y => some (x ++ y) | _, _ => none, b.2)

/-- The queue stops fetching for want of room; one NOTE JOURNAL_FULL per step (R185). -/
def State.jnlStop (s : State) (q : Nat) : State :=
  let s := s.onQueue q fun u => { u with jnlFull := true }
  if s.streams.fullStep = some s.job.step then s
  else (s.onStreams fun t => { t with fullStep := some s.job.step }).report 0x0604 .note 3 q
    (leBytes 4 s.stepNo ++ leBytes 4 q ++ leBytes 4 (s.streams.jnlUsed.toNat / 2 ^ 20))

/-! ### Fetching (R174, R175) -/

/-- What a fetch of a slot finds: a descriptor with its block, a stale slot with its cause and the SEQ found, or a descriptor whose
block lies in host memory, which cannot be read at present (R315, R318). -/
inductive Fetched where
  | held
  | ok (desc block : List Byte)
  | stale (cause : Nat) (found : Word32)
deriving DecidableEq, Repr

/-- The address of a descriptor's operand or argument block (R162, R165). -/
def blockAddr (d : List Byte) : Option Nat :=
  match dKind d with
  | some .matmul => some (dAddr d 40)
  | some .vector => some (dAddr d 48)
  | _ => none

/-- The slot that a queue fetches next can be read: a ring in host memory is not read while host-bound requests wait (R315, R318),
and the descriptors of a companion queue cross the die-to-die link as control traffic (R28, R30). -/
def State.mayRead (s : State) (q : Nat) : Bool :=
  (!ringInHost (s.queue q) || s.hostOpen) && (decide (q < 72) || s.d2dClear .control 0)

/-- The block of a descriptor lies in host memory. -/
def blockInHost (d : List Byte) : Bool := match blockAddr d with | some a => bitsOf a 60 4 == 4 | none => false

/-- The block of a descriptor, when its address allows an access (R161). -/
def State.fetchBlock (s : State) (d : List Byte) : Option (List Byte) × State :=
  match blockAddr d with
  | none => (some [], s)
  | some a =>
    if a % 64 ≠ 0 then (some [], s)
    else
      match s.place a 128 Loc.isBlock with
      | none => (some [], s)
      | some l =>
        let r := s.readLoc l 128
        if le r.1 0 4 = (dSeq d).toNat ∧ crc16Holds r.1 4 then (some r.1, r.2.2) else (none, r.2.2)

/-- Fetches the slot of the expected sequence number. Detector 0x0601 makes the fetch read stale; its handling ends
with the fetch that succeeds or with STALE_DOORBELL (R404). A descriptor that R151 or
R155 refuses names no block: it completes whatever stands at its block's address. -/
def State.fetchSlot (s : State) (q : Nat) : Fetched × State :=
  let u := s.queue q
  let i := s.opportunity 0x0601 3 q 0 fun _ => true
  let s := i.2
  match s.place (slotAddr u u.expect) 64 Loc.isG7OrHost with
  | none => (.stale 0 0, s)
  | some l =>
    let r := s.readLoc l 64
    let d := r.1
    if i.1 = some 0 ∨ dSeq d ≠ u.expect then (.stale 0 (dSeq d), r.2.2)
    else if i.1.isSome ∨ !crc16Holds d 4 then (.stale 1 (dSeq d), r.2.2)
    else if descriptorBad q d then (.ok d [], r.2.2)
    else if blockInHost d ∧ !s.hostOpen then (.held, s)
    else
      let b := r.2.2.fetchBlock d
      match b.1 with
      | some block => (.ok d block, b.2)
      | none => (.stale 2 (dSeq d), b.2)

/-- How an accepted descriptor stands: finished with ST_BAD_OPCODE where R151 or R155 refuses it, else waiting. -/
def firstRun (q : Nat) (d : List Byte) : ItemRun := if descriptorBad q d then .finished stBadOpcode 0 0 else .waiting

/-- Accepts a fetched descriptor: it joins the window and the journal; one that R151 or R155 refuses is finished with
ST_BAD_OPCODE. -/
def State.accept (s : State) (q : Nat) (d block : List Byte) : State :=
  (s.jnlAppend q d block).onQueue q fun u => { u with
    expect := u.expect + 1, attempts := 0, jnlFull := false,
    state := if u.state = .stopped then .stopped else .run,
    window := u.window ++ [⟨dSeq d, d, block, firstRun q d, false, none⟩] }

/-- A doorbell value D allows the next slot: it stands before D (R174). -/
def bellAllows (u : Queue) (d : Word32) : Bool := u.expect != d && decide ((d - u.expect).toNat ≤ ringSlots u)

/-- The queue may fetch its next slot: enabled, allowed by its doorbell and inside its window of 32 (R154, R174). -/
def State.mayFetch (s : State) (q : Nat) : Bool :=
  let u := s.queue q
  u.enable && !u.disabling && s.mayRead q && (match u.bell with | some d => bellAllows u d | none => false) &&
    decide ((u.expect - u.head).toNat < 32)

/-- Fetches newly allowed slots until one is stale, the window is full, or the journal has no room. -/
def State.fetchFrom (s : State) (q : Nat) : Nat → State
  | 0 => s
  | n + 1 =>
    if s.mayFetch q then
      let f := s.fetchSlot q
      match f.1 with
      | .held => f.2
      | .stale _ _ => f.2.onQueue q fun u => { u with state := if u.state = .stopped then .stopped else .repoll, attempts := 0 }
      | .ok d block =>
        let s := f.2.injEnd 3 q
        if s.jnlRoom block then State.fetchFrom (s.accept q d block) q n else s.jnlStop q
    else s

/-- Fetches what the window has room for; a queue that replays fetches again when its replay is over (R186). -/
def State.fetch (s : State) (q : Nat) : State :=
  let u := s.queue q
  if u.state = .idle ∨ u.state = .run ∨ u.state = .stopped then (s.fetchFrom q 32).settle q else s

/-- One more poll of a stale slot (R175): whether it succeeded, and what it found. -/
def State.poll (s : State) (q : Nat) : Fetched × State :=
  let f := s.fetchSlot q
  match f.1 with
  | .held => f
  | .stale _ _ => f
  | .ok d block =>
    let s := f.2.injEnd 3 q
    if s.jnlRoom block then (f.1, (((s.onQueue q fun u => { u with state := .run }).accept q d block).fetch q))
    else (f.1, ((s.onQueue q fun u => { u with state := .run, attempts := 0 }).jnlStop q))

/-! ### Taking an item (Table 05-7) -/

/-- COND of a descriptor holds; OFFLOAD and PREFETCH are skipped in HOST_LOST (R159). -/
def State.condHolds (s : State) (d : List Byte) : Bool :=
  let lost := s.streams.hostLost
  let c := if dCond d = 1 then lost else if dCond d = 2 then !lost else true
  c && !(lost && (dKind d == some .offload || dKind d == some .prefetch))

/-- The scale records that a MATMUL names (R117, R163). -/
def namedRecords (b : List Byte) : List Nat :=
  (if obAFmt b = 15 then [obARec b] else []) ++ (if obBFmt b = 15 then [obBRec b] else []) ++
    (if obOutFmt b ≤ 2 ∨ obOutFmt b = 15 then [obOutRec b] else [])

/-- Record r is derived for a step (R121): no record is before the boundary that begins the step; after a commit, one that counted
nothing, that no write waits for and that no fall-back of its layer can change holds its values already. While no job runs there is
no boundary. -/
def State.recDerived (s : State) (step : Word32) (r : Nat) : Bool :=
  !s.jobRuns || decide (step.toNat < s.stepNo) ||
    (step == s.job.step &&
      (match s.scales.due with
       | none => true
       | some _ =>
         let x := s.scaleRec r
         (Sparse.get Reset.scaleRec s.scales.ended r).w2.toNat % 2 ^ 32 == 0 && !((fld x.w0 12 4 == 1 || fld x.w0 12 4 == 2) && fld x.w0 4 4 == 0) &&
           !(s.scales.applying.any fun w => w.1 == r)))

/-- Every record the item names is derived for its step (R121). -/
def State.recordsReady (s : State) (i : Item) : Bool :=
  if dKind i.desc = some .matmul then (namedRecords i.block).all fun r => s.recDerived (dStep i.desc) r else true

/-- A MATMUL uses the wide buffer (R78). -/
def usesWide (b : List Byte) : Bool := decide (obKb b > obS b) || obW64In b || obW64Out b

/-- Two MATMULs name overlapping accumulator rows or wide-buffer slots (R74). -/
def accOverlap (a b : List Byte) : Bool :=
  (decide (obAccRow a < obAccRow b + obM b) && decide (obAccRow b < obAccRow a + obM a)) ||
    (usesWide a && usesWide b && obHalfL a == obHalfL b)

/-- The half an item runs in: U outside split mode (R88). -/
def itemHalf (split : Bool) (b : List Byte) : Half := if split && obHalfL b then .l else .u

/-- The context of a companion core's or engine's vector unit is free. -/
def State.ctxFree (s : State) (c : Ctx) : Bool := !(s.ctx c).busy

/-- Cores of a companion VECTOR (Table 06-8). -/
def vectorCores (d : List Byte) : List (Fin 32) :=
  let m := le d 60 4
  (List.finRange 32).filter fun c => m == 0 || bitOf m c.val

/-- A half that a fault stopped waits for the faulted item's completion record (R89). -/
def State.halfStopped (s : State) (q : Nat) (w : TileWork) (h : Half) : Bool :=
  match w.stop h with
  | some seq => (s.queue q).window.any fun i => i.seq == seq && i.finished
  | none => false

/-- The unit that would run an item can take it: the arrays (in split mode, a half with no running item), the vector unit, the
cores, the commit engine. -/
def State.unitFree (s : State) (q : Nat) (i : Item) : Bool :=
  match dKind i.desc with
  | some .matmul =>
    match s.ptile q with
    | none => false
    | some p =>
      let t := s.tile p
      let h := itemHalf t.regs.split i.block
      (!t.regs.split || (t.work.run h).isNone) && !s.halfStopped q t.work h
  | some .vector =>
    if h : q < 64 then s.ctxFree (.engine ⟨q, h⟩) else (vectorCores i.desc).all fun c => s.ctxFree (.core c)
  | some .commit => s.comp.commit.isNone
  | _ => true

/-- The queue takes descriptors at present (R154, R168, R237), whatever holds its engine. -/
def State.queueOpen (s : State) (q : Nat) : Bool :=
  let u := s.queue q
  -- a queue that a host reset disabled still replays (R320)
  (u.enable || u.window.any fun i => i.replay) && !u.disabling && u.state != .stopped && u.state != .disabled && !s.streams.held && !s.mem.hold

/-- The queue takes descriptors at present (R154, R168, R237, Table 03-12 HALT, R341). -/
def State.queueTaking (s : State) (q : Nat) : Bool :=
  s.queueOpen q &&
    (if q < 64 then
      match s.ptile q with
      | some p => fld (s.tile p).regs.ctrl 0 1 == 0 && !(s.tile p).regs.pmHalt
      | none => false
     else true)

/-- Replayed descriptors remain on some queue: nothing else is taken (R186). -/
def State.replays (s : State) : Bool := s.streams.queues.any fun u => u.2.replays

/-- Every condition of Table 05-7 but Window holds for an item, given the items before it in the window. During a replay only
replayed items are taken (R186). -/
def State.itemReady (s : State) (q : Nat) (before : List Item) (i : Item) : Bool :=
  i.waiting && (i.replay || !s.replays) && s.condHolds i.desc &&
    before.all (fun j => !(j.open_ && (match dKind j.desc with | some k => isBarrier k | none => false))) &&
    s.ticketsMet i.desc && s.recordsReady i &&
    (if dKind i.desc = some .matmul then
      before.all fun j => !(j.run != .complete && dKind j.desc == some .matmul && accOverlap j.block i.block) else true) &&
    s.unitFree q i

/-- The earliest ready item of a window (R142). -/
def State.firstReady (s : State) (q : Nat) (before : List Item) : List Item → Option Item
  | [] => none
  | i :: r => if s.itemReady q before i then some i else s.firstReady q (before ++ [i]) r

/-- The item that the sequencer takes next. -/
def State.takeable (s : State) (q : Nat) : Option Item :=
  if s.queueTaking q then s.firstReady q [] ((s.queue q).window.take 32) else none

/-- A MATMUL of the engine's window meets every condition of Table 05-7 (R86). -/
def State.matmulReadyIn (s : State) (q : Nat) (before : List Item) : List Item → Bool
  | [] => false
  | i :: r => (dKind i.desc == some .matmul && s.itemReady q before i) || s.matmulReadyIn q (before ++ [i]) r
def State.matmulReady (s : State) (e : Nat) : Bool := s.matmulReadyIn e [] ((s.queue e).window.take 32)

/-- A MATMUL runs or is ready (R86). -/
def State.matmulWants (s : State) (e p : Nat) : Bool := !(s.tile p).work.runs.isEmpty || s.matmulReady e

/-- The step of a descriptor has already committed (R160). -/
def State.stepCommitted (s : State) (step : Word32) : Bool :=
  (s.job.committed != 0 || leNat (Memory.bytes s.mem.slow 0x20 8) != 0) && decide (step.toNat ≤ leNat (Memory.bytes s.mem.slow 0x20 8))

/-- STEP of a descriptor is out of order (R160). -/
def State.stepBad (s : State) (q : Nat) (step : Word32) : Bool :=
  (match (s.queue q).lastStep with | some l => decide (step.toNat < l.toNat) | none => false) || s.stepCommitted step

/-- The journal entry of a descriptor counts as taken (R186). -/
def State.journalTaken (s : State) (q : Nat) (seq : Word32) : State :=
  s.onStreams fun t => { t with journal := t.journal.map fun e => if e.queue = q ∧ e.seq = seq then { e with taken := true } else e }

/-- The highest STEP that a queue has taken (R160). -/
def stepMark (last : Option Word32) (step : Word32) : Word32 :=
  match last with
  | some l => if step.toNat < l.toNat then l else step
  | none => step

/-- Marks an item taken: running, its STEP the queue's mark, its journal entry taken (R160, R186). -/
def State.take (s : State) (q : Nat) (i : Item) : State :=
  ((s.onItem q i.seq fun j => { j with run := .running }).onQueue q fun u => { u with
    lastStep := some (stepMark u.lastStep (dStep i.desc)) }).journalTaken q i.seq

/-- An item has ended with a status, an outcome and a row count, and awaits its completion record. -/
def State.finish (s : State) (q : Nat) (seq : Word32) (status : Word16) (outcome rows : Nat) : State :=
  s.onItem q seq fun i => { i with run := .finished status outcome rows }

/-- STEP of an item is out of order (R160): a replayed item ran in its order before. -/
def State.refusesStep (s : State) (q : Nat) (i : Item) : Bool := !i.replay && s.stepBad q (dStep i.desc)

/-- Takes an item of the kind given, or answers none: the step does not take place. An item whose STEP is out of order ends
with ST_BAD_SEQ (R160); the flag says that the item goes on. -/
def State.takeKind (s : State) (q : Nat) (k : Kind) : Option (Item × Bool × State) :=
  match s.takeable q with
  | some i =>
    if dKind i.desc = some k then
      (if s.refusesStep q i then some (i, false, (s.take q i).finish q i.seq stBadSeq 0 0)
       else some (i, true, s.take q i))
    else none
  | none => none

/-! ### Completion (R157, R158, R187) -/

/-- The 16 bytes of a completion record (Table 06-3). -/
def State.complBytes (s : State) (seq : Word32) (status : Word16) (outcome rows : Nat) : List Byte :=
  leBytes 4 seq.toNat ++ leBytes 2 status.toNat ++ leBytes 1 outcome ++ leBytes 1 0 ++ leBytes 2 rows ++ leBytes 6 s.now

/-- Writes bytes of a record to G7 or host memory at a module address, in order with other records (R157, R313). -/
def State.writeRecord (s : State) (a : Nat) (d : List Byte) : State :=
  match s.place a d.length Loc.isG7OrHost with
  | some (.g7 o) => s.writeG7 o d
  | some (.host h) => s.hostWrite false h d
  | _ => s

/-- Adds an item's counts to its scale record (R117, R120): integers add, AMAX takes the maximum. -/
def State.addTally (s : State) (t : Tally) : State :=
  let r := s.scaleRec t.index
  let blocks := fld r.w2 0 32 + t.blocks
  let sat := fld r.w2 32 32 + t.sat
  let sat4 := fld r.w3 32 32 + t.sat4
  let amax := BitVec.ofNat 32 (fld r.w3 0 32)
  let amax := if flt amax t.amax then t.amax else amax
  s.setScaleRec t.index { r with
    w2 := BitVec.ofNat 64 (sat % 2 ^ 32 * 2 ^ 32 + blocks % 2 ^ 32), w3 := BitVec.ofNat 64 (sat4 % 2 ^ 32 * 2 ^ 32 + amax.toNat) }

/-- Drops completed items at the front of a window and moves HEAD over them (R157). Replayed items move no HEAD. -/
def popComplete : List Item → Word32 → List Item × Word32
  | [], h => ([], h)
  | i :: r, h =>
    if i.run = .complete then popComplete r (if i.replay then h else i.seq + 1) else (i :: r, h)

/-- HEAD moves over the descriptors that completed before a replay and left the window then (R157, R186). -/
def passDone (done : List Word32) : Nat → Word32 → Word32
  | 0, h => h
  | n + 1, h => if done.contains h then passDone done n (h + 1) else h

def State.pop (s : State) (q : Nat) : State :=
  s.onQueue q fun u =>
    let p := popComplete u.window u.head
    let h := passDone u.doneAhead u.doneAhead.length p.2
    { u with
      window := p.1, head := h, waitSince := if p.1.length = u.window.length then u.waitSince else none
      doneAhead := u.doneAhead.filter fun d => decide ((d - h).toNat < 2 ^ 31) }

/-- The source of a completion post of queue q. -/
def queueSource (q : Nat) : ScSource := .queue (Fin.ofNat 76 q)

/-- The completion record of a faulted item is written: FAULT_STOP ends (R89). -/
def State.releaseStop (s : State) (q : Nat) : State :=
  match s.ptile q with
  | some p => s.onTileRegs p fun r => { r with state := if r.state = .faultStop then .run else r.state }
  | none => s

/-- A FENCE stands open before an item of a queue's window. -/
def Queue.fenced (u : Queue) (seq : Word32) : Bool :=
  (u.window.takeWhile fun j => j.seq != seq).any fun j => j.open_ && dKind j.desc == some .fence

/-- A descriptor of a queue has handed its host writes over: the last of them is what a later FENCE waits for (R170). -/
def State.markHost (s : State) (q : Nat) : State := s.onQueue q fun u => { u with hostMark := s.hst.handed }

/-- A finished item completes: its counts reach their record, then the completion post, the completion record, the IRQ
message and, for a status other than ST_OK, the error report (R157, R158). A replayed item writes no record to the ring; one
that fails writes it to JNL_FAIL (R187). -/
def State.completeItem (s : State) (q : Nat) (i : Item) (status : Word16) (outcome rows : Nat) : State :=
  let s := match i.tally with
    | some t => if dNoCount i.desc then s else s.addTally t
    | none => s
  let s := if dPostValid i.desc ∧ status = stOk then
      s.scOp (dPostSc i.desc) .add (BitVec.ofNat 32 (dPostAmount i.desc)) (queueSource q) else s
  let bytes := s.complBytes i.seq status outcome rows
  let s :=
    if i.replay then
      (if status ≠ stOk then
        (s.writeRecord (s.streams.jnlFail.toNat + 16 * s.streams.jnlFails) bytes).onStreams fun t => { t with jnlFails := t.jnlFails + 1 }
       else s)
    else
      let s := s.writeRecord (recAddr (s.queue q) i.seq) bytes
      if ringInHost (s.queue q) ∧ !(s.queue q).fenced i.seq then s.markHost q else s
  let s := if dIrq i.desc ∧ !i.replay then s.msix q else s
  let s := if status ≠ stOk then s.queueError q else s
  let s := if q < 64 then (s.injEnd 1 q).releaseStop q else s
  (((((s.onItem q i.seq fun j => { j with run := .complete }).pop q).tryDisable q).settle q).fetch q).settle q

/-! ### Aborting (R90) -/

/-- Banks of a MATMUL's accumulator rows as bits of ENG_ACC_POISON (Table 03-10). -/
def bankBits (b : List Byte) : Nat :=
  let u := decide (obAccRow b < 256)
  let l := decide (obAccRow b + obM b > 256)
  (List.range 4).foldl (fun n a => n + (if u then 4 ^ a else 0) + (if l then 2 * 4 ^ a else 0)) 0

/-- Sets bits of ENG_ACC_POISON. -/
def State.poisonBanks (s : State) (p : Nat) (bits : Nat) : State :=
  s.onTileRegs p fun r => { r with poison := r.poison ||| BitVec.ofNat 8 bits }

/-- The engine notes since when no MATMUL has run in its arrays (R86). -/
def State.markIdle (s : State) (p : Nat) : State :=
  let none' := (s.tile p).work.runs.isEmpty
  s.onTileRegs p fun r => { r with idleSince := if none' then some (r.idleSince.getD s.now) else none }

/-- Takes a running item off its unit: the half of the arrays that holds it, or the contexts of its VECTOR. -/
def State.dropRun (s : State) (q : Nat) (seq : Word32) : State :=
  let s := match s.ptile q with
    | some p =>
      if q < 64 then (s.onTileWork p fun w => w.drop seq).markIdle p
      else s
    | none => s
  let free (c : JviCtx) : JviCtx := if c.busy ∧ c.queue = q ∧ c.seq = seq then { Reset.jvi with copies := c.copies } else c
  if h : q < 64 then s.setCtx (.engine ⟨q, h⟩) (free (s.ctx (.engine ⟨q, h⟩)))
  else s.onComp fun t => { t with cores := t.cores.filterMap fun k => if free k.2 = Reset.jvi then none else some (k.1, free k.2) }

/-- A write stream of an item (R177). -/
def StreamCopy.writesFor (q : Nat) (seq : Word32) : StreamCopy → Bool
  | .twr _ _ _ p r => p == q && r == seq
  | _ => false

def StreamCopy.isWrite : StreamCopy → Bool
  | .twr _ _ _ _ _ => true
  | _ => false

/-- A write stream that a VECTOR started has not reached the slow tier (R177). -/
def State.writesOut (s : State) (q : Nat) (seq : Word32) : Bool := s.comp.cores.any fun k => k.2.copies.any (StreamCopy.writesFor q seq)

/-- The outstanding write streams of an item are dropped: an aborted VECTOR makes no further write. -/
def State.cancelWrites (s : State) (q : Nat) (seq : Word32) : State :=
  let rest (x : JviCtx) : JviCtx :=
    -- the item's own context keeps the writes of an item before it alone
    let mine := x.busy && x.queue == q && x.seq == seq
    { x with copies := x.copies.filter fun y => !y.writesFor q seq && (!mine || y.isWrite) }
  s.onComp fun t => { t with cores := (t.cores.map fun k => (k.1, rest k.2)).filter fun k => k.2 != Reset.jvi }

/-- The outstanding write streams of a finished item land, so that its record finds them made (R177). -/
def State.landWrites (s : State) (q : Nat) (seq : Word32) : State :=
  let land (k : Nat) (s : State) (y : StreamCopy) : State :=
    match y with
    | .twr a l n p r => if p = q ∧ r = seq then (let d := s.readLocal k l n; d.2.2.storeSlow a d.1) else s
    | _ => s
  (s.comp.cores.foldl (fun s k => k.2.copies.foldl (land k.1) s) s).cancelWrites q seq

/-- The output rows a running MATMUL has written. -/
def State.rowsOf (s : State) (q : Nat) (seq : Word32) : Nat :=
  match s.ptile q with
  | some p =>
    if q < 64 then (match (s.tile p).work.runs.find? fun r => r.seq == seq with | some r => r.drained | none => 0) else 0
  | none => 0

/-- Aborts a running item (R90): it stops, its accumulator rows are poisoned, and it ends ABORTED. -/
def State.abortRunning (s : State) (q : Nat) (i : Item) : State :=
  let rows := s.rowsOf q i.seq
  let s := if dKind i.desc = some .matmul then
      (match s.ptile q with | some p => s.poisonBanks p (bankBits i.block) | none => s) else s
  ((s.cancelWrites q i.seq).dropRun q i.seq).finish q i.seq stFaulted 1 rows

/-- An abort of a named item of an engine queue (R90): its status and the state. -/
def State.abortItem (s : State) (q : Nat) (seq : Word32) : Word16 × State :=
  match s.item q seq with
  | some i =>
    match i.run with
    | .running => (stOk, s.abortRunning q i)
    | .waiting => (stOk, s.finish q seq stFaulted 2 0)
    | .finished st o rows =>
      -- an item that never ran is removed unrun, whatever it ended with
      if o = 2 ∨ (st ≠ stOk ∧ st ≠ stFaulted) then (stOk, s.finish q seq stFaulted 2 0)
      else
        let s := if dKind i.desc = some .matmul then
            (match s.ptile q with | some p => s.poisonBanks p (bankBits i.block) | none => s) else s
        (stOk, s.finish q seq stFaulted 1 rows)
    | .complete => (stAlreadyDone, s.report 0x0305 .info 1 q (leBytes 4 seq.toNat))
  | none =>
    let u := s.queue q
    match s.place (recAddr u seq) 16 Loc.isG7OrHost with
    | some l =>
      -- a ring in host memory is not read while host-bound requests wait (R315, R318): HEAD tells what has completed
      let r := if ringInHost u ∧ !s.hostOpen then (leBytes 4 seq.toNat, false, s) else s.readLoc l 16
      if le r.1 0 4 = seq.toNat ∧ (u.head - seq).toNat ≤ ringSlots u ∧ u.head ≠ seq then
        (stAlreadyDone, r.2.2.report 0x0305 .info 1 q (leBytes 4 seq.toNat))
      else (stFaulted, r.2.2)
    | none => (stFaulted, s)

/-! ### Replay (R186, R187) -/

/-- Aborts and completes the running and finished items of the present step on one queue that pass a test. -/
def State.abortItems (s : State) (q : Nat) (which : Item → Bool) : State :=
  (s.queue q).window.foldl (fun s i =>
    if dStep i.desc = s.job.step ∧ which i then
      match i.run with
      | .running =>
        let rows := s.rowsOf q i.seq
        (s.abortRunning q i).completeItem q i stFaulted 1 rows
      | .finished st o r => (s.landWrites q i.seq).completeItem q i st o r
      | _ => s
    else s) s

/-- Aborts and completes every running or finished item of the present step on one queue. -/
def State.abortStep (s : State) (q : Nat) : State := s.abortItems q fun _ => true

/-- The replayed items of one queue: its journaled descriptors of the present step that were taken after the snapshot (the
snapshot clears every `taken` mark), as the replay reads them (R239). One that cannot be read ends ST_FAULTED (R237); a journal
that lies in no memory of the module is taken as it was accepted. -/
def State.replayItems (s : State) (q : Nat) : List Item × State :=
  (s.streams.journal.filter fun e => e.queue == q && e.step == s.job.step && e.taken).foldl (fun (acc : List Item × State) e =>
    let s := acc.2
    if (s.place s.streams.jnlBase.toNat s.streams.jnlSize.toNat Loc.isG7).isNone then
      (acc.1 ++ [⟨e.seq, e.desc, e.block, firstRun q e.desc, true, none⟩], s)
    else
      let r := s.jnlRead e
      match r.1 with
      | some d => (acc.1 ++ [⟨e.seq, d.take 64, d.drop 64, firstRun q (d.take 64), true, none⟩], r.2)
      | none => (acc.1 ++ [⟨e.seq, e.desc, e.block, .finished stFaulted 0 0, true, none⟩], r.2)) ([], s)

/-- One queue re-runs its journaled descriptors, then resumes with those not yet taken. What has completed out of order stays
completed: HEAD passes over it (R157). -/
def State.replayQueue (s : State) (q : Nat) : State :=
  let a := s.replayItems q
  let r := a.1
  (a.2.onQueue q fun u =>
    let keep := u.window.filter fun i => i.run != .complete && !i.replay
    let done := (u.window.filter fun i => i.run == .complete && !i.replay).map (·.seq)
    { u with
      window := r ++ keep, state := if r.isEmpty ∨ u.disabling then u.state else .replay
      doneAhead := u.doneAhead ++ done, waitSince := none }).settle q

/-- Clears the counts of the abandoned attempt in every scale record (R120). -/
def State.clearCounts (s : State) : State :=
  s.onScales fun c => { c with
    recs := (c.recs.map fun k => (k.1, { k.2 with w2 := 0, w3 := 0 })).filter (fun k => k.2 != Reset.scaleRec), nonfinite := c.nonfinite && s.grp.voted }

/-- Replays the present step (R186) with NOTE STEP_REPLAY (R150); with the journal disabled no step can be replayed. -/
def State.replayStep (s : State) (cause : Nat) : State :=
  if s.streams.jnlSize = 0 then s
  else
    let s := (List.range 76).foldl State.abortStep s
    let s := s.restoreCounters
    let s := s.clearCounts
    let s := (List.range 76).foldl State.replayQueue s
    let s := s.restartStreams (cause == 4)
    let s := (s.onJob fun j => { j with replaying := true, faultReplay := false }).onGrp fun g => { g with
      voted := false, straggles := decide (cause ≠ 4) }
    s.report 0x0502 .note 0x10 s.jobSlot (leBytes 4 s.stepNo ++ leBytes 1 cause)

end Sys2Proof.Machine
end

