-- ==== Sys2Proof/Machine/Time.lean ====
section
/-! DEFINITION. Module time (R51, R55), the limits in force (R335 to R339), the throttle reasons (R355), regimes (R332),
parking (R341) and the start of an ordered shutdown (R415, R416). -/

namespace Sys2Proof.Machine

/-! ### Time -/

/-- Since when the engine of a tile in RUN has had no MATMUL running and none ready (R86). -/
def State.idleMark (s : State) (p : Nat) (r : TileRegs) : Option Nat :=
  if r.state ≠ .run then r.idleSince
  else match s.engineOf p with
    | some e => if s.matmulWants e p then none else some (r.idleSince.getD s.now)
    | none => r.idleSince

/-- n ticks are counted in the registers that count ticks of a condition: THR_TIME (R355), ENG_HALT_TICKS (R42),
PWR_SHARE_TIME (R346). THR_TIME[6] counts gates (R351). -/
def State.countTicks (s : State) (n : Nat) : State :=
  let thr := (List.range 12).foldl (fun m k =>
    if s.pwrRegs.thrNow.getLsbD k ∧ k ≠ 6 then Sparse.put 0 m k (addW (Sparse.get 0 m k) n) else m) s.pwrRegs.thrTime
  let shares := s.pwrRegs.shares.map fun j => if j.2.valid && j.2.back then (j.1, { j.2 with time := addW j.2.time n }) else j
  let tiles := if s.boot.mainOn then s.tiles.map fun t =>
      if t.2.health = .active then
        let parts := t.2.regs.haltPart + n * (if s.tileHalted t.2 then 1024 else 1024 - s.tileDuty t.1)
        (t.1, { t.2 with regs := { t.2.regs with
          haltTicks := addW t.2.regs.haltTicks (parts / 1024)
          haltPart := parts % 1024
          idleSince := s.idleMark t.1 t.2.regs } })
      else t else s.tiles
  { s with tiles := tiles, pwrRegs := { s.pwrRegs with thrTime := thr, shares := shares } }

/-- Writes INFO MOD_COUNT_EPOCH at a wrap of bits 47:0 (R55): its stamp is zero. -/
def State.epoch (s : State) (k : Nat) : State :=
  (s.onBoot fun b => { b with modCount := BitVec.ofNat 64 (k * 2 ^ 48) }).report 0x0201 .info 0 0 (leBytes 2 k)

/-- Frames that a pause frame held go out when its time is over (R328). -/
def State.endPause (s : State) (i : Nat) : State :=
  let e := s.ethPort i
  if e.held.isEmpty ∨ s.now < e.pausedTo then s
  else (e.held.foldl State.emit s).onEthPort i fun x => { x with held := [], txFrames := addW x.txFrames e.held.length }

/-- n ticks pass while standby is present (R51); every wrap of bits 47:0 writes its record. -/
def State.pass (s : State) (n : Nat) : State :=
  if !s.boot.standby ∧ !s.boot.fallback then s
  else
    let old := s.now
    let new := old + n
    let s := s.countTicks n
    let s := (List.range (new / 2 ^ 48 - old / 2 ^ 48)).foldl (fun s i => s.epoch (old / 2 ^ 48 + 1 + i)) s
    ((s.onBoot fun b => { b with modCount := BitVec.ofNat 64 new }).endPause 0).endPause 1

/-- Time passes up to a tick, or not at all when that tick lies in the past. -/
def State.passTo (s : State) (t : Nat) : State := if s.now < t then s.pass (t - s.now) else s

/-- One tick with no command waiting (notes/assumptions/1.md). -/
def idleTick (s : State) : State := s.pass 1

/-! ### Limits and setpoint -/

/-- The effective limit in W: the lowest of cap, envelope ceiling and ramp ceiling, never below 150 (R335). -/
def State.limitW (s : State) : Nat := max 150 (min s.pwr.cap (min s.pwr.envelope s.pwr.rampCeil))

/-- Power of a class (Table 12-4). -/
def classWatts (c : Nat) : Nat := [0, 300, 500, 700, 900, 1050, 1200].getD c 0

/-- The requested cap or the envelope ceiling is below 150 W (R336, R337). -/
def State.unreachable (s : State) : Bool := decide (s.pwr.cap < 150) || decide (s.pwr.envelope < 150)

/-- c of R340: the lowest of TARGET, the core thermal ceiling and the core current ceiling. -/
def State.ceilMv (s : State) : Nat := min s.pwr.target (min s.pwrDyn.coreCeil s.pwrDyn.currCeil)

/-- The setpoint reached at present: a slew that runs has moved 10 mV/µs from where it started or resumed (R333, R352). -/
def State.setpointNow (s : State) : Nat :=
  match s.pwrDyn.slew with
  | none => s.pwr.setpoint
  | some (_, dest, start) =>
    if s.pwrDyn.droopActive then s.pwr.setpoint
    else
      let d := (s.now - start) / 10
      if s.pwr.setpoint ≤ dest then min dest (s.pwr.setpoint + d) else max dest (s.pwr.setpoint - d)

/-- The setpoint that the governor has asked for. -/
def State.setpointGoal (s : State) : Nat :=
  match s.pwrDyn.slew with
  | some (_, dest, _) => dest
  | none => s.pwr.setpoint

/-- The governor moves the setpoint to v: a slew starts, or the one under way takes the new destination. -/
def State.setGoal (s : State) (v : Nat) : State :=
  if s.setpointGoal = v then s
  else match s.pwrDyn.slew with
    | some (src, _, _) =>
      let at' := s.setpointNow
      (s.onPwr fun p => { p with setpoint := at' }).onPwrDyn fun d => { d with slew := some (src, v, s.now) }
    | none => s.onPwrDyn fun d => { d with slew := some (s.pwr.setpoint, v, s.now), slewPaused := false, slewPause := 0 }

/-- COMP_SP (R334): the core setpoint, not below 0.55 V, not above TARGET; the companion's thermal ceiling lowers it further
(Table 12-3). In Spring it is 0.55 V. -/
def State.compGoal (s : State) : Nat :=
  if s.pwr.regime = .spring then 550
  else
    let v := min (max s.setpointNow 550) s.pwr.target
    if s.pwrDyn.compCeil < s.pwr.target then min v s.pwrDyn.compCeil else v

/-! ### Quarters -/

/-- The parked set (R341): by limit, by temperature, by command; a mask given on standby alone is held apart (Table 12-6). -/
def State.parked (s : State) : BitVec 4 := s.pwr.parkedLimit ||| s.pwr.parkedTemp ||| s.pwr.parkedCmd

/-- Sets or clears the power manager's HALT on the engines of a quarter (R341). -/
def State.haltQuarter (s : State) (q : Nat) (on : Bool) : State :=
  (List.range 16).foldl (fun s i =>
    match s.ptile (16 * q + i) with
    | some p => s.onTileRegs p fun r => { r with pmHalt := on }
    | none => s) s

def setQ (m : BitVec 4) (q : Nat) (on : Bool) : BitVec 4 := if on then m ||| BitVec.ofNat 4 (2 ^ q) else m &&& ~~~(BitVec.ofNat 4 (2 ^ q))

/-- Starts what a change of the parked set asks for: HALT on a quarter newly parked, restoring one no longer parked (R341).
While the main domain is off nothing starts. -/
def State.followParked (s : State) (old : BitVec 4) : State :=
  if !s.boot.mainOn then s
  else (List.range 4).foldl (fun s q =>
    let now' := s.parked.getLsbD q
    if now' ∧ !old.getLsbD q then
      (s.onPwr fun p => { p with parking := setQ p.parking q true, unparking := setQ p.unparking q false }).haltQuarter q true
    else if !now' ∧ old.getLsbD q then
      s.onPwr fun p => { p with parking := setQ p.parking q false, unparking := setQ p.unparking q true }
    else s) s

/-! ### Throttle reasons (Table 12-5) -/

/-- A module limit is at work: it holds the setpoint below c, holds a quarter parked, or drives the wave gate. -/
def State.limitBinds (s : State) : Bool :=
  s.pwr.gate || s.pwr.parkedLimit != 0 ||
    (decide (s.setpointGoal < s.ceilMv) && s.pwr.regime != .spring && decide (97 * s.limitW * 1000 ≤ 100 * s.pwrRegs.est))

/-- The reasons of Table 12-5 as they stand. -/
def State.thrReasons (s : State) : BitVec 12 :=
  let p := s.pwr
  let low := min p.cap (min p.envelope p.rampCeil)
  let binds := s.limitBinds
  let b (on : Bool) (k : Nat) : BitVec 12 := if on then BitVec.ofNat 12 (2 ^ k) else 0
  let warm (l : Sparse Int) : Bool := l.any fun r => decide (95 * 16 ≤ r.2)
  let hot := decide (s.pwrDyn.coreCeil < p.target) || decide (s.pwrDyn.compCeil < p.target) || p.parkedTemp != 0 ||
    warm s.pwrDyn.readings || warm s.pwrDyn.edgeReadings || warm s.pwrDyn.compReadings
  if !s.boot.mainOn then 0
  else
    b ((binds && p.cap == low && decide (150 ≤ low)) || s.pwrRegs.shares.any fun j => j.2.valid && j.2.back) 0 |||
    b (binds && p.envelope == low && decide (150 ≤ low)) 1 ||| b (binds && p.rampCeil == low && p.rampUp != 0) 2 ||| b hot 3 |||
    b (s.mem.channels.any fun c => 1 ≤ c.2.throttle) 4 ||| b (s.mem.lps.any fun l => 1 ≤ l.2.throttle) 5 |||
    b (!s.pwrDyn.droop.isEmpty || s.pwrDyn.droopGate) 6 ||| b s.pwrDyn.episode 7 ||| b s.unreachable 8 |||
    b s.pwrDyn.followHigh 9 ||| b (s.parked != 0) 10 ||| b (s.pwrRegs.phases.any fun x => !x.granted) 11

/-- THR_NOW takes the reasons as they stand; changes from 0 to 1 count, and any change sends vector 274 (R355). -/
def State.throttle (s : State) : State :=
  let new := s.thrReasons
  let old := s.pwrRegs.thrNow
  if new = old then s
  else
    let ev := (List.range 12).foldl (fun m k =>
      if new.getLsbD k && !old.getLsbD k then Sparse.put 0 m k (inc (Sparse.get 0 m k)) else m) s.pwrRegs.thrEvents
    (s.onPwrRegs fun r => { r with thrNow := new, thrEvents := ev }).msix 274

/-! ### Regimes (R332) -/

def regimeNum : Regime → Nat
  | .none_ => 0
  | .spring => 1
  | .summer => 2
  | .autumn => 3
  | .winter => 4

/-- The module enters a regime and writes INFO PWR_REGIME (Table 12-7). -/
def State.setRegime (s : State) (g : Regime) : State :=
  if s.pwr.regime = g then s
  else
    let old := regimeNum s.pwr.regime
    (s.onPwr fun p => { p with regime := g }).report 0x0C01 .info 0x0E 0xFF
      (leBytes 1 old ++ leBytes 1 (regimeNum g) ++ leBytes 2 s.setpointNow ++ leBytes 1 s.parked.toNat ++ [0] ++
        leBytes 2 s.pwrRegs.thrNow.toNat)

/-- Winter while a quarter is parked, else Summer at TARGET, else Autumn (Table 12-1). -/
def State.runRegime (s : State) : Regime :=
  if s.parked ≠ 0 then .winter else if s.setpointNow = s.pwr.target then .summer else .autumn

/-- In Winter the setpoint is 0.45 V while a quarter is parked by limit or temperature (Table 12-1). -/
def State.holdWinter (s : State) : State :=
  if (s.pwr.parkedLimit ≠ 0 ∨ s.pwr.parkedTemp ≠ 0) ∧ 450 < s.setpointGoal then s.setGoal 450 else s

/-- After start-up the regime follows the setpoint and the parked set; COMP_SP and the throttle reasons follow too. -/
def State.powerSettle (s : State) : State :=
  let s := s.onPwr fun p => { p with compSp := if s.boot.mainOn then s.compGoal else p.compSp }
  let s := s.throttle
  if s.pwr.regime = .none_ ∨ s.pwr.regime = .spring then s else (s.setRegime s.runRegime).holdWinter

/-- A module of column 8 that serves no position runs with its quarters parked by command (R341). -/
def State.parkSpare (s : State) (on : Bool) : State :=
  let old := s.parked
  ((s.onPwr fun p => { p with parkedCmd := if on then 15 else 0 }).followParked old).powerSettle

/-! ### Ordered shutdown (R415, R416) -/

/-- The ordered shutdown starts: waves gated, queues stopped, the Almanac flushed. A shutdown in progress goes on. -/
def State.beginShutdown (s : State) (cause : Shutdown) : State :=
  if s.boot.shutdown.isSome then s
  else ((s.onBoot fun b => { b with shutdown := some cause }).onPwr fun p => { p with closed := true }).onStreams
    (fun t => { t with held := true }) |>.startFlush

end Sys2Proof.Machine
end

