-- ==== Sys2Proof/Machine/HostLink.lean ====
section
/-! DEFINITION. The PCIe link: loss, rewrite and host reset (R148, R159, R318 to R320), flush reads (R314), and the arrival of a
packet. -/

namespace Sys2Proof.Machine

/-! ### Host reset (R148, R159, R320) -/

/-- OFFLOAD and PREFETCH descriptors. -/
def isHostCopy (d : List Byte) : Bool := dKind d == some .offload || dKind d == some .prefetch

/-- Layers whose saved sets the present step holds in host memory: distinct LAYERs of its journaled descriptors (R167). -/
def State.hostLayers (s : State) : Nat :=
  ((s.streams.journal.filter fun e => e.step == s.job.step && isHostCopy e.desc).map fun e => le e.desc 60 2).dedup.length

/-- Aborts the running items of a queue that satisfy a test; each completes with ST_FAULTED and OUTCOME ABORTED. -/
def State.abortWhere (s : State) (q : Nat) (p : Item → Bool) : State :=
  (s.queue q).window.foldl (fun s i =>
    if i.running ∧ p i then
      let rows := s.rowsOf q i.seq
      (s.abortRunning q i).completeItem q i stFaulted 1 rows
    else s) s

/-- Outstanding OFFLOADs and PREFETCHes. -/
def State.hostCopies (s : State) : Nat :=
  ((List.range 76).map fun q => ((s.queue q).window.filter fun i => i.running && isHostCopy i.desc).length).sum

/-- Disables a queue whose ring lies in host memory (R320). -/
def State.dropRing (s : State) (q : Nat) : State :=
  if (s.queue q).enable ∧ ringInHost (s.queue q) then
    (s.abortWhere q fun _ => true).onQueue q fun u => { u with
      enable := false, disabling := false, state := .disabled, window := [], doneAhead := [], bell := none, jnlFull := false, waitSince := none, attempts := 0 }
  else s

/-- A host reset: the outstanding host copies are aborted, HOST_LOST is raised, the write log and what waits for the host are
dropped, the rings in host memory are disabled, and the step is replayed. -/
def State.hostReset (s : State) : State :=
  let n := s.hostCopies
  let layers := s.hostLayers
  let s := (List.range 76).foldl (fun s q => s.abortWhere q fun i => isHostCopy i.desc) s
  let s := (s.onStreams fun t => { t with hostLost := true, jnlFail := if bitsOf t.jnlFail.toNat 60 4 = 4 then 0 else t.jnlFail }).onJob
    fun j => { j with finalGiven := false, switched := layers }
  let s := s.onHst fun h => { h with wlog := [], wait := [], flushOut := false, lastAddr := none, replaceList := true, downSince := 0 }
  let s := s.report 0x0501 .warn 0x0C 0 (leBytes 4 s.stepNo ++ leBytes 2 n ++ leBytes 2 layers)
  let s := (List.range 76).foldl State.dropRing s
  if s.jobRuns then s.replayStep 2 else s

/-! ### Link down and up (R318, R319) -/

/-- WARN HST_LINK_DOWN (Table 11-10). -/
def State.linkRecord (s : State) (rewritten : Nat) : State :=
  (s.report 0x0B01 .warn 0x0C 0 (leBytes 4 (s.now + 1 - s.hst.downSince) ++ leBytes 4 rewritten ++ leBytes 4 s.stepNo)).injEnd 0x0C 0

/-- A link down: no host-bound request is issued any more. Without a log it is a host reset at once. -/
def State.linkDown (s : State) : State :=
  let s := s.onHst fun h => { h with link := .down, gen := 0, width := 0, linkDowns := inc h.linkDowns, downSince := s.now + 1 }
  if s.hst.wlogSize = 0 then (s.linkRecord 0).hostReset else s

/-- Host-bound requests can be issued again: what waited goes out, and rings in host memory are fetched from (R315, R318). -/
def State.hostResume (s : State) : State := (List.range 76).foldl State.fetch s.drainHost

/-- The rewrite of every logged write in its order, the reissue of the outstanding flush read, and the requests that waited. -/
def State.linkRewrite (s : State) : State :=
  let log := s.hst.wlog
  let s := log.foldl (fun s w => match w.msix with
    | some v => s.emit (.msix v)
    | none => (s.onHst fun h => { h with mem := Memory.write h.mem w.addr w.data }).emit (.hostWrite w.relaxed w.addr w.data)) s
  let s := s.onHst fun h => { h with
    link := .l0, replayed := addW h.replayed log.length, wlog := if h.flushOut then h.wlog.map (fun w => { w with covered := true }) else h.wlog }
  let s := match s.hst.flushOut, s.hst.lastAddr with
    | true, some a => s.emit (.hostRead a 4)
    | _, _ => s
  ((s.linkRecord log.length).onHst fun h => { h with downSince := 0 }).hostResume

/-- The link is in L0 again: after a link down the rewrite runs once Bus Master Enable is set. -/
def State.linkBack (s : State) : State :=
  if s.hst.downSince = 0 then (s.onHst fun h => { h with link := .l0 }).hostResume
  else if s.hst.bme then s.linkRewrite
  else s.onHst fun h => { h with link := .rewrite }

/-! ### Flush reads (R314) -/

/-- A FENCE with SCOPE.HOST is the oldest uncompleted descriptor of a queue. -/
def State.hostFence (s : State) : Bool :=
  (List.range 76).any fun q =>
    match (s.queue q).window.find? fun i => i.run != .complete with
    | some i => i.waiting && dKind i.desc == some .fence && bitOf (le i.desc 40 1) 0
    | none => false

/-- FLUSH_PERIOD in ticks (Table 11-9). -/
def State.flushPeriod (s : State) : Nat := 100 * (if fld s.hst.ctrl 0 16 = 0 then 100 else fld s.hst.ctrl 0 16)
/-- DOWN_LIMIT in ticks. -/
def State.downLimit (s : State) : Nat := 1000000 * (if fld s.hst.ctrl 16 16 = 0 then 100 else fld s.hst.ctrl 16 16)

/-- The log holds at least half of its bytes. -/
def State.logHalf (s : State) : Bool := s.hst.wlogSize != 0 && decide (s.hst.wlogSize.toNat ≤ 2 * s.logUsed)

/-- Issues a flush read; it covers every write issued before it. -/
def State.flushIssue (s : State) (a : Nat) : State :=
  (s.onHst fun h => { h with
    flushOut := true, flushTick := s.now, wlog := h.wlog.map fun w => { w with covered := true } }).emit (.hostRead a 4)

/-- The completion of a flush read acknowledges the writes issued before it, and makes room in the log. -/
def State.flushDone (s : State) : State :=
  (s.onHst fun h => { h with flushOut := false, wlog := h.wlog.filter fun w => !w.covered }).drainHost

/-! ### A packet arrives -/

/-- A PCIe packet arrives: the link is in L0. Detector 0x0B01 fails its LCRC, and the data link layer replays it; detector 0x0B02
takes the link through Detect after it. -/
def State.tlp (s : State) : State :=
  let i := s.fires 0x0B01 0x0C 0
  -- Bad TLP, bit 6 of the AER correctable error status (R307)
  let i := (i.1, if i.1 then i.2.onHst fun h => { h with aerCorr := h.aerCorr ||| 0x40 } else i.2)
  let j := (i.2.injEnd 0x0C 0).fires 0x0B02 0x0C 0
  if j.1 then j.2.linkDown else j.2

/-- The link carries requests of the host. -/
def State.linkUp (s : State) : Bool := s.boot.mainOn && s.hst.link != .down

end Sys2Proof.Machine
end

