-- ==== Sys2Proof/Machine/Mailbox.lean ====
section
/-! DEFINITION. Mailboxes and the running of Stavmon commands (R374 to R384): posting on the three routes, the checks of R376,
responses, and the commands that a warm restart finds (R382). -/

namespace Sys2Proof.Machine

/-! ### Violations by the host (R329, R408) -/

/-- A host violation of a row of Table 11-7: counted in HST_VIOL, at most one record per row per 100,000,000 ticks. -/
def State.hostViol (s : State) (row : Nat) (hdr : Word64) : State :=
  (s.onHst fun h => { h with viol := inc h.viol }).rowReport (1000 + row) 0x0B02 .warn 0x0C 0 (leBytes 1 row ++ leBytes 8 hdr.toNat)

/-- A management-bus violation of a row of Table 14-7. -/
def State.smbViol (s : State) (row : Nat) (code addr : Nat) : State :=
  (s.onAlm fun a => { a with smbViol := inc a.smbViol }).rowReport (4000 + row) 0x0E06 .warn 0x0D 0
    (leBytes 1 row ++ leBytes 1 code ++ leBytes 1 addr)

/-! ### Mailboxes by route -/

def State.mbox (s : State) : Route → Mailbox
  | .pcie n => Sparse.get Reset.mailbox s.cp.mbx n.val
  | .chord => Sparse.get Reset.mailbox s.cp.mbx 15
  | .smb => s.cp.smb

def State.setMbox (s : State) (r : Route) (m : Mailbox) : State :=
  match r with
  | .pcie n => s.onCp fun c => { c with mbx := Sparse.put Reset.mailbox c.mbx n.val m }
  | .chord => s.onCp fun c => { c with mbx := Sparse.put Reset.mailbox c.mbx 15 m }
  | .smb => s.onCp fun c => { c with smb := m }

/-- Header bytes 14, 15 and 40 to 63 of a mailbox are reserved (Table 13-7): writes to them are ignored (R14). -/
def mboxReserved (o : Nat) : Bool := o == 14 || o == 15 || (decide (40 ≤ o) && decide (o < 64))

/-- Stores bytes in a mailbox from an offset. -/
def mboxStore (m : List Host.Cell) (off : Nat) (d : List Byte) : List Host.Cell :=
  d.zipIdx.foldl (fun m p => if mboxReserved (off + p.2) then m else Memory.write m (off + p.2) [p.1]) m

/-- The CP takes commands: it runs firmware and is neither restarting nor halted (R358, R412); in ROM it takes a few (R363). -/
def State.cpReady (s : State) : Bool := (s.cp.up || s.boot.romOnly) && !s.cp.restarting && !s.cp.halted

/-- The opcodes of Table 13-9. -/
def opcodeListed (op : Nat) : Bool :=
  let f := op / 256
  let c := op % 256
  let n := match f with
    | 1 => 5 | 2 => 7 | 3 => 6 | 4 => 4 | 5 => 1 | 6 => 4 | 7 => 11 | 8 => 3 | 9 => 5 | 10 => 3 | 11 => 8 | 12 => 4
    | _ => 0
  decide (1 ≤ c) && decide (c ≤ n)

/-- Accepted with standby alone (Table 13-9); HST_CORRELATE over the management bus. -/
def standbyAllows (op : Nat) : Bool :=
  let f := op / 256
  f == 1 || op == 0x0201 || op == 0x0202 || f == 3 || f == 8 || f == 9 || op == 0x0C01

/-- Commands that run in MB[15] (R379, Tables 13-9 and 10-9): UPD_RESTORE, UPD_DIGEST_VERDICT and the GRP commands marked
for MB[15]. -/
def mb15Allows (op : Nat) : Bool := op == 0x0707 || op == 0x0708 || op == 0x0B05 || op == 0x0B06

/-- Commands answered in ROM (R363). -/
def romAllows (op : Nat) : Bool := op == 0x0101 || op == 0x0105 || op == 0x0801 || op == 0x0903 || op == 0x0904

/-- Header fields of a request (Table 13-7). -/
def mOp (q : List Byte) : Nat := le q 0 2
def mFlags (q : List Byte) : Nat := le q 2 2
def mSeq (q : List Byte) : Word32 := BitVec.ofNat 32 (le q 4 4)
def mLen (q : List Byte) : Nat := le q 8 2
def mEpoch (q : List Byte) : Nat := le q 20 4
def mPayload (q : List Byte) : List Byte := slice q 64 (mLen q)

/-- The request CRC (R375). -/
def requestCrc (q : List Byte) : Nat :=
  crc32c (patch (patch (slice q 0 64) 10 (List.replicate 10 0)) 24 (List.replicate 16 0) ++ mPayload q)

/-- Writes the response of a command: header fields and payload, CRC last, STATE DONE, the message or answer of the route
(R375, R377, R379). -/
def State.writeResponse (s : State) (r : Route) (status : Word16) (resp : List Byte) : State :=
  let m := s.mbox r
  let head := Memory.bytes m.bytes 0 64
  let head := patch head 10 (leBytes 2 resp.length ++ leBytes 2 status.toNat ++ [0, 0] ++ [0, 0, 0, 0])
  let head := patch head 24 (leBytes 8 m.receipt.toNat ++ leBytes 8 s.now)
  let crc := crc32c (head ++ resp)
  let bytes := Memory.write (Memory.write m.bytes 0 (patch head 16 (leBytes 4 crc))) 64 resp
  let s := s.setMbox r { m with
    bytes := bytes, state := .done, doneTick := s.boot.modCount, checked := false, reached := none }
  match r with
  | .pcie n => s.msix (256 + n.val)
  | .smb => s
  | .chord =>
    let a := s.cp.mb15From.getD s.apexPos
    (s.msix 271).sendControl a.1 a.2 (leBytes 4 0x22 ++ leBytes 4 (mSeq m.request).toNat ++ leBytes 2 status.toNat ++ slice resp 0 20)

/-- Completes an accepted command: its status and response are stored for a repeat of its SEQ (R374, R376), then written. -/
def State.respond (s : State) (r : Route) (status : Word16) (resp : List Byte) : State :=
  (s.setMbox r { s.mbox r with status := status, response := resp }).writeResponse r status resp

/-- Checks 1 to 4 of R376 on a posted command. A command that fails one is answered; one that passes waits for its run. -/
def State.checkPosted (s : State) (r : Route) : State :=
  let m := s.mbox r
  let q := m.request
  if mLen q > 4032 ∨ requestCrc q ≠ le q 16 4 then s.writeResponse r stBadCheck []
  else
    let resync := bitOf (mFlags q) 0
    if mSeq q = m.lastSeq ∧ !resync then s.writeResponse r m.status m.response
    else if mSeq q ≠ m.lastSeq + 1 ∧ !resync then s.writeResponse r stBadSeq []
    else
      let s := s.setMbox r { m with lastSeq := mSeq q, checked := true }
      if !opcodeListed (mOp q) ∨ mFlags q / 2 ≠ 0 then s.respond r stBadOpcode []
      else if r = .chord ∧ !mb15Allows (mOp q) then s.respond r stBadOpcode []
      else if r = .chord ∧ (mEpoch q ≠ s.grp.epoch.toNat ∨ s.cp.mb15From ≠ some s.apexPos) then s.respond r stBadSeq []
      else s

/-- The mailbox is posted: header and payload are copied, the receipt is stamped (R377, R56). The checks follow at once
when the CP takes commands, else when it does so again (R382). -/
def State.post (s : State) (r : Route) : State :=
  let m := s.mbox r
  let q := Memory.bytes m.bytes 0 (64 + min 4032 (leNat (Memory.bytes m.bytes 8 2)))
  let s := s.setMbox r { m with request := q, state := .posted, receipt := s.boot.modCount, checked := false }
  if s.cpReady then s.checkPosted r else s

/-- Every route with a mailbox. -/
def allRoutes : List Route := (List.finRange 15).map Route.pcie ++ [.chord, .smb]

/-- The CP takes what was posted while it could not. -/
def State.checkAllPosted (s : State) : State :=
  allRoutes.foldl (fun s r => if (s.mbox r).state = .posted ∧ !(s.mbox r).checked then s.checkPosted r else s) s

/-- The state of a command in the present regime and on standby alone (R376 check 5, R33, R363). -/
def State.deny (s : State) (r : Route) (op : Nat) : Option Word16 :=
  if s.boot.romOnly ∧ !(romAllows op ∧ r = .smb) then some stDeniedRegime
  else if !s.boot.mainOn ∧ !standbyAllows op then some stDeniedRegime
  else if !s.boot.mainOn ∧ op = 0x0C01 ∧ r ≠ .smb then some stDeniedRegime
  else none

/-- What a command's effect answers: a status with a response and the state; that the command runs on past its commit point; or
that it runs on before it (R381). -/
inductive CmdResult where
  | done (status : Word16) (resp : List Byte) (s : State)
  | running (s : State)
  | pending (s : State)

/-- A refusal without effect. -/
def refuse (s : State) (status : Word16) : CmdResult := .done status [] s

/-- Runs the command of opcode `op` that waits in the mailbox of route r, checked and allowed; no other step takes place. -/
def State.command (s : State) (r : Route) (op : Nat) (f : List Byte → State → CmdResult) : State :=
  let m := s.mbox r
  if m.state = .posted ∧ m.checked ∧ mOp m.request = op ∧ s.cpReady then
    match s.deny r op with
    | some st => s.respond r st []
    | none =>
      match f (mPayload m.request) s with
      | .done st resp s' => s'.respond r st resp
      | .running s' => s'.setMbox r { s'.mbox r with state := .running, reached := some stOk }
      | .pending s' => s'.setMbox r { s'.mbox r with state := .running, reached := none }
  else s

/-- A command whose effect on its payload must wait is left posted. -/
def State.commandUnless (s : State) (r : Route) (op : Nat) (waits : List Byte → Bool) (f : List Byte → State → CmdResult) : State :=
  if s.deny r op = none ∧ waits (mPayload (s.mbox r).request) then s else s.command r op f

/-- A long command ends. -/
def State.endCommand (s : State) (r : Option Route) (status : Word16) (resp : List Byte) : State :=
  match r with
  | some r => if (s.mbox r).state = .running then s.respond r status resp else s
  | none => s

/-- No operation that runs completes a command any longer (R382): what the CP kept of the commands is answered. An MCB write whose
command had not reached its commit point is dropped with it. -/
def State.dropRoutes (s : State) : State :=
  let mine (w : McbWrite) : Bool := match w.route with | some r => (s.mbox r).state == .running && (s.mbox r).reached.isNone | none => false
  let s := s.onFlash fun f => { f with mcbWrite := f.mcbWrite.filter fun w => !mine w, mcbNext := f.mcbNext.filter fun w => !mine w }
  let s := (s.onBoot fun b => { b with waiter := none }).onCp fun c => { c with selftest := c.selftest.map fun t => (t.1, none) }
  let s := s.onComp fun c => { c with
    commit := c.commit.map fun x => { x with route := none }, export_ := c.export_.map fun x => { x with route := none }
    repair := c.repair.map fun x => { x with route := none } }
  s.onEth fun e => { e with conns := e.conns.map fun k => (k.1, { k.2 with openRoute := none }) }

/-- The main domain is off: a command that runs in it ends with ST_FAULTED (R380, notes/assumptions/318.md). -/
def State.endMainCommands (s : State) : State :=
  let s := allRoutes.foldl (fun s r =>
    if (s.mbox r).state = .running ∧ !standbyAllows (mOp (s.mbox r).request) then s.respond r stFaulted [] else s) s
  s.onCp fun c => { c with selftest := none }

/-- The commands a warm restart finds interrupted (R382): before the commit point ST_FAULTED, after it the status reached; the one
whose stored command was lost ST_FAULTED (R359). Then posted commands that waited are checked. -/
def State.answerInterrupted (s : State) : State :=
  let lost (r : Route) : Bool := match s.cp.lostCmd with | some k => allRoutes[k]? == some r | none => false
  let s := allRoutes.zipIdx.foldl (fun t k =>
    let m := s.mbox k.1
    if m.state = .running then t.respond k.1 (if lost k.1 then stFaulted else m.reached.getD stFaulted) []
    else if m.state = .posted ∧ (m.checked ∨ lost k.1) then t.respond k.1 stFaulted []
    else t) s.dropRoutes
  (s.onCp fun c => { c with lostCmd := none }).checkAllPosted

end Sys2Proof.Machine
end

