-- ==== Sys2Proof/Machine/Power.lean ====
section
/-! DEFINITION. The power manager: the governor, calibration, envelopes, droop, current and temperature, quarters, SOLSTICE
phases (R332 to R355), the PWR commands (Table 12-6) and the power registers (Tables 12-8, 12-9). -/

namespace Sys2Proof.Machine

/-! ### Registers -/

/-- PWR_STATUS (Table 12-9). -/
def State.pwrStatus (s : State) : Word64 :=
  BitVec.ofNat 64 (s.pwr.target * 2 ^ 48 + (if s.boot.mainOn then s.compGoal else s.pwr.compSp) * 2 ^ 36 + s.setpointNow * 2 ^ 24 + s.parked.toNat * 2 ^ 16 +
    bit (s.pwrDyn.slew.isSome && (!s.pwrDyn.droopActive || s.pwrDyn.slewPaused)) * 2 ^ 8 + regimeNum s.pwr.regime)

/-- PWR_LIMIT (Table 12-9). -/
def State.pwrLimit (s : State) : Word64 :=
  BitVec.ofNat 64 (s.limitW * 2 ^ 48 + s.pwr.cap * 2 ^ 32 + s.pwr.envelope * 2 ^ 16 + s.pwr.rampCeil)

def State.pwrCal (s : State) : Word64 :=
  BitVec.ofNat 64 (s.pwrDyn.gainEng * 2 ^ 48 + s.pwrDyn.gainArr * 2 ^ 32 + min s.pwrDyn.disagree 0xFFFF * 2 ^ 16 +
    min s.pwrDyn.windows 255 * 2 ^ 8 + bit s.pwrDyn.followHigh)

/-- PWR_SOLSTICE (Table 12-9): the open phase hinted last with its class, the power reserved, whether a phase stands denied
and whether one is reserved. -/
def State.pwrSolstice (s : State) : Word64 :=
  let l := s.pwrRegs.phases
  let x := (l.getLast?.map fun x => x.phase * 2 ^ 48 + x.cls * 2 ^ 40).getD 0
  let w := l.foldl (fun a x => if x.granted then max a (classWatts x.cls) else a) 0
  BitVec.ofNat 64 (x + w * 2 ^ 16 + bit (l.any fun x => !x.granted) * 2 + bit (l.any (·.granted)))

/-- The hottest of listed readings with its index. -/
def hottest (l : Sparse Int) : Option (Nat × Int) :=
  l.foldl (fun a r => match a with
    | some b => if b.2 < r.2 then some r else a
    | none => some r) none

/-- PWR_TEMP (Table 12-9). -/
def State.pwrTemp (s : State) : Word64 :=
  let t := hottest s.pwrDyn.readings
  let e := hottest s.pwrDyn.edgeReadings
  let c := ((hottest s.pwrDyn.compReadings).getD (0, 0)).2
  let hot : Nat × Int := match t, e with
    | some t, some e => if t.2 < e.2 then (0x7F, e.2) else (t.1, t.2)
    | some t, none => t
    | none, some e => (0x7F, e.2)
    | none, none => (0, 0)
  BitVec.ofNat 64 (twos 16 c * 2 ^ 32 + twos 16 hot.2 * 2 ^ 16 + hot.1)

def State.pwrShareReg (s : State) (j : Nat) : Word64 :=
  let x := Sparse.get Reset.share s.pwrRegs.shares j
  BitVec.ofNat 64 (bit x.valid * 2 ^ 63 + x.watts * 2 ^ 32 + min x.est 0xFFFF * 2 ^ 16 + x.duty)

def State.pwrRail (s : State) (r : Nat) : Word64 :=
  BitVec.ofNat 64 (Sparse.get 0 s.pwrRegs.railCurrent r % 2 ^ 32 * 2 ^ 32 + Sparse.get 0 s.pwrRegs.railPower r % 2 ^ 32)

/-- Every register of Table 12-9 in the order of Table 12-8. -/
def State.pwrRegsAll (s : State) : List Word64 :=
  [s.pwrStatus, s.pwrLimit, BitVec.ofNat 64 (s.pwrRegs.input % 2 ^ 32), BitVec.ofNat 64 (s.pwrRegs.est % 2 ^ 32),
    BitVec.ofNat 64 (s.pwrRegs.energy / 100000), s.pwrCal, s.pwrRegs.thrNow.setWidth 64, s.pwrSolstice, s.pwrTemp] ++
  (List.range 10).map s.pwrRail ++ (List.range 12).map (Sparse.get 0 s.pwrRegs.thrTime) ++
  (List.range 12).map (Sparse.get 0 s.pwrRegs.thrEvents) ++
  (List.range 8).flatMap fun j =>
    let x := Sparse.get Reset.share s.pwrRegs.shares j
    [s.pwrShareReg j, x.mask, x.time]

/-! ### Commands -/

/-- The record of a cap or ceiling below the floor (Table 12-7). -/
def State.belowFloor (s : State) (w : Nat) : State :=
  s.report 0x0C02 .note 0x0E 0xFF (leBytes 2 w ++ leBytes 2 150 ++ leBytes 4 s.pwrRegs.input)

/-- The open phases that satisfy p end (R353, R354). -/
def State.endPhases (s : State) (p : Solstice → Bool) : State :=
  s.onPwrRegs fun r => { r with phases := r.phases.filter fun x => !p x }

/-- A limit of w W lower than the one it replaces ends every SOLSTICE reservation (R354). -/
def State.lowerLimit (s : State) (old w : Nat) : State := if w < old then s.endPhases (·.granted) else s

/-- PWR_CAP (R336). -/
def pwrCapCmd (b : List Byte) (s : State) : CmdResult :=
  let w := min (le b 0 2) 1200
  let s := (s.lowerLimit s.pwr.cap w).onPwr fun p => { p with cap := w, heldCap := if s.boot.mainOn then p.heldCap else some w }
  if w < 150 then .done stCapBelowFloor [] (s.belowFloor w).powerSettle else .done stOk [] s.powerSettle

/-- A ceiling takes effect (R338, R354). -/
def State.setCeiling (s : State) (w : Nat) : State :=
  ((s.lowerLimit s.pwr.envelope w).onPwr fun p => { p with envelope := w, pending := none }).powerSettle

/-- PWR_ENVELOPE (R337): DELAY and LEASE count from the receipt stamp (R56). Payload: CEILING 0-1, DELAY 4-7, RAMP_UP 8-9,
LEASE 12-15, SAFE 16-17, BALLAST 18 (notes/assumptions/12.md). -/
def pwrEnvelopeCmd (receipt : Nat) (b : List Byte) (s : State) : CmdResult :=
  let ceiling := le b 0 2
  let delay := le b 4 4
  let rampUp := le b 8 2
  let lease := le b 12 4
  let safe := le b 16 2
  let ballast := le b 18 1
  if ceiling > 1200 ∨ (rampUp ≠ 0 ∧ (rampUp < 10 ∨ 10000 < rampUp)) ∨ safe < 150 ∨ 1200 < safe ∨ 1 < ballast then refuse s stBadOpcode
  else
    let s := s.onPwr fun p => { p with
      pending := some ⟨ceiling, receipt + delay⟩, rampUp := rampUp, lease := lease, safe := safe, ballast := ballast == 1,
      leaseFrom := receipt, leased := false, rampCeil := if rampUp = 0 then 1200 else s.pwrRegs.input / 1000 + rampUp }
    let s := if receipt + delay ≤ s.now then s.setCeiling ceiling else s.powerSettle
    if ceiling < 150 then .done stCapBelowFloor [] (s.belowFloor ceiling) else .done stOk [] s

/-- PWR_TARGET (R333). -/
def pwrTargetCmd (b : List Byte) (s : State) : CmdResult :=
  let v := le b 0 2
  if v < 450 ∨ 680 < v ∨ v % 5 ≠ 0 then refuse s stBadOpcode
  else
    let old := s.pwr.target
    let s := s.onPwr fun p => { p with target := v, heldTarget := if s.boot.mainOn then p.heldTarget else some v }
    let top (c : Nat) : Nat := if c = old then v else min c v
    let s := s.onPwrDyn fun d => { d with coreCeil := top d.coreCeil, compCeil := top d.compCeil, currCeil := top d.currCeil }
    -- the setpoint is never raised above TARGET (R333)
    .done stOk [] (if s.boot.mainOn ∧ s.pwr.regime ≠ .spring ∧ v < s.setpointGoal then s.setGoal v else s).powerSettle

/-- A partition with its present power (R346, R347): that of the last period for a partition with the same engines; for other
engines the core estimate is the power manager's, a free value, and no duty holds them back yet. -/
def State.sharePower (s : State) (x : Share) (mask : Word64) : Share × State :=
  if x.valid ∧ x.mask = mask then (x, s)
  else (let d := s.draw; ({ x with est := d.1.toNat % 65536, duty := 1024 }, d.2))

/-- PWR_SHARE (R346, R347). Payload: partition 0, engine mask 8-15, share 16-17. -/
def pwrShareCmd (b : List Byte) (s : State) : CmdResult :=
  let j := le b 0 1
  let mask := BitVec.ofNat 64 (le b 8 8)
  let w := le b 16 2
  let x := Sparse.get Reset.share s.pwrRegs.shares j
  let clash := s.pwrRegs.shares.any fun k => k.1 != j && k.2.valid && k.2.mask &&& mask != 0
  if 7 < j then refuse s stBadOpcode
  else if w = 0 then
    .done stOk [] (s.onPwrRegs fun r => { r with shares := Sparse.put Reset.share r.shares j Reset.share }).powerSettle
  else if clash then refuse s stBadOpcode
  else
    let p := s.sharePower x mask
    let x := p.1
    let s := p.2
    let above := decide (w < x.est)
    let duty := if above then x.duty * w / x.est else x.duty
    let s := s.onPwrRegs fun r => { r with
      shares := Sparse.put Reset.share r.shares j { x with valid := true, watts := w, mask := mask, duty := duty, back := duty != 1024 } }
    if above then
      .done stOverQuota [] (s.report 0x0C04 .note 0x0E 0xFF (leBytes 2 j ++ leBytes 2 w ++ leBytes 2 x.est)).powerSettle
    else .done stOk [] s.powerSettle

/-- PWR_PARK (R341); on standby alone the mask is held (Table 12-6). -/
def pwrParkCmd (b : List Byte) (s : State) : CmdResult :=
  let m := le b 0 1
  if 15 < m then refuse s stBadOpcode
  else
    let old := s.parked
    if !s.boot.mainOn then .done stOk [] (s.onPwr fun p => { p with heldPark := some (BitVec.ofNat 4 m) })
    else .done stOk [] (((s.onPwr fun p => { p with parkedCmd := BitVec.ofNat 4 m }).followParked old).powerSettle)

/-- PWR_STATUS. -/
def pwrStatusCmd (_ : List Byte) (s : State) : CmdResult := .done stOk (s.pwrRegsAll.flatMap fun w => leBytes 8 w.toNat) s

def execPwrCap (r : Route) (s : State) : Host.Outcome State Fault Refusal := .next (s.command r 0x0301 pwrCapCmd)
def execPwrEnvelope (r : Route) (s : State) : Host.Outcome State Fault Refusal := .next (s.command r 0x0302 (pwrEnvelopeCmd (s.mbox r).receipt.toNat))
def execPwrTarget (r : Route) (s : State) : Host.Outcome State Fault Refusal := .next (s.command r 0x0303 pwrTargetCmd)
def execPwrShare (r : Route) (s : State) : Host.Outcome State Fault Refusal := .next (s.command r 0x0304 pwrShareCmd)
def execPwrPark (r : Route) (s : State) : Host.Outcome State Fault Refusal := .next (s.command r 0x0305 pwrParkCmd)
def execPwrStatus (r : Route) (s : State) : Host.Outcome State Fault Refusal := .next (s.command r 0x0306 pwrStatusCmd)

/-! ### Envelope timers -/

/-- ENVELOPE_EFFECTIVE (R337): time passes to the moment announced. -/
def execEnvelopeEffective (s : State) : Host.Outcome State Fault Refusal :=
  match s.pwr.pending with
  | some e => .next ((s.passTo e.due).setCeiling e.ceiling)
  | none => .next s

/-- ENVELOPE_LEASE_EXPIRY (R338). -/
def execEnvelopeLeaseExpiry (s : State) : Host.Outcome State Fault Refusal :=
  if s.pwr.lease = 0 ∨ s.pwr.leased then .next s
  else
    let s := s.passTo (s.pwr.leaseFrom + s.pwr.lease)
    let s := s.onPwr fun p => { p with leased := true }
    .next ((s.report 0x0C03 .warn 0x0E 0xFF (leBytes 2 s.pwr.safe ++ leBytes 4 s.pwr.lease)).setCeiling s.pwr.safe)

/-! ### The governor (R340 to R344) -/

/-- A rail's measured power, scaled up where detector 0x0C04 fires (Table 14-8). -/
def State.railMeasure (s : State) (r v : Nat) : Nat × State :=
  let i := s.opportunity 0x0C04 0x0E (0x10 + r) 0 fun _ => true
  (match i.1 with | some k => v * (100 + k) / 100 | none => v, i.2)

/-- Measured power of the rails other than CORE_ARR and CORE_ENG. -/
def State.railSum (s : State) (l : List Nat) : Nat × State :=
  ((List.range 10).filter (2 ≤ ·)).foldl (fun (a : Nat × State) r =>
    let m := a.2.railMeasure r (l[r]?.getD 0)
    (a.1 + m.1, m.2)) (0, s)

/-- What the governor decides of the setpoint, the gate and the quarters parked by limit (R340, R343). `p` in mW. -/
def State.govern (s : State) (p unpark : Nat) : State :=
  let l := s.limitW * 1000
  let c := s.ceilMv
  let v := s.setpointGoal
  let spring := s.pwr.regime == .spring
  let mayPark := match s.pwr.lastPark with
    | some t => decide (t + 10000 ≤ s.now)
    | none => true
  let held := s.pwr.parkedLimit != 0 || s.pwr.parkedTemp != 0
  let cap450 (s : State) : State := if !spring ∧ s.setpointGoal > c then s.setGoal c else s
  if p > l ∨ s.unreachable then
    if v > 450 ∧ !spring then
      let s := s.onPwr fun w => { w with gate := false, gateDuty := 1024 }
      cap450 (s.setGoal (max 450 (v - (if 10 * p > 11 * l then 20 else 10))))
    else
      let old := s.parked
      -- the gate holds the power at l as R346 states it for a share (notes/assumptions/26.md)
      let s := s.onPwr fun w => { w with gate := decide (p > l), gateDuty := if p > l then w.gateDuty * l / p else 1024 }
      match [3, 2, 1, 0].find? fun q => !old.getLsbD q with
      | some q =>
        if mayPark then
          (s.onPwr fun w => { w with parkedLimit := setQ w.parkedLimit q true, lastPark := some s.now }).followParked old
        else s
      | none => s
  else
    let s := s.onPwr fun w => { w with gate := false, gateDuty := 1024 }
    if 100 * p < 97 * l then
      match (if 100 * (p + unpark) ≤ 97 * l then [0, 1, 2, 3].find? fun q => s.pwr.parkedLimit.getLsbD q else none) with
      | some q =>
        if mayPark then
          let old := s.parked
          (s.onPwr fun w => { w with parkedLimit := setQ w.parkedLimit q false, lastPark := some s.now }).followParked old
        else s
      | none => if v < c ∧ !held ∧ !spring then s.setGoal (min c (v + 5)) else cap450 s
    else cap450 s

/-- A partition's estimate and its duty (R346, R347; notes/assumptions/13.md). -/
def shareStep (x : Share) (est : Nat) : Share :=
  if !x.valid then x
  else
    let duty := if est > x.watts then x.duty * x.watts / est else if est * 1024 ≤ x.watts * x.duty then 1024 else x.duty
    { x with est := est, duty := duty, back := duty != 1024 }

/-- The droop detector of quadrant q trips with a depth in mV (R351, R352). -/
def State.tripDroop (s : State) (q depth : Nat) : State :=
  let at' := s.setpointNow
  let pause := match s.pwrDyn.slew with
    | some (_, _, _) => !s.pwrDyn.droopActive
    | none => false
  ((s.onPwr fun p => { p with setpoint := at' }).onPwrDyn fun d => { d with
    droop := Sparse.put 0 d.droop q (depth + 1), droopGate := true, droopActive := true, droopQuad := q, droopDepth := depth,
    droopTrips := d.droopTrips ++ [(q, depth)],
    slewPaused := d.slewPaused || pause }).powerSettle

/-- The core regulator's current is sampled at a peak in mA (R350). -/
def State.sampleCurrent (s : State) (peak : Nat) : State :=
  let bytes := leBytes 4 peak ++ leBytes 2 s.setpointNow
  if peak ≥ 2100000 ∧ s.boot.shutdown.isSome then s
  else if peak ≥ 2100000 then (s.report 0x0C09 .fault 0x0E 0xFF bytes).beginShutdown .overcurrent
  else if peak > 1900000 ∨ (s.pwrDyn.episode ∧ peak ≥ 1850000) then
    let first := !s.pwrDyn.episode
    let c := max 450 (min s.pwrDyn.currCeil s.pwr.target - 10)
    let s := s.onPwrDyn fun d => { d with currCeil := c, episode := true }
    let s := if s.pwr.regime ≠ .spring ∧ s.setpointGoal > c then s.setGoal c else s
    (if first then s.report 0x0C08 .warn 0x0E 0xFF bytes else s).powerSettle
  else if peak < 1850000 then (s.onPwrDyn fun d => { d with episode := false }).powerSettle
  else s

/-- A value presented by an injected current: above 1,900 A, or at least 2,100 A (Table 14-8); which, the spec leaves open. -/
def injectedCurrent (sub : Nat) (w : BitVec 64) : Nat :=
  if sub = 1 then 2100000 + w.toNat % 2 ^ 20 else 1900001 + w.toNat % 199999

/-- GOVERNOR_PERIOD (R340, R344). -/
def execGovernorPeriod (rd : PowerReading) (s : State) : Host.Outcome State Fault Refusal :=
  if !s.boot.mainOn then .next s
  else
    let rails := s.railSum rd.railPower
    let s := rails.2
    let core := rd.arrEst * s.pwrDyn.gainArr / 0x4000 + rd.engEst * s.pwrDyn.gainEng / 0x4000
    let p := core + rails.1 + rd.loss
    let p := if s.pwrDyn.followHigh then max p rd.input else p
    let put (m : Sparse Nat) (l : List Nat) : Sparse Nat := l.zipIdx.foldl (fun m v => Sparse.put 0 m v.2 v.1) m
    let s := s.onPwrRegs fun r => { r with
      input := rd.input, est := p, energy := r.energy + rd.input, railPower := put r.railPower (rd.railPower.take 10)
      railCurrent := put r.railCurrent (rd.railCurrent.take 10)
      shares := r.shares.map fun j => (j.1, shareStep j.2 (rd.shareEst[j.1]?.getD 0)) }
    let s := s.onPwr fun w => { w with rampCeil := if w.rampUp = 0 then 1200 else min 65535 (rd.input / 1000 + w.rampUp) }
    let s := if s.pwrDyn.episode then s else s.onPwrDyn fun d => { d with currCeil := min s.pwr.target (d.currCeil + 5) }
    let s := s.govern p rd.unparkCost
    -- detectors 0x0C01 and 0x0C02 may present a droop and a current of their own (Table 14-8)
    let s := (List.range 4).foldl (fun s q =>
      let i := s.fires 0x0C01 0x0E q
      if i.1 then
        let d := i.2.draw
        d.2.tripDroop q (41 + d.1.toNat % 1024)
      else i.2) s
    let i := s.opportunity 0x0C02 0x0E 0xFF 0 fun _ => true
    match i.1 with
    | some sub =>
      let d := i.2.draw
      .next ((d.2.sampleCurrent (injectedCurrent sub d.1)).injEnd 0x0E 0xFF).powerSettle
    | none => .next i.2.powerSettle

/-- A gain after a window (R345), clamped to 0.80 to 1.25. -/
def newGain (g meas est : Nat) : Nat := if est = 0 then g else min 20480 (max 13107 (g * meas / est))

/-- The disagreement of an estimate with a measurement in 0.01% of the measurement. -/
def disagreement (est meas : Nat) : Nat :=
  let d := max est meas - min est meas
  if d = 0 then 0 else if meas = 0 then 0xFFFF else d * 10000 / meas

/-- CALIBRATION_WINDOW (R345). -/
def execCalibrationWindow (rd : CalReading) (s : State) : Host.Outcome State Fault Refusal :=
  if !s.boot.mainOn then .next s
  else
    let a := s.railMeasure 0 rd.arrMeas
    let e := a.2.railMeasure 1 rd.engMeas
    let s := e.2
    let da := disagreement rd.arrEst a.1
    let de := disagreement rd.engEst e.1
    let rail := if da < de then 1 else 0
    let wide (est meas : Nat) : Bool := decide (100 * (max est meas - min est meas) > 8 * meas)
    let bad := wide rd.arrEst a.1 || wide rd.engEst e.1
    let w := if bad then s.pwrDyn.windows + 1 else 0
    let g := if bad then 0 else s.pwrDyn.agree + 1
    let starts := decide (100 ≤ w) && !s.pwrDyn.followHigh
    let s := s.onPwrDyn fun d => { d with
      gainArr := newGain d.gainArr a.1 rd.arrEst, gainEng := newGain d.gainEng e.1 rd.engEst, disagree := max da de
      windows := w, agree := g, followHigh := starts || (d.followHigh && decide (g < 100)) }
    let s := if starts then
        s.report 0x0C05 .warn 0x0E (0x10 + rail) (leBytes 2 rail ++ leBytes 2 (if rail = 1 then s.pwrDyn.gainEng else s.pwrDyn.gainArr) ++
          leBytes 2 (min (max da de) 0xFFFF))
      else s
    .next ((s.injEnd 0x0E 0x10).injEnd 0x0E 0x11).powerSettle

/-! ### Droop and slew (R351, R352) -/

/-- DROOP_TRIP. -/
def execDroopTrip (q : Fin 4) (depth : Nat) (s : State) : Host.Outcome State Fault Refusal :=
  if !s.boot.mainOn ∨ depth ≤ 40 ∨ Sparse.get 0 s.pwrDyn.droop q.val ≠ 0 then .next s
  else
    let i := s.fires 0x0C01 0x0E q.val
    .next (i.2.tripDroop q.val depth)

/-- DROOP_RELEASE. -/
def execDroopRelease (q : Fin 4) (s : State) : Host.Outcome State Fault Refusal :=
  .next (s.onPwrDyn fun d => { d with droop := Sparse.put 0 d.droop q.val 0 }).powerSettle

/-- DROOP_GATE_END: the gate's duration counts in whole ticks, and each trip since it began writes INFO PWR_DROOP (R351, R352,
Table 12-7). -/
def execDroopGateEnd (ns waves : Nat) (s : State) : Host.Outcome State Fault Refusal :=
  if !s.pwrDyn.droopGate ∨ waves < 2 ∨ 20 < waves ∨ (!s.pwrDyn.droop.isEmpty ∧ waves < 20) then .next s
  else
    let s := s.pwrDyn.droopTrips.foldl (fun s t => (s.report 0x0C06 .info 0x0E t.1 (leBytes 1 t.1 ++ leBytes 1 waves ++ leBytes 2 t.2 ++
      leBytes 4 ns ++ leBytes 2 s.setpointNow)).injEnd 0x0E t.1) s
    let s := s.onPwrRegs fun r => { r with thrTime := Sparse.put 0 r.thrTime 6 (addW (Sparse.get 0 r.thrTime 6) ((ns + 9) / 10)) }
    .next (s.onPwrDyn fun d => { d with droopGate := false, droopTrips := [] }).powerSettle

/-- DROOP_CLEAR: every detector has stayed released for 100 ns; a paused or waiting slew runs on. -/
def execDroopClear (pauseNs : Nat) (s : State) : Host.Outcome State Fault Refusal :=
  if !s.pwrDyn.droop.isEmpty ∨ s.pwrDyn.droopGate ∨ !s.pwrDyn.droopActive then .next s
  else .next (s.onPwrDyn fun d => { d with
    droopActive := false, slewPause := if d.slewPaused then d.slewPause + pauseNs else d.slewPause
    slew := match d.slew with | some (a, b, _) => some (a, b, s.now) | none => none }).powerSettle

/-- SLEW_DONE: the setpoint reaches its destination. -/
def execSlewDone (ns : Nat) (s : State) : Host.Outcome State Fault Refusal :=
  match s.pwrDyn.slew with
  | some (src, dest, _) =>
    if s.pwrDyn.droopActive then .next s
    else
      let was := s.pwrDyn.slewPaused
      let pause := s.pwrDyn.slewPause
      let s := (s.onPwr fun p => { p with setpoint := dest }).onPwrDyn fun d => { d with
        slew := none, slewPaused := false, slewPause := 0 }
      let s := if was then s.report 0x0C07 .info 0x0E 0xFF (leBytes 2 src ++ leBytes 2 dest ++ leBytes 4 ns ++ leBytes 4 pause) else s
      .next s.powerSettle
  | none => .next s

/-! ### Current and temperature (R348 to R350) -/

/-- OVERCURRENT_DETECT. -/
def execOvercurrentDetect (peak : Nat) (s : State) : Host.Outcome State Fault Refusal :=
  if !s.boot.mainOn then .next s
  else
    let i := s.opportunity 0x0C02 0x0E 0xFF 0 fun _ => true
    let d := i.2.draw
    let p := match i.1 with | some sub => max peak (injectedCurrent sub d.1) | none => peak
    .next (((if i.1.isSome then d.2 else i.2).sampleCurrent p).injEnd 0x0E 0xFF)

/-- A reading replaces the sensor's last one; one of 0 °C is kept as any other. -/
def putReading (l : Sparse Int) (k : Nat) (t : Int) : Sparse Int := Sparse.ins k t (Sparse.del k l)

/-- The injected handling of a tile's reading has ended. -/
def State.readingsEnd (s : State) (rd : List (Sensor × Int)) : State :=
  rd.foldl (fun s r => match r.1 with | .tile p => s.injEnd 2 p.val | _ => s) s

/-- Stores the readings of a step; detector 0x0C03 adds its offset to a tile's reading (Table 14-8). -/
def State.storeReadings (s : State) : List (Sensor × Int) → State
  | [] => s
  | (.tile p, t) :: r =>
    let i := s.opportunity 0x0C03 2 p.val 0 fun _ => true
    let t := match i.1 with | some k => t + 16 * (k : Int) | none => t
    (i.2.onPwrDyn fun d => { d with readings := putReading d.readings p.val t }).storeReadings r
  | (.edge e, t) :: r => (s.onPwrDyn fun d => { d with edgeReadings := putReading d.edgeReadings e t }).storeReadings r
  | (.companion c, t) :: r => (s.onPwrDyn fun d => { d with compReadings := putReading d.compReadings c.val t }).storeReadings r

/-- A reading at or above 110 °C: its sensor kind, index and value. -/
def State.overtemp (s : State) : Option (Nat × Nat × Int) :=
  let d := s.pwrDyn
  let hot (k : Nat) (l : Sparse Int) : Option (Nat × Nat × Int) :=
    (l.find? fun r => decide (1760 ≤ r.2)).map fun r => (k, r.1, r.2)
  (hot 0 d.readings).or ((hot 1 d.edgeReadings).or (hot 2 d.compReadings))

/-- The step of a thermal ceiling (Table 12-3): lowered 5 mV per 100,000 ticks at 95 °C and above, raised 5 mV per 1,000,000
ticks below 93 °C up to TARGET. Answers the ceiling and the ticks of its last changes. -/
def ceilStep (now target c : Nat) (hot cool : Bool) (lower raise : Option Nat) : Nat × Option Nat × Option Nat :=
  let due (t : Option Nat) (n : Nat) : Bool := match t with | some t => decide (t + n ≤ now) | none => true
  if hot ∧ due lower 100000 then (max 450 (min c target - 5), some now, raise)
  else if cool ∧ c < target ∧ due raise 1000000 then (min target (c + 5), lower, some now)
  else (c, lower, raise)

/-- DIE_TEMP_STEP (R348, R349, Table 12-3). -/
def execDieTempStep (readings : List (Sensor × Int)) (s : State) : Host.Outcome State Fault Refusal :=
  let s := s.storeReadings readings
  if !s.boot.mainOn then .next (s.readingsEnd readings)
  else
    match s.overtemp with
    | some (k, i, t) =>
      if s.boot.shutdown.isSome then .next (s.readingsEnd readings)
      else
        -- a record of the readings is injected where the reading was
        let inj := k = 0 ∧ srcKey 2 i ∈ s.alm.injKeys
        let s := if inj then s.injBegin 0x0E 0xFF else s
        let s := s.report 0x0C0A .fault 0x0E 0xFF (leBytes 1 k ++ leBytes 1 i ++ leBytes 2 (twos 16 t))
        .next (((if inj then s.injEnd 0x0E 0xFF else s).beginShutdown .thermal).readingsEnd readings)
    | none =>
      let d := s.pwrDyn
      let die := d.readings.map (·.2) ++ d.edgeReadings.map (·.2)
      let comp := d.compReadings.map (·.2)
      let cool := die.all fun t => decide (t < 93 * 16)
      let a := ceilStep s.now s.pwr.target d.coreCeil (die.any fun t => decide (95 * 16 ≤ t)) cool d.lastLower d.lastRaise
      let b := ceilStep s.now s.pwr.target d.compCeil (comp.any fun t => decide (95 * 16 ≤ t))
        (comp.all fun t => decide (t < 93 * 16)) d.compLower d.compRaise
      let coolTick := if cool then (if d.coolTick.isSome then d.coolTick else some s.now) else none
      let s := s.onPwrDyn fun d => { d with
        coreCeil := a.1, lastLower := a.2.1, lastRaise := a.2.2, compCeil := b.1, compLower := b.2.1, compRaise := b.2.2
        coolTick := coolTick }
      let old := s.parked
      let mayPark := match d.lastTempPark with | some t => decide (t + 1000000 ≤ s.now) | none => true
      let s :=
        match hottest d.readings with
        | some (p, _) =>
          if (die.any fun t => decide (1600 ≤ t)) ∧ s.setpointNow = 450 ∧ mayPark ∧ !s.pwr.parkedTemp.getLsbD (p / 17) then
            ((s.onPwr fun w => { w with parkedTemp := setQ w.parkedTemp (p / 17) true }).onPwrDyn fun d => { d with
              lastTempPark := some s.now }).followParked old
          else s
        | none => s
      let s := match coolTick with
        | some t => if t + 100000000 ≤ s.now ∧ s.pwr.parkedTemp ≠ 0 then
            (s.onPwr fun w => { w with parkedTemp := 0 }).followParked old else s
        | none => s
      .next (s.readingsEnd readings).powerSettle

/-! ### Quarters (R341) -/

/-- No item of a quarter's engines runs. -/
def State.quarterQuiet (s : State) (q : Nat) : Bool :=
  (List.range 16).all fun i => (s.queue (16 * q + i)).window.all fun x => !x.running

/-- QUARTER_PARK_DONE. -/
def execQuarterParkDone (q : Fin 4) (s : State) : Host.Outcome State Fault Refusal :=
  if s.pwr.parking.getLsbD q.val ∧ s.quarterQuiet q.val then
    .next (s.onPwr fun p => { p with parking := setQ p.parking q.val false }).powerSettle
  else .next s

/-! ### SOLSTICE phases (R353, R354) -/

/-- Waves completed by engine q. -/
def State.wavesOf (s : State) (q : Nat) : Nat :=
  match s.ptile q with
  | some p => (s.tile p).regs.waves.toNat
  | none => 0

/-- SOLSTICE_PHASE_START: LEAD ticks after its hint the open phase due first starts; at the start of a granted one the
setpoint stands at its ceiling, or slews on to it at 10 mV/µs where LEAD was too short (R333). -/
def execSolsticePhaseStart (s : State) : Host.Outcome State Fault Refusal :=
  match s.pwrRegs.phases.foldl (fun a x => if x.begun then a else match a with
      | some y => if x.start < y.start then some x else a
      | none => some x) (none : Option Solstice) with
  | none => .next s
  | some x =>
    let s := s.passTo x.start
    let s := if !x.granted ∨ s.pwr.regime = .spring ∨ s.pwr.parkedLimit ≠ 0 ∨ s.pwr.parkedTemp ≠ 0 then s else s.setGoal s.ceilMv
    let waves := s.wavesOf x.queue
    .next (s.onPwrRegs fun r => { r with
      phases := r.phases.map fun y => if y.phase = x.phase then { y with begun := true, waves0 := waves, before := 0 } else y }).powerSettle

/-- SOLSTICE_PHASE_END: a begun phase whose queue's engine has completed DURATION × 2^20 waves since its start ends, and with
it the reservation or SOLSTICE_DENIED. -/
def execSolsticePhaseEnd (s : State) : Host.Outcome State Fault Refusal :=
  let done_ (x : Solstice) : Bool := x.begun && decide (x.waves0 + x.duration * 2 ^ 20 ≤ x.before + s.wavesOf x.queue)
  if s.pwrRegs.phases.any done_ then .next (s.endPhases done_).powerSettle else .next s

end Sys2Proof.Machine
end

