-- ==== Sys2Proof/Machine/Startup.lean ====
section
/-! DEFINITION. Supplies, start-up and its phases, the firmware images, identity and attestation, the MCB, power-on and reset,
the CP's warm restarts, and the MOD, CFG_MCB and SEC commands (chapters 13 and 15). -/

namespace Sys2Proof.Machine

/-! ### Status registers (Table 13-6) -/

def State.modStatusReg (s : State) : Word64 :=
  let b := s.boot
  BitVec.ofNat 64 (b.holdCause * 2 ^ 32 + b.phase * 2 ^ 20 + bit b.main * 2 ^ 15 + bit b.mainOn * 2 ^ 14 + bit b.lmsLow * 2 ^ 11 +
    bit b.identityOk * 2 ^ 10 + bit b.imageFallback * 2 ^ 9 + b.image * 2 ^ 8 + bit b.cfgDefaulted * 4 + bit b.springHeld * 2 +
    bit b.ready)

def State.modId (s : State) : Word64 :=
  BitVec.ofNat 64 (0x6804 * 2 ^ 48 + 0xB0 * 2 ^ 40 + 0xA1 * 2 ^ 32 + le s.flash.mcb 4 2 % 256 * 256 + le s.flash.header 4 2 % 256)

def State.modFw (s : State) : Word64 := BitVec.ofNat 64 (s.flash.running.toNat * 2 ^ 32 + s.flash.other.toNat)

/-! ### Flash (Tables 01-7, 13-2, 13-11) -/

def imageBase (i : Nat) : Nat := if i = 0 then 0x00010000 else 0x08010000
def mcbBase : Nat := 0x10010000
def identityBase : Nat := 0x10110000

def State.flashBytes (s : State) (off n : Nat) : List Byte := Memory.bytes s.flash.bytes off n
def State.writeFlash (s : State) (off : Nat) (d : List Byte) : State :=
  s.onFlash fun f => { f with bytes := Memory.write f.bytes off d }

/-- A flash header copy is valid (R365). -/
def headerValid (h : List Byte) : Bool :=
  le h 0 4 == 0x4A4B4648 && le h 4 2 == 1 && crc32c (patch h 36 [0, 0, 0, 0]) == le h 36 4

/-- The offset of the header copy in use and the copy: the valid one with the higher SEQ (R365). -/
def State.headerCopy (s : State) : Option (Nat × List Byte) :=
  let a := s.flashBytes 0 64
  let b := s.flashBytes 0x8000 64
  match headerValid a, headerValid b with
  | true, true => if le a 32 4 < le b 32 4 then some (0x8000, b) else some (0, a)
  | true, false => some (0, a)
  | false, true => some (0x8000, b)
  | false, false => none

/-- Checks of R362 on an image: the cause of R363 that fails first, or none. -/
def State.imageFails (s : State) (i : Nat) : Option Nat :=
  let h := s.flashBytes (imageBase i) 4096
  let body := le h 8 8
  if le h 0 4 ≠ 0x00010000 ∨ le h 16 8 > 8 * 2 ^ 20 ∨ le h 16 8 > body ∨ !allZero (slice h 3000 1096) then some 0
  else if body > 134201344 then some 1
  else
    let digest := slice h 24 48
    if Config.sha384 (slice h 0 24 ++ slice h 72 4024 ++ s.flashBytes (imageBase i + 4096) body) ≠ digest then some 2
    else if Config.sha384 (slice h 72 96) ≠ Config.romKeyDigestEcdsa ∨ Config.sha384 (slice h 168 56) ≠ Config.romKeyDigestLms then some 3
    else if !Config.ecdsaVerify (slice h 72 96) digest (slice h 224 96) then some 4
    else if !Config.lmsVerify (slice h 168 56) digest (slice h 320 2680) then some 5
    else none

def State.imageVersion (s : State) (i : Nat) : Nat := leNat (s.flashBytes (imageBase i + 4) 4)

/-! ### Supplies -/

/-- The always-on domain falls (R417): everything volatile is lost, and MOD_COUNT restarts at the next application of standby; what
is left of the time off (R419) then counts on.
Flash, the LMS records, the contents of the memories and of the host stay (notes/assumptions/14.md). -/
def State.fall (s : State) : State :=
  let r := State.reset
  { r with
    boot := { r.boot with
      main := s.boot.main
      offUntil := if s.boot.mainOn then some 10000000 else s.boot.offUntil.map (· - s.now) }
    flash := { r.flash with bytes := s.flash.bytes, lmsClaimed := s.flash.lmsClaimed, lmsNext := s.flash.lmsClaimed }
    alm := { r.alm with
      bySeverity := s.alm.bySeverity, keepUnits := s.alm.keepUnits, flash := s.alm.flash, head := s.alm.head, erased := s.alm.erased
      flushedSeq := s.alm.flushedSeq, nextSeq := match s.alm.flushedSeq with | some q => q + 1 | none => 0 }
    mem := { r.mem with g7 := s.mem.g7, slow := s.mem.slow, badG7 := s.mem.badG7, badSlow := s.mem.badSlow, gradFmt := s.mem.gradFmt, crecSeq := s.mem.crecSeq, crecFwd := s.mem.crecFwd }
    hst := { r.hst with mem := s.hst.mem }
    out := s.out, free := s.free, pending := s.pending }

/-- What the main domain loses when its rails fall, at the reset columns: engines, queues, counters, records, chords, memory
controllers, companion, host and Ethernet registers; the memories' contents stay (notes/assumptions/14.md). -/
def State.mainLost (s : State) : State :=
  let r := State.reset
  { s with
    tileMap := r.tileMap, tiles := r.tiles, streams := r.streams, sync := r.sync, scales := r.scales, comp := r.comp
    mem := { r.mem with g7 := s.mem.g7, slow := s.mem.slow, badG7 := s.mem.badG7, badSlow := s.mem.badSlow, gradFmt := s.mem.gradFmt, crecSeq := s.mem.crecSeq, crecFwd := s.mem.crecFwd }
    d2d := r.d2d, chd := r.chd, hst := { r.hst with mem := s.hst.mem, ranges := s.hst.ranges }, eth := { r.eth with ids := s.eth.ids }
    alm := { s.alm with slots := s.alm.slots.filter fun k => k.2.detector == 0x0D02, injKeys := [] }
    pwrDyn := { r.pwrDyn with
      coreCeil := s.pwr.target, compCeil := s.pwr.target, currCeil := s.pwr.target, readings := s.pwrDyn.readings
      compReadings := s.pwrDyn.compReadings, edgeReadings := s.pwrDyn.edgeReadings }
    pwrRegs := { r.pwrRegs with shares := s.pwrRegs.shares, thrTime := s.pwrRegs.thrTime, thrEvents := s.pwrRegs.thrEvents }
    pwr := { s.pwr with parkedLimit := 0, parkedTemp := 0, parking := 0, unparking := 0 }
    boot := { s.boot with mainOn := false, ready := false, springHeld := false, holdCause := 0, rails := r.boot.rails } }

/-- Phase 3 ends when main input is present and power-on is given, once the off interval is over (R372, R419). -/
def State.tryPhase4 (s : State) : State :=
  let auto := bitOf (le s.flash.mcb 19 1) 0 && !s.boot.autoInhibit
  if s.boot.phase = 3 ∧ s.boot.main ∧ (auto ∨ s.boot.powerOn) ∧ s.boot.offUntil.isNone ∧ s.boot.shutdown.isNone ∧ !s.boot.mainOn then
    s.onBoot fun b => { b with phase := 4 }
  else s

/-- A cold load of the CP begins: the code memory is no longer locked (R357, R373). -/
def State.coldLoad (s : State) : State :=
  (s.onCp fun c => { c with up := false }).onFlash fun f => { f with codeMem := [], codeLocked := false }

/-- The MOD_POWER_ON, MOD_POWER_OFF or MOD_RESET that runs ends. -/
def State.endWaiter (s : State) (status : Word16) : State :=
  (s.endCommand s.boot.waiter status []).onBoot fun b => { b with waiter := none }

/-- STANDBY_APPLY (R51, R361, Table 15-3). -/
def execStandbyApply (mv : Nat) (s : State) : Host.Outcome State Fault Refusal :=
  if mv > 13800 then .fault .supplyBeyondAbsolute
  else if mv < 11400 ∨ 12600 < mv ∨ s.boot.standby ∨ s.boot.fallback then .next s
  else .next (s.fall.onBoot fun b => { b with standby := true })

/-- MAIN_INPUT_APPLY (R372, Table 15-3). Above 58 V the input protection disconnects MAIN. -/
def execMainInputApply (mv : Nat) (s : State) : Host.Outcome State Fault Refusal :=
  if mv > 60000 then .fault .supplyBeyondAbsolute
  else if mv < 40000 ∨ 58000 < mv ∨ s.boot.main then .next s
  else .next (s.onBoot fun b => { b with main := true }).tryPhase4

/-- MAIN_OFF_INTERVAL_EXPIRY (R419). -/
def execMainOffIntervalExpiry (s : State) : Host.Outcome State Fault Refusal :=
  match s.boot.offUntil with
  | some t => .next ((s.passTo t).onBoot fun b => { b with offUntil := none }).tryPhase4
  | none => .next s

/-- Both inputs are lost within 1 ms: the always-on domain falls with no ordered shutdown (R417). Of a flush that runs, the records
programmed so far stay, and the one being programmed is torn: its position holds no record (R397). -/
def State.dualLoss (s : State) : State :=
  let s := ({ s with boot := { s.boot with main := false } } : State)
  if s.alm.flushing ∧ s.flash.mcbWrite.isNone then
    let d := s.draw
    let todo := d.2.alm.ring.filter fun r => !r.flushed
    let k := d.1.toNat % (todo.length + 1)
    let t := d.2.flushRecs (todo.take k)
    let a := if k < todo.length then { t.alm with flash := Sparse.del t.alm.head t.alm.flash, head := t.alm.head + 1 } else t.alm
    ({ t with alm := a } : State).fall
  else s.fall

/-- Main input is lost (R415), which starts a flush (R395); within 1 ms of standby, the domain falls (R417). -/
def State.loseMain (s : State) : State :=
  if !s.boot.main then s
  else if (match s.boot.standbyLost with | some t => s.boot.fallback && decide (s.now ≤ t + 100000) | none => false) then s.dualLoss
  else
    let s := s.onBoot fun b => { b with main := false }
    if s.boot.mainOn then s.beginShutdown .mainLoss
    else (s.onBoot fun b => { b with phase := if b.phase = 4 then 3 else b.phase }).startFlush

/-- MAIN_INPUT_LOSS (R415). -/
def execMainInputLoss (s : State) : Host.Outcome State Fault Refusal := .next s.loseMain

/-- EMERG_OFF (R415): acts as a loss of main input. -/
def execEmergOff (s : State) : Host.Outcome State Fault Refusal := .next s.loseMain

/-- MAIN_RAILS_OFF (R416): once any MCB write and the flush have ended, the rails fall, and the regime becomes NONE. What
follows depends on what the shutdown was for (R349, R372, R373, R417). -/
def execMainRailsOff (s : State) : Host.Outcome State Fault Refusal :=
  match s.boot.shutdown with
  | none => .next s
  | some c =>
    if s.flash.mcbWrite.isSome ∨ s.flash.mcbNext.isSome ∨ s.alm.flushing ∨ s.alm.flushDue then .next s
    else
      let wasOn := s.boot.mainOn
      let s := (s.mainLost.endMainCommands.setRegime .none_).onPwr fun p => { p with gate := false, closed := false, setpoint := 550, compSp := 550 }
      -- a cold load of the CP that runs goes through its phases first (R373)
      let s := s.onBoot fun b => { b with
        shutdown := none, offUntil := if wasOn then some (s.now + 10000000) else b.offUntil
        phase := if b.phase < 3 then b.phase else 3, resume := none }
      let s := s.throttle
      match c with
      | .standbyLoss => .next s.fall
      | .mainLoss => .next (if s.boot.phase < 3 then s else s.endWaiter stFaulted)
      | .thermal => .next ((s.onBoot fun b => { b with autoInhibit := true, powerOn := false }).endWaiter stFaulted)
      | .overcurrent => .next ((s.onBoot fun b => { b with autoInhibit := true, powerOn := false }).endWaiter stFaulted)
      | .powerOff => .next ((s.onBoot fun b => { b with autoInhibit := true, powerOn := false }).endWaiter stOk)
      | .reset kind =>
        let s := s.onBoot fun b => { b with powerOn := true, phase := if kind = 1 then 2 else 0, resume := none }
        .next (if kind = 1 then s else s.coldLoad)

/-- STANDBY_LOSS (R417): with main input present, the ordered shutdown on the fallback converter; else the domain falls. -/
def execStandbyLoss (s : State) : Host.Outcome State Fault Refusal :=
  if !s.boot.standby then .next s
  else if s.boot.main then
    let s := s.onBoot fun b => { b with standby := false, fallback := true, standbyLost := some s.now }
    .next (match s.boot.shutdown with
      | some _ => s.onBoot fun b => { b with shutdown := some .standbyLoss }
      | none => s.beginShutdown .standbyLoss)
  else .next s.fall

/-- DUAL_INPUT_LOSS (R417): no ordered shutdown; unflushed records are lost. -/
def execDualInputLoss (s : State) : Host.Outcome State Fault Refusal :=
  .next s.dualLoss

/-! ### Phases 0 to 5 (Table 13-1) -/

/-- The image i boots: its code is loaded and locked (R357, R362); the CP takes what was posted meanwhile (R377). -/
def State.bootImage (s : State) (i : Nat) (fallback : Bool) : State :=
  let h := s.flashBytes (imageBase i) 4096
  let other := if s.imageFails (1 - i) = none then BitVec.ofNat 32 (s.imageVersion (1 - i)) else 0
  let s := s.onFlash fun f => { f with
    running := BitVec.ofNat 32 (le h 4 4), other := other, digest := slice h 24 48, codeMem := s.flashBytes (imageBase i + 4096) (le h 16 8), codeLocked := true }
  let s := s.onCp fun c => { c with up := true, restarting := false, watchdog := s.now }
  (s.onBoot fun b => { b with image := i, imageFallback := fallback, romOnly := false, phase := 1 }).checkAllPosted

/-- STARTUP_ROM (R362, R363, R365). -/
def execStartupRom (s : State) : Host.Outcome State Fault Refusal :=
  if !s.boot.standby ∨ s.boot.phase ≠ 0 ∨ s.cp.up ∨ s.boot.romOnly then .next s
  else
    let hc := s.headerCopy
    let s := s.onFlash fun f => { f with header := match hc with | some h => h.2 | none => [] }
    let first := match hc with | some h => if le h.2 6 1 = 1 then 1 else 0 | none => 0
    match s.imageFails first with
    | none => .next (s.bootImage first false)
    | some c1 =>
      match s.imageFails (1 - first) with
      | none => .next (((s.bootImage (1 - first) true).report 0x0D04 .warn 0x0F 0 (leBytes 1 first ++ leBytes 1 c1)))
      | some c2 =>
        let a := if first = 0 then c1 else c2
        let b := if first = 0 then c2 else c1
        .next ((s.onBoot fun x => { x with romOnly := true }).report 0x0D05 .fault 0x0F 0 (leBytes 1 a ++ leBytes 1 b)).checkAllPosted

/-- The provisioning certificate: DER whose length stands in its first four bytes (notes/assumptions/15.md). -/
def State.certificate (s : State) : List Byte :=
  let h := s.flashBytes identityBase 4
  s.flashBytes identityBase (4 + be h 2 2)
/-- The factory MAC addresses of E0 and E1 (R366; notes/assumptions/15.md). -/
def State.factoryMacs (s : State) : List Byte := s.flashBytes (identityBase + 0x7FF00) 12

/-- LMS signatures left (R368). -/
def State.lmsLeft (s : State) : Nat := 2 ^ 25 - s.flash.lmsNext

/-- STARTUP_IDENTITY (R367, R368). -/
def execStartupIdentity (pattern : List Byte) (s : State) : Host.Outcome State Fault Refusal :=
  if !s.cp.up ∨ s.boot.phase ≠ 1 then .next s
  else
    let rec_ := Config.reconstructSeed pattern (s.flashBytes (identityBase + 0x80030) 0x10000)
    let check := s.flashBytes (identityBase + 0x80000) 48
    let s := s.onFlash fun f => { f with serial := Config.certSerial s.certificate, lmsNext := f.lmsClaimed }
    let s := s.onBoot fun b => { b with phase := 2, lmsLow := decide (2 ^ 25 - s.flash.lmsNext < 2 ^ 20) }
    match rec_ with
    | some (seed, n) =>
      if Config.sha384 seed = check then
        .next ((s.onFlash fun f => { f with seed := some seed }).onBoot fun b => { b with identityOk := true })
      else .next (((s.onFlash fun f => { f with seed := none }).onBoot fun b => { b with identityOk := false }).report 0x0D06 .warn 0x0F 0 (leBytes 4 n))
    | none =>
      let d := s.draw
      .next (((d.2.onFlash fun f => { f with seed := none }).onBoot fun b => { b with identityOk := false }).report 0x0D06 .warn 0x0F 0
        (leBytes 4 d.1.toNat))

/-- CRC-32C of an MCB with its CHECK taken as zero (R370). -/
def mcbCrc (m : List Byte) : Nat := crc32c (patch m 8 [0, 0, 0, 0])

/-- An MCB with its CHECK formed. -/
def mcbSeal (m : List Byte) : List Byte := patch m 8 (leBytes 4 (mcbCrc m))

/-- The factory defaults of Table 13-4. -/
def mcbDefault : List Byte :=
  mcbSeal (padTo 2048 (leBytes 4 0x4A4B4D43 ++ leBytes 2 1 ++ leBytes 2 2048 ++ leBytes 4 0 ++ leBytes 4 0 ++
    [0x0F, 0, 0, 1] ++ leBytes 2 1200 ++ leBytes 2 620 ++ [0x5A, 0] ++ leBytes 2 64))

/-- ALM_KEEP as it is taken (R398): even, from 2 to 126. -/
def keepTaken (n : Nat) : Nat := if n > 126 then 126 else if n < 2 then 2 else n - n % 2

/-- A MOD_RESET whose start-up comes to wait in phase 3 has run its phases (R373). -/
def State.endReset (s : State) : State := if s.boot.phase = 3 then s.endWaiter stOk else s

/-- STARTUP_CONFIG (R370, R400): detector 0x0D02 makes the check fail. -/
def execStartupConfig (s : State) : Host.Outcome State Fault Refusal :=
  if !s.cp.up ∨ s.boot.phase ≠ 2 then .next s
  else
    let m := s.flashBytes mcbBase 2048
    let i := s.fires 0x0D02 0x0F 0
    let s := i.2
    let bad := i.1 || le m 0 4 != 0x4A4B4D43 || le m 4 2 != 1 || le m 6 2 != 2048 || mcbCrc m != le m 8 4
    let s := s.onFlash fun f => { f with mcb := if bad then mcbDefault else m, mcbRead := if bad then [] else m }
    let s := s.onBoot fun b => { b with cfgDefaulted := bad }
    let s := if bad then s.report 0x0D07 .warn 0x0F 0 (slice m 8 4 ++ leBytes 4 (mcbCrc m) ++ slice m 4 2) else s
    let pol := le s.flash.mcb 25 1 == 1
    let keep := keepTaken (le s.flash.mcb 26 2)
    let s := s.onAlm fun a =>
      if a.flash.isEmpty then { a with bySeverity := pol, keepUnits := keep, cfgMismatch := false }
      else { a with cfgMismatch := a.bySeverity != pol || (!pol && a.keepUnits != keep) }
    let s := s.injEnd 0x0F 0
    match s.boot.resume with
    | some 15 =>
      let s := s.onBoot fun b => { b with phase := 15, ready := true, resume := none, startupTick := b.modCount }
      .next ((s.report 0x0D09 .info 0x0F 0 (leBytes 1 (regimeNum s.pwr.regime) ++ leBytes 1 s.boot.image ++ [0, 0] ++ leBytes 4 s.now)).endWaiter stOk)
    | some k => .next ((s.onBoot fun b => { b with phase := k, resume := none }).tryPhase4.endReset)
    | none => .next (s.onBoot fun b => { b with phase := 3 }).tryPhase4.endReset

/-- A phase fails: start-up holds, and WARN STARTUP_HELD is written (R361, Table 13-10). -/
def State.hold (s : State) (cause : Nat) : State :=
  ((s.onBoot fun b => { b with springHeld := true, holdCause := cause }).report 0x0D08 .warn 0x0F 0
    (leBytes 1 cause ++ leBytes 1 s.boot.phase)).endWaiter stFaulted

/-- The MCB's limits come into force at phase 4, unless a command on standby alone has set others (R373, Table 12-6). -/
def State.applyLimits (s : State) : State :=
  s.onPwr fun p =>
    let cap := p.heldCap.getD (min 1200 (le s.flash.mcb 20 2))
    let t := p.heldTarget.getD (min 680 (max 450 (le s.flash.mcb 22 2)))
    { p with
      cap := cap, target := t, parkedCmd := p.heldPark.getD p.parkedCmd, heldCap := none, heldTarget := none, heldPark := none }

/-- STARTUP_RAILS (R418, R332): `bad` names the step whose rail is not good. -/
def execStartupRails (bad : Option (Fin 6)) (gen width : Nat) (s : State) : Host.Outcome State Fault Refusal :=
  if s.boot.phase ≠ 4 ∨ s.boot.springHeld ∨ s.boot.offUntil.isSome then .next s
  else
    match bad with
    | some _ =>
      -- the power manager writes a FAULT whose event the spec does not name: which of its two of Table 14-4, and the payload, are free
      let a := s.draw
      let b := a.2.draw
      let s := b.2.onBoot fun x => { x with springHeld := true, offUntil := some (b.2.now + 10000000) }
      .next ((s.report (if a.1.toNat % 2 = 0 then 0x0C09 else 0x0C0A) .fault 0x0E 0xFF (leBytes 8 b.1.toNat)).endWaiter stFaulted)
    | none =>
      let s := s.applyLimits
      let s := s.onPwr fun p => { p with setpoint := 550, compSp := 550, gate := false, closed := false, parking := 0, unparking := 0 }
      let s := s.onPwrDyn fun d => { d with coreCeil := s.pwr.target, compCeil := s.pwr.target, currCeil := s.pwr.target }
      let s := s.onPwrRegs fun r => { r with thrTime := [], thrEvents := [], energy := 0 }
      -- the counters are zero when the main domain comes up (R180)
      let s := s.onSync fun _ => Reset.sync
      let s := s.onBoot fun b => { b with mainOn := true, rails := [true, true, true, true, true, true], phase := 5 }
      let s := s.onHst fun h => { h with gen := gen, width := width, link := .l0 }
      .next ((s.setRegime .spring).powerSettle.endWaiter stOk)

/-- A tile of quadrant q and of rank i among its passing tiles. -/
def passTiles (fail : List Nat) (q : Nat) : List Nat := ((List.range 17).map (17 * q + ·)).filter fun p => !fail.contains p

/-- The map of R20 for one quadrant, the health of its tiles, and scratchpad accumulation until phase 8 (R80, Table 13-1). -/
def State.mapQuadrant (s : State) (fail : List Nat) (q : Nat) : State :=
  let ok := passTiles fail q
  let s := (List.range 16).foldl (fun s i =>
    match ok[i]? with
    | some p => s.setTmap (16 * q + i) ⟨true, p, 0⟩
    | none => s.setTmap (16 * q + i) ⟨false, 0, 0⟩) s
  let s := ok.zipIdx.foldl (fun s k => s.onTile k.1 fun t => { t with
    health := if k.2 < 16 then .active else .spareReady, regs := { t.regs with cpScratch := true } }) s
  (fail.filter fun p => p / 17 = q).foldl State.selftestFailed s

/-- STARTUP_TILES (R20, R93). `failing` are the tiles that fail with their stage; detector 0x0305 adds its own. -/
def execStartupTiles (failing : List (Fin 68 × Nat)) (s : State) : Host.Outcome State Fault Refusal :=
  if s.boot.phase ≠ 5 ∨ s.boot.springHeld then .next s
  else
    let a := (List.range 68).foldl (fun (a : List Nat × State) p =>
      let i := a.2.fires 0x0305 2 p
      (if i.1 ∨ failing.any (fun f => f.1.val == p) then a.1 ++ [p] else a.1, i.2.injEnd 2 p)) ([], s)
    let s := [0, 1, 2, 3].foldl (fun s q => s.mapQuadrant a.1 q) a.2
    let used := (List.range 68).filter fun p => (s.tile p).health == .active
    let spares (q : Nat) : Nat := (passTiles a.1 q).length - 16
    let byte0 := spares 0 + 4 * spares 1 + 16 * spares 2 + 64 * spares 3
    let mask := (used.map fun p => 2 ^ p).sum
    let s := s.report 0x0104 .info 0 0 (leBytes 1 byte0 ++ leBytes 1 (mask / 2 ^ 64) ++ [0, 0] ++ leBytes 8 (mask % 2 ^ 64))
    let s := s.followParked 0
    if [0, 1, 2, 3].any fun q => (passTiles a.1 q).length < 16 then .next (s.hold 1)
    else .next (s.onBoot fun b => { b with phase := 6 })

/-! ### The MOD commands -/

/-- MOD_INFO. -/
def modInfoCmd (_ : List Byte) (s : State) : CmdResult :=
  .done stOk (leBytes 8 s.modId.toNat ++ leBytes 8 s.flash.serial.toNat ++ leBytes 8 s.modFw.toNat ++ padTo 64 s.flash.header) s

/-- MOD_STATUS. -/
def modStatusCmd (_ : List Byte) (s : State) : CmdResult :=
  let st := match s.cp.smb.state with | .idle => 0 | .posted => 1 | .running => 2 | .done => 3
  .done stOk (leBytes 8 s.modStatusReg.toNat ++ leBytes 8 s.now ++ leBytes 4 s.cp.smb.lastSeq.toNat ++ leBytes 1 st) s

/-- A reading is at or above 85 °C (R372, R349). -/
def State.hot85 (s : State) : Bool :=
  let d := s.pwrDyn
  (d.readings ++ d.edgeReadings ++ d.compReadings).any fun r => decide (85 * 16 ≤ r.2)

/-- MOD_POWER_ON (R372). -/
def modPowerOnCmd (r : Route) (_ : List Byte) (s : State) : CmdResult :=
  if !s.boot.main then refuse s stDeniedRegime
  else if s.boot.mainOn then refuse s stAlreadyDone
  else if s.hot85 ∨ s.boot.waiter.isSome then refuse s stBusy
  else .running (s.onBoot fun b => { b with powerOn := true, autoInhibit := false, waiter := some r }).tryPhase4

/-- MOD_POWER_OFF (Table 13-9). -/
def modPowerOffCmd (r : Route) (_ : List Byte) (s : State) : CmdResult :=
  if !s.boot.mainOn then refuse s stAlreadyDone
  else if s.jobRuns ∨ s.boot.waiter.isSome ∨ s.boot.shutdown.isSome then refuse s stBusy
  else .running ((s.onBoot fun b => { b with waiter := some r }).beginShutdown .powerOff)

/-- MOD_RESET (R373). -/
def modResetCmd (r : Route) (b : List Byte) (s : State) : CmdResult :=
  let kind := le b 0 1
  if 2 < kind then refuse s stBadOpcode
  else if s.jobRuns ∨ s.boot.waiter.isSome ∨ s.boot.shutdown.isSome then refuse s stBusy
  else
    let phase := s.boot.phase
    let s := s.onBoot fun x => { x with springHeld := false, holdCause := 0, waiter := some r }
    if kind = 0 then
      .running ((s.coldLoad.onCp fun c => { c with halted := false }).onBoot fun x => { x with
        phase := 0, ready := false, resume := if phase < 4 then none else some phase })
    else if s.boot.mainOn then .running (s.beginShutdown (.reset kind))
    else
      let s := s.onBoot fun x => { x with phase := if kind = 1 then 2 else 0, resume := none }
      .running (if kind = 1 then s else s.coldLoad)

def execModInfo (r : Route) (s : State) : Host.Outcome State Fault Refusal := .next (s.command r 0x0101 modInfoCmd)
def execModPowerOn (r : Route) (s : State) : Host.Outcome State Fault Refusal := .next (s.command r 0x0102 (modPowerOnCmd r))
def execModPowerOff (r : Route) (s : State) : Host.Outcome State Fault Refusal := .next (s.command r 0x0103 (modPowerOffCmd r))
def execModReset (r : Route) (s : State) : Host.Outcome State Fault Refusal := .next (s.command r 0x0104 (modResetCmd r))
def execModStatus (r : Route) (s : State) : Host.Outcome State Fault Refusal := .next (s.command r 0x0105 modStatusCmd)

/-! ### The MCB commands (R370, R371) -/

/-- CFG_MCB_READ: the block as flash holds it. -/
def cfgMcbReadCmd (_ : List Byte) (s : State) : CmdResult := .done stOk (s.flashBytes mcbBase 2048) s

/-- CFG_MCB_WRITE (R371): its commit point is the record that its end finds written (R381). The flash carries out one operation at a time: during a flush the write waits for its end (R35). -/
def cfgMcbWriteCmd (r : Route) (b : List Byte) (s : State) : CmdResult :=
  if b.length ≠ 2048 ∨ mcbCrc b ≠ le b 8 4 then refuse s stBadCheck
  else if s.flash.mcbWrite.isSome ∨ s.flash.mcbNext.isSome then refuse s stBusy
  else if s.alm.flushing then .pending (s.onFlash fun f => { f with mcbNext := some ⟨b, some r, s.now⟩ })
  else .pending (s.onFlash fun f => { f with mcbWrite := some ⟨b, some r, s.now⟩ })

def execCfgMcbRead (r : Route) (s : State) : Host.Outcome State Fault Refusal := .next (s.command r 0x0201 cfgMcbReadCmd)
def execCfgMcbWrite (r : Route) (s : State) : Host.Outcome State Fault Refusal := .next (s.command r 0x0202 (cfgMcbWriteCmd r))

/-- MCB_WRITE_DONE (R371): the read-back decides the status; a flush that fell due begins (R395). What a failed write leaves
in CHECK is a free value. -/
def execMcbWriteDone (ok : Bool) (s : State) : Host.Outcome State Fault Refusal :=
  match s.flash.mcbWrite with
  | none => .next s
  | some w =>
    let d := s.draw
    let s := if ok then s.writeFlash mcbBase w.image else d.2.writeFlash mcbBase (patch w.image 8 (leBytes 4 d.1.toNat))
    let s := s.onFlash fun f => { f with mcbWrite := none }
    let s := s.endCommand w.route (if ok then stOk else stFaulted) []
    .next (if s.alm.flushDue then s.startFlush else s)

/-! ### The SEC commands (R364 to R369) -/

/-- SEC_IDENTITY. -/
def secIdentityCmd (b : List Byte) (s : State) : CmdResult :=
  if !s.boot.identityOk then refuse s stFaulted
  else .done stOk (((s.certificate.drop (le b 0 4)).take 4000) ++ s.factoryMacs) s

/-- The signed part of the attestation report (Table 13-3). -/
def State.attestHead (s : State) (nonce : List Byte) : List Byte :=
  leBytes 8 s.flash.serial.toNat ++ padTo 48 s.flash.digest ++
    (if s.flash.mcbRead.isEmpty then List.replicate 48 0 else padTo 48 (Config.sha384 s.flash.mcbRead)) ++
    padTo 32 nonce ++ leBytes 8 s.now ++ leBytes 4 s.flash.lmsNext ++ leBytes 4 (s.modStatusReg.toNat % 2 ^ 32)

/-- Before the first index of a lower tree is used, its 1,024 indices are claimed (R368). -/
def State.reserveLms (s : State) : State :=
  if s.flash.lmsNext < s.flash.lmsClaimed then s
  else
    let first := s.flash.lmsNext
    (s.onFlash fun f => { f with lmsClaimed := first + 1024 }).report 0x0D0A .info 0x0F 0
      (leBytes 4 first ++ leBytes 4 s.lmsLeft)

/-- The last attestation lies less than 10 s back (R369). -/
def State.attestSoon (s : State) : Bool := match s.flash.lastAttest with | some t => decide (s.now < t + 1000000000) | none => false

/-- SEC_ATTEST (R369). -/
def secAttestCmd (b : List Byte) (s : State) : CmdResult :=
  match s.flash.seed with
  | none => refuse s stFaulted
  | some seed =>
    if s.attestSoon then refuse s stBusy
    else if s.lmsLeft = 0 then refuse s stFaulted
    else
      let s := s.reserveLms
      let head := s.attestHead (slice b 0 32)
      let digest := Config.sha384 head
      let resp := head ++ padTo 96 (Config.ecdsaSign seed digest) ++ padTo 3124 (Config.hssSign seed s.flash.lmsNext digest)
      let s := s.onFlash fun f => { f with lmsNext := f.lmsNext + 1, lastAttest := some s.now }
      .done stOk resp (s.onBoot fun x => { x with lmsLow := decide (s.lmsLeft < 2 ^ 20) })

/-- The slot that SEC_FW_WRITE and SEC_FW_ACTIVATE work on: the one that does not run. -/
def State.otherSlot (s : State) : Nat := 1 - s.boot.image

/-- SEC_FW_WRITE (R364). A piece that runs from slot A into slot B, which then runs, is aimed at the running slot. -/
def secFwWriteCmd (b : List Byte) (s : State) : CmdResult :=
  let off := le b 0 8
  let d := b.drop 8
  if 0x8000000 < off + d.length then (if s.otherSlot = 0 ∧ off + d.length ≤ 0x10000000 then refuse s stDeniedRegime else refuse s stBadOpcode)
  else .done stOk [] (s.writeFlash (imageBase s.otherSlot + off) d)

/-- The header that selects image i (R365, Table 13-11), with a generation. -/
def newHeader (i seq : Nat) : List Byte :=
  let h := padTo 64 (leBytes 4 0x4A4B4648 ++ leBytes 2 1 ++ leBytes 1 i ++ [0] ++ leBytes 8 0x00010000 ++ leBytes 8 0x08010000 ++
    leBytes 8 0x08000000 ++ leBytes 4 seq)
  patch h 36 (leBytes 4 (crc32c h))

/-- SEC_FW_ACTIVATE (R364, R365). -/
def secFwActivateCmd (_ : List Byte) (s : State) : CmdResult :=
  let i := s.otherSlot
  if (s.imageFails i).isSome then refuse s stBadCheck
  else
    let at' := match s.headerCopy with
      | some (0, h) => (0x8000, le h 32 4 + 1)
      | some (_, h) => (0, le h 32 4 + 1)
      | none => (0, 1)
    let h := newHeader i at'.2
    let v := s.imageVersion i
    let s := (s.writeFlash at'.1 h).onFlash fun f => { f with header := h, other := BitVec.ofNat 32 v }
    .done stOk [] (s.report 0x0D0B .note 0x0F 0 (leBytes 4 i ++ leBytes 4 v))

/-- SEC_LMS_STATUS. -/
def secLmsStatusCmd (_ : List Byte) (s : State) : CmdResult := .done stOk (leBytes 4 s.flash.lmsNext ++ leBytes 4 s.lmsLeft) s

def execSecIdentity (r : Route) (s : State) : Host.Outcome State Fault Refusal := .next (s.command r 0x0901 secIdentityCmd)
/-- The flash controller carries out one program or erase at a time: a flush or an MCB write holds it (R35). -/
def State.flashBusy (s : State) : Bool := s.alm.flushing || s.flash.mcbWrite.isSome

/-- SEC_ATTEST: one that must write a reserve record waits for the flash. -/
def execSecAttest (r : Route) (s : State) : Host.Outcome State Fault Refusal :=
  .next (s.commandUnless r 0x0902
    (fun _ => s.flashBusy && s.flash.seed.isSome && !s.attestSoon && s.lmsLeft != 0 && decide (s.flash.lmsClaimed ≤ s.flash.lmsNext)) secAttestCmd)
/-- SEC_FW_WRITE: one that programs the slot waits for the flash. -/
def execSecFwWrite (r : Route) (s : State) : Host.Outcome State Fault Refusal :=
  .next (s.commandUnless r 0x0903 (fun b => s.flashBusy && decide (le b 0 8 + (b.drop 8).length ≤ 0x8000000)) secFwWriteCmd)
/-- SEC_FW_ACTIVATE: one that writes the header waits for the flash. -/
def execSecFwActivate (r : Route) (s : State) : Host.Outcome State Fault Refusal :=
  .next (s.commandUnless r 0x0904 (fun _ => s.flashBusy && (s.imageFails s.otherSlot).isNone) secFwActivateCmd)
def execSecLmsStatus (r : Route) (s : State) : Host.Outcome State Fault Refusal := .next (s.command r 0x0905 secLmsStatusCmd)

/-! ### The CP's restarts and debug port (R358 to R360, R382, R412) -/

/-- CP_WATCHDOG_EXPIRY (R358). Detector 0x0D01 withholds the restart whose absence this is. -/
def execCpWatchdogExpiry (pc : BitVec 48) (s : State) : Host.Outcome State Fault Refusal :=
  if !s.cp.up ∨ s.cp.restarting ∨ s.cp.halted then .next s
  else
    let s := (s.fires 0x0D01 0x0F 0).2.passTo (s.cp.watchdog + 100000)
    .next (s.onCp fun c => { c with restarting := true, expiry := some (pc, s.now), reload := none })

/-- CP_MEM_UE (R359), real or presented by detector 0x0D03. Which stored command a word of data memory lies in, if any, is free. -/
def execCpMemUe (code : Bool) (page word : Nat) (s : State) : Host.Outcome State Fault Refusal :=
  if !s.cp.up ∨ s.cp.restarting ∨ s.cp.halted then .next s
  else
    let s := (s.opportunity 0x0D03 0x0F 0 0 fun sub => sub == if code then 0 else 1).2
    let d := s.draw
    let k := if code ∨ 17 ≤ d.1.toNat % 34 then none else some (d.1.toNat % 34)
    .next ((if code then s else d.2).onCp fun c => { c with
      restarting := true, expiry := none, reload := if code then some (page, word) else none, lostCmd := k })

/-- The code page is reloaded from the active image, where its digest is the one that the image's table gives it (R359). -/
def State.reloadPage (s : State) (p : Nat) : State :=
  let base := imageBase s.boot.image + 4096
  let code := le (s.flashBytes (imageBase s.boot.image) 24) 16 8
  let page := s.flashBytes (base + 65536 * p) (min 65536 (code - 65536 * p))
  if Config.sha384 page = s.flashBytes (base + code + 48 * p) 48 then s.onFlash fun f => { f with codeMem := patch f.codeMem (65536 * p) page } else s

/-- CP_WARM_RESTART_DONE (R358 to R360, R382). -/
def execCpWarmRestartDone (ticks : Nat) (s : State) : Host.Outcome State Fault Refusal :=
  if !s.cp.restarting then .next s
  else
    let s := match s.cp.expiry with
      | some (_, t) => s.passTo (t + ticks)
      | none => s.pass ticks
    let recent := s.now :: (s.cp.restarts.filter fun t => decide (s.now ≤ t + 100000000))
    let e := s.cp.expiry
    let l := s.cp.reload
    let s := s.onCp fun c => { c with
      restarting := false, expiry := none, reload := none, restarts := recent, resets := inc c.resets, watchdog := s.now
      unstable := c.unstable || decide (3 ≤ recent.length) }
    let s := match e with
      | some (pc, _) => s.report 0x0D01 .warn 0x0F 0 (leBytes 6 pc.toNat ++ [0, 0] ++ leBytes 4 ticks)
      | none => s
    let s := match l with
      | some (p, w) => (s.reloadPage p).report 0x0D02 .note 0x0F 0 (leBytes 4 p ++ leBytes 4 w)
      | none => s
    let s := if 3 ≤ recent.length then s.report 0x0D03 .fault 0x0F 0 (leBytes 1 recent.length) else s
    .next (s.injEnd 0x0F 0).answerInterrupted

/-- CP_DEBUG_HALT (R412): the always-on domain is powered (R32). -/
def execCpDebugHalt (s : State) : Host.Outcome State Fault Refusal :=
  .next (if s.aoUp then s.onCp fun c => { c with halted := true } else s)

/-- CP_DEBUG_RELEASE (R412). -/
def execCpDebugRelease (s : State) : Host.Outcome State Fault Refusal :=
  .next (if s.aoUp ∧ s.cp.halted then (s.onCp fun c => { c with halted := false, watchdog := s.now }).checkAllPosted else s)

/-- IDCODE (R412). -/
def idcode : Word32 := BitVec.ofNat 32 (0x1 * 2 ^ 28 + 0x6804 * 2 ^ 12 + Config.manufacturerCode.toNat * 2 + 1)

/-- What the instruction loaded acts as: while MAIN_ON is 1, EXTEST, INTEST and CLAMP act as BYPASS (R412). -/
def State.tapActs (s : State) : TapIr :=
  match s.boot.tap with
  | .idcode => .idcode
  | .bypass => .bypass
  | .other _ => .bypass
  | t => if s.boot.mainOn then .bypass else t

/-- TAP_INSTRUCTION (R412). A code that R412 does not name selects BYPASS (notes/assumptions/21.md). -/
def execTapInstruction (ir : TapIr) (s : State) : Host.Outcome State Fault Refusal :=
  if !s.aoUp then .next s
  else
    let ir : TapIr := match ir with | .other _ => .bypass | t => t
    let s := s.onBoot fun b => { b with tap := ir }
    .next (match s.tapActs with
      | .idcode => s.emit (.tap (some idcode))
      | .bypass => s.emit (.tap none)
      | _ => s)

/-! ### Module time (R52, R55) -/

/-- MOD_COUNT_WRAP: time passes up to the wrap of bits 47:0, which writes its record. -/
def execModCountWrap (s : State) : Host.Outcome State Fault Refusal := .next (s.pass (2 ^ 48 - s.now % 2 ^ 48))

/-- MOD_COUNT_LOW_READ: the high half is latched for the next read (R52). -/
def execModCountLowRead (s : State) : Host.Outcome State Fault Refusal :=
  .next (if s.aoUp then s.onBoot fun b => { b with hiLatch := some (b.modCount.extractLsb' 32 32) } else s)

end Sys2Proof.Machine
end

