-- ==== Sys2Proof/Machine/Stavmon.lean ====
section
/-! DEFINITION. Posting on the three routes (R377 to R379), the Almanac's flushes and commands (R395 to R403), injection and
self-test (R405, R407). -/

namespace Sys2Proof.Machine

/-! ### Posting (R377 to R379, Table 14-7) -/

/-- A write of MBX_DOORBELL[n] (R377): a doorbell of MB[15], or of a mailbox whose command is not done, is a violation. -/
def State.mbxBell (s : State) (hdr : Word64) (n : Nat) : State :=
  if h : n < 15 then
    let r := Route.pcie ⟨n, h⟩
    if (s.mbox r).state = .posted ∨ (s.mbox r).state = .running then s.hostViol 7 hdr else s.post r
  else s.hostViol 7 hdr

/-- MBX_DOORBELL. -/
def execMbxDoorbell (hdr : Word64) (n : Fin 16) (s : State) : Host.Outcome State Fault Refusal :=
  .next (if s.linkUp then s.tlp.mbxBell hdr n.val else s)

def State.smbAddr (s : State) : Nat := le s.flash.mcb 24 1 % 128

/-- SMB_BLOCK_WRITE (R378): command code 0x20. -/
def execSmbBlockWrite (pecOk : Bool) (offset : Nat) (data : List Byte) (s : State) : Host.Outcome State Fault Refusal :=
  if !s.aoUp ∨ 253 < data.length then .next s
  else if !pecOk then .next (s.smbViol 1 0x20 s.smbAddr)
  else if 4096 < offset + data.length then .next (s.smbViol 3 0x20 s.smbAddr)
  else .next (s.setMbox .smb { s.cp.smb with bytes := mboxStore s.cp.smb.bytes offset data })

/-- SMB_BLOCK_READ (R378): command code 0x22. -/
def execSmbBlockRead (pecOk : Bool) (offset : Nat) (s : State) : Host.Outcome State Fault Refusal :=
  if !s.aoUp then .next s
  else if !pecOk then .next (s.smbViol 1 0x22 s.smbAddr)
  else .next (s.emit (.smb (Memory.bytes s.cp.smb.bytes offset (min 255 (4096 - offset)))))

/-- SMB_SEND_BYTE (R378): command code 0x21 posts the mailbox. -/
def execSmbSendByte (pecOk : Bool) (s : State) : Host.Outcome State Fault Refusal :=
  if !s.aoUp then .next s
  else if !pecOk then .next (s.smbViol 1 0x21 s.smbAddr)
  else if s.cp.smb.state = .posted ∨ s.cp.smb.state = .running then .next (s.smbViol 4 0x21 s.smbAddr)
  else .next (s.post .smb)

/-- SMB_BAD_COMMAND_CODE (R408): the byte is NACKed. -/
def execSmbBadCommandCode (code addr : Byte) (s : State) : Host.Outcome State Fault Refusal :=
  if !s.aoUp ∨ code = 0x20 ∨ code = 0x21 ∨ code = 0x22 then .next s
  else .next ((s.emit (.smb [])).smbViol 2 code.toNat addr.toNat)

/-- Takes one 28-byte piece of an MB[15] command from logical (x, y), and posts it when whole (R379). -/
def State.mb15Piece (s : State) (x y : Nat) (sofar piece : List Byte) : State :=
  let all := sofar ++ piece
  let s := s.onCp fun c => { c with mb15 := all, mb15From := some (x, y) }
  if 64 ≤ all.length ∧ le all 8 2 + 64 ≤ all.length ∧ (s.mbox .chord).state ≠ .posted ∧ (s.mbox .chord).state ≠ .running then
    ((s.setMbox .chord { s.mbox .chord with bytes := mboxStore (s.mbox .chord).bytes 0 (all.take 4096) }).onCp fun c => { c with
      mb15 := [] }).post .chord
  else s

/-- A control codeword that came by a flit is taken from those accepted (R257). -/
def State.takeCtl (s : State) (m : CtlMsg) : State := s.onChd fun c => { c with ctlIn := c.ctlIn.erase m }

/-- MB_CMD_FIRST (R379). -/
def execMbCmdFirst (m : CtlMsg) (s : State) : Host.Outcome State Fault Refusal :=
  .next (if s.boot.mainOn ∧ le m.bytes 0 1 = 0x20 then (s.takeCtl m).mb15Piece m.srcX m.srcY [] (slice m.bytes 4 28) else s)

/-- MB_CMD_NEXT (R379). A piece without a FIRST of its sender before it belongs to no command. -/
def execMbCmdNext (m : CtlMsg) (s : State) : Host.Outcome State Fault Refusal :=
  .next (if s.boot.mainOn ∧ le m.bytes 0 1 = 0x21 ∧ !s.cp.mb15.isEmpty ∧ s.cp.mb15From = some (m.srcX, m.srcY) then
    (s.takeCtl m).mb15Piece m.srcX m.srcY s.cp.mb15 (slice m.bytes 4 28) else s)

/-! ### Flushes (R395 to R397) -/

/-- ALM_FLUSH commands that wait for the flush complete (Table 14-6). -/
def State.endFlushCommands (s : State) : State :=
  allRoutes.foldl (fun s r =>
    if (s.mbox r).state = .running ∧ mOp (s.mbox r).request = 0x0803 then s.endCommand (some r) stOk [] else s) s

/-- ALMANAC_FLUSH_END (R396): every unflushed record is in flash; losses are then reported (R394), and those records too. -/
def execAlmanacFlushEnd (s : State) : Host.Outcome State Fault Refusal :=
  if !s.alm.flushing ∨ s.flash.mcbWrite.isSome then .next s
  else
    let s := s.flushNow.payLost.flushNow
    let s := (s.onAlm fun a => { a with flushing := false }).endFlushCommands
    -- an MCB write that waited for the flush starts (R35)
    .next (s.onFlash fun f => match f.mcbWrite, f.mcbNext with
      | none, some w => { f with mcbWrite := some w, mcbNext := none }
      | _, _ => f)

/-- ALMANAC_SECTOR_ERASE (R397): the first of the two sectors ahead of the next write position that is not erased. Under
BY_SEVERITY the sectors are chosen as R399 says, when a record needs one. -/
def execAlmanacSectorErase (s : State) : Host.Outcome State Fault Refusal :=
  if s.alm.bySeverity ∨ s.alm.flushing ∨ s.flash.mcbWrite.isSome ∨ !s.aoUp then .next s
  else
    let keep := s.alm.keepUnits / 2
    let next (k : Nat) : Nat := if k + 1 < 128 then k + 1 else keep
    let h := s.alm.head / 2048
    -- a head at a sector's start has that sector as the first of the two
    let a := if s.alm.head % 2048 = 0 then h else next h
    match [a, next a].find? fun k => !s.alm.erased.contains k && (decide (k ≠ h) || s.alm.head % 2048 == 0) with
    | some k => .next (s.onAlm fun x => x.erase k)
    | none => .next s

/-- A write of ALM_CTRL (Table 14-10, R395). -/
def State.writeAlmCtrl (s : State) (v : Word64) : State :=
  let s := s.onAlm fun a => { a with flushLevel := fld v 16 12 }
  if fld v 0 1 = 1 then s.startFlush else s

/-- ALM_CTRL_FLUSH (R395): a PCIe write of ALM_CTRL. -/
def execAlmCtrlFlush (v : Word64) (s : State) : Host.Outcome State Fault Refusal :=
  .next (if s.linkUp then s.tlp.writeAlmCtrl v else s)

/-! ### The ALM commands (R400, R403) -/

/-- Insertion of a record by SEQ. -/
def insSeq (r : AlmRec) : List AlmRec → List AlmRec
  | [] => [r]
  | x :: l => if r.seq.toNat < x.seq.toNat then r :: x :: l else x :: insSeq r l

/-- ALM_READ; over the management bus its completion releases SMB_ALERT# (P-23, Table 15-1). -/
def almReadCmd (r : Route) (b : List Byte) (s : State) : CmdResult :=
  let s := if r = .smb then s.onBoot fun t => { t with smbAlert := false } else s
  let first := le b 0 4
  let count := le b 5 1
  if count = 0 ∨ 125 < count ∨ 1 < le b 4 1 then refuse s stBadOpcode
  else
    let all := if le b 4 1 = 0 then s.alm.ring else (s.alm.flash.map (·.2)).foldl (fun l r => insSeq r l) []
    let rs := (all.filter fun r => decide (first ≤ r.seq.toNat)).take count
    let next := match rs.getLast? with | some r => r.seq.toNat + 1 | none => first
    .done stOk (leBytes 4 next ++ leBytes 4 rs.length ++ rs.flatMap fun r => recBytes r (le b 4 1 == 1 && s.alm.bySeverity)) s

/-- The MCB in flash with the new policy and N (R400 step 5). -/
def State.almMcb (s : State) (pol n : Nat) : List Byte :=
  let m := s.flashBytes mcbBase 2048
  let m := patch m 25 (leBytes 1 pol)
  mcbSeal (if pol = 0 then patch m 26 (leBytes 2 n) else m)

/-- ALM_CONFIG (R400). With CLEAR the MCB write of step 5 ends the command. -/
def almConfigCmd (r : Route) (b : List Byte) (s : State) : CmdResult :=
  let pol := le b 0 1
  let n := le b 2 2
  let level := le b 8 2
  let badN := pol == 0 && (decide (n < 2) || decide (126 < n) || decide (n % 2 = 1))
  if 1 < pol then refuse s stBadOpcode
  else if bitOf (le b 4 1) 0 then
    if badN then refuse s stBadOpcode
    else if s.jobRuns ∨ s.flash.mcbWrite.isSome ∨ s.flash.mcbNext.isSome then refuse s stBusy
    else
      let s := s.flushNow.payLost.flushNow
      let count := s.alm.flash.length
      let s := s.onAlm fun a => { a with
        ring := [], flash := [], head := 0, erased := List.range 128, flushedSeq := none, flashFull := false, rows := [], lostRing := 0, lostFlash := 0
        nextSeq := 0, bySeverity := pol == 1, keepUnits := if pol = 0 then n else a.keepUnits, cfgMismatch := false, flushing := false
        flushDue := false, flushLevel := min 2048 level }
      let s := s.report 0x0E02 .note 0x14 0 (leBytes 2 pol ++ leBytes 2 (if pol = 0 then n else 0) ++ leBytes 4 count)
      .pending (s.endFlushCommands.onFlash fun f => { f with mcbWrite := some ⟨s.almMcb pol n, some r, s.now⟩ })
  else if pol ≠ bit s.alm.bySeverity ∨ (pol = 0 ∧ n ≠ s.alm.keepUnits) then refuse s stBadOpcode
  else .done stOk [] (s.onAlm fun a => { a with flushLevel := min 2048 level })

/-- ALM_FLUSH (R395, Table 14-6). -/
def almFlushCmd (_ : List Byte) (s : State) : CmdResult :=
  if s.unflushed = 0 then .done stOk [] s else .running s.startFlush

def execAlmRead (r : Route) (s : State) : Host.Outcome State Fault Refusal := .next (s.command r 0x0801 (almReadCmd r))
def execAlmConfig (r : Route) (s : State) : Host.Outcome State Fault Refusal := .next (s.command r 0x0802 (almConfigCmd r))
def execAlmFlush (r : Route) (s : State) : Host.Outcome State Fault Refusal := .next (s.command r 0x0803 almFlushCmd)

/-! ### Injection and self-test (R405, R407) -/

/-- Target kind, index range and sub-target of a detector (Table 14-8); none for an unknown detector. -/
def detectorTakes (det : Nat) : Option (Nat → Nat → Nat → Bool) :=
  let t (kind n : Nat) (sub : Nat → Bool) : Option (Nat → Nat → Nat → Bool) :=
    some fun k i b => k == kind && decide (i < n) && sub b
  let any (_ : Nat) : Bool := true
  match det with
  | 0x0101 => t 6 8 fun b => decide (b % 128 < 68)
  | 0x0301 => t 1 64 fun b => decide (b < 128)
  | 0x0302 => t 1 64 fun b => decide (b < 8)
  | 0x0303 => t 1 64 fun b => decide (b < 4)
  | 0x0304 => t 1 64 any
  | 0x0305 => t 2 68 fun b => decide (1 ≤ b) && decide (b ≤ 9)
  | 0x0306 => t 1 64 fun b => decide (b % 16 < 4) && decide (b < 64) && (decide (b / 16 = 0) || b % 16 == 1 || b % 16 == 2)
  | 0x0401 => t 1 64 any
  | 0x0601 => t 3 76 fun b => decide (b < 2)
  | 0x0602 => t 3 76 any
  | 0x0603 => t 3 76 any
  | 0x0604 => t 0x13 16384 fun b => decide (b < 2)
  | 0x0701 => t 4 4 any
  | 0x0702 => t 5 32 any
  | 0x0801 => t 7 80 any
  | 0x0802 => t 7 80 any
  | 0x0803 => t 7 80 any
  | 0x0804 => t 7 80 any
  | 0x0805 => t 7 80 fun b => decide (b < 64)
  | 0x0806 => t 8 64 any
  | 0x0807 => t 8 64 any
  | 0x0808 => t 8 64 any
  | 0x0809 => t 8 64 fun b => decide (b < 64)
  | 0x0901 => t 9 8 fun b => decide (1 ≤ b) && decide (b ≤ 16)
  | 0x0902 => t 9 8 any
  | 0x0903 => t 9 8 fun b => decide (b < 8)
  | 0x0904 => t 9 8 any
  | 0x0905 => t 9 8 fun b => decide (1 ≤ b) && decide (b ≤ 8)
  | 0x0A01 => t 0x11 64 fun b => decide (1 ≤ b)
  | 0x0A02 => t 0 1 any
  | 0x0B01 => t 0x0C 1 any
  | 0x0B02 => t 0x0C 1 any
  | 0x0B03 => t 0x0A 2 any
  | 0x0B04 => t 0x0B 64 fun b => decide (b < 2)
  | 0x0C01 => t 0x0E 4 any
  | 0x0C02 => some fun k i b => k == 0x0E && i == 0xFF && decide (b < 2)
  | 0x0C03 => t 2 68 fun b => decide (b < 64)
  | 0x0C04 => some fun k i b => k == 0x0E && decide (0x10 ≤ i) && decide (i < 0x1A) && decide (1 ≤ b) && decide (b ≤ 50)
  | 0x0D01 => t 0x0F 1 any
  | 0x0D02 => t 0x0F 1 any
  | 0x0D03 => t 0x0F 1 fun b => decide (b < 2)
  | _ => none

/-- DIAG_INJECT (R405). -/
def diagInjectCmd (b : List Byte) (s : State) : CmdResult :=
  let det := le b 0 2
  let mode := le b 2 1
  let kind := le b 3 1
  let idx := le b 4 2
  let sub := le b 6 1
  let n := le b 8 4
  match detectorTakes det with
  | none => refuse s stBadOpcode
  | some ok =>
    if !ok kind idx sub ∨ 1 < mode ∨ (mode = 1 ∧ n = 0) then refuse s stBadOpcode
    else
      match (List.range 16).find? fun k => !(s.injSlot k).armed with
      | none => refuse s stBusy
      | some k =>
        let s := s.setSlot k ⟨true, mode == 1, BitVec.ofNat 16 det, BitVec.ofNat 8 kind, BitVec.ofNat 16 idx, BitVec.ofNat 8 sub,
          BitVec.ofNat 32 n, BitVec.ofNat 32 (le b 12 4), 0, 0, (s.ptile idx).getD 68⟩
        let s := s.report 0x0E03 .info kind idx (leBytes 2 det ++ leBytes 1 mode ++ leBytes 1 k ++ leBytes 4 n ++ leBytes 1 kind ++
          leBytes 2 idx ++ leBytes 1 sub)
        .done stOk (leBytes 1 k) s

/-- DIAG_CLEAR (R405). -/
def diagClearCmd (b : List Byte) (s : State) : CmdResult :=
  let m := le b 0 2
  .done stOk [] ((List.range 16).foldl (fun s k =>
    if bitOf m k then
      let s := s.disarm k 1
      s.setSlot k { s.injSlot k with fired := 0 }
    else s) s)

/-- The tile may be tested on demand (R407). -/
def State.testable (s : State) (p : Nat) : Bool :=
  match (s.tile p).health with
  | .active => s.pwr.parkedCmd.getLsbD (p / 17)
  | _ => true

/-- DIAG_SELFTEST (R407). -/
def diagSelftestCmd (r : Route) (b : List Byte) (s : State) : CmdResult :=
  let p := le b 1 1
  if le b 0 1 ≠ 0 ∨ 67 < p then refuse s stBadOpcode
  else if !s.testable p ∨ s.cp.selftest.isSome then refuse s stBusy
  else .running (s.onCp fun c => { c with selftest := some (p, some r) })

def healthNum : TileHealth → Nat
  | .active => 0
  | .spareReady => 1
  | .spareUntested => 2
  | .failedSelftest => 3
  | .retiredRun => 4

/-- SELFTEST_DONE (R407): `stage` is 0 for a pass; detector 0x0305 fails its stage. -/
def execSelftestDone (stage : Nat) (s : State) : Host.Outcome State Fault Refusal :=
  match s.cp.selftest with
  | none => .next s
  | some (p, r) =>
    let i := s.opportunity 0x0305 2 p 0 fun _ => true
    let s := i.2
    let st := if stage ≠ 0 then min stage 9 else i.1.getD 0
    let s := if st ≠ 0 then s.selftestFailed p
      else s.onTile p fun t => { t with health := if t.health = .active then .active else .spareReady }
    let bytes := padTo 12 (leBytes 1 p ++ leBytes 1 st ++ leBytes 1 (healthNum (s.tile p).health))
    let s := (s.report 0x0E05 .note 2 p bytes).injEnd 2 p
    .next ((s.onCp fun c => { c with selftest := none }).endCommand r stOk bytes)

def execDiagInject (r : Route) (s : State) : Host.Outcome State Fault Refusal := .next (s.command r 0x0A01 diagInjectCmd)
def execDiagSelftest (r : Route) (s : State) : Host.Outcome State Fault Refusal := .next (s.command r 0x0A02 (diagSelftestCmd r))
def execDiagClear (r : Route) (s : State) : Host.Outcome State Fault Refusal := .next (s.command r 0x0A03 diagClearCmd)

end Sys2Proof.Machine
end

