-- ==== Sys2Proof/Machine/Kinds.lean ====
section
/-! DEFINITION. Queues and doorbells (R153, R154, R174 to R176), the descriptor kinds NOP, WAIT, POST, FENCE, SOLSTICE and SPLIT
(R168 to R172), completion (R157), skipping (R159), and the commands on sync counters and watches (R180, R194, R317). -/

namespace Sys2Proof.Machine

/-! ### QCTRL (R153, R154, Table 06-16) -/

/-- A write that sets ENABLE is refused (R154). -/
def enableRefused (u : Queue) : Bool :=
  u.base.toNat % 4096 != 0 || (locRange u.base.toNat (80 * ringSlots u) Loc.isG7OrHost).isNone

/-- A write of QCTRL[q]. -/
def State.writeQctrl (s : State) (q : Nat) (v : Word64) : State :=
  let u := s.queue q
  let on := fld v 63 1 == 1
  if u.enable then
    if !on then
      (s.onQueue q fun u => { u with disabling := true, state := .run, attempts := 0 }).tryDisable q |>.settle q
    else if fld v 40 1 = 1 ∧ u.state = .stopped then (((s.onQueue q fun u => { u with state := .run }).settle q).fetch q).settle q
    else s
  else
    let u := { u with log2n := fld v 32 5, seqStart := BitVec.ofNat 32 (fld v 0 32) }
    let s := s.onQueue q fun _ => u
    if !on then s
    else if enableRefused u then s.queueError q
    else s.onQueue q fun u => { u with
      enable := true, expect := u.seqStart, head := u.seqStart, state := .idle, window := [], bell := none, lastStep := none, doneAhead := []
      attempts := 0, disabling := false, waitSince := none, jnlFull := false }

/-- QUEUE_ENABLE (R153, R154). -/
def execQueueEnable (q : Fin 76) (v : Word64) (s : State) : Host.Outcome State Fault Refusal :=
  .next (if s.linkUp ∧ fld v 63 1 = 1 ∧ !(s.queue q.val).enable then s.tlp.writeQctrl q.val v else s)

/-- QUEUE_DISABLE (R154). -/
def execQueueDisable (q : Fin 76) (v : Word64) (s : State) : Host.Outcome State Fault Refusal :=
  .next (if s.linkUp ∧ fld v 63 1 = 0 ∧ (s.queue q.val).enable then s.tlp.writeQctrl q.val v else s)

/-- QUEUE_RESUME (R168). -/
def execQueueResume (q : Fin 76) (v : Word64) (s : State) : Host.Outcome State Fault Refusal :=
  .next (if s.linkUp ∧ fld v 63 1 = 1 ∧ fld v 40 1 = 1 ∧ (s.queue q.val).state = .stopped then s.tlp.writeQctrl q.val v else s)

/-! ### Doorbells (R174 to R176) -/

/-- A doorbell value is out of range (R176). -/
def bellOut (u : Queue) (d : Word32) : Bool := decide (ringSlots u < (d - u.head).toNat)

/-- A write of QDOORBELL[q]. Detector 0x0602 takes it as out of range. -/
def State.writeBell (s : State) (q : Nat) (d : Word32) : State :=
  let u := s.queue q
  if !u.enable then s
  else
    let i := s.fires 0x0602 3 q
    let s := i.2
    if i.1 ∨ bellOut u d then
      let s := s.onStreams fun t => { t with dbViolations := inc t.dbViolations }
      (s.report 0x0602 .warn 3 q (leBytes 1 q ++ leBytes 4 u.head.toNat ++ leBytes 4 d.toNat)).injEnd 3 q
    else
      let new := u.bell != some d
      let s := s.onQueue q fun u => { u with bell := some d }
      match u.state with
      | .stale => if s.mayRead q then (s.poll q).2 else s
      | .repoll => s.onQueue q fun u => { u with attempts := 0 }
      | _ => if new then s.fetch q else s

/-- QDOORBELL. -/
def execQdoorbell (q : Fin 76) (d : Word32) (s : State) : Host.Outcome State Fault Refusal :=
  .next (if s.linkUp then s.tlp.writeBell q.val d else s)

/-- Ticks before attempt k (R175). -/
def pollWait (k : Nat) : Nat := if k ≤ 16 then 8 else if k ≤ 48 then 16 else 24

/-- DESCRIPTOR_REPOLL (R175): one further attempt; attempt 64 that fails makes the queue STALE. -/
def execDescriptorRepoll (q : Fin 76) (s : State) : Host.Outcome State Fault Refusal :=
  let u := s.queue q.val
  if u.state ≠ .repoll ∨ !s.mayRead q.val then .next s
  else
    let k := u.attempts + 1
    let r := (s.pass (pollWait k)).poll q.val
    match r.1 with
    | .ok _ _ => .next r.2
    | .held => .next r.2
    | .stale cause found =>
      let s := r.2.onQueue q.val fun u => { u with attempts := k }
      if k < 64 then .next s
      else
        let s := s.onQueue q.val fun u => { u with state := .stale, staleCount := u.staleCount + 1 }
        .next (((s.queueError q.val).report 0x0601 .warn 3 q.val (leBytes 1 q.val ++ leBytes 1 cause ++ leBytes 4 u.expect.toNat ++
          leBytes 4 found.toNat ++ leBytes 1 64)).injEnd 3 q.val)

/-! ### Skipping and the simple kinds (R159, R168 to R172) -/

/-- The first waiting item of a window for which the Barrier condition holds and whose COND does not (R159). -/
def State.firstSkip (s : State) (before : List Item) : List Item → Option Item
  | [] => none
  | i :: r =>
    let clear := before.all fun j => !(j.open_ && (match dKind j.desc with | some k => isBarrier k | none => false))
    if i.waiting && (i.replay || !s.replays) && !s.condHolds i.desc && clear then some i else s.firstSkip (before ++ [i]) r

/-- DESCRIPTOR_SKIP (R159). -/
def execDescriptorSkip (q : Fin 76) (s : State) : Host.Outcome State Fault Refusal :=
  if !s.queueTaking q.val then .next s
  else
    match s.firstSkip [] ((s.queue q.val).window.take 32) with
    | some i => .next (if s.refusesStep q.val i then (s.take q.val i).finish q.val i.seq stBadSeq 0 0
                       else (s.take q.val i).finish q.val i.seq stOk 3 0)
    | none => .next s

/-- Takes an item of a kind and gives it its effect; an item refused by R160 has already ended. -/
def State.runKind (s : State) (q : Nat) (k : Kind) (f : Item → State → State) : State :=
  match s.takeKind q k with
  | some (i, true, t) => f i t
  | some (_, false, t) => t
  | none => s

/-- NOP. -/
def execNop (q : Fin 76) (s : State) : Host.Outcome State Fault Refusal :=
  .next (s.runKind q.val .nop fun i s => s.finish q.val i.seq stOk 0 0)

/-- WAIT (R168): its tickets are met; with DEC set it subtracts THRESHOLD[0] from its first counter. -/
def execWait (q : Fin 76) (s : State) : Host.Outcome State Fault Refusal :=
  .next (s.runKind q.val .wait fun i s =>
    let s := if bitOf (le i.desc 40 1) 0 then
        s.scOp (dTsc i.desc 0) .sub (BitVec.ofNat 32 (dThreshold i.desc 0)) (queueSource q.val) else s
    s.finish q.val i.seq stOk 0 0)

/-- WAIT_TIMEOUT (R168): the queue stops until RESUME. -/
def execWaitTimeout (q : Fin 76) (s : State) : Host.Outcome State Fault Refusal :=
  let u := s.queue q.val
  match u.window.head?, u.waitSince with
  | some i, some t =>
    let n := le i.desc 44 4
    if n = 0 ∨ !i.waiting ∨ dKind i.desc ≠ some .wait ∨ u.state = .stopped ∨ u.disabling ∨ (!i.replay && s.replays) then .next s
    else
      let s := s.passTo (t + n)
      if s.ticketsMet i.desc then .next s
      else .next (((s.take q.val i).finish q.val i.seq stTimeout 0 0).onQueue q.val fun u => { u with state := .stopped })
  | _, _ => .next s

/-- One POST target (R169): applied at this module, or sent over the control VC with the item's tag. -/
def State.postTo (s : State) (q : Nat) (seq : Word32) (t : PostTarget) : State :=
  if t.op = 0 then s
  else
    let op := if t.op = 1 then ScOp.add else .set
    if t.remote ∧ s.grp.pos ≠ some (t.x, t.y) then
      let word := t.value * 2 ^ 24 + t.y * 2 ^ 20 + t.x * 2 ^ 16 + t.op * 2 ^ 14 + t.sc
      (s.onStreams fun u => { u with posts := u.posts ++ [(q, seq)] }).sendControl t.x t.y
        (leBytes 1 0x01 ++ leBytes 7 word ++ leBytes 1 q ++ leBytes 3 seq.toNat)
    else s.scOp t.sc op (BitVec.ofNat 32 t.value) (queueSource q)

/-- A POST completes when its remote targets have been applied (R169). -/
def State.postSettle (s : State) (q : Nat) (seq : Word32) : State :=
  if s.streams.posts.any fun p => p.1 == q && p.2 == seq then s else s.finish q seq stOk 0 0

/-- POST (R169): a reserved OP is a field out of range. -/
def execPost (q : Fin 76) (s : State) : Host.Outcome State Fault Refusal :=
  .next (s.runKind q.val .post fun i s =>
    let ts := [40, 47, 54].map fun off => postTarget (slice i.desc off 7)
    if ts.any fun t => t.op == 3 then s.finish q.val i.seq stBadOpcode 0 0
    else (ts.foldl (fun s t => s.postTo q.val i.seq t) s).postSettle q.val i.seq)

/-- Every host write of the descriptors of a queue before its FENCE has been acknowledged (R170, R314). -/
def State.hostSettled (s : State) (q : Nat) : Bool := decide ((s.queue q).hostMark ≤ s.hostAcked)
/-- Every remote write sent so far has been acknowledged (R263). -/
def State.remoteAcked (s : State) : Bool :=
  s.streams.wrSent.all fun p => decide (p.2 ≤ Sparse.get 0 s.streams.wrAcked p.1)

/-- FENCE (R170): every earlier descriptor of its queue has completed, and the writes of its scope are acknowledged. -/
def execFence (q : Fin 76) (s : State) : Host.Outcome State Fault Refusal :=
  match s.takeable q.val with
  | some i =>
    let scope := le i.desc 40 1
    let first : Bool := match (s.queue q.val).window.find? fun j => j.run != .complete with | some j => j.seq == i.seq | none => false
    if first && (!bitOf scope 0 || s.hostSettled q.val) && (!bitOf scope 1 || s.remoteAcked) then
      .next (s.runKind q.val .fence fun i s => s.finish q.val i.seq stOk 0 0)
    else .next s
  | none => .next s

/-- The power manager's answer to a hint (R353, R354): whether it is granted, and the state. A hint of an open phase has
the outcome of that phase's first hint. -/
def State.hint (s : State) (q cls phase duration lead : Nat) : Bool × State :=
  if cls = 0 then (true, (s.endPhases fun x => x.phase == phase).powerSettle)
  else match s.pwrRegs.phases.find? fun x => x.phase == phase with
    | some x => (x.granted, s)
    | none =>
      let limit := min s.pwr.cap s.pwr.envelope
      let granted := decide (classWatts cls ≤ limit) && !s.pwrRegs.phases.any fun x => x.granted && decide (x.cls < cls)
      let s := s.onPwrRegs fun r => { r with
        phases := r.phases ++ [⟨phase, cls, granted, q, s.now + lead, duration, false, s.wavesOf q, 0⟩] }
      if granted then
        let free := s.pwr.regime != .spring && s.pwr.parkedLimit == 0 && s.pwr.parkedTemp == 0
        (true, (if free then s.setGoal s.ceilMv else s).powerSettle)
      else
        (false, (s.report 0x0C0B .note 0x0E 0xFF (leBytes 2 phase ++ leBytes 1 cls ++ leBytes 1 q ++ leBytes 2 limit)).powerSettle)

/-- SOLSTICE (R171, R353). -/
def execSolstice (e : Fin 64) (s : State) : Host.Outcome State Fault Refusal :=
  .next (s.runKind e.val .solstice fun i s =>
    let d := i.desc
    if 7 ≤ le d 40 1 then s.finish e.val i.seq stBadOpcode 0 0
    else
      let a := s.hint e.val (le d 40 1) (le d 42 2) (le d 44 4) (le d 48 4)
      a.2.finish e.val i.seq stOk (if a.1 then 0 else 4) 0)

/-- SPLIT (R172): once every running item of the engine has completed. -/
def execSplit (e : Fin 64) (s : State) : Host.Outcome State Fault Refusal :=
  if (s.queue e.val).window.any fun i => i.running || i.finished then .next s
  else .next (s.runKind e.val .split fun i s =>
    let m := le i.desc 40 1
    if 1 < m then s.finish e.val i.seq stBadOpcode 0 0
    else
      let s := match s.ptile e.val with
        | some p => s.onTileRegs p fun r => { r with split := m == 1 }
        | none => s
      s.finish e.val i.seq stOk 0 0)

/-- A faulted item is replayed with its step (Table 03-6, R186) once nothing of the step runs any more
(notes/assumptions/17.md). -/
def State.faultReplay (s : State) : State :=
  let busy := (List.range 76).any fun q => (s.queue q).window.any fun i => i.running && dStep i.desc == s.job.step
  if s.job.faultReplay ∧ s.jobRuns ∧ !busy then s.replayStep 0 else s

/-- DESCRIPTOR_COMPLETE (R157, R158): once all the item's writes to the module's memories are visible (R177). The posts and the record
of a companion queue cross the die-to-die link as control traffic (R28, R30). -/
def execDescriptorComplete (q : Fin 76) (seq : Word32) (s : State) : Host.Outcome State Fault Refusal :=
  match s.item q.val seq with
  | some i =>
    match i.run with
    | .finished st o r => .next (if s.writesOut q.val seq ∨ (72 ≤ q.val ∧ !s.d2dClear .control 1) then s else (s.completeItem q.val i st o r).faultReplay)
    | _ => .next s
  | none => .next s

/-! ### Sync counters and watches (R180 to R183, R194, R317) -/

/-- An operation arrives at its counter's home router: over PCIe, the link must be up. -/
def State.scCommand (s : State) (n : Fin 16384) (op : ScOp) (v : Word32) (src : ScSource) : State :=
  match src with
  | .pcie => if s.linkUp then s.tlp.scOp n.val op v src else s
  | _ => if s.boot.mainOn then s.scOp n.val op v src else s

def execScAdd (n : Fin 16384) (v : Word32) (src : ScSource) (s : State) : Host.Outcome State Fault Refusal :=
  .next (s.scCommand n .add v src)
def execScSet (n : Fin 16384) (v : Word32) (src : ScSource) (s : State) : Host.Outcome State Fault Refusal :=
  .next (s.scCommand n .set v src)
def execScSub (n : Fin 16384) (v : Word32) (src : ScSource) (s : State) : Host.Outcome State Fault Refusal :=
  .next (s.scCommand n .sub v src)
def execScClearFlags (n : Fin 16384) (src : ScSource) (s : State) : Host.Outcome State Fault Refusal :=
  .next (s.scCommand n .clear 0 src)

/-- SC_OP_UNDEFINED (R194): ignored, and a host violation of row 8. -/
def execScOpUndefined (hdr : Word64) (_n : Fin 16384) (v : Word64) (s : State) : Host.Outcome State Fault Refusal :=
  .next (if s.linkUp ∧ 3 < fld v 60 4 then s.tlp.hostViol 8 hdr else s)

/-- A write of HST_WATCH[k] (R317): reserved bits are not kept. -/
def State.writeWatch (s : State) (k : Nat) (v : Word64) : State :=
  (s.onHst fun h => { h with watch := Sparse.put 0 h.watch k (v &&& 0x80003FFFFFFFFFFF) }).watchFire k

/-- HST_WATCH_ARM (R317). -/
def execHstWatchArm (k : Fin 1024) (v : Word64) (s : State) : Host.Outcome State Fault Refusal :=
  .next (if s.linkUp then s.tlp.writeWatch k.val v else s)

end Sys2Proof.Machine
end

