-- ==== Sys2Proof/Machine/MemSys.lean ====
section
/-! DEFINITION. The G7 and slow-tier controllers (chapter 8): patrol scrub, retraining, temperature, the reserve and its remap,
channel death, and the ledger of G7 ranges (R385). -/

namespace Sys2Proof.Machine

/-- Data slots of a G7 channel (R227). -/
def dataSlots : Nat := 1840384

def reserveNum : Reserve → Nat
  | .free => 0
  | .migrating => 1
  | .thermal => 2
  | .repaired => 3
  | .returning => 4

/-- Changes a channel's state; a retrain in progress returns to it. -/
def State.setChState (s : State) (c : Nat) (st : ChState) : State :=
  s.onChannel c fun ch => if ch.state = .retrain then { ch with under := st } else { ch with state := st }

def State.remap (s : State) (g : Nat) : Remap := if g = 0 then s.mem.remap0 else s.mem.remap1
def State.setRemap (s : State) (g : Nat) (r : Remap) : State :=
  s.onMem fun m => if g = 0 then { m with remap0 := r } else { m with remap1 := r }
/-- The generation that is not current. -/
def State.nextGen (s : State) : Nat := 1 - s.mem.gen

/-! ### The remap (R235, R236) -/

/-- The injection slots of a channel that is retired are disarmed (R405). -/
def State.channelRetired (s : State) (c : Nat) : State := s.disarmTarget fun x => x.kind.toNat = 7 ∧ x.index.toNat = c

/-- The next generation becomes current (R236): the reserve then holds the channel, or is free after a return. -/
def State.remapSwitch (s : State) : State :=
  if !s.mem.switchDue then s
  else
    let c := s.mem.reserveCh
    let g := s.nextGen
    let back := s.mem.reserve == .returning
    let r : Remap := if back then ⟨false, 0, s.job.step, 0⟩ else ⟨true, 1, s.job.step, c⟩
    let s := (s.setRemap g r).onMem fun m => { m with
      gen := g, switchDue := false, reserve := if back then .free else .thermal, reserveCh := if back then 0 else c
      coolSince := if back then none else m.coolSince }
    -- a channel that returns keeps the level its readings gave it (R241)
    let s := (s.setChState c (if back then .up else .retiredThermal)).onChannel c fun ch => { ch with throttle := if back then ch.throttle else 0 }
    let s := s.report 0x0808 .info 7 c (leBytes 1 g ++ leBytes 1 r.kind ++ leBytes 1 c ++ [0] ++ leBytes 4 s.stepNo)
    (if back then s else s.channelRetired c).throttle

/-- Every slot is copied: the switch waits for the step boundary, or takes place at once while no job runs (R236). -/
def State.copyEnd (s : State) : State :=
  let s := s.onMem fun m => { m with switchDue := true }
  if s.jobRuns then s else s.remapSwitch

/-- A migration of channel c to the reserve begins (R235, R242). -/
def State.retireThermal (s : State) (c : Nat) : State :=
  let s := (s.setRemap s.nextGen ⟨true, 1, 0, c⟩).onMem fun m => { m with reserve := .migrating, reserveCh := c, migDone := 0 }
  (s.setChState c .migrating).report 0x0806 .warn 7 c
    (leBytes 1 (c / 4) ++ leBytes 1 c ++ leBytes 2 (twos 16 (s.channel c).temp) ++ leBytes 4 s.stepNo)

/-! ### Death of a channel (R233, R237, R239, R240) -/

/-- FAULT G7_NO_RESERVE. -/
def State.noReserve (s : State) (c serves : Nat) (before : Reserve) : State :=
  s.report 0x0809 .fault 7 c (leBytes 1 c ++ leBytes 1 serves ++ leBytes 1 (reserveNum before))

/-- Slots lo to hi − 1 of channel c become poison. -/
def State.loseSlots (s : State) (c lo hi : Nat) : State :=
  s.onMem fun m => { m with
    deadFrom := m.deadFrom ++ [(c, lo, hi)]
    badG7 := m.badG7.filter fun b => !((g7Place (32 * b.1)).1 == c && decide (lo ≤ (g7Place (32 * b.1)).2) && decide ((g7Place (32 * b.1)).2 < hi)) }

/-- WARN G7_CH_DEAD and vector 273 (R237). -/
def State.deadRecord (s : State) (c : Nat) (before : Reserve) (lost : Nat) : State :=
  (s.report 0x0803 .warn 7 c (leBytes 1 c ++ leBytes 1 (reserveNum before) ++ leBytes 4 s.stepNo ++ leBytes 4 lost)).msix 273

/-- A new generation names the dead channel, the lost slots are poison, and the queues are held until RELEASE (R237). Without
a journal copy the module faults (R239). -/
def State.deadRemap (s : State) (c lo hi : Nat) : State :=
  let before := s.mem.reserve
  let g := s.nextGen
  let s := ((s.loseSlots c lo hi).setRemap g ⟨true, 2, s.job.step, c⟩).onMem fun m => { m with
    gen := g, switchDue := false, reserve := .repaired, reserveCh := c, hold := true, holdSince := s.now, coolSince := none }
  let s := s.deadRecord c before (hi - lo)
  if s.mem.jnlCopy = 0 then s.noReserve c (if before = .free then 0xFF else c) before else s

/-- The writes parked at a channel that has died go to the reserve that serves it now: no access is dropped (R232, R237). -/
def State.unpark (s : State) (c : Nat) : State :=
  let mine (w : Nat × List Byte) : Bool := (g7Place (32 * (w.1 / 32))).1 == c
  let t := s.onMem fun m => { m with parked := m.parked.filter fun w => !mine w }
  if s.mem.reserve = .repaired ∧ s.mem.reserveCh = c then (s.mem.parked.filter mine).foldl (fun s w => s.writeG7Cw w.1 w.2 (w.1 / 32)) t else t

/-- A channel dies at its third consecutive failed retrain. -/
def State.channelDead (s : State) (c : Nat) : State :=
  let s := s.onChannel c fun ch => { ch with state := .dead, throttle := 0, park := 0 }
  let m := s.mem
  (State.channelRetired · c) <| State.unpark (c := c) <| match m.reserve with
  | .free => s.deadRemap c 0 dataSlots
  | .migrating =>
    if m.reserveCh = c then s.deadRemap c m.migDone.toNat dataSlots
    else ((s.loseSlots c 0 dataSlots).deadRecord c m.reserve dataSlots).noReserve c m.reserveCh m.reserve
  | .returning =>
    if m.reserveCh = c then s.deadRemap c 0 m.migDone.toNat
    else ((s.loseSlots c 0 dataSlots).deadRecord c m.reserve dataSlots).noReserve c m.reserveCh m.reserve
  | .thermal =>
    if m.reserveCh = c then
      -- R240: no data is lost, the generation changes KIND, and no replay follows
      -- but without a journal copy any death faults the module (R239)
      let s := ((s.setRemap m.gen { s.remap m.gen with kind := 2 }).onMem fun m => { m with reserve := .repaired, coolSince := none }).deadRecord c .thermal 0
      if m.jnlCopy = 0 then s.noReserve c c .thermal else s
    else ((s.loseSlots c 0 dataSlots).deadRecord c m.reserve dataSlots).noReserve c m.reserveCh m.reserve
  | .repaired => ((s.loseSlots c 0 dataSlots).deadRecord c m.reserve dataSlots).noReserve c m.reserveCh m.reserve

/-! ### Retraining (R231 to R233) -/

/-- G7_RETRAIN_DONE: an attempt ends (detector 0x0804 fails it). -/
def execG7RetrainDone (c : Fin 80) (ok : Bool) (s : State) : Host.Outcome State Fault Refusal :=
  let c := c.val
  if (s.channel c).state ≠ .retrain then .next s
  else
    let i := s.fires 0x0804 7 c
    let s := i.2
    let ch := s.channel c
    if ok ∧ !i.1 then
      let s := s.onChannel c fun ch => { ch with
        state := ch.under, trainTemp := ch.temp, ceTicks := [], park := 0, fails := 0 }
      let s := s.onMem fun m => { m with parked := m.parked.filter fun w => s.g7Channel (32 * (w.1 / 32)) != c }
      .next ((s.report 0x0801 .info 7 c (leBytes 1 c ++ leBytes 1 ch.cause ++ leBytes 4 (s.now - ch.since) ++
        leBytes 2 ch.peakPark)).injEnd 7 c).throttle
    else
      let n := ch.fails + 1
      let s := (s.onChannel c fun ch => { ch with fails := n }).report 0x0802 .warn 7 c
        (leBytes 1 c ++ leBytes 1 n ++ leBytes 4 s.stepNo)
      .next ((if 3 ≤ n then s.channelDead c else s).injEnd 7 c).throttle

/-! ### Temperature (R241 to R243) -/

/-- Entry thresholds of Table 08-4 in units of 1/16 °C; a level is left 2 °C below its threshold. -/
def throttleEntry : List (Nat × Int) := [(1, 1520), (2, 1568), (3, 1616), (4, 1648)]

/-- The throttle level after a reading t from level `old`. -/
def throttleLevel (old : Nat) (t : Int) : Nat :=
  throttleEntry.foldl (fun n e => if e.2 ≤ t ∨ (e.1 ≤ old ∧ e.2 - 32 ≤ t) then e.1 else n) 0

/-- A device's temperature: the highest of its four channels. -/
def State.deviceTemp (s : State) (d : Nat) : Int :=
  (List.range 4).foldl (fun t k => max t (s.channel (4 * d + k)).temp) (s.channel (4 * d)).temp

/-- The hottest of a device's live channels at or above 105 °C (R242). -/
def State.hottest (s : State) (d : Nat) : Option Nat :=
  let hot := ((List.range 4).map (4 * d + ·)).filter fun c => decide (1680 ≤ (s.channel c).temp) && (s.channel c).state != .dead
  hot.find? fun c => hot.all fun k => decide ((s.channel k).temp ≤ (s.channel c).temp)

/-- The retrain that a reading starts: errors on 8 accesses, 10 °C since the last training, or detector 0x0803. -/
def State.tempRetrain (s : State) (c linkErrs : Nat) (det : Bool) : State :=
  let ch := s.channel c
  let d := ch.temp - ch.trainTemp
  if ch.state = .retiredThermal then s
  else if 8 ≤ linkErrs then s.g7Retrain c 1
  else if 160 < d ∨ d < -160 then s.g7Retrain c 2
  else if det then s.g7Retrain c 3
  else s

/-- Notes of entering levels 1 and 4 (Table 08-5). -/
def State.throttleNotes (s : State) (c old new : Nat) : State :=
  [1, 4].foldl (fun s k => if old < k ∧ k ≤ new then
    s.report 0x0805 .note 7 c (leBytes 1 (c / 4) ++ leBytes 1 c ++ leBytes 1 k ++ [0] ++ leBytes 2 (twos 16 (s.channel c).temp)) else s) s

/-- A channel at 105 °C is retired when the reserve is free; one at 108 °C that cannot be faults the module (R242). -/
def State.tempRetire (s : State) (c : Nat) : State :=
  let can := s.mem.reserve == .free && fld s.mem.ctrl 0 1 == 1
  let ch := s.channel c
  match s.hottest (c / 4) with
  | none => s
  | some h =>
    if can then s.retireThermal h
    else if 1728 ≤ ch.temp ∧ ch.state ≠ .dead ∧
        !(s.mem.reserveCh == c && (s.mem.reserve == .migrating || s.mem.reserve == .thermal)) then
      s.report 0x080B .fault 7 c (leBytes 1 (c / 4) ++ leBytes 1 c ++ leBytes 2 (twos 16 ch.temp))
    else s

/-- G7_TEMP_READ. Detector 0x0805 adds its offset to the reading. -/
def execG7TempRead (ch : Fin 80) (temp : Int) (linkErrs : Nat) (s : State) : Host.Outcome State Fault Refusal :=
  let c := ch.val
  if !s.mainUp then .next s
  else
    let i := s.opportunity 0x0805 7 c 0 fun _ => true
    let r := i.2.fires 0x0803 7 c
    let s := r.2
    let old := (s.channel c).throttle
    let t := temp + 16 * ((i.1.getD 0 : Nat) : Int)
    let off := (s.channel c).state == .dead || (s.channel c).state == .retiredThermal
    let new := if off then 0 else throttleLevel old t
    let s := s.onChannel c fun x => { x with temp := t, throttle := new }
    let s := (s.throttleNotes c old new).tempRetrain c linkErrs r.1
    let s := s.tempRetire c
    let cool := decide (s.deviceTemp (s.mem.reserveCh / 4) < 1440)
    let s := s.onMem fun m => { m with
      coolSince := if m.reserve = .thermal ∧ cool then some (m.coolSince.getD s.now) else none }
    .next (if (s.channel c).state = .retrain then s else s.injEnd 7 c).throttle

/-- THERMAL_RETURN_START (R242). -/
def execThermalReturnStart (s : State) : Host.Outcome State Fault Refusal :=
  match s.mem.coolSince with
  | none => .next s
  | some t =>
    if s.mem.reserve ≠ .thermal then .next s
    else
      let s := s.passTo (t + 100000000)
      let c := s.mem.reserveCh
      let s := ((s.setRemap s.nextGen Reset.remap).onMem fun m => { m with reserve := .returning, migDone := 0, coolSince := none }).setChState c .returning
      .next (s.report 0x0807 .info 7 c
        (leBytes 1 (c / 4) ++ leBytes 1 c ++ leBytes 2 (twos 16 (s.channel c).temp) ++ leBytes 4 s.stepNo))

/-- LP_TEMP_READ (R243). Detector 0x0809 names a channel of the package. -/
def execLpTempRead (l : Fin 16) (temp : Int) (s : State) : Host.Outcome State Fault Refusal :=
  let n := l.val
  if !s.mainUp then .next s
  else
    let a := (List.range 4).foldl (fun (a : Nat × State) k =>
      let i := a.2.opportunity 0x0809 8 (4 * n + k) 0 fun _ => true
      (a.1 + i.1.getD 0, i.2)) (0, s)
    let s := a.2
    let t := temp + 16 * (a.1 : Int)
    let old := (s.lp (4 * n)).throttle
    let new := throttleLevel old t
    let s := s.onMem fun m => { m with lpTemp := Sparse.put 0 m.lpTemp n t }
    let s := (List.range 4).foldl (fun s k => s.onLp (4 * n + k) fun x => { x with throttle := new }) s
    let s := if old < new then s.report 0x080E .note 8 (4 * n) (leBytes 1 n ++ [0] ++ leBytes 1 new ++ [0] ++ leBytes 2 (twos 16 t)) else s
    let s := if 1728 ≤ t then s.report 0x080C .fault 8 (4 * n) (leBytes 1 n ++ leBytes 1 (4 * n) ++ leBytes 2 (twos 16 t)) else s
    .next ((List.range 4).foldl (fun s k => s.injEnd 8 (4 * n + k)) s).throttle

/-- LP5X_RETRAIN_DONE (R243). Detector 0x0808 fails the attempt. -/
def execLp5xRetrainDone (l : Fin 64) (ok : Bool) (s : State) : Host.Outcome State Fault Refusal :=
  let l := l.val
  if !s.mainUp ∨ (s.lp l).dead then .next s
  else
    let i := s.fires 0x0808 8 l
    let s := i.2
    if ok ∧ !i.1 then .next ((s.onLp l fun x => { x with fails := 0 }).injEnd 8 l)
    else
      let n := (s.lp l).fails + 1
      let s := s.onLp l fun x => { x with fails := n, dead := decide (3 ≤ n) }
      .next ((if 3 ≤ n then s.report 0x080D .fault 8 l (leBytes 1 l ++ [0] ++ leBytes 4 s.stepNo) else s).injEnd 8 l)

/-! ### Migration (R236) -/

/-- The G7 granule that R228 places in a slot of a channel. -/
def granuleAt (c slot : Nat) : Nat := 80 * slot + (c + 80 * (slot + 400) - slot - 3 * rowFold 8 slot) % 80

/-- The migration engine copies one codeword: a corrected one is stored corrected. -/
def State.copyWord (s : State) (cw : Nat) : State :=
  let r := s.g7Look cw
  if r.1 = .correctable then r.2.setG7Health cw .good else r.2

/-- MIGRATION_COPY: one slot, paused while the channel retrains (R233). -/
def execMigrationCopy (s : State) : Host.Outcome State Fault Refusal :=
  let m := s.mem
  let c := m.reserveCh
  if !s.mainUp ∨ m.switchDue ∨ (m.reserve ≠ .migrating ∧ m.reserve ≠ .returning) ∨ (s.channel c).state = .retrain then .next s
  else
    let slot := m.migDone.toNat
    let s := (List.range 16).foldl (fun s j => s.copyWord (16 * granuleAt c slot + j)) (s.parkAll (512 * granuleAt c slot) 512)
    let s := s.onMem fun m => { m with migDone := m.migDone + 1 }
    .next (if slot + 1 = dataSlots then s.copyEnd else s)

/-! ### HOLD (R237, R238) -/

/-- A write of MEM_CTRL: reserved bits stay zero, RELEASE reads zero. -/
def memCtrlOf (v : Word64) : Word64 := v &&& 0x0000FF00FFFF0003

/-- A write of MEM_CTRL: RELEASE ends HOLD, and the step is replayed (R237). -/
def State.writeMemCtrl (s : State) (v : Word64) : State :=
  let s := s.onMem fun m => { m with ctrl := memCtrlOf v }
  if fld v 2 1 = 1 ∧ s.mem.hold then (s.onMem fun m => { m with hold := false }).replayStep 3 else s

/-- MEM_RELEASE. -/
def execMemRelease (v : Word64) (s : State) : Host.Outcome State Fault Refusal :=
  .next (if s.linkUp then s.tlp.writeMemCtrl v else s)

/-- HOLD_LIMIT in ticks. -/
def State.holdLimit (s : State) : Nat :=
  let n := fld s.mem.ctrl 16 16
  1000000 * (if n = 0 then 50 else n)

/-- MEM_HOLD_TIMEOUT. -/
def execMemHoldTimeout (s : State) : Host.Outcome State Fault Refusal :=
  if !s.mem.hold ∨ s.boot.faulted then .next s
  else
    let s := s.passTo (s.mem.holdSince + s.holdLimit)
    .next (s.report 0x080A .fault 7 s.mem.reserveCh (leBytes 1 s.mem.reserveCh ++ [0] ++ leBytes 4 s.stepNo))

/-! ### Patrol scrub (R225) -/

/-- Granules of G7 and of the slow tier. -/
def g7Granules : Nat := 147230720
def slowGranules : Nat := slowSize / 512

/-- What the scrubber finds in the media joins the codeword's health. -/
def worse (h : CwHealth) : Option CwFind → CwHealth
  | none => h
  | some .uncorrectable => if h.isBad then h else .uncorrectable
  | some .corrected => if h = .good then .correctable else h

/-- The scrubber reads one codeword and rewrites one that it corrects. -/
def State.scrubWord (s : State) (slow : Bool) (cw : Nat) (f : Option CwFind) : State :=
  if slow then
    let s := s.setSlowHealth cw (worse (Sparse.get .good s.mem.badSlow cw) f)
    let r := s.slowLook cw
    if r.1 = .correctable then r.2.setSlowHealth cw .good else r.2
  else
    let s := s.setG7Health cw (worse (s.g7Health cw) f)
    let r := s.g7Look cw
    if r.1 = .correctable then r.2.setG7Health cw .good else r.2

/-- PATROL_SCRUB: the next granule of a store; a pass is complete when every granule of both has been read. -/
def execPatrolScrub (slow : Bool) (finds : List (Fin 16 × CwFind)) (s : State) : Host.Outcome State Fault Refusal :=
  let g := if slow then s.mem.scrubSlow else s.mem.scrubG7
  if !s.mainUp ∨ fld s.mem.ctrl 1 1 = 0 ∨ (if slow then slowGranules else g7Granules) ≤ g then .next s
  else
    let s := (List.range 16).foldl (fun s j =>
      s.scrubWord slow (16 * g + j) ((finds.find? fun f => f.1.val == j).map (·.2))) (if slow then s else s.parkAll (512 * g) 512)
    let s := s.onMem fun m => if slow then { m with scrubSlow := g + 1 } else { m with scrubG7 := g + 1 }
    if g7Granules ≤ s.mem.scrubG7 ∧ slowGranules ≤ s.mem.scrubSlow then
      .next (s.onMem fun m => { m with scrubG7 := 0, scrubSlow := 0, scrubPass := inc m.scrubPass })
    else .next s

/-! ### The ledger of G7 ranges (R385) -/

/-- Bytes that a slot holds. -/
def State.memUse (s : State) (j : Nat) : Nat := ((s.job.grants.filter fun g => g.slot == j).map (·.size)).sum

/-- A use above the quota; a quota of 0 means none. -/
def overQuota (quota used : Nat) : Bool := quota != 0 && decide (quota < used)

/-- MEM_QUOTA. -/
def memQuotaCmd (p : List Byte) (s : State) : CmdResult :=
  let j := le p 0 1
  if 7 < j then refuse s stBadOpcode
  else
    let q := le p 8 8
    let s := s.onJob fun t => { t with quota := Sparse.put 0 t.quota j q }
    if overQuota q (s.memUse j) then refuse s stOverQuota else .done stOk [] s
def execMemQuota (r : Route) (s : State) : Host.Outcome State Fault Refusal := .next (s.command r 0x0401 memQuotaCmd)

def roundUp (a n : Nat) : Nat := (n + a - 1) / a * a

/-- The lowest aligned address from `at'` on whose range meets no granted range. -/
def fitFrom (grants : List MemGrant) (size align : Nat) : Nat → Nat → Nat
  | 0, a => a
  | n + 1, a =>
    match grants.find? fun g => decide (a < g.addr + g.size) && decide (g.addr < a + size) with
    | some g => fitFrom grants size align n (roundUp align (g.addr + g.size))
    | none => a

/-- MEM_ALLOC. -/
def memAllocCmd (p : List Byte) (s : State) : CmdResult :=
  let j := le p 0 1
  let size := le p 8 8
  let align := le p 16 8
  if 7 < j ∨ size = 0 ∨ align < 4096 ∨ !((List.range 64).any fun k => align == 2 ^ k) then refuse s stBadOpcode
  else
    let q := Sparse.get 0 s.job.quota j
    let a := fitFrom s.job.grants size align (s.job.grants.length + 1) 0
    if overQuota q (s.memUse j + size) ∨ g7Size < a + size then refuse s stOverQuota
    else .done stOk (leBytes 8 a) (s.onJob fun t => { t with grants := t.grants ++ [⟨j, a, size⟩] })
def execMemAlloc (r : Route) (s : State) : Host.Outcome State Fault Refusal := .next (s.command r 0x0402 memAllocCmd)

/-- MEM_FREE. -/
def memFreeCmd (p : List Byte) (s : State) : CmdResult :=
  let j := le p 0 1
  let a := le p 8 8
  if s.job.grants.any fun g => g.slot == j && g.addr == a then
    .done stOk [] (s.onJob fun t => { t with grants := t.grants.filter fun g => !(g.slot == j && g.addr == a) })
  else refuse s stBadOpcode
def execMemFree (r : Route) (s : State) : Host.Outcome State Fault Refusal := .next (s.command r 0x0403 memFreeCmd)

/-- MEM_USAGE: quota and use of each job slot. -/
def memUsageCmd (_ : List Byte) (s : State) : CmdResult :=
  .done stOk ((List.range 8).flatMap fun j => leBytes 8 (Sparse.get 0 s.job.quota j) ++ leBytes 8 (s.memUse j)) s
def execMemUsage (r : Route) (s : State) : Host.Outcome State Fault Refusal := .next (s.command r 0x0404 memUsageCmd)

/-! ### Start-up phase 6 -/

/-- STARTUP_MEMORY: the data buses train (Table 08-2) and the companion comes up. -/
def execStartupMemory (g7 lp : Bool) (s : State) : Host.Outcome State Fault Refusal :=
  if s.boot.phase ≠ 6 ∨ s.boot.springHeld then .next s
  else if !g7 then .next (s.hold 4)
  else if !lp then .next (s.hold 5)
  else
    let s := s.onMem fun m => { m with
      channels := m.channels.filterMap fun c =>
        let x := { c.2 with trainTemp := c.2.temp, ceTicks := [] }
        if x = Reset.channel then none else some (c.1, x) }
    .next (s.onBoot fun b => { b with phase := 7 })

end Sys2Proof.Machine
end

