-- ==== Sys2Proof/Machine/Fdt.lean ====
section
/-! DEFINITION. The Frafin datagram transport (R323 to R329): packets, the sender with its window and timers, the receiver with
its reorder buffer, congestion response and violations. Byte order is the network's (R323). -/

namespace Sys2Proof.Machine

/-! ### Ports and packets -/

/-- A connection id that this module has not chosen before (R325): the first from a drawn one on. -/
def State.newId (s : State) : Word32 × State :=
  let d := s.draw
  let id := match (List.range (s.eth.ids.length + 1)).find? fun i => !s.eth.ids.contains (d.1.setWidth 32 + BitVec.ofNat 32 i) with
    | some i => d.1.setWidth 32 + BitVec.ofNat 32 i
    | none => d.1.setWidth 32
  (id, d.2.onEth fun e => { e with ids := id :: e.ids })

/-- Line rate of the ports of a connection that are UP, Mb/s (R321). -/
def State.lineRate (s : State) (ports : Nat) : Nat :=
  400000 * ((List.range 2).filter fun i => bitOf ports i && (s.ethPort i).state == 1).length

/-- The port of the next packet of a connection: both in turn, the other when one is not UP (R325). -/
def State.pickPort (s : State) (c : Conn) : Option Nat :=
  let up (i : Nat) : Bool := bitOf c.ports i && (s.ethPort i).state == 1
  let o := 1 - c.lastPort
  if up o then some o else if up c.lastPort then some c.lastPort else none

/-- Types of Table 11-4. -/
def ftData : Nat := 1
def ftAck : Nat := 2
def ftNak : Nat := 3
def ftOpen : Nat := 4
def ftOpenAck : Nat := 5
def ftClose : Nat := 6
def ftCnp : Nat := 7
def ftProbe : Nat := 8

/-- The bytes of a packet: the header of Table 11-4, the message header, the payload and the CRC-32C (R323). -/
def fdtPacket (type flags port : Nat) (dst src psn ack : Word32) (sack window : Nat) (msg : Word32) (off : Nat)
    (header data : List Byte) : List Byte :=
  let b := beBytes 1 (16 + type) ++ beBytes 1 (flags + 4 * port) ++ beBytes 2 data.length ++ beBytes 4 dst.toNat ++
    beBytes 4 src.toNat ++ beBytes 4 psn.toNat ++ beBytes 4 ack.toNat ++ beBytes 2 sack ++ beBytes 2 window ++
    beBytes 4 msg.toNat ++ beBytes 4 off ++ header ++ data
  b ++ beBytes 4 (crc32c b)

/-- UDP source port of a connection (R323). -/
def fdtSource (a b : Word32) : Nat := 49152 + Config.fdtPortHash a b % 16384

/-- SACK of a receiver: bit 15 − i when ACK_PSN + 1 + i has been received. -/
def sackOf (c : Conn) : Nat :=
  ((List.range 16).map fun i => if c.rxAhead.contains (c.rxPsn + 1 + BitVec.ofNat 32 i) then 2 ^ (15 - i) else 0).sum

/-- The address of an Ethernet port (CFG_FDT_PORT). -/
def EthPort.addr (e : EthPort) : Nat := le e.config 0 16

/-- An address is IPv6; one below 2^32 is IPv4 (notes/assumptions/66.md). -/
def isV6 (a : Nat) : Bool := decide (2 ^ 32 ≤ a)

/-- The one's complement sum of 16-bit words. -/
def onesSum (n : Nat) (b : List Byte) : Nat :=
  match n, b with
  | 0, _ => 0
  | n + 1, b => if b.isEmpty then 0 else
      let t := be b 0 2 + onesSum n (b.drop 2)
      t % 65536 + t / 65536

/-- The UDP checksum over the IPv6 pseudo-header, the UDP header and the payload; zero on IPv4 (R323). -/
def udpChecksum (own remote source port : Nat) (b : List Byte) : Nat :=
  if !isV6 remote then 0
  else
    let x := beBytes 16 own ++ beBytes 16 remote ++ beBytes 4 (b.length + 8) ++ beBytes 4 17 ++ beBytes 2 source ++ beBytes 2 port ++
      beBytes 2 (b.length + 8) ++ b
    let c := 65535 - onesSum x.length x
    if c = 0 then 65535 else c

/-- What a frame carries before the FDT header (R323): tag, DF on IPv4, the DSCP and PORT of FDT_CFG, ECT(0), the checksum. -/
def State.fdtHead (s : State) (port remote source : Nat) (b : List Byte) : FdtHead where
  vlan := le (s.ethPort port).config 16 2
  v6 := isV6 remote
  df := !isV6 remote
  dscp := s.eth.dscp
  ecn := 2
  dstPort := s.eth.udpPort
  checksum := udpChecksum (s.ethPort port).addr remote source s.eth.udpPort b

/-- Puts a frame on a port; a pause of the FDT priority holds it (R328). -/
def State.sendFrame (s : State) (port remote source : Nat) (b : List Byte) : State :=
  let o := Out.fdt port remote source (s.fdtHead port remote source b) b
  if s.now < (s.ethPort port).pausedTo then s.onEthPort port fun e => { e with held := e.held ++ [o] }
  else (s.onEthPort port fun e => { e with txFrames := inc e.txFrames }).emit o

/-- Sends a packet of connection slot k; none goes out while no port of the connection is UP. -/
def State.fdtSend (s : State) (k type flags : Nat) (psn msg : Word32) (off : Nat) (header data : List Byte) : State :=
  let c := s.conn k
  match s.pickPort c with
  | none => s
  | some i =>
    let b := fdtPacket type flags i c.remoteId c.localId psn c.rxPsn (sackOf c) 4096 msg off header data
    (s.onConn k fun c => { c with lastPort := i, lastHeard := s.now }).sendFrame i c.remote (fdtSource c.localId c.remoteId) b

/-! ### Sending messages -/

/-- Flags of a DATA packet: FIRST, LAST, ACK_REQ on the last packet of a message, RETX. -/
def partFlags (p : FdtPart) (retx : Bool) : Nat := 128 * bit p.first + 64 * bit p.last + 32 * bit p.last + 16 * bit retx

/-- Transmits a packet with its PSN. -/
def State.fdtTransmit (s : State) (k : Nat) (psn : Word32) (p : FdtPart) (retx : Bool) : State :=
  (s.fdtSend k ftData (partFlags p retx) psn p.msg p.offset p.header p.data).onConn k fun c => { c with
    txBytes := addW c.txBytes p.data.length, retx := if retx then inc c.retx else c.retx }

/-- Sends waiting packets while fewer than min(WINDOW, 4,096) are outstanding (R326). -/
def State.fdtPumpFrom (s : State) (k : Nat) : List FdtPart → State
  | [] => s.onConn k fun c => { c with sendQ := [] }
  | p :: r =>
    let c := s.conn k
    if c.unacked.length < min c.window 4096 ∧ c.state = .open_ then
      State.fdtPumpFrom ((s.fdtTransmit k c.psn p false).onConn k fun c => { c with
        psn := c.psn + 1, unacked := c.unacked ++ [⟨c.psn, p, s.now, false⟩], timer := some (c.timer.getD s.now) }) k r
    else s.onConn k fun c => { c with sendQ := p :: r }
def State.fdtPump (s : State) (k : Nat) : State := s.fdtPumpFrom k (s.conn k).sendQ

/-- The message header of Table 11-5; its POST target, as every FDT field, most significant byte first (R11). -/
def msgHeader (kind : Nat) (post : List Byte) (addr len : Nat) (tag : Word32) : List Byte :=
  beBytes 1 kind ++ (padTo 7 post).reverse ++ beBytes 8 addr ++ beBytes 8 len ++ beBytes 4 tag.toNat ++ beBytes 4 0

/-- The packets of a message: pieces of the connection's largest payload (R324). -/
def partsOf (id : Word32) (header : List Byte) (mtu : Nat) : Nat → Nat → List Byte → List FdtPart
  | 0, _, _ => []
  | n + 1, off, d =>
    let rest := d.drop mtu
    ⟨id, off == 0, rest.isEmpty, off, if off = 0 then header else [], d.take mtu⟩ ::
      (if rest.isEmpty then [] else partsOf id header mtu n (off + mtu) rest)

/-- Hands a message to a connection: its MSG_ID is the next one (R327). -/
def State.fdtMessage (s : State) (k kind : Nat) (post : List Byte) (addr : Nat) (data : List Byte) (owner : FdtOwner) : State :=
  let c := s.conn k
  let id := c.nextMsg
  let parts := partsOf id (msgHeader kind post addr data.length id) (max c.mtu 32) (data.length + 1) 0 data
  (s.onConn k fun c => { c with
    nextMsg := id + 1, sendQ := c.sendQ ++ parts, pending := c.pending ++ [(id, owner)] }).fdtPump k

/-- Sends a group message over a connection as a CONTROL message (Table 11-5). -/
def State.fdtControl (s : State) (k : Nat) (bytes : List Byte) : State :=
  if (s.conn k).state = .open_ then s.fdtMessage k 1 [] 0 (padTo 32 bytes) .control else s

/-! ### The cross-group ring (R303) -/

/-- The module address of unit u of this owner's KGRAD place, at which an owner of another group writes it. -/
def State.ringAddr (s : State) (st u : Nat) : Nat := (s.rword st 3).toNat + 4224 * (u / 4) + 1024 * (u % 4)

/-- Sends a unit to the owner at this position in the next group; without a connection it waits. -/
def State.ringSend (s : State) (key : Nat) (d : List Byte) : State :=
  let k := s.groupSlot ((s.groupNo + 1) % s.groups)
  if (s.conn k).state = .open_ then s.fdtMessage k 0 [] (s.ringAddr (key / 2 ^ 32) (key % 2 ^ 32)) d .ring
  else s.onChd fun c => { c with ringOut := c.ringOut ++ [(key, d)] }

/-- Sends what waits for a connection. -/
def State.ringPump (s : State) : State :=
  s.chd.ringOut.foldl (fun s d => s.ringSend d.1 d.2) (s.onChd fun c => { c with ringOut := [] })

/-- The unit that a WRITE message brings: its address names a KGRAD place of this owner while the ring of its stream runs. -/
def State.ringUnitOf (s : State) (kind addr len : Nat) : Option Nat :=
  if s.groups ≤ 1 ∨ kind ≠ 0 ∨ len ≠ 1056 then none
  else ((List.range 1024).filter s.ringRuns).findSome? fun st =>
    let d := addr - (s.rword st 3).toNat
    let u := 4 * (d / 4224) + d % 4224 / 1024
    if s.ringAddr st u = addr ∧ u < s.ringUnits st then some (rKey st u) else none

/-! ### Ends of operations and of connections -/

/-- A TFDT of a core has ended. -/
def State.fdtCopy (s : State) (c k : Nat) (msg : Word32) (r : CopyRes) : State :=
  let x := Sparse.get Reset.jvi s.comp.cores c
  let f : StreamCopy → StreamCopy
    | .tfdt k' m r' => if k' = k ∧ m = msg then .tfdt k' m r else .tfdt k' m r'
    | y => y
  s.onComp fun t => { t with cores := Sparse.put Reset.jvi t.cores c { x with copies := x.copies.map f } }

/-- The operations of a connection end with ST_TIMEOUT; an export or repair over it ends so too and stays open (R221). -/
def State.dropPending (s : State) (k : Nat) : State :=
  let s := (s.conn k).pending.foldl (fun s p => match p.2 with | .core c => s.fdtCopy c k p.1 .timeout | _ => s) s
  let s := match s.comp.export_ with
    | some e => if e.slot = k then (s.endCommand e.route stTimeout []).onComp fun t => { t with export_ := some { e with route := none } } else s
    | none => s
  match s.comp.repair with
  | some e => if e.slot = k then (s.endCommand e.route stTimeout []).onComp fun t => { t with repair := none } else s
  | none => s

/-- A connection stops in a state: what was being sent and received is dropped; an opening that waits ends. -/
def State.connStop (s : State) (k : Nat) (st : ConnState) : State :=
  let c := s.conn k
  (((s.dropPending k).endCommand c.openRoute stTimeout []).onConn k fun c => { c with
    state := st, openRoute := none, sendQ := [], unacked := [], pending := [], timer := none, dupAcks := 0, reorder := [], msgs := []
    rxAhead := [], unackedRx := 0 })

/-- A connection is LOST: WARN FDT_CONN_LOST and vector 276 (R326, Table 11-10). -/
def State.connLost (s : State) (k cause : Nat) : State :=
  let c := s.conn k
  let s := s.connStop k .lost
  (s.report 0x0B04 .warn 0x0B k (leBytes 1 k ++ leBytes 1 cause ++ [0, 0] ++ leBytes 4 c.remoteId.toNat ++
    leBytes 4 c.pending.length)).msix 276

/-! ### Acknowledgements at the sender -/

/-- A round-trip sample in the manner of RFC 6298, clamped (R326). -/
def rttSample (c : Conn) (r : Nat) : Conn :=
  let first := c.srtt8 == 0
  let srtt := if first then 8 * r else c.srtt8 + r - c.srtt8 / 8
  let dev := if c.srtt8 / 8 < r then r - c.srtt8 / 8 else c.srtt8 / 8 - r
  let var := if first then 2 * r else c.rttvar4 + dev - c.rttvar4 / 4
  { c with srtt8 := srtt, rttvar4 := var, rto := min 6400000 (max 10000 (srtt / 8 + max 1 var)) }

/-- Packets at or after ACK_PSN that SACK does not mark. -/
def missing (ack : Word32) (sack : Nat) (u : FdtSent) : Bool :=
  let d := (u.psn - ack).toNat
  d == 0 || decide (16 < d) || !bitOf sack (16 - d)

/-- Retransmits the packets that a test selects, with RETX set. -/
def State.fdtResend (s : State) (k : Nat) (p : FdtSent → Bool) : State :=
  let s := (s.conn k).unacked.foldl (fun s u => if p u then s.fdtTransmit k u.psn u.part true else s) s
  s.onConn k fun c => { c with unacked := c.unacked.map fun u => if p u then { u with tick := s.now, retx := true } else u }

/-- The first unacknowledged PSN. -/
def Conn.base (c : Conn) : Word32 := c.psn - BitVec.ofNat 32 c.unacked.length

/-- ACK_PSN or SACK names a packet never sent (Table 11-7 row 13). -/
def ackBeyond (c : Conn) (ack : Word32) (sack : Nat) : Bool :=
  let n := c.unacked.length
  let d := (ack - c.base).toNat
  (decide (n < d) && decide (d < 2 ^ 31)) ||
    (List.range 16).any fun i => bitOf sack (15 - i) && decide (n ≤ d + 1 + i) && decide (d < 2 ^ 31)

/-- Takes the acknowledgement of a packet: released packets, completed operations (each with whether it was rejected), and the
state. `nak` says that it came as NAK (R326, R327). -/
def State.fdtAcked (s : State) (k : Nat) (nak reject : Bool) (ack : Word32) (sack window : Nat) (msg : Word32) :
    List (FdtOwner × Bool) × State :=
  let c := s.conn k
  let d := (ack - c.base).toNat
  let fresh : Bool := decide (0 < d) && decide (d ≤ c.unacked.length)
  let gone := if fresh then c.unacked.take d else []
  let c := { c with unacked := if fresh then c.unacked.drop d else c.unacked, window := window }
  let c : Conn := if fresh then
      let c : Conn := match gone.getLast? with
        | some u => if u.retx then c else rttSample c (s.now - u.tick)
        | none => c
      { c with timer := if c.unacked.isEmpty then none else some s.now, expiries := 0, dupAcks := 0, lastAck := ack }
    else if !nak ∧ ack = c.lastAck ∧ !c.unacked.isEmpty then { c with dupAcks := c.dupAcks + 1 }
    else { c with lastAck := ack, dupAcks := 0 }
  let ends (p : Word32 × FdtOwner) : Bool := if reject then p.1 == msg else decide ((msg - p.1).toNat < 2 ^ 31)
  let done := c.pending.filter ends
  let third := decide (c.dupAcks = 3)
  let s := s.onConn k fun _ => { c with pending := c.pending.filter fun p => !ends p }
  let s := if nak ∨ third then s.fdtResend k (missing ack sack) else s
  let s := done.foldl (fun s p => match p.2 with
    | .core x => s.fdtCopy x k p.1 (if reject then .rejected else .ok)
    | _ => s) s
  (done.map fun p => (p.2, reject), s.fdtPump k)

/-! ### The receiver -/

/-- Sends an ACK or a NAK. -/
def State.fdtReply (s : State) (k type : Nat) (reject ce : Bool) (msg : Word32) : State :=
  (s.fdtSend k type (2 * bit reject + 8 * bit ce) 0 msg 0 [] []).onConn k fun c => { c with unackedRx := 0 }
def State.fdtAckNow (s : State) (k : Nat) (ce : Bool) : State := s.fdtReply k ftAck false ce (s.conn k).doneMsg

/-- The place of a WRITE message that lies in space 0x0 or 0x3 (Table 11-7 row 12). -/
def writePlace (addr len : Nat) : Option Loc := locRange addr len fun l => l.isG7 || l.isSlow

/-- A message as its FIRST packet announces it. -/
def fdtMsgOf (id : Word32) (h : List Byte) : FdtMsg :=
  let kind := be h 0 1
  let len := be h 16 8
  { id := id, kind := kind, post := (slice h 1 7).reverse, addr := be h 8 8, len := len, placed := []
    reject := (kind == 0 && (writePlace (be h 8 8) len).isNone) || decide (2 < kind) || len == 0 || decide (2 ^ 40 < len), data := [] }

/-- Places a piece of a message; a piece that runs past MSG_LEN counts but is not placed, and one of the cross-group ring is kept. -/
def State.fdtPlace (s : State) (k : Nat) (id : Word32) (off : Nat) (d : List Byte) : State :=
  match (s.conn k).msgs.find? (·.id == id) with
  | none => s
  | some m =>
    let fits := decide (off + d.length ≤ m.len)
    let ring := (s.ringUnitOf m.kind m.addr m.len).isSome
    let s := if m.kind = 0 ∧ !ring ∧ !m.reject ∧ fits then
        (match writePlace m.addr m.len with | some l => s.writeLoc (l.add off) d | none => s) else s
    s.onConn k fun c => { c with msgs := c.msgs.map fun x =>
      if x.id = id then { x with
        placed := (off, d.length) :: x.placed, data := if (x.kind = 0 ∧ !ring) ∨ !fits then x.data else Memory.write x.data off d }
      else x }

/-- Every byte of a message has been placed. -/
def FdtMsg.full (m : FdtMsg) : Bool := decide (m.len ≤ (m.placed.map (·.2)).sum)

/-- A group message delivered to the CP: RECOVERING (byte 0 0x18, notes/assumptions/19.md) shows that its group lives and
recovers: the lead Apex holds the step, the group votes anew (R289), and the first step to commit has no deadline (R293);
any other waits for its row. -/
def State.fdtDeliver (s : State) (k : Nat) (b : List Byte) : State :=
  if le b 0 1 = 0x18 then
    let n := s.slotGroup k
    s.onGrp fun g => { g with
      groupHeard := Sparse.put 0 g.groupHeard n (s.now + 1), groupHeld := n :: g.groupHeld.filter (· != n)
      groupVotes := g.groupVotes.filter fun v => v.1 != n, noDeadline := true }
  else s.onEth fun t => { t with inbox := t.inbox ++ [(k, b)] }

/-- Messages complete in MSG_ID order (R327): POST is applied, CONTROL is delivered, a SEGMENT is answered for its reader.
A rejected one is answered with REJECT. -/
def State.fdtCompleteFrom (s : State) (k : Nat) : Nat → List FdtMsg × State
  | 0 => ([], s)
  | n + 1 =>
    let c := s.conn k
    match c.msgs.find? (·.id == c.doneMsg + 1) with
    | none => ([], s)
    | some m =>
      if !m.full then ([], s)
      else
        let s := s.onConn k fun c => { c with doneMsg := m.id, msgs := c.msgs.filter (·.id != m.id) }
        if m.reject then State.fdtCompleteFrom (s.fdtReply k ftAck true false m.id) k n
        else
          let t := postTarget m.post
          let s := if t.op = 1 then s.scOp t.sc .add (BitVec.ofNat 32 t.value) (.fdt (Fin.ofNat 64 k))
            else if t.op = 2 then s.scOp t.sc .set (BitVec.ofNat 32 t.value) (.fdt (Fin.ofNat 64 k)) else s
          let s := if m.kind = 1 then
              (List.range (m.len / 32)).foldl (fun s i => s.fdtDeliver k (Memory.bytes m.data (32 * i) 32)) s else s
          let s := match s.ringUnitOf m.kind m.addr m.len with
            | some u => s.onChd fun c => { c with ringIn := c.ringIn ++ [(u, Memory.bytes m.data 0 m.len)] }
            | none => s
          let r := State.fdtCompleteFrom s k n
          (if m.kind = 2 then m :: r.1 else r.1, r.2)

/-- Packets held in the module's reorder buffer. -/
def State.reorderUsed (s : State) : Nat := (s.eth.conns.map fun c => c.2.reorder.length).sum

/-- ACK_PSN moves over the PSNs received ahead. -/
def advancePsn : Nat → Word32 → List Word32 → Word32 × List Word32
  | 0, p, l => (p, l)
  | n + 1, p, l => if l.contains p then advancePsn n (p + 1) (l.erase p) else (p, l)

/-- Accepts a PSN. -/
def acceptPsn (c : Conn) (psn : Word32) : Conn :=
  if psn = c.rxPsn then
    let r := advancePsn (c.rxAhead.length) (psn + 1) c.rxAhead
    { c with rxPsn := r.1, rxAhead := r.2 }
  else { c with rxAhead := c.rxAhead ++ [psn] }

/-- Takes the payload of an accepted DATA packet. False when the reorder buffer is full and the packet is dropped. -/
def State.fdtTake (s : State) (k : Nat) (first : Bool) (id : Word32) (off : Nat) (header d : List Byte) : Bool × State :=
  if first then
    let s := s.onConn k fun c => { c with msgs := c.msgs ++ [fdtMsgOf id header] }
    let s := s.fdtPlace k id off d
    let held := (s.conn k).reorder.filter (·.1 == id)
    let s := s.onConn k fun c => { c with reorder := c.reorder.filter (·.1 != id) }
    (true, held.foldl (fun s h => s.fdtPlace k id h.2.1 h.2.2) s)
  else if (s.conn k).msgs.any (·.id == id) then (true, s.fdtPlace k id off d)
  else if s.reorderUsed < 256 then (true, s.onConn k fun c => { c with reorder := c.reorder ++ [(id, off, d)] })
  else (false, s.onEth fun t => { t with dropped := inc t.dropped })

/-! ### Violations (R329) -/

/-- An FDT violation of a row of Table 11-7; its source is the connection slot, or the port when no slot is named. -/
def State.fdtViol (s : State) (row : Nat) (slot : Option Nat) (port : Nat) (b : List Byte) : State :=
  let src := match slot with | some k => (0x0B, k) | none => (0x0A, port)
  (s.onEth fun t => { t with viol := inc t.viol }).rowReport (2000 + row) 0x0B03 .warn src.1 src.2 (leBytes 1 row ++ slice b 0 8)

/-- Row 10: a CLOSE answers at most once per 100,000 ticks per source address. -/
def State.fdtNoConn (s : State) (pkt : FdtPacket) : State :=
  let s := s.fdtViol 10 none pkt.port.val pkt.bytes
  let last := Sparse.get 0 s.eth.closeTicks pkt.src
  if last ≠ 0 ∧ s.now < last - 1 + 100000 then s
  else
    let src : Word32 := BitVec.ofNat 32 (be pkt.bytes 8 4)
    let dst : Word32 := BitVec.ofNat 32 (be pkt.bytes 4 4)
    (s.onEth fun t => { t with closeTicks := Sparse.put 0 t.closeTicks pkt.src (s.now + 1) }).sendFrame pkt.port.val pkt.src
      (fdtSource dst src) (fdtPacket ftClose 0 pkt.port.val src dst 0 0 0 0 0 0 [] [])

/-- Bytes of the packet from the FDT header on that its LEN and flags ask for. -/
def fdtLength (b : List Byte) : Nat :=
  32 + (if be b 0 1 % 16 = 1 ∧ bitOf (be b 1 1) 7 then 32 else 0) + be b 2 2 + 4

/-- Row 9: version, TYPE, LEN against the UDP length, CRC-32C. -/
def fdtMalformed (pkt : FdtPacket) : Bool :=
  let b := pkt.bytes
  let n := fdtLength b
  be b 0 1 / 16 != 1 || be b 0 1 % 16 == 0 || decide (8 < be b 0 1 % 16) || decide (8192 < be b 2 2) || pkt.udpLen != n + 8 ||
    b.length != n || crc32c (b.take (n - 4)) != be b (n - 4) 4

/-- A frame reaches port i: whether the MAC passes it on (R321; detector 0x0B03 fails its FCS). One above 9,216 bytes is not
accepted; one that finds no room in the receiving FIFO is dropped (R47). -/
def State.ethFrame (s : State) (i : Nat) (rx : EthRx) : Bool × State :=
  let f := s.fires 0x0B03 0x0A i
  let s := (f.2.injEnd 0x0A i).onEthPort i fun e => { e with fecCorr := addW e.fecCorr rx.fecCorr }
  if f.1 ∨ !rx.fcsOk then (false, s.onEthPort i fun e => { e with fcsErr := inc e.fcsErr })
  else if 9216 < rx.len then (false, s)
  else
    let s := s.onEthPort i fun e => { e with rxFrames := inc e.rxFrames }
    if rx.fits then (true, s) else (false, s.onEthPort i fun e => { e with rxDrop := inc e.rxDrop })

/-- The slot whose connection has a local id, in a state that passes. -/
def State.fdtSlot (s : State) (id : Word32) (ok : ConnState → Bool) : Option Nat :=
  (List.range 64).find? fun k => ok (s.conn k).state && (s.conn k).localId == id

/-- Congestion mark: a CNP at most once per 5,000 ticks per connection (R328). -/
def State.fdtMark (s : State) (k : Nat) (ce : Bool) : State :=
  let due : Bool := match (s.conn k).cnpTick with | some t => decide (t + 5000 ≤ s.now) | none => true
  if ce ∧ due then (s.onConn k fun c => { c with cnpTick := some s.now }).fdtSend k ftCnp 0 0 0 0 [] [] else s

/-- The datagram is an FDT packet for this port: of its UDP port, with a UDP checksum that holds, in a frame that the MAC passes on
(R322, R323). -/
def State.fdtTaken (s : State) (pkt : FdtPacket) : Bool :=
  (s.ethFrame pkt.port.val pkt.rx).1 && pkt.dstPort == s.eth.udpPort && pkt.checkOk

/-- What becomes of a packet of one of the types: none when the row's step does not take place (no such port is up, or the
packet is of another type), else the slot when it passes every check. A datagram of another UDP port is no FDT packet (R322); one
whose UDP checksum fails is dropped (R323). -/
def State.fdtReceive (s : State) (pkt : FdtPacket) (type : Nat) (ok : ConnState → Bool) : Option (Option Nat × State) :=
  let b := pkt.bytes
  let bad := fdtMalformed pkt
  if (s.ethPort pkt.port.val).state ≠ 1 ∨ (!bad ∧ be b 0 1 % 16 ≠ type) then none
  else
    let f := s.ethFrame pkt.port.val pkt.rx
    if !f.1 then some (none, f.2)
    else if pkt.dstPort ≠ s.eth.udpPort then some (none, f.2.onEthPort pkt.port.val fun e => { e with other := inc e.other })
    else if !pkt.checkOk then some (none, f.2)
    else
      let s := f.2
      let slot := s.fdtSlot (BitVec.ofNat 32 (be b 4 4)) ok
      let i := match slot with
        | some k => s.opportunity 0x0B04 0x0B k 0 fun _ => true
        | none => (none, s)
      let ended (s : State) : State := match slot with | some k => s.injEnd 0x0B k | none => s
      if i.1 = some 1 then some (none, ended i.2)
      else if bad ∨ i.1.isSome then some (none, ended (i.2.fdtViol 9 slot pkt.port.val b))
      else if type = ftOpen then some (none, i.2)
      else let s := i.2
        match slot with
        | none => some (none, s.fdtNoConn pkt)
        | some k =>
          let s := s.onConn k fun c => { c with lastHeard := s.now }
          some (some k, if (s.conn k).state = .open_ then s.fdtMark k pkt.ce else s)

def isOpen (c : ConnState) : Bool := c == .open_

/-- A DATA packet (R326): its SEGMENT messages completed, and the state. -/
def State.fdtDataIn (s : State) (k : Nat) (pkt : FdtPacket) : List FdtMsg × State :=
  let b := pkt.bytes
  let c := s.conn k
  let psn : Word32 := BitVec.ofNat 32 (be b 12 4)
  let d := (psn - c.rxPsn).toNat
  if 4096 ≤ d ∧ (c.rxPsn - psn).toNat > 4096 then ([], (s.fdtViol 11 (some k) pkt.port.val b).fdtAckNow k pkt.ce)
  else if 4096 ≤ d ∨ c.rxAhead.contains psn then ([], s.fdtAckNow k pkt.ce)
  else
    let flags := be b 1 1
    let first := bitOf flags 7
    let hdr := if first then slice b 32 32 else []
    let data := slice b (32 + hdr.length) (be b 2 2)
    let t := s.fdtTake k first (BitVec.ofNat 32 (be b 24 4)) (be b 28 4) hdr data
    if !t.1 then ([], t.2)
    else
      let m := fdtMsgOf 0 hdr
      let s := (if first ∧ m.kind = 0 ∧ m.reject then t.2.fdtViol 12 (some k) pkt.port.val b else t.2).onConn k fun c => { acceptPsn c psn with
        unackedRx := c.unackedRx + 1, ackTick := if c.unackedRx = 0 then s.now else c.ackTick }
      let r := s.fdtCompleteFrom k ((s.conn k).msgs.length + 1)
      let s := r.2
      if psn ≠ c.rxPsn then (r.1, s.fdtReply k ftNak false pkt.ce (s.conn k).doneMsg)
      else if 16 ≤ (s.conn k).unackedRx ∨ bitOf flags 5 then (r.1, s.fdtAckNow k pkt.ce)
      else (r.1, s)

/-! ### Rate (R328) -/

/-- The lowest and the highest rate. -/
def State.clampRate (s : State) (c : Conn) (r : Nat) : Nat := max 1000 (min r (s.lineRate c.ports))

/-- A CNP cuts the rate. -/
def State.rateCut (s : State) (k : Nat) : State :=
  s.onConn k fun c => { c with
    target := c.rate, rate := s.clampRate c (c.rate - c.rate * c.alpha / 131072)
    alpha := c.alpha - c.alpha / 2 ^ s.eth.gShift + 65536 / 2 ^ s.eth.gShift, sinceCut := 0, rateTick := s.now, cnp := inc c.cnp }

/-- A period T without CNP. -/
def State.rateRaise (s : State) (k : Nat) : State :=
  s.onConn k fun c =>
    let target := if c.sinceCut < 5 then c.target else c.target + s.eth.stepA
    { c with
      alpha := c.alpha - c.alpha / 2 ^ s.eth.gShift, target := target, rate := s.clampRate c ((c.rate + target) / 2)
      sinceCut := c.sinceCut + 1, rateTick := s.now }

end Sys2Proof.Machine
end

