-- ==== Sys2Proof/Machine/Links.lean ====
section
/-! DEFINITION. Chord ports (R246 to R261, R275): flits, the arbiter, credits and retry, lane sparing, retraining, violations and
start-up phase 7. -/

namespace Sys2Proof.Machine

/-! ### Cabling (R246 to R248, Table 09-1) -/

/-- The direction of a port under a split, none when unassigned. -/
def portDir (split p : Nat) : Option Nat := (List.range 4).find? fun d => (splitPorts split d).contains p

/-- The opposite direction. -/
def oppDir (d : Nat) : Nat := if d % 2 = 0 then d + 1 else d - 1

/-- The far end of port p of the module at (x, y) as Table 09-1 and R246 require it: x, y, port, direction. -/
def farEnd (split x y p : Nat) : Option (Nat × Nat × Nat × Nat) :=
  match portDir split p with
  | none => none
  | some d =>
    let n := match d with
      | 0 => ((x + 1) % 9, y)
      | 1 => ((x + 8) % 9, y)
      | 2 => (x, (y + 1) % 8)
      | _ => (x, (y + 7) % 8)
    let i := (splitPorts split d).idxOf p
    some (n.1, n.2, (splitPorts split (oppDir d)).getD i 0, oppDir d)

/-- GROUP_ID of the MCB (Table 13-4). -/
def State.groupId (s : State) : Nat := le s.flash.mcb 12 4

/-- A TRAIN flit carries what the cable of port p requires. -/
def State.trainOk (s : State) (p : Nat) (t : PeerId) : Bool :=
  match farEnd s.split s.physX s.physY p with
  | none => false
  | some (x, y, port, dir) =>
    t.group.toNat == s.groupId && t.x == x && t.y == y && t.port == port && t.dir == dir && t.split == s.split

/-- CHD_PEER_ID as received (Table 09-10). -/
def peerReg (t : PeerId) : Word64 :=
  BitVec.ofNat 64 (t.group.toNat * 2 ^ 32 + t.x % 16 * 2 ^ 12 + t.y % 8 * 2 ^ 9 + t.port % 8 * 2 ^ 6 + t.dir % 4 * 16 + t.split % 4 * 4)

/-- A direction of the split with no UP port left is lost (R259); it is no longer once one of its ports is UP. -/
def State.watchDir (s : State) (p : Nat) : State :=
  let d := (s.port p).dir
  if !(s.upPorts d).isEmpty then s.onChd fun c => { c with dirLost := c.dirLost.filter (· != d) }
  else if s.chd.dirLost.contains d then s
  else (s.onChd fun c => { c with dirLost := d :: c.dirLost }).report 0x0905 .fault 9 p
    (leBytes 1 d ++ leBytes 1 (splitPorts s.split d).length ++ [0, 0] ++ leBytes 4 s.stepNo)

/-- A port in training takes the peer's identity: UP (a retrain goes on to its own end), or MISCABLED with WARN CHD_CABLE_MISMATCH (R248). -/
def State.trainPort (s : State) (p : Nat) (t : PeerId) : State :=
  let ran := (s.port p).state == .retrain
  let s := s.onPort p fun o => { o with peer := peerReg t }
  if s.trainOk p t then (if ran then s else (s.onPort p fun o => { o with state := .up, lanes := 8 }).watchDir p)
  else
    let s := (s.onPort p fun o => { o with state := .miscabled }).report 0x0901 .warn 9 p
      (leBytes 1 p ++ leBytes 1 t.x ++ leBytes 1 t.y ++ leBytes 1 t.port ++ leBytes 1 t.dir ++ leBytes 1 t.split ++ leBytes 4 t.group.toNat)
    if ran then s.watchDir p else s

/-! ### Flits (Tables 09-2, 09-3) -/

structure FlitHdr where
  type : Nat
  vc : Nat
  ncw : Nat
  late : Bool
  origVc : Nat
  seq : Word16
  ack : Word16
  crVc : Nat
  crCount : Nat
  dx : Nat
  dy : Nat
  sx : Nat
  sy : Nat
  stream : Nat
  offset : Nat
deriving DecidableEq, Repr

def hdrOf (b : List Byte) : FlitHdr :=
  let w := le b 0 16
  let f := bitsOf w
  ⟨f 124 4, f 121 3, f 116 5, bitOf w 115, f 112 3, BitVec.ofNat 16 (f 96 16), BitVec.ofNat 16 (f 80 16), f 77 3, f 72 5, f 68 4, f 65 3,
    f 61 4, f 58 3, f 48 10, f 8 40⟩

def hdrBytes (h : FlitHdr) : List Byte :=
  leBytes 16 (h.type * 2 ^ 124 + h.vc % 8 * 2 ^ 121 + h.ncw % 32 * 2 ^ 116 + bit h.late * 2 ^ 115 + h.origVc % 8 * 2 ^ 112 + h.seq.toNat * 2 ^ 96 +
    h.ack.toNat * 2 ^ 80 + h.crVc % 8 * 2 ^ 77 + h.crCount % 32 * 2 ^ 72 + h.dx % 16 * 2 ^ 68 + h.dy % 8 * 2 ^ 65 + h.sx % 16 * 2 ^ 61 + h.sy % 8 * 2 ^ 58 +
    h.stream % 1024 * 2 ^ 48 + h.offset % 2 ^ 40 * 2 ^ 8)

/-- Interleave of flit byte b of 0 to 991 (R251). -/
def interleaveOf (b : Nat) : Nat := (b / 8 + b % 8) % 8
/-- The flit byte indices of interleave k, data in ascending order, then its four check bytes. -/
def interleave (k : Nat) : List Nat := ((List.range 992).filter fun b => interleaveOf b == k) ++ [992 + 4 * k, 993 + 4 * k, 994 + 4 * k, 995 + 4 * k]

/-- A flit of a header and codewords, with its CRC and FEC. -/
def flitBytes (h : FlitHdr) (payload : List Byte) : List Byte :=
  let b := hdrBytes h ++ padTo 972 payload
  let b := b ++ leBytes 4 (crc32c b)
  b ++ (List.range 8).flatMap fun k => rsCheck (((interleave k).take 124).map fun i => b.getD i 0)

/-- What the flit FEC finds (R251): the bytes corrected and the indices of corrected bytes, or the bytes as they came. -/
def flitFec (b : List Byte) : List Byte × List Nat :=
  (List.range 8).foldl (fun (a : List Byte × List Nat) k =>
    let ix := interleave k
    match rsDecode (ix.map fun i => b.getD i 0) 2 with
    | .fixed errs =>
      errs.foldl (fun (a : List Byte × List Nat) e =>
        let i := ix.getD e.1 0
        (a.1.set i (a.1.getD i 0 ^^^ BitVec.ofNat 8 e.2), a.2 ++ [i])) a
    | _ => a) (b, [])

/-- The CRC of a flit holds. -/
def flitCrc (b : List Byte) : Bool := crc32c (b.take 988) == le b 988 4

/-- The codewords of a flit's payload. -/
def flitCw (b : List Byte) (i : Nat) : List Byte := slice b (16 + 36 * i) 36

/-! ### Failure and retraining of ports (R258 to R260) -/

/-- The identity that a port sends in a TRAIN flit (R248). -/
def State.ownId (s : State) (p : Nat) : PeerId :=
  ⟨BitVec.ofNat 32 s.groupId, s.physX, s.physY, p, (s.port p).dir, s.split⟩

/-- A TRAIN flit with a module's identity in payload codeword 0, in the order of the payload of CHD_CABLE_MISMATCH. -/
def trainFlit (t : PeerId) : List Byte :=
  flitBytes ⟨4, 0, 1, false, 0, 0, 0, 0, 0, 0, 0, 0, 0, 0, 0⟩ (codeword (padTo 32
    (leBytes 1 t.x ++ leBytes 1 t.y ++ leBytes 1 t.port ++ leBytes 1 t.dir ++ leBytes 1 t.split ++ leBytes 4 t.group.toNat)))

/-- A port in training sends TRAIN flits (R248). -/
def State.sendTrain (s : State) (p : Nat) : State := s.emit (.flit p (trainFlit (s.ownId p)))

/-- A port is FAILED (R259). -/
def State.portFailed (s : State) (p cause : Nat) : State :=
  let d := (s.port p).dir
  let s := s.onPort p fun o => { o with state := .failed }
  let left := (s.upPorts d).length
  (s.report 0x0904 .warn 9 p (leBytes 1 p ++ leBytes 1 cause ++ leBytes 1 d ++ leBytes 1 left ++ leBytes 4 s.stepNo)).watchDir p

/-- A port that runs begins a retrain (R260). -/
def State.portRetrain (s : State) (p : Nat) (loss : Bool) : State :=
  let o := s.port p
  if o.state = .up ∨ o.state = .swap then
    (s.onPort p fun o => { o with
      state := .retrain, retrains := min 255 (o.retrains + 1), retrainSince := s.now, lossRetrain := loss, trainPending := false
      failsInRow := 0 }).sendTrain p
  else s

/-- CHD_ARB.TRANSIT_CREDITS. -/
def State.transitCredits (s : State) : Nat :=
  let t := fld s.chd.arb 28 4
  if 2 ≤ t ∧ t ≤ 12 then t else 4
/-- Reserved credits of each VC of a port (R255), the transit ones as its last retrain took them (Table 09-10). -/
def Port.reserved (o : Port) : List Nat := [2, 2, 2, 2, o.transitCr]
def Port.sharedPool (o : Port) : Nat := 32 - o.reserved.sum

/-- The handling of an injected fault at a port ends, unless it goes on through a retrain (R404). -/
def State.portInjEnd (s : State) (p : Nat) : State := if (s.port p).state = .retrain then s else s.injEnd 9 p
/-- A retrain is over, and with it the handling that it belonged to. -/
def State.portInjOver (s : State) (p : Nat) : State := (s.injEnd 9 p).injEnd 0x109 p

/-- The swap ends at a MARKER: the spare lane takes the position and the port runs on (R258). The record of a swap that an injected
fault started carries INJECTED (R404): Alm.injKeys holds such a swap as source 0x109. -/
def State.swapEnd (s : State) (p : Nat) : State :=
  let o := s.port p
  if o.state ≠ .swap then s
  else
    let inj := srcKey 0x109 p ∈ s.alm.injKeys
    let s := if inj then s.injBegin 9 p else s
    let s := (s.onPort p fun o => { o with state := .up, laneMap := o.laneMap.set o.swapLane 8, spareFor := o.swapLane }).report 0x0902 .note 9
      p (leBytes 1 p ++ leBytes 1 o.swapLane ++ leBytes 1 o.swapCause ++ [0] ++ leBytes 4 (s.now - o.swapSince) ++ leBytes 2 o.resend.length)
    if inj then s.portInjOver p else s

/-- A lane fails in the position given (R258, R259): the spare, then half width, then failure of the port. A swap that runs ends
before the next lane fails. -/
def State.laneFail (s : State) (p pos cause : Nat) : State :=
  let s := s.swapEnd p
  let o := s.port p
  if o.lanes = 4 then s.portFailed p 0
  else if o.spareFor = 15 then
    let s := s.onPort p fun o => { o with state := .swap, swapSince := s.now, swapCause := cause, swapLane := pos }
    if srcKey 9 p ∈ s.alm.injKeys then s.injBegin 0x109 p else s
  else
    (s.onPort p fun o => { o with lanes := 4, laneMap := ((o.laneMap.take 8).eraseIdx pos).take 4 }).report
      0x0903 .warn 9 p (leBytes 1 p ++ leBytes 1 pos ++ leBytes 1 cause ++ [0] ++ leBytes 4 s.stepNo)

/-! ### Violations (R275) -/

/-- A violation of a row of Table 09-8. -/
def State.chdViol (s : State) (p row : Nat) (b : List Byte) : State :=
  let o := s.port p
  let seen := s.now :: o.viols.filter fun t => s.now < t + 100000000
  let s := s.onPort p fun o => { o with viol := inc o.viol, viols := seen, trainPending := o.trainPending || row == 8 }
  let s := s.rowReport (3000 + 16 * p + row) 0x0907 .warn 9 p (leBytes 1 p ++ leBytes 1 row ++ slice b 0 8)
  let limit := s.chd.violLimit.toNat
  if (limit ≠ 0 ∧ limit ≤ seen.length) ∨ o.trainPending then (s.onPort p fun o => { o with viols := [] }).portRetrain p false else s

/-! ### ACK, credits and NAK (R254, R255) -/

/-- ACK of a flit: the replay buffer releases what it covers; one naming a SEQ never sent is ignored (row 4). -/
def State.takeAck (s : State) (p : Nat) (ack : Word16) (b : List Byte) : Bool × State :=
  let o := s.port p
  let n := (ack - o.acked).toNat
  if o.replay.length < n then (false, s.chdViol p 4 b)
  else
    let gone := (o.replay.take n).map (·.1)
    (true, s.onPort p fun o => { o with acked := ack, replay := o.replay.drop n, resend := o.resend.filter fun r => !gone.contains r.1 })

/-- Credits of a VC that are outstanding: reserved ones used and shared ones held. -/
def State.creditsOut (s : State) (p v : Nat) : Nat :=
  let o := s.port p
  (o.reserved.getD v 0 - o.credits.getD v 0) + o.usedShared.getD v 0

/-- Credits that come back fill what the VC holds of the shared pool first; an excess is ignored (row 3). -/
def State.takeCredits (s : State) (p v n : Nat) (b : List Byte) : State :=
  let out := s.creditsOut p v
  let s := if out < n then s.chdViol p 3 b else s
  let k := min n out
  s.onPort p fun o =>
    let sh := min k (o.usedShared.getD v 0)
    { o with
      shared := o.shared + sh, usedShared := o.usedShared.set v (o.usedShared.getD v 0 - sh)
      credits := o.credits.set v (o.credits.getD v 0 + (k - sh)) }

/-- A port has a credit for a flit of a VC (R255); control and transit use their own only. -/
def Port.hasCredit (o : Port) (v : Nat) : Bool :=
  decide (0 < o.credits.getD v 0) || (decide (v = 1 ∨ v = 2 ∨ v = 3) && decide (0 < o.shared))

def Port.useCredit (o : Port) (v : Nat) : Port :=
  if 0 < o.credits.getD v 0 then { o with credits := o.credits.set v (o.credits.getD v 0 - 1) }
  else { o with shared := o.shared - 1, usedShared := o.usedShared.set v (o.usedShared.getD v 0 + 1) }

/-- The other side may send a further flit on a VC: what it has used and not had returned stays within the pools. -/
def State.creditGranted (s : State) (p v : Nat) : Bool :=
  let r := (s.port p).returns
  let res := (s.port p).reserved
  let sh (k : Nat) : Nat := r.getD k 0 - res.getD k 0
  decide (r.getD v 0 < res.getD v 0) ||
    (decide (v = 1 ∨ v = 2 ∨ v = 3) && decide (sh 1 + sh 2 + sh 3 < (s.port p).sharedPool))

/-- The VC whose credits the next flit returns, and how many. -/
def Port.giveBack (o : Port) : Nat × Nat × Port :=
  match (List.range 5).find? fun v => 0 < o.returns.getD v 0 with
  | none => (0, 0, o)
  | some v =>
    let n := min 31 (o.returns.getD v 0)
    (v, n, { o with returns := o.returns.set v (o.returns.getD v 0 - n) })

/-- Puts a flit that carries no payload of its own on the link: IDLE, NAK or MARKER. -/
def State.linkFlit (s : State) (p type : Nat) (payload : List Byte) : State :=
  let g := (s.port p).giveBack
  let h : FlitHdr := ⟨type, 0, if payload.isEmpty then 0 else 1, false, 0, 0, g.2.2.rxSeq, g.1, g.2.1, 0, 0, 0, 0, 0, 0⟩
  (s.onPort p fun _ => { g.2.2 with slots := (8 :: g.2.2.slots).take 64 }).emit (.flit p (flitBytes h payload))

/-- A NAK for a discarded flit, or for a DATA flit out of order while no NAK is outstanding. -/
def State.sendNak (s : State) (p : Nat) : State :=
  -- it takes one of the slots of which one in every 100 is a MARKER (R253)
  (s.linkFlit p 2 []).onPort p fun o => { o with nakOut := true, sinceMarker := o.sinceMarker + 1 }

/-! ### Receiving a flit (R251, R252) -/

/-- The corrections of the last 100,000 ticks. -/
def recent (now : Nat) (l : List (Nat × Nat)) : List (Nat × Nat) := l.filter fun t => now < t.1 + 100000
def errCount (l : List (Nat × Nat)) : Nat := (l.map (·.2)).sum

/-- Corrected bytes count per lane position; more than 4,096 within 100,000 ticks fail the lane (R258). -/
def State.countLane (s : State) (p : Nat) (fixed : List Nat) : State :=
  let o := s.port p
  let found (k : Nat) : Nat := (fixed.filter fun i => i % 8 == k).length
  let errs := (List.range 8).foldl (fun (e : Sparse (List (Nat × Nat))) k =>
    Sparse.put [] e k ((if found k = 0 then [] else [(s.now, found k)]) ++ recent s.now (Sparse.get [] e k))) o.laneErrs
  let s := s.onPort p fun o => { o with fecCorr := addW o.fecCorr fixed.length, laneErrs := errs }
  match (List.range 8).find? fun k => 4096 < errCount (Sparse.get [] errs k) with
  | none => s
  | some k => (s.onPort p fun o => { o with laneErrs := Sparse.put [] o.laneErrs k [] }).laneFail p k 0

/-- Detector 0x0901 corrupts consecutive bytes of lane position 0. -/
def corrupt (b : List Byte) (n : Nat) : List Byte := (List.range n).foldl (fun b r => b.set (8 * r) (b.getD (8 * r) 0 ^^^ 0xFF)) b

/-- What a port makes of an arriving flit. -/
inductive FlitIn where
  /-- No flit of the row's type arrives: the step does not take place. -/
  | none_
  /-- Discarded after the checks. -/
  | bad (s : State)
  /-- A good flit, the row of detector 0x0905 when it fires. -/
  | good (row : Option Nat) (b : List Byte) (s : State)

/-- A port that takes flits. -/
def portRuns (o : Port) : Bool := o.state == .up || o.state == .swap

/-- A reserved TYPE or VC, or NCW above 27 (Table 09-8 row 1). -/
def flitOdd (h : FlitHdr) : Bool := decide (5 ≤ h.type) || decide (5 ≤ h.vc) || decide (27 < h.ncw)

/-- A flit arrives: FEC, CRC, then the type of the row (R251, R252, R254); row 1 of Table 09-8 discards it as a bad CRC does. -/
def State.flitReceive (s : State) (p : Nat) (bytes : List Byte) (ok : Nat → Bool) : FlitIn :=
  let b := padTo 1024 bytes
  let clean := flitFec b
  if !portRuns (s.port p) ∨ !s.mainUp ∨ (flitCrc clean.1 ∧ !ok (hdrOf clean.1).type) then .none_
  else
    let a := s.opportunity 0x0901 9 p 0 fun _ => true
    let c := a.2.fires 0x0902 9 p
    let v := c.2.opportunity 0x0905 9 p 0 fun _ => true
    let t := v.2.fires 0x0904 9 p
    let s := t.2
    let f := match a.1 with | some n => flitFec (corrupt b n) | none => clean
    let s := s.countLane p f.2
    let s := if t.1 then s.portRetrain p false else s
    if !flitCrc f.1 ∨ c.1 then .bad (((s.onPort p fun o => { o with crcErr := inc o.crcErr }).sendNak p).portInjEnd p)
    else if v.1.isNone ∧ flitOdd (hdrOf f.1) then .bad (((s.chdViol p 1 f.1).sendNak p).portInjEnd p)
    else .good v.1 f.1 s

/-- FLIT_IDLE. -/
def execFlitIdle (p : Fin 8) (bytes : List Byte) (s : State) : Host.Outcome State Fault Refusal :=
  let p := p.val
  match s.flitReceive p bytes (· == 0) with
  | .none_ => .next s
  | .bad s => .next s
  | .good row b s =>
    let h := hdrOf b
    let s := match row with | some r => s.chdViol p r b | none => ((s.takeAck p h.ack b).2).takeCredits p h.crVc h.crCount b
    .next (s.portInjEnd p)

/-- FLIT_NAK: the sender resends from ACK + 1; the eighth in a row that names one SEQ starts a retrain. -/
def execFlitNak (p : Fin 8) (bytes : List Byte) (s : State) : Host.Outcome State Fault Refusal :=
  let p := p.val
  match s.flitReceive p bytes (· == 2) with
  | .none_ => .next s
  | .bad s => .next s
  | .good (some r) b s => .next ((s.chdViol p r b).portInjEnd p)
  | .good none b s =>
    let h := hdrOf b
    let a := s.takeAck p h.ack b
    let s := a.2.takeCredits p h.crVc h.crCount b
    if !a.1 then .next (s.portInjEnd p)
    else
      let o := s.port p
      let n := if o.nakSeq = h.ack ∧ 0 < o.nakRun then o.nakRun + 1 else 1
      let s := s.onPort p fun o => { o with resend := o.replay, nakSeq := h.ack, nakRun := if n = 8 then 0 else n }
      .next ((if n = 8 then s.portRetrain p false else s).portInjEnd p)

/-- FLIT_MARKER: the lanes align; a lane map that the other side changed is applied, and a swap ends. -/
def execFlitMarker (p : Fin 8) (bytes : List Byte) (s : State) : Host.Outcome State Fault Refusal :=
  let p := p.val
  match s.flitReceive p bytes (· == 3) with
  | .none_ => .next s
  | .bad s => .next s
  | .good (some r) b s => .next ((s.chdViol p r b).portInjEnd p)
  | .good none b s =>
    let h := hdrOf b
    let s := ((s.takeAck p h.ack b).2).takeCredits p h.crVc h.crCount b
    let map := ((flitCw b 0).take 9).map (·.toNat)
    let moved := (List.range 8).find? fun i => map.getD i 0 == 8
    let s := s.swapEnd p
    let s := match moved with
      | some i => if (s.port p).spareFor = 15 then s.onPort p fun o => { o with laneMap := o.laneMap.set i 8, spareFor := i } else s
      | none => s
    .next (s.portInjEnd p)

/-- FLIT_TRAIN: a port in training or in a retrain is checked (R248); a port that is UP takes it as a violation (row 8). -/
def execFlitTrain (p : Fin 8) (peer : PeerId) (s : State) : Host.Outcome State Fault Refusal :=
  let p := p.val
  if !s.mainUp then .next s
  else if (s.port p).state = .training ∨ (s.port p).state = .retrain then .next (s.trainPort p peer)
  else if portRuns (s.port p) then .next (s.chdViol p 8 [])
  else .next s

/-! ### Sending a flit (R253, R254, R256) -/

/-- The DATA flit of an entry. -/
def dataHdr (o : Port) (g : Nat × Nat × Port) (seq : Word16) (f : FlitOut) : FlitHdr :=
  ⟨1, f.vc, f.data.length / 36, f.late, f.origVc, seq, o.rxSeq, g.1, g.2.1, f.dx, f.dy, f.sx, f.sy, f.stream, f.offset⟩

/-- Transmits a DATA flit with its SEQ. -/
def State.transmit (s : State) (p : Nat) (seq : Word16) (f : FlitOut) : State :=
  let o := s.port p
  let g := o.giveBack
  let s := s.onPort p fun _ => { g.2.2 with tx := inc o.tx, slots := (f.vc :: o.slots).take 64 }
  let s := if f.vc = 2 ∧ s.grp.spanStart.isNone then s.onGrp fun g => { g with spanStart := some s.now } else s
  s.emit (.flit p (flitBytes (dataHdr o g seq f) f.data))

/-- Weights of the weight, reduce and mirror VCs. -/
def State.wrrWeights (s : State) : List Nat :=
  [16, 8, 0].map fun b => max 1 (fld s.chd.arb b 8)

/-- The arbiter's choice among the VCs that wait with a credit: control, transit within its share, then weighted round robin;
a VC alone may use any slot, as may transit at a module of column 8 that serves no position (R262). The new round-robin state comes with it (R256). -/
def State.arbitrate (s : State) (p : Nat) : Option (Nat × List Nat) :=
  let o := s.port p
  let waits (v : Nat) : Bool := o.hasCredit v && o.sendQ.any fun f => f.vc == v
  let share := (let n := fld s.chd.arb 24 4; if 1 ≤ n ∧ n ≤ 8 then n else 2)
  let alone : Bool := !([1, 2, 3].any waits) || (s.physX == 8 && s.grp.pos.isNone)
  if waits 0 then some (0, o.wrr)
  else if waits 4 ∧ (alone ∨ (o.slots.filter (· == 4)).length < 8 * share) then some (4, o.wrr)
  else
    let pick (w : List Nat) : Option Nat := [1, 2, 3].find? fun v => waits v && decide (0 < w.getD (v - 1) 0)
    let take (w : List Nat) (v : Nat) : List Nat := w.set (v - 1) (w.getD (v - 1) 0 - 1)
    match pick o.wrr with
    | some v => some (v, take o.wrr v)
    | none => match pick s.wrrWeights with
      | some v => some (v, take s.wrrWeights v)
      | none => none

/-- Removes the first entry of a VC. -/
def dropVc (v : Nat) : List FlitOut → List FlitOut
  | [] => []
  | f :: r => if f.vc = v then r else f :: dropVc v r

/-- The slot carries a MARKER: one flit in every 100, and the next one in a swap. -/
def State.sendMarker (s : State) (p : Nat) : State :=
  let s := s.swapEnd p
  let map := ((s.port p).laneMap ++ List.replicate 9 8).take 9
  (s.linkFlit p 3 (codeword (padTo 32 (map.map fun n => BitVec.ofNat 8 n)))).onPort p fun o => { o with sinceMarker := 0 }

/-- The slot carries a flit to be resent, a flit of the VC that the arbiter chooses, or IDLE. -/
def State.sendSlot (s : State) (p : Nat) : State :=
  let o := s.port p
  match o.resend with
  | (seq, f) :: r => (s.onPort p fun o => { o with resend := r, retries := inc o.retries }).transmit p seq f
  | [] =>
    match (if o.replay.length < 512 then s.arbitrate p else none) with
    | none => s.linkFlit p 0 []
    | some (v, wrr) =>
      match o.sendQ.find? fun f => f.vc == v with
      | none => s
      | some f =>
        (s.onPort p fun o => { o.useCredit v with
          sendQ := dropVc v o.sendQ, replay := o.replay ++ [(o.txSeq, f)], txSeq := o.txSeq + 1, wrr := wrr
          transit := if v = 4 then addW o.transit f.data.length else o.transit }).transmit p o.txSeq f

/-- FLIT_SEND. -/
def execFlitSend (p : Fin 8) (s : State) : Host.Outcome State Fault Refusal :=
  let p := p.val
  let o := s.port p
  if !portRuns o ∨ !s.mainUp then .next s
  else if o.state = .swap ∨ 99 ≤ o.sinceMarker then .next (s.sendMarker p)
  else .next ((s.sendSlot p).onPort p fun o => { o with sinceMarker := o.sinceMarker + 1 })

/-! ### Lanes and retrains -/

/-- LANE_LOSS_OF_LOCK: the lanes named, and the position of detector 0x0903, lose lock. More than R259 absorbs retrain the
port (R260). -/
def execLaneLossOfLock (p : Fin 8) (lanes : List (Fin 9)) (s : State) : Host.Outcome State Fault Refusal :=
  let p := p.val
  if !portRuns (s.port p) ∨ !s.mainUp then .next s
  else
    let i := s.opportunity 0x0903 9 p 0 fun _ => true
    let s := i.2
    let o := s.port p
    let used := if o.state = .swap then o.laneMap.set o.swapLane 8 else o.laneMap
    let width := if o.lanes = 4 then 4 else 8
    let lost := (List.range width).filter fun k => lanes.any (fun l => l.val == used.getD k 9) || i.1 == some k
    let absorb := if o.lanes ≠ 4 ∧ o.spareFor = 15 ∧ o.state ≠ .swap then 2 else 1
    let s := if absorb < lost.length ∧ o.lanes ≠ 4 then s.portRetrain p true
      else lost.foldl (fun s k => if portRuns (s.port p) then s.laneFail p k 1 else s) s
    .next (s.portInjEnd p)

/-- CHD_PORT_RETRAIN: a write of CHD_PORT_CTRL[p]. -/
def execChdPortRetrain (p : Fin 8) (v : Word64) (s : State) : Host.Outcome State Fault Refusal :=
  .next (if s.linkUp ∧ fld v 0 1 = 1 then s.tlp.portRetrain p.val false else s)

/-- CHORD_RETRAIN_DONE: the port resumes from ACK + 1 with its credits whole; the third failure in a row fails it. -/
def execChordRetrainDone (p : Fin 8) (ok : Bool) (s : State) : Host.Outcome State Fault Refusal :=
  let p := p.val
  let o := s.port p
  if o.state ≠ .retrain then .next s
  else if ok then
    .next ((s.onPort p fun o =>
      let r : Port := { o with transitCr := s.transitCredits }
      { r with
      state := .up, failsInRow := 0, resend := o.replay, nakOut := false, nakRun := 0, laneErrs := [], credits := r.reserved
      shared := r.sharedPool, usedShared := [0, 0, 0, 0, 0], returns := [0, 0, 0, 0, 0] }).watchDir p |>.portInjOver p)
  else
    let n := o.failsInRow + 1
    let s := s.onPort p fun o => { o with failsInRow := n }
    if n = 3 then .next ((s.portFailed p (if o.lossRetrain then 2 else 1)).portInjOver p)
    else .next ((s.onPort p fun o => { o with retrains := min 255 (o.retrains + 1) }).sendTrain p)

/-! ### Registers and start-up phase 7 -/

def portStateNum : PortState → Nat
  | .down => 0 | .training => 1 | .up => 2 | .swap => 3 | .retrain => 4 | .miscabled => 5 | .failed => 6 | .unassigned => 7

/-- CHD_PORT_STATUS[p]. -/
def portStatus (o : Port) : Word64 :=
  BitVec.ofNat 64 (o.spareFor * 2 ^ 52 + o.lanes * 2 ^ 48 + o.retrains * 2 ^ 24 + o.dir * 2 ^ 12 + portStateNum o.state)

/-- The ten registers of a port in the order of Table 09-9. -/
def portRegs (o : Port) : List Word64 :=
  [portStatus o, 0, o.peer, o.tx, o.rx, o.fecCorr, o.crcErr, o.retries, o.viol, o.transit]

/-- CHD_STATUS. -/
def chdStatusCmd (_ : List Byte) (s : State) : CmdResult :=
  .done stOk ((List.range 8).flatMap fun p => (portRegs (s.port p)).flatMap fun w => leBytes 8 w.toNat) s
def execChdStatus (r : Route) (s : State) : Host.Outcome State Fault Refusal := .next (s.command r 0x0501 chdStatusCmd)

/-- The logical position that CHD_POS gives this module, none for a spare (R277). -/
def State.logical (s : State) : Option (Nat × Nat) :=
  ((List.range 8).find? fun x => s.col x s.physY == s.physX).map fun x => (x, s.physY)

/-- The role of Table 10-1. -/
def State.roleNow (s : State) : Role :=
  match s.grp.pos with
  | none => .spare
  | some p =>
    if p = s.apexPos then (if s.groupNo = 0 then .leadApex else .apex) else if p.1 = s.apexPos.1 then .vertex else .member
def State.setRole (s : State) : State := s.onGrp fun g => { g with role := s.roleNow }
/-- The position and the role follow CHD_POS. -/
def State.setPos (s : State) : State := (s.onGrp fun g => { g with pos := s.logical }).setRole

/-- The coordinates and the split come from the MCB (R247, Table 09-10). -/
def State.chdFromMcb (s : State) : State :=
  let m := s.flash.mcb
  s.onChd fun c => { c with cfg := BitVec.ofNat 64 (le m 16 1 % 16 * 256 + le m 17 1 % 8 * 32 + le m 18 1 % 4) }

/-- STARTUP_LINKS: chord training and the cabling check; Ethernet ports come up. -/
def execStartupLinks (peers : List (Fin 8 × PeerId)) (eth0 eth1 : Bool) (s : State) : Host.Outcome State Fault Refusal :=
  if s.boot.phase ≠ 7 ∨ s.boot.springHeld then .next s
  else
    let s := s.chdFromMcb
    if 9 ≤ s.physX then
      .next (((List.range 8).foldl (fun s p => s.onPort p fun o => { o with state := .unassigned }) s).hold 3)
    else
      let s := s.setPos
      let s := (List.range 8).foldl (fun s p =>
        match portDir s.split p with
        | none => s.onPort p fun o => { o with state := .unassigned }
        | some d =>
          -- a port whose cable is absent reads DOWN (R413)
          if peers.any (fun t => t.1.val == p) ∨ Config.cablePresent p then (s.onPort p fun o => { o with state := .training, dir := d }).sendTrain p
          else s.onPort p fun o => { o with state := .down, dir := d }) s
      let s := peers.foldl (fun s t => if (s.port t.1.val).state = .training then s.trainPort t.1.val t.2 else s) s
      let s := s.onEthPort 0 fun e => { e with state := bit eth0 }
      let s := s.onEthPort 1 fun e => { e with state := bit eth1 }
      if (List.range 8).any fun p => (s.port p).state == .miscabled then .next (s.hold 2)
      else .next (s.onBoot fun b => { b with phase := 8, phase8Tick := s.now })

end Sys2Proof.Machine
end

