-- ==== Sys2Proof/Machine/Elementary.lean ====
section
/-! DEFINITION. The exp2 and log2 units (R84, class 0x3 of Table 06-18), the spill of R77, trees of additions (R83, R191) and the
derivative sequences (R137, R423). -/

namespace Sys2Proof.Machine

/-! ### exp2 and log2 -/

/-- 2^(2^-i) for i = 1 to 16 in units of 2^-128, truncated. -/
def rootsFrom : Nat → Nat → List Nat
  | 0, _ => []
  | n + 1, c => let r := isqrt (c * 2 ^ 128); r :: rootsFrom n r

/-- 2^(f / 65,536) for f below 65,536 in units of 2^-128, short of it by less than 2^-120: no value but 1 lies so near to a
rounding boundary of FP32. -/
def pow2Frac (f : Nat) : Nat :=
  (rootsFrom 16 (2 ^ 129)).zipIdx.foldl (fun v r => if bitOf f (15 - r.2) then v * r.1 / 2 ^ 128 else v) (2 ^ 128)

/-- m × 2^e rounded to the nearest integer, ties to even. -/
def rneInt (m : Nat) (e : Int) : Nat :=
  if 0 ≤ e then m * 2 ^ e.toNat
  else
    let k := 2 ^ (-e).toNat
    let q := m / k
    let r := m % k
    if 2 * r > k ∨ (2 * r = k ∧ q % 2 = 1) then q + 1 else q

/-- The exp2 unit (R84): the argument is rounded to q with 16 fraction bits, then 2^q is correctly rounded; below −150 the
result is +0, from 128 on +∞ (VEXP2, Table 06-18). -/
def exp2 (a : Word32) : Word32 :=
  match decode32 a with
  | .nan _ => qnan
  | .inf n => if n then zero32 false else inf32 false
  | .fin n m e =>
    if m ≠ 0 ∧ 12 ≤ e + (Nat.log2 m : Nat) then (if n then zero32 false else inf32 false)
    else
      let q : Int := sgn n (rneInt m (e + 16))
      if q < -150 * 65536 then zero32 false
      else if 128 * 65536 ≤ q then inf32 false
      else
        let f := (q % 65536).toNat
        encode32 false (pow2Frac f) (q / 65536 - 128) (f ≠ 0)

/-- k binary digits of log2 y for y in [1, 2) in units of 2^-256. -/
def logDigits : Nat → Nat → Nat → Nat
  | 0, _, d => d
  | k + 1, y, d =>
    let z := y * y / 2 ^ 256
    if 2 ^ 257 ≤ z then logDigits k (z / 2) (2 * d + 1) else logDigits k z (2 * d)

/-- Correctly rounded log2 (Table 06-18): a hundred fraction digits and a sticky bit decide every rounding of FP32. -/
def flog2 (a : Word32) : Word32 :=
  match decode32 a with
  | .nan _ => qnan
  | .inf n => if n then qnan else inf32 false
  | .fin n m e =>
    if m = 0 then inf32 true
    else if n then qnan
    else
      let l := Nat.log2 m
      let x : Int := e + l
      let y := m * 2 ^ (256 - l)
      let d : Int := x * 2 ^ 100 + logDigits 100 y 0
      let exact : Bool := m == 2 ^ l
      if exact then ofDy (x, 0) false
      else if 0 ≤ d then encode32 false d.toNat (-100) true
      else encode32 true (-d - 1).toNat (-100) true

/-! ### Spill and trees -/

/-- A wide value hi + lo (R103). -/
structure Wide where
  hi : Word32
  lo : Word32
deriving DecidableEq, Repr

def wideOf (w : Word64) : Wide := ⟨w.setWidth 32, (w >>> 32).setWidth 32⟩
def wideBits (w : Wide) : Word64 := (w.lo.setWidth 64 <<< 32) ||| w.hi.setWidth 64

/-- spill(hi, lo, x) of R77. -/
def spill (w : Wide) (x : Word32) : Wide :=
  let s := fadd w.hi x
  let v := fsub s w.hi
  let e := fadd (fsub w.hi (fsub s v)) (fsub x v)
  let t := fadd w.lo e
  let hi := fadd s t
  let lo := fsub t (fsub hi s)
  if !isFinite s ∨ !isFinite hi then ⟨hi, 0⟩ else ⟨hi, lo⟩

/-- One level of a pairwise tree; an odd last term goes up unchanged. -/
def pairLevel (f : Word32 → Word32 → Word32) : List Word32 → List Word32
  | a :: b :: r => f a b :: pairLevel f r
  | l => l

/-- The fixed pairwise tree over 2^k terms (R83, R191). -/
def tree (f : Word32 → Word32 → Word32) : Nat → List Word32 → Word32
  | 0, l => l.headD 0
  | k + 1, l => tree f k (pairLevel f l)

/-- Order key of an FP32 that is no NaN: −0 below +0. -/
def ordKey (a : Word32) : Int := if isNeg a then -((a.toNat % 2 ^ 31 : Nat) : Int) - 1 else a.toNat

/-- The larger and the smaller of two values: NaN when either is NaN, −0 below +0 (VMAX, VMIN, R83). -/
def fmax (a b : Word32) : Word32 := if isNan a ∨ isNan b then qnan else if ordKey a < ordKey b then b else a
def fmin (a b : Word32) : Word32 := if isNan a ∨ isNan b then qnan else if ordKey b < ordKey a then b else a

/-! ### Derivatives (R137, R423) -/

def one32 : Word32 := 0x3F800000
def two32 : Word32 := 0x40000000
def half32 : Word32 := 0x3F000000
/-- L, L2, K, C and C3 of R423. -/
def kL : Word32 := 0x3FB8AA3B
def kL2 : Word32 := 0x4038AA3B
def kK : Word32 := 0x3F4C422A
def kC : Word32 := 0x3D372713
def kC3 : Word32 := 0x3E095D4F

/-- The sign bit alone changes. -/
def fneg (a : Word32) : Word32 := a ^^^ 0x80000000
def fabs (a : Word32) : Word32 := a &&& 0x7FFFFFFF

def dSig (x : Word32) : Word32 := frecip (fadd one32 (exp2 (fneg (fmul x kL))))
def dTh (x : Word32) : Word32 := ffma (fneg two32) (frecip (fadd one32 (exp2 (fmul x kL2)))) one32

/-- Table 05-6 in sixteenths. -/
def tableT16 (d : Nat) : Int := [-2, -1, 0, 1, 2, 3, 4, 6, 8, 10, 12, 14, 15, 16, 17, 18].getD d 0
def tableT (d : Nat) : Word32 := ofDy (tableT16 d, -4) false

/-- deriv(fn, y) for FN 0 to 8; a NaN y gives a NaN derivative (R137). -/
def deriv (fn : Nat) (y : Word32) : Word32 :=
  if 7 ≤ fn then tableT (y.toNat % 16)
  else if isNan y then qnan
  else match fn with
    | 0 => one32
    | 1 => if flt 0 y then one32 else 0
    | 2 => fmul two32 (fsqrt y)
    | 3 => fmul y (fsub one32 y)
    | 4 => ffma (fneg y) y one32
    | 5 => y
    | _ => fsub one32 (exp2 (fneg (fmul y kL)))

/-- dval(fn, x) for FN 0 to 8. -/
def dval (fn : Nat) (x : Word32) : Word32 :=
  match fn with
  | 0 => one32
  | 1 => if flt 0 x then one32 else 0
  | 2 => fmul two32 (fmax x 0)
  | 3 => let g := dSig x; fmul g (fsub one32 g)
  | 4 => let h := dTh x; ffma (fneg h) h one32
  | 5 => exp2 (fmul x kL)
  | 6 => dSig x
  | 7 => let g := dSig x; fmul g (ffma x (fsub one32 g) one32)
  | _ =>
    if !flt (fabs x) 0x4F800000 then (if flt 0 x then one32 else 0)
    else
      let x2 := fmul x x
      let u := fmul kK (fmul x (ffma kC x2 one32))
      let h := dTh u
      let g := ffma (fneg h) h one32
      let q := ffma kC3 x2 one32
      let a := fmul half32 (fadd one32 h)
      fadd a (fmul half32 (fmul (fmul (fmul x g) q) kK))

/-- Distance of a dyadic from an entry of Table 05-6, as a dyadic. -/
def tableDist (v : Int × Int) (d : Nat) : Int × Int :=
  let x := dyAdd v (-(tableT16 d), -4)
  ((x.1.natAbs : Int), x.2)

/-- The code of the table entry nearest to a value, the lower code on a tie. -/
def nearestCode (v : Int × Int) : Nat :=
  (List.range 16).foldl (fun best d => if dyLt (tableDist v d) (tableDist v best) then d else best) 0

/-- The derivative code that DCODE writes (R137). -/
def dcode (fn : Nat) (x : Word32) : Nat :=
  match decode32 x with
  | .nan _ => 2
  | .inf n => if n then 2 else 13
  | .fin _ _ _ =>
    match decode32 (dval fn x) with
    | .fin n m e => nearestCode (sgn n m, e)
    | .inf n => if n then 0 else 15
    | .nan _ => 2

end Sys2Proof.Machine
end

