-- ==== Sys2Proof/Machine/Chain.lean ====
section
/-! DEFINITION. The operands of a MATMUL in scratchpad (R62, R66, R104, R129, R130, R132), the column chain (R63 to R71), and the
rows of the accumulators and the wide buffer (R72, R77 to R80). -/

namespace Sys2Proof.Machine

/-! ### Operand layout -/

/-- Half bytes of an element of a format code of Table 06-7. -/
def fmtHalf (f : Nat) : Nat := if f = 0 then 1 else if f = 3 then 4 else 2

/-- Bytes of n elements from element k on of a packed row. -/
def rowBytes (f n : Nat) : Nat := (n * fmtHalf f + 1) / 2

/-- Element codes of packed bytes (R104). -/
def codesOf (f : Nat) (bs : List Byte) : List Nat :=
  if f = 0 then unpackCodes .e2m1 bs
  else if f = 3 then (List.range (bs.length / 2)).map fun i => le bs (2 * i) 2
  else bs.map (·.toNat)

/-- An operand array as the operand block names it: element base and pitch, scale base and pitch, format, and whether its
blocks run along stored rows (straight stream, transposed load) or down stored columns. -/
structure OpArray where
  base : Nat
  pitch : Nat
  sbase : Nat
  spitch : Nat
  fmt : Nat
  along : Bool
deriving DecidableEq, Repr

def streamed (b : List Byte) (f : Nat) : OpArray := ⟨obABase b, obAPitch b, obAScale b, obASpitch b, f, !obATrans b⟩
/-- The stationary array; `shift` moves base and scale to the landing slot of a K-block (R132). -/
def stationary (b : List Byte) (f : Nat) (shift : Int) : OpArray :=
  ⟨((obBBase b : Int) + shift).toNat, obBPitch b, ((obBScale b : Int) + shift).toNat, obBSpitch b, f, obBTrans b⟩

/-- Reduction elements of a K-block that are read: up to the end of the block that holds element K_LEN − 1 (R130). -/
def readLen (len total k0 : Nat) : Nat := min len ((total - k0 + 31) / 32 * 32)

/-- Reads one vector along the reduction axis: element codes and scale bytes for index i of the other axis, from reduction
element k0 on, n of the K-block's `len` read and the rest zero blocks (R130). B16 has no scales: its blocks read as scale 1. -/
def State.readVec (s : State) (p : Nat) (o : OpArray) (i k0 n len : Nat) : List Nat × List Byte × Bool × State :=
  let blocks := n / 32
  let pad := List.replicate (len - n) 0
  let spad := List.replicate (len / 32 - blocks) (0 : Byte)
  let one := List.replicate blocks (0x3F : Byte)
  if o.along then
    let a := s.readPad p (o.base + i * o.pitch + k0 * fmtHalf o.fmt / 2) (rowBytes o.fmt n)
    if o.fmt = 3 then (codesOf o.fmt a.1 ++ pad, one ++ spad, a.2.1, a.2.2)
    else
      let c := a.2.2.readPad p (o.sbase + i * o.spitch + k0 / 32) blocks
      (codesOf o.fmt a.1 ++ pad, c.1 ++ spad, a.2.1 || c.2.1, c.2.2)
  else
    -- element (k, i) of a stored row k
    let el := (List.range n).foldl (fun (acc : List Nat × Bool × State) k =>
      let off := i * fmtHalf o.fmt
      let a := acc.2.2.readPad p (o.base + (k0 + k) * o.pitch + off / 2) (if o.fmt = 3 then 2 else 1)
      let v := leNat a.1
      let v := if o.fmt = 0 then (if off % 2 = 1 then v / 16 else v % 16) else v
      (acc.1 ++ [v], acc.2.1 || a.2.1, a.2.2)) ([], false, s)
    if o.fmt = 3 then (el.1 ++ pad, one ++ spad, el.2.1, el.2.2)
    else
      let sc := (List.range blocks).foldl (fun (acc : List Byte × Bool × State) j =>
        let a := acc.2.2.readPad p (o.sbase + (k0 / 32 + j) * o.spitch + i) 1
        (acc.1 ++ a.1, acc.2.1 || a.2.1, a.2.2)) ([], el.2.1, el.2.2)
      (el.1 ++ pad, sc.1 ++ spad, sc.2.1, sc.2.2)

/-- The end of the bytes that an operand array of `rows` vectors of `total` elements reaches (R73): elements and scales. -/
def OpArray.ends (o : OpArray) (rows total : Nat) : List Nat :=
  let n := (total + 31) / 32 * 32
  if rows = 0 ∨ total = 0 then []
  else if o.along then
    (o.base + (rows - 1) * o.pitch + rowBytes o.fmt n) ::
      (if o.fmt = 3 then [] else [o.sbase + (rows - 1) * o.spitch + n / 32])
  else
    (o.base + (n - 1) * o.pitch + rowBytes o.fmt rows) ::
      (if o.fmt = 3 then [] else [o.sbase + (n / 32 - 1) * o.spitch + rows])

/-! ### The column chain -/

/-- What a chain delivers: the value, block pairs skipped, whether a bit was discarded, and register and residue. -/
structure ChainOut where
  value : Fp
  skipped : Nat
  trunc : Bool
  reg : Int
deriving DecidableEq, Repr

/-- The value of an operand element without its block scale; B16 operands, and blocks widened to B16, with it (R63). -/
def operandValue (b16 : Bool) (f : Nat) (scale : Byte) (c : Nat) : Fp :=
  if f = 3 then decodeB16 (BitVec.ofNat 16 c)
  else if b16 then blockValue (fmtElem f) scale c
  else elemValue (fmtElem f) c

/-- Exponent of a B16 value: −126 for subnormals (R67). -/
def expB16 (m : Nat) (e : Int) : Int := max (-126) (e + (Nat.log2 m : Nat))

/-- The products of a K-block with the anchor terms: each block pair gives its products (exact, scaled) or is skipped. -/
structure Products where
  terms : List Fp
  skipped : Nat
  anchor : Option Int
deriving DecidableEq, Repr

def maxInt (a : Option Int) (b : Int) : Option Int :=
  match a with
  | none => some b
  | some a => some (max a b)

/-- Adds one block pair. -/
def addBlock (b16 : Bool) (fa fw : Nat) (acc : Products) (x : List Nat × Byte) (w : List Nat × Byte) : Products :=
  if zeroBlock x.2 || zeroBlock w.2 then { acc with skipped := acc.skipped + 1 }
  else
    let sc : Int := if b16 then 0 else scaleExp x.2 + scaleExp w.2
    let ps := (x.1.zip w.1).map fun c =>
      let u := operandValue b16 fa x.2 c.1
      let v := operandValue b16 fw w.2 c.2
      let anchor := match u, v with
        | .fin _ m e, .fin _ l d => if m = 0 ∨ l = 0 then none else some (expB16 m e + expB16 l d)
        | _, _ => none
      let t := match mulExact u v with
        | .fin n m e => Fp.fin n m (e + sc)
        | t => t
      (t, anchor)
    let anchor := if b16 then ps.foldl (fun a p => match p.2 with | some e => maxInt a e | none => a) acc.anchor
      else maxInt acc.anchor sc
    { acc with terms := acc.terms ++ ps.map (·.1), anchor := anchor }

/-- Splits a K-block's codes into its 32-element blocks with their scales. -/
def blocksOf : List Nat → List Byte → List (List Nat × Byte)
  | _, [] => []
  | cs, sc :: r => (cs.take 32, sc) :: blocksOf (cs.drop 32) r

/-- A product truncated toward zero at weight 2^lsb: the integer in register units and whether a bit was lost (R68). -/
def truncTerm (lsb : Int) (neg : Bool) (m : Nat) (e : Int) : Int × Bool :=
  if lsb ≤ e then (sgn neg (m * 2 ^ (e - lsb).toNat), false)
  else
    let k := 2 ^ (lsb - e).toNat
    (sgn neg (m / k), m % k ≠ 0)

/-- The K-block sum of one column (R64, R67, R68, R70). -/
def chainSum (fa fw : Nat) (x : List (List Nat × Byte)) (w : List (List Nat × Byte)) : ChainOut :=
  let b16 := decide (fa = 3) || decide (fw = 3)
  let p := (x.zip w).foldl (fun acc q => addBlock b16 fa fw acc q.1 q.2) ⟨[], 0, none⟩
  let isN (t : Fp) : Bool := match t with | .nan _ => true | _ => false
  let isI (n : Bool) (t : Fp) : Bool := match t with | .inf k => k == n | _ => false
  if p.terms.any isN || (p.terms.any (isI true) && p.terms.any (isI false)) then ⟨.nan false, p.skipped, false, 0⟩
  else if p.terms.any (isI true) then ⟨.inf true, p.skipped, false, 0⟩
  else if p.terms.any (isI false) then ⟨.inf false, p.skipped, false, 0⟩
  else
    match p.anchor with
    | none => ⟨.fin false 0 0, p.skipped, false, 0⟩
    | some s =>
      let h : Int := if fa = 0 ∧ fw = 0 then 9 else 7
      let a : Int := if b16 then 1 + s else s + elemT (fmtElem fa) + elemT (fmtElem fw) + 1
      let lsb := a + h - 94
      let r := p.terms.foldl (fun (acc : Int × Bool) t =>
        match t with
        | .fin n m e => let u := truncTerm lsb n m e; (acc.1 + u.1, acc.2 || u.2)
        | _ => acc) (0, false)
      let reg := signedOf 96 (twos 96 r.1)
      ⟨if reg = 0 then .fin false 0 0 else .fin (decide (reg < 0)) reg.natAbs lsb, p.skipped, r.2, reg⟩

/-! ### Accumulator rows and wide slots -/

/-- FP32 words of bytes. -/
def wordsOf (n : Nat) (bs : List Byte) : List Word32 := (List.range n).map fun i => BitVec.ofNat 32 (le bs (4 * i) 4)
def wordBytes (ws : List Word32) : List Byte := ws.flatMap fun w => leBytes 4 w.toNat

/-- Byte offset of the row r of array a in scratchpad accumulation (R80). -/
def saccRow (b : List Byte) (a r : Nat) : Nat := obSacc b + a * 0x40000 + r * 512

/-- Row r of the accumulator of array a: 128 entries, and whether a word was uncorrectable. -/
def State.readAccRow (s : State) (p : Nat) (scratch : Bool) (b : List Byte) (a r : Nat) : List Word32 × Bool × State :=
  if scratch then
    let x := s.readPad p (saccRow b a r) 512
    (wordsOf 128 x.1, x.2.1, x.2.2)
  else
    let m := (s.tile p).mem.acc
    ((List.range 128).map fun c => Sparse.get 0 m (a * 65536 + r * 128 + c), false, s)

def State.writeAccRow (s : State) (p : Nat) (scratch : Bool) (b : List Byte) (a r : Nat) (ws : List Word32) : State :=
  if scratch then s.writePad p (saccRow b a r) (wordBytes ws)
  else s.onTileMem p fun m => { m with
    acc := ws.zipIdx.foldl (fun acc w => Sparse.put 0 acc (a * 65536 + r * 128 + w.2) w.1) m.acc }

/-- First W64 slot of output row m and array a (R78); bank L of a split engine starts at slot 32,768. -/
def wideSlot (split : Bool) (b : List Byte) (m a : Nat) : Nat := (if split && obHalfL b then 32768 else 0) + m * 512 + a * 128

def State.readWideRow (s : State) (p : Nat) (scratch split : Bool) (b : List Byte) (a m : Nat) : List Wide × Bool × State :=
  let k := wideSlot split b m a
  if scratch then
    let x := s.readPad p (obSw64 b + 8 * k) 1024
    ((List.range 128).map fun c => ⟨BitVec.ofNat 32 (le x.1 (8 * c) 4), BitVec.ofNat 32 (le x.1 (8 * c + 4) 4)⟩, x.2.1, x.2.2)
  else ((List.range 128).map fun c => wideOf (Sparse.get 0 (s.tile p).mem.wide (k + c)), false, s)

def State.writeWideRow (s : State) (p : Nat) (scratch split : Bool) (b : List Byte) (a m : Nat) (ws : List Wide) : State :=
  let k := wideSlot split b m a
  if scratch then s.writePad p (obSw64 b + 8 * k) (ws.flatMap fun w => leBytes 4 w.hi.toNat ++ leBytes 4 w.lo.toNat)
  else s.onTileMem p fun t => { t with
    wide := ws.zipIdx.foldl (fun x w => Sparse.put 0 x (k + w.2) (wideBits w.1)) t.wide }

end Sys2Proof.Machine
end

