-- ==== Sys2Proof/Machine/Engine.lean ====
section
/-! DEFINITION. Engines and arrays (chapter 3): taking a MATMUL, feeding, weight loads, waves with the faults of Table 03-6, the
activity ramp, retirement of tiles, snapshots and aborts. The output stage stands in Output.lean. -/

namespace Sys2Proof.Machine

/-! ### Records and formats -/

/-- ELEM and STATE of a scale record (Table 04-7). -/
def recElem (r : ScaleRec) : Nat := let e := fld r.w0 4 4; if e ≤ 2 then e else 0
def recState (r : ScaleRec) : Nat := fld r.w0 12 4
def recRound (r : ScaleRec) : Nat := fld r.w0 8 4
def recTensor (r : ScaleRec) : Word32 := BitVec.ofNat 32 (fld r.w0 32 32)
def recEHi (r : ScaleRec) : Nat := fld r.w1 11 7
def recW (r : ScaleRec) : Nat := fld r.w1 18 7
def recEHi4 (r : ScaleRec) : Nat := fld r.w1 25 7

/-- The format in force in a record: E4M3 in FALLEN, else the native element; in Spring E4M3 for E2M1 (R119, R124). -/
def State.recFmt (s : State) (i : Nat) : Nat :=
  let r := s.scaleRec i
  let f := if recState r = 3 then 1 else recElem r
  if f = 0 ∧ s.pwr.regime = .spring then 1 else f

/-- REC resolves to the format of its record (R163). -/
def State.resolve (s : State) (f rec : Nat) : Nat := if f = 15 then s.recFmt rec else f

/-- The window of a record's present format (R107, R124). -/
def State.recWindow (s : State) (i f : Nat) : Nat × Nat :=
  let r := s.scaleRec i
  windowOf (recState r == 0) (recEHi r) (recW r) (fmtElem f)

/-! ### Checks of a MATMUL before its first wave -/

/-- Scratchpad accumulation in force for the next item (R80, Table 03-12). -/
def scratchOn (r : TileRegs) : Bool := r.cpScratch || fld r.ctrl 1 1 == 1
/-- Rows reserved at the top of every accumulator (R75). -/
def accReserve (r : TileRegs) : Nat := fld r.ctrl 8 8

/-- Rows past the accumulator, across banks, in the other half's bank, or reserved without TIED (R73, R75, R164, R172); the output
item of R75, with KB = 0 and TIED_DRAIN, reads reserved rows. -/
def rowsBad (b : List Byte) (split : Bool) (reserve : Nat) : Bool :=
  let lo := obAccRow b
  let hi := lo + obM b
  decide (512 < hi) || (!split && obHalfL b) ||
    (split && (decide (256 ≤ lo) != obHalfL b || (decide (lo < 256) && decide (256 < hi)))) ||
    (obTiedDrain b && decide (lo < 512 - reserve)) ||
    (!obTied b && !(obKb b == 0 && obTiedDrain b) && decide (512 - reserve < hi)) || (obTied b && decide (obS b < obKb b))

/-- Fields of the operand block out of range (R155, R163, Tables 06-6, 06-7, R77). -/
def fieldsBad (b : List Byte) : Bool :=
  let inOk (f : Nat) : Bool := decide (f ≤ 3) || f == 15
  !obReservedClear b || (obSRaw b != 0 && (decide (obSRaw b < 8) || decide (256 < obSRaw b))) || obM b == 0 || decide (512 < obM b) ||
    decide (3 < obMode b) || !inOk (obAFmt b) || !inOk (obBFmt b) || !(decide (obOutFmt b ≤ 5) || obOutFmt b == 15) ||
    (obOutFmt b == 5 && obMode b != 0)

/-- Reduction length in elements (R130). -/
def redLen (b : List Byte) (len : Nat) : Nat := if obKLen b = 0 then obKb b * len else obKLen b

/-- SLOT_BASE, SLOT_BYTES and SLOTS of a weight stream (Table 09-11). -/
def State.slotBase (s : State) (w : Nat) : Nat := fld (s.wword w 2) 0 32
def State.slotBytes (s : State) (w : Nat) : Nat := fld (s.wword w 2) 40 24
def State.slotCount (s : State) (w : Nat) : Nat := fld (s.wword w 2) 32 8

/-- The slot that holds K-block 0 of a streamed stationary operand (R132), when it lies in the stream's slots. -/
def State.firstSlot (s : State) (b : List Byte) : Option Nat :=
  let w := obBWstream b
  if s.slotBytes w = 0 ∨ obBBase b < s.slotBase w then none
  else
    let k := (obBBase b - s.slotBase w) / s.slotBytes w
    if k < s.slotCount w then some k else none

/-- How far K-block i of a streamed operand lies from K-block 0 (R132). -/
def State.slotShift (s : State) (b : List Byte) (i : Nat) : Int :=
  if !obBStream b then 0
  else
    let w := obBWstream b
    match s.firstSlot b with
    | some k => ((((k + i) % s.slotCount w : Nat) : Int) - k) * s.slotBytes w
    | none => 0

/-- Ends of every scratchpad area the item reaches (R73). -/
def State.areaEnds (s : State) (b : List Byte) (af bf outf : Nat) (split scratch : Bool) : List Nat :=
  let len := kbLen af bf split
  let total := redLen b len
  let kb := obKb b
  let ins := if kb = 0 then [] else
    (streamed b af).ends (obM b) total ++
      (if obBStream b then (List.range kb).flatMap fun i => (stationary b bf (s.slotShift b i)).ends 512 (min len (total - i * len))
       else (stationary b bf 0).ends 512 total)
  let m := obM b
  let outBytes := [256, 512, 512, 1024, 2048, 4096].getD outf 0
  let outs := if quiet b then [] else
    (if obMode b ≠ 3 ∨ obP b then
      (obOutBase b + (m - 1) * obOutPitch b + outBytes) ::
        (if outf ≤ 2 then [obOutScale b + (m - 1) * obOutSpitch b + 16] else [])
     else []) ++
      (if (obBeta b).toNat % 2 ^ 31 ≠ 0 ∧ outf ≠ 5 then [obBias b + 2048] else []) ++
      (if obMode b = 2 then [obZrow b + 1024 * m] else []) ++ (if obMode b ≠ 0 then [obStats b + 16 * m] else [])
  let accs := if scratch then
      [obSacc b + 3 * 0x40000 + (obAccRow b + m) * 512] ++
        (if usesWide b then [obSw64 b + 8 * wideSlot split b m 0] else [])
    else []
  ins ++ outs ++ accs

/-- Banks of ENG_ACC_POISON that hold the item's rows are poisoned (R89). -/
def poisoned (r : TileRegs) (b : List Byte) : Bool := r.poison.toNat &&& bankBits b != 0
/-- The banks that hold one accumulator row are poisoned, in any of the four arrays (R89). -/
def rowPoisoned (r : TileRegs) (row : Nat) : Bool := r.poison.toNat &&& (if row < 256 then 0x55 else 0xAA) != 0

/-- The status of a MATMUL that is refused before its first wave, and whether MATMUL_SPILL_RANGE is recorded. -/
def State.matmulRefusal (s : State) (r : TileRegs) (b : List Byte) : Option (Word16 × Bool) :=
  let split := r.split
  let scratch := scratchOn r
  if fieldsBad b ∨ rowsBad b split (accReserve r) then some (stBadOpcode, false)
  else if usesWide b ∧ (if split then 64 else 128) < obM b then some (stBadOpcode, true)
  else if s.pwr.regime = .spring ∧ (obAFmt b = 0 ∨ obBFmt b = 0 ∨ obOutFmt b = 0) then some (stDeniedRegime, false)
  else
    let af := s.resolve (obAFmt b) (obARec b)
    let bf := s.resolve (obBFmt b) (obBRec b)
    let outf := s.resolve (obOutFmt b) (obOutRec b)
    let len := kbLen af bf split
    if !pairOk af bf then some (stBadOpcode, false)
    else if scratch ∧ af = 0 ∧ bf = 0 then some (stDeniedRegime, false)
    else if obKb b ≠ 0 ∧ obKLen b ≠ 0 ∧ (obKb b * len < obKLen b ∨ obKLen b ≤ (obKb b - 1) * len) then some (stBadOpcode, false)
    else if obKb b ≠ 0 ∧ obBStream b ∧ (s.firstSlot b).isNone then some (stBadOpcode, false)
    else if (s.areaEnds b af bf outf split scratch).any fun e => decide (padSize < e) then some (stBadOpcode, false)
    else if poisoned r b ∧ (obInitAdd b ∨ obKb b = 0) then some (stFaulted, false)
    else none

/-- A MATMUL enters the arrays: what is resolved and read once when the item starts (R117, R119). -/
def State.newRun (s : State) (i : Item) (scratch : Bool) : Run :=
  let b := i.block
  let outf := s.resolve (obOutFmt b) (obOutRec b)
  let r := s.scaleRec (obOutRec b)
  let w := s.recWindow (obOutRec b) outf
  { seq := i.seq, step := dStep i.desc, block := b, noCount := dNoCount i.desc
    aFmt := s.resolve (obAFmt b) (obARec b), bFmt := s.resolve (obBFmt b) (obBRec b), outFmt := outf
    eLo := w.1, eHi := w.2, rnd := recRound r, tensor := recTensor r
    eHi4 := if recState r = 3 then some (recEHi4 r) else none
    feedKb := 0, feedRow := 0, kb := 0, row := 0, sub := 0, ready := if obKb b = 0 then obM b else 0, drained := 0
    scratch := scratch }

/-- The run of a half of a tile that takes waves. -/
def State.runOf (s : State) (p : Nat) (h : Half) : Option Run := (s.tile p).work.run h
def State.putRun (s : State) (p : Nat) (r : Run) : State := s.onTileWork p fun w => w.put r

/-- A drain-only item merges each row into its W64 slot as it drains (R77, R79). -/
def mergesRows (b : List Byte) : Bool := obKb b == 0 && usesWide b

/-- The registers that a MATMUL meets when it is taken: behind other items it meets the poison of its banks when it starts (R89). -/
def Tile.takeRegs (t : Tile) : TileRegs := if t.work.runs.isEmpty then t.regs else { t.regs with poison := 0 }

/-- Item r starts in the arrays: with INIT = ZERO it clears the poison of its banks (R89). -/
def State.startRun (s : State) (p : Nat) (r : Run) : State :=
  if obInitAdd r.block then s
  else s.onTileRegs p fun g => { g with poison := g.poison &&& ~~~(BitVec.ofNat 8 (bankBits r.block)) }

/-- A run leaves the arrays and its item ends with a status; the rows written are counted (Table 06-3). -/
def State.endRun (s : State) (e : Nat) (r : Run) (status : Word16) : State :=
  (s.dropRun e r.seq).finish e r.seq status 0 r.drained

/-- MATMUL (R162 to R164): taken once its conditions hold; every check comes before the first wave. -/
def execMatmul (e : Fin 64) (s : State) : Host.Outcome State Fault Refusal :=
  .next (s.runKind e.val .matmul fun i s =>
    let b := i.block
    match s.ptile e.val with
    | none => s.finish e.val i.seq stBadOpcode 0 0
    | some p =>
      let regs := (s.tile p).regs
      if b.length ≠ 128 then s.finish e.val i.seq stBadOpcode 0 0
      else
        match s.matmulRefusal (s.tile p).takeRegs b with
        | some (st, note) =>
          let s := if note then s.report 0x0306 .note 1 e.val
              (leBytes 4 i.seq.toNat ++ leBytes 2 (obKb b) ++ leBytes 2 (obM b) ++ leBytes 2 (obS b)) else s
          s.finish e.val i.seq st 0 0
        | none =>
          let r := s.newRun i (scratchOn regs)
          let s := if obKb b ≠ 0 ∧ (s.tile p).work.runs.isEmpty then s.startRun p r else s
          let s := (s.onTileWork p fun w => w.enter regs.split (itemHalf regs.split b) r).markIdle p
          -- a drain-only item that writes no row and merges none has nothing to do
          if obKb b = 0 ∧ quiet b ∧ !mergesRows b then s.endRun e.val r stOk else s)

/-! ### Feeding (R59 to R62) and weight loads (R65, R66, R132) -/

/-- An uncorrectable scratchpad word read by a work item (Table 08-1): ENG_FAULT.SCRATCH, and the item ends ST_FAULTED. -/
def State.scratchFault (s : State) (e p : Nat) (r : Run) : State :=
  let s := s.onTileRegs p fun g => { g with fault := (g.fault &&& 0xFFFFFFFFFFFF0FFF) ||| 0x100 }
  (s.endRun e r stFaulted).onJob fun j => { j with faultReplay := j.faultReplay || r.step == j.step }

/-- FEEDER_WRITE (R59): one row vector enters the 128 queues (64 of a half), which hold 32 entries each (R60); the queues of a half
that a fault stopped take none (R89). -/
def execFeederWrite (e : Fin 64) (h : Half) (s : State) : Host.Outcome State Fault Refusal :=
  match s.ptile e.val with
  | none => .next s
  | some p =>
    let split := (s.tile p).regs.split
    let h := halfOf split h
    match (s.tile p).work.reads h with
    | none => .next s
    | some r =>
      let b := r.block
      if s.halfStopped e.val (s.tile p).work h then .next s
      else if 32 ≤ ((s.tile p).work.feed h).length then .next s
      else
        let len := kbLen r.aFmt r.bFmt split
        let k0 := r.feedKb * len
        let v := s.readVec p (streamed b r.aFmt) r.feedRow k0 (readLen len (redLen b len) k0) len
        if v.2.2.1 then .next (v.2.2.2.scratchFault e.val p r)
        else
          let next := if r.feedRow + 1 < obM b then { r with feedRow := r.feedRow + 1 }
            else { r with feedRow := 0, feedKb := r.feedKb + 1 }
          .next ((v.2.2.2.putRun p next).onTileWork p fun w => w.setFeed h (w.feed h ++ [⟨r.seq, r.feedKb, r.feedRow, v.1, v.2.1⟩]))

/-- The 128 columns of a weight block. -/
def State.readCols (s : State) (p : Nat) (o : OpArray) (a k0 n len : Nat) : List (List Nat × List Byte) × Bool × State :=
  (List.range 128).foldl (fun (acc : List (List Nat × List Byte) × Bool × State) c =>
    let v := acc.2.2.readVec p o (128 * a + c) k0 n len
    (acc.1 ++ [(v.1, v.2.1)], acc.2.1 || v.2.2.1, v.2.2.2)) ([], false, s)

/-- WEIGHT_LOAD_DONE (R65, R66, R132). After the fourth array's load of a streamed K-block the port posts its release. -/
def execWeightLoadDone (e : Fin 64) (h : Half) (a : Fin 4) (s : State) : Host.Outcome State Fault Refusal :=
  match s.ptile e.val with
  | none => .next s
  | some p =>
    let split := (s.tile p).regs.split
    let h := halfOf split h
    match nextLoad (s.tile p).work h a.val with
    | some (r, i) =>
      let b := r.block
      if obBStream b ∧ s.sc (obLandSc b) < obLandBase b + i + 1 then .next s
      else
        let len := kbLen r.aFmt r.bFmt split
        let k0 := i * len
        let n := readLen len (redLen b len) k0
        let o := stationary b r.bFmt (s.slotShift b i)
        let v := s.readCols p o a.val (if obBStream b then 0 else k0) n len
        if v.2.1 then .next (v.2.2.scratchFault e.val p r)
        else
          let s := v.2.2.onTileWork p fun w => w.setShadow h (Sparse.ins a.val ⟨r.seq, i, v.1⟩ (w.shadow h))
          let all := ((s.tile p).work.shadow h).length == 4
          .next (if obBStream b ∧ all then s.scOp (obRelSc b) .add 1 (.engine e) else s)
    | none => .next s

/-! ### Retirement of a tile (R91 to R93) -/

/-- Fails every running and queued item of an engine (Table 03-6); those of the present step run again in its replay (R92). -/
def State.failAll (s : State) (e : Nat) : State :=
  (s.queue e).window.foldl (fun s i =>
    match i.run with
    | .running => let rows := s.rowsOf e i.seq; (s.dropRun e i.seq).finish e i.seq stFaulted 0 rows
    | .waiting => (s.finish e i.seq stFaulted 2 0).journalTaken e i.seq
    | _ => s) s

/-- The spares of a quadrant that R93 counts: untested or ready, in tile order. -/
def State.spares (s : State) (quad : Nat) : List Nat :=
  (List.range 17).map (17 * quad + ·) |>.filter fun p => (s.tile p).health == .spareReady || (s.tile p).health == .spareUntested

/-- Tries the spares in turn: each runs its self-test; `stage` is the stage at which the first one fails, 0 for a pass. -/
def State.bringSpare (s : State) (stage : Nat) : List Nat → Option Nat × State
  | [] => (none, s)
  | p :: r =>
    let i := s.opportunity 0x0305 2 p 0 fun _ => true
    let s := i.2.injEnd 2 p
    if stage ≠ 0 ∨ i.1.isSome then State.bringSpare (s.selftestFailed p) 0 r
    else (some p, s)

/-- Retires the tile p that serves engine e (R92): its items fail, the quadrant's spare takes the engine, and the step is
replayed; with no spare the module faults (R93). Causes: 0 HANG, 1 SELFTEST, 2 second chain residue fault. -/
def State.retire (s : State) (e p cause stage : Nat) : State :=
  let detected := s.now
  let inj := srcKey 1 e ∈ s.alm.injKeys
  let s := if inj then s.injBegin 2 p else s
  let bitOfCause := if cause = 0 then 0x200 else if cause = 1 then 0x400 else 1
  let s := s.failAll e
  let s := s.onTile p fun t => { t with
    health := if cause = 1 then .failedSelftest else .retiredRun
    regs := { t.regs with state := .retired, poison := 0xFF, fault := t.regs.fault ||| bitOfCause }
    work := Reset.tileWork }
  let sp := s.bringSpare stage (s.spares (p / 17))
  let s := sp.2
  match sp.1 with
  | some n =>
    -- the quarter's HALT holds the spare too (R341); the waves done count for the phases of the engine (R353)
    let s := s.onTile n fun _ => { Reset.tile with health := .active, regs := { Reset.tileRegs with pmHalt := (s.tile p).regs.pmHalt } }
    let s := s.onPwrRegs fun r => { r with phases := r.phases.map fun x =>
      if x.queue = e then { x with before := x.before + ((s.tile p).regs.waves.toNat - x.waves0), waves0 := 0 } else x }
    let s := s.setTmap e ⟨true, n, ((s.tmap e).subst + 1) % 256⟩
    let s := s.report 0x0303 .warn 2 p
      (leBytes 1 e ++ leBytes 1 p ++ leBytes 1 n ++ leBytes 1 cause ++ leBytes 6 detected)
    let s := s.disarmTarget fun x => x.kind.toNat = 1 ∧ x.tile = p ∨ x.kind.toNat = 2 ∧ x.index.toNat = p
    let s := s.injEnd 2 p
    if s.jobRuns then
      -- the replay that an injected fault brings carries INJECTED too (R404)
      let s := if inj then s.injBegin 0x10 s.jobSlot else s
      (s.replayStep 1).injEnd 0x10 s.jobSlot
    else s
  | none =>
    let s := s.setTmap e ⟨false, 0, (s.tmap e).subst⟩
    let s := s.report 0x0304 .fault 2 p (leBytes 1 e ++ leBytes 1 p ++ leBytes 1 (p / 17) ++ leBytes 1 cause ++ leBytes 6 detected)
    let s := s.injEnd 2 p
    s.disarmTarget fun x => x.kind.toNat = 1 ∧ x.tile = p ∨ x.kind.toNat = 2 ∧ x.index.toNat = p

/-- A tile in RUN has a ready work item and no halt cause of R40: an item in the arrays with waves to make, or a MATMUL that meets
the conditions of Table 05-7. A starved array and ENG_CTRL.HALT are no halt cause. -/
def State.mustWave (s : State) (e p : Nat) : Bool :=
  let t := s.tile p
  !s.wavesGated t && !t.regs.pmHalt && decide (1024 ≤ s.waveDuty e) &&
    (s.halfWorks t.work .u || s.halfWorks t.work .l ||
      (!(t.work.runs.any (·.waves)) && s.queueOpen e && s.matmulReady e))

/-- TILE_HANG (R91): waves have stood still for 1,000 ticks while the tile should run; detector 0x0304 holds them. -/
def execTileHang (e : Fin 64) (spareStage : Nat) (s : State) : Host.Outcome State Fault Refusal :=
  match s.ptile e.val with
  | none => .next s
  | some p =>
    if s.mustWave e.val p then
      let s := s.pass 1000
      let i := s.opportunity 0x0304 1 e.val p fun _ => true
      .next ((i.2.retire e.val p 0 spareStage).injEnd 1 e.val)
    else .next s

/-! ### Faults of Table 03-6 -/

/-- Sets a bit of ENG_FAULT and the arrays of the most recent fault (Table 03-13). -/
def State.setFault (s : State) (p bit arrays : Nat) : State :=
  s.onTileRegs p fun r => { r with
    fault := (r.fault &&& 0xFFFFFFFFFFFF0FFF) ||| BitVec.ofNat 64 (2 ^ bit + arrays * 4096) }

/-- The items of a list of sequence numbers end ST_FAULTED; the arrays stop when nothing runs in them; the step will be
replayed. -/
def State.faultRuns (s : State) (e p : Nat) (rs : List Run) : State :=
  let s := rs.foldl (fun s r => (s.endRun e r stFaulted).onJob fun j => { j with faultReplay := j.faultReplay || r.step == j.step }) s
  if !rs.isEmpty ∧ (s.tile p).work.runs.isEmpty then s.onTileRegs p fun g => { g with state := .faultStop } else s

/-- A half stops with the fault of an item until its completion record is written (R89). -/
def State.stopHalf (s : State) (p : Nat) (h : Half) (r : Option Run) : State :=
  match r with
  | some r => s.onTileWork p fun w => w.setStop h (some r.seq)
  | none => s

/-- A fault of half scope (R89): half, cause (0 QUEUE, 1 WREG, 2 ACC), queue or array, banks poisoned. The item is the one given:
the one that takes waves, or the one whose rows drain. -/
def State.halfFault (s : State) (e p : Nat) (h : Half) (r : Option Run) (cause unit banks fbit arrays : Nat) : State :=
  let split := (s.tile p).regs.split
  let seq := match r with | some r => r.seq.toNat | none => 0
  let s := (s.setFault p fbit arrays).poisonBanks p banks
  let s := s.report 0x0301 .warn 1 e
    (leBytes 1 (if h = .u then 0 else 1) ++ leBytes 1 cause ++ leBytes 1 unit ++ [0] ++ leBytes 4 seq ++ leBytes 1 p)
  (s.stopHalf p (halfOf split h) r).faultRuns e p r.toList

/-- A fault of both halves (R89): array or 0xFF, cause (0 RESIDUE, 1 WIDE). Every running item ends ST_FAULTED. -/
def State.arrayFault (s : State) (e p unit cause banks fbit arrays : Nat) : State :=
  let w := (s.tile p).work
  let seqs := w.runs.map (·.seq)
  let hd := (s.queue e).head
  let first := seqs.foldl (fun (a : Option Word32) q =>
    match a with | none => some q | some b => if (q - hd).toNat < (b - hd).toNat then some q else some b) none
  let s := (s.setFault p fbit arrays).poisonBanks p banks
  let s := s.report 0x0302 .warn 1 e (leBytes 1 unit ++ leBytes 1 cause ++ leBytes 1 seqs.length ++ [0] ++
    leBytes 4 (first.getD 0).toNat ++ leBytes 1 p)
  ((s.stopHalf p .u (w.runsOf .u).getLast?).stopHalf p .l w.runL).faultRuns e p w.runs

/-- A chain residue fault of array a (R71): counted; the second within one step retires the tile (R91). -/
def State.residueFault (s : State) (e p a : Nat) : State :=
  let again := (s.tile p).regs.residueStep
  let s := s.onTileRegs p fun r => { r with residueErr := inc r.residueErr, residueStep := true }
  let s := s.arrayFault e p a 0 (3 * 4 ^ a) 0 (2 ^ a)
  if again then (s.retire e p 2 0).injEnd 1 e else s

/-- The feeder queues of a half; outside split mode all of them (R88). -/
def queueOfHalf (split : Bool) (h : Half) (q : Nat) : Bool := !split || (decide (q < 64) == (h == .u))

/-- The item that takes waves with a half of the rows. -/
def State.waveRun (s : State) (p : Nat) (h : Half) : Option Run :=
  let t := s.tile p
  t.work.run (halfOf t.regs.split h)

/-- A parity error of feeder queue q: the queues of its half are emptied. -/
def State.feederFault (s : State) (e p q : Nat) : State :=
  let h := if q < 64 then Half.u else .l
  (s.halfFault e p h (s.waveRun p h) 0 q (if q < 64 then 0x55 else 0xAA) (if q < 64 then 3 else 4) 0xF).onTileWork p fun w =>
    w.emptyFeed (halfOf (s.tile p).regs.split h)
/-- A parity error of the weight registers of array a, rows of a half. -/
def State.weightFault (s : State) (e p a : Nat) (h : Half) : State :=
  s.halfFault e p h (s.waveRun p h) 1 a (if h = .u then 4 ^ a else 2 * 4 ^ a) (if h = .u then 1 else 2) (2 ^ a)
/-- An uncorrectable accumulator word of bank U or L of array a, read for an item. -/
def State.accFault (s : State) (e p a : Nat) (h : Half) (r : Option Run) : State :=
  s.halfFault e p h r 2 a (if h = .u then 4 ^ a else 2 * 4 ^ a) (if h = .u then 5 else 6) (2 ^ a)
/-- An uncorrectable wide-buffer word. -/
def State.wideFault (s : State) (e p : Nat) : State := s.arrayFault e p 0xFF 1 0 7 0

/-! ### Waves -/

/-- The row of one array after a K-block (R69), its skipped pairs, truncated sums and the register values. -/
def chainRow (r : Run) (f : FeedRow) (cols : List (List Nat × List Byte)) (old : List Word32) :
    List Word32 × Nat × Nat :=
  let x := blocksOf f.elems f.scales
  let sums := cols.map fun c => chainSum r.aFmt r.bFmt x (blocksOf c.1 c.2)
  ((old.zip sums).map fun p => addFp (decode32 p.1) p.2.value, (sums.map (·.skipped)).sum, (sums.filter (·.trunc)).length)

/-- The K-block just summed ends a spill interval, or the item (R77). -/
def spillsNow (r : Run) : Bool := usesWide r.block && ((r.kb + 1) % obS r.block == 0 || r.kb + 1 == obKb r.block)
/-- The spill reads slots that hold something: W64_IN, or an earlier spill of the item (R77, R79). -/
def slotsLive (r : Run) : Bool := obW64In r.block || decide (obS r.block < r.kb + 1)
/-- The row starts from the entries that stand in the accumulator (R69). -/
def readsAcc (r : Run) : Bool := r.kb != 0 || obInitAdd r.block

/-- One array's part of the end of a K-block for a row: the chain, the accumulator, the spill. True when a scratchpad word of
scratchpad accumulation was uncorrectable. -/
def State.sumArray (s : State) (p : Nat) (split : Bool) (h : Half) (r : Run) (f : FeedRow) (a : Nat) : Bool × State :=
  let b := r.block
  let row := obAccRow b + r.row
  let old := if readsAcc r then s.readAccRow p r.scratch b a row else (List.replicate 128 0, false, s)
  let cols := match (((s.tile p).work.active h).find? fun x => x.1 == a) with | some x => x.2.cols | none => []
  let c := chainRow r f cols old.1
  let s := old.2.2.onTileRegs p fun g => { g with
    zeroBlocks := addW g.zeroBlocks c.2.1, chainTrunc := addW g.chainTrunc c.2.2 }
  if spillsNow r then
    let w := if slotsLive r then s.readWideRow p r.scratch split b a r.row else (List.replicate 128 ⟨0, 0⟩, false, s)
    let new := (w.1.zip c.1).map fun q => spill q.1 q.2
    (old.2.1 || w.2.1, (w.2.2.writeWideRow p r.scratch split b a r.row new).writeAccRow p r.scratch b a row (List.replicate 128 0))
  else (old.2.1, s.writeAccRow p r.scratch b a row c.1)

/-- A half takes its part in a wave: weights swap at the first wave of a K-block (R65); the last sub-wave of an entry delivers
the sums (R60, R63). -/
def State.halfWave (s : State) (e p : Nat) (h : Half) : State :=
  let split := (s.tile p).regs.split
  match s.runOf p h, ((s.tile p).work.feed h).head? with
  | some r, some f =>
    let s := if r.row = 0 ∧ r.sub = 0 then s.onTileWork p fun w => (w.setActive h (w.shadow h)).setShadow h [] else s
    let s := if r.kb = 0 ∧ r.row = 0 ∧ r.sub = 0 then s.startRun p r else s
    if r.sub + 1 < subWaves r.aFmt r.bFmt then s.putRun p { r with sub := r.sub + 1 }
    else if r.kb = 0 ∧ obInitAdd r.block ∧ rowPoisoned (s.tile p).regs (obAccRow r.block + r.row) then s.endRun e r stFaulted
    else
      let t := (List.range 4).foldl (fun (acc : Bool × State) a =>
        let q := acc.2.sumArray p split h r f a
        (acc.1 || q.1, q.2)) (false, s)
      if t.1 then t.2.scratchFault e p r
      else
        let last := r.kb + 1 == obKb r.block
        let r' := if r.row + 1 < obM r.block then { r with row := r.row + 1, sub := 0 } else { r with row := 0, sub := 0, kb := r.kb + 1 }
        let r' := if last then { r' with ready := r.row + 1 } else r'
        let s := (t.2.onTileWork p fun w => w.setFeed h (w.feed h).tail).putRun p r'
        if quiet r.block ∧ r'.ready = obM r.block then s.endRun e r' stOk else s
  | _, _ => s

/-- Faults that the wave's detectors find before its sums are made: feeder parity, weight parity, accumulator and wide-buffer
words, of the upset given and of the injections armed (Table 14-8). -/
def State.waveFaults (s : State) (e p : Nat) (up : Option TileUpset) : State :=
  let t := s.tile p
  let split := t.regs.split
  let takes (h : Half) : Bool := halfReady t.work h
  let runs (h : Half) : Bool := takes (halfOf split h)
  let rowOf (h : Half) : Option Run := if runs h then t.work.run (halfOf split h) else none
  -- the bank that a half's row lies in, when its entries are read
  let bankRead (h : Half) : Bool := [Half.u, .l].any fun k =>
    match rowOf k with
    | some r => !r.scratch && readsAcc r && r.sub + 1 == subWaves r.aFmt r.bFmt && (decide (obAccRow r.block + r.row < 256) == (h == .u))
    | none => false
  let swaps (h : Half) : Bool := match rowOf h with | some r => r.row == 0 && r.sub == 0 | none => false
  let wideRead := [Half.u, .l].any fun k =>
    match rowOf k with
    | some r => !r.scratch && spillsNow r && slotsLive r && r.sub + 1 == subWaves r.aFmt r.bFmt
    | none => false
  let i1 := s.opportunity 0x0301 1 e p fun q => runs (if q < 64 then .u else .l)
  let i2 := i1.2.opportunity 0x0302 1 e p fun q => swaps (if q % 2 = 0 then .u else .l)
  let i3 := i2.2.opportunity 0x0306 1 e p fun q => (q % 16 == 1 && bankRead .u) || (q % 16 == 2 && bankRead .l)
  let i4 := i3.2.opportunity 0x0306 1 e p fun q => q % 16 == 3 && wideRead
  let s := i4.2
  let s := match i1.1, up with
    | some q, _ => s.feederFault e p q
    | none, some (.feeder q) => if runs (if q.val < 64 then .u else .l) then s.feederFault e p q.val else s
    | _, _ => s
  let s := match i2.1, up with
    | some q, _ => s.weightFault e p (q / 2) (if q % 2 = 0 then .u else .l)
    | none, some (.weight a h) => if runs h then s.weightFault e p a.val h else s
    | _, _ => s
  let s := match i3.1, up with
    | some q, _ => (let k := if q % 16 = 1 then Half.u else .l; s.accFault e p (q / 16) k (s.waveRun p k))
    | none, some (.acc a h) => if bankRead h then s.accFault e p a.val h (s.waveRun p h) else s
    | _, _ => s
  match i4.1, up with
  | some _, _ => s.wideFault e p
  | none, some .wide => if wideRead then s.wideFault e p else s
  | _, _ => s

/-- WAVE (R37, R59): one handshake step. It takes place while the arrays run, no gate is closed, detector 0x0304 holds
nothing back and no fault has stopped the half (R89); a gated wave-time brings none (R342); each half with an entry and its weights takes part (R88). A chain residue fault is found at the end of a K-block. -/
def execWave (e : Fin 64) (up : Option TileUpset) (s : State) : Host.Outcome State Fault Refusal :=
  match s.ptile e.val with
  | none => .next s
  | some p =>
    let t := s.tile p
    let held := (List.range 16).any fun k => slotMatches (s.injSlot k) 0x0304 1 e.val p fun _ => true
    let goes (h : Half) : Bool := halfReady t.work h && !s.halfStopped e.val t.work h
    let gate := s.gateStep e.val p
    if s.wavesGated t ∨ held ∨ !(goes .u || goes .l) then .next s
    else if gate.1 then .next gate.2
    else
      let s := gate.2
      let ends (h : Half) : Bool := match t.work.run h with
        | some r => goes h && r.sub + 1 == subWaves r.aFmt r.bFmt
        | none => false
      let s := s.onTileRegs p fun r => { r with waves := inc r.waves }
      let s := s.waveFaults e.val p up
      let i := if ends .u || ends .l then s.opportunity 0x0303 1 e.val p (fun _ => true) else (none, s)
      let s := i.2
      let res : Option Nat := match i.1, up with
        | some a, _ => some a
        | none, some (.chain a) => if ends .u || ends .l then some a.val else none
        | _, _ => none
      match res with
      | some a => .next (s.residueFault e.val p a)
      | none =>
        -- a half that a fault has just stopped takes no part
        let on (s : State) (h : Half) : Bool := goes h && halfReady (s.tile p).work h && !s.halfStopped e.val (s.tile p).work h
        let s := if on s .u then s.halfWave e.val p .u else s
        .next (if on s .l then s.halfWave e.val p .l else s)

/-! ### The activity ramp (R86, R87) -/

/-- Ballast (R354): from a granted hint until its phase starts, while the envelope asks for it and the ramp ceiling stands below the
class power, ramp waves raise the module's power. -/
def State.ballastRuns (s : State) : Bool :=
  s.pwr.ballast && s.pwr.rampUp != 0 &&
    s.pwrRegs.phases.any fun x => x.granted && !x.begun && decide (s.pwr.rampCeil < classWatts x.cls)

/-- Column groups enabled after d ramp-down waves. -/
def groupsDown (d : Nat) : Nat := 8 - d / 6

/-- RAMP_WAVE. Going up, RAMP_STEP counts the groups enabled in the wave, six waves a group; the 48th ends the ramp. Going down,
the 48th leaves the arrays idle. Ballast runs ramp waves at full width until a MATMUL is ready or it ends (R354). -/
def execRampWave (e : Fin 64) (s : State) : Host.Outcome State Fault Refusal :=
  match s.ptile e.val with
  | none => .next s
  | some p =>
    let gate := s.gateStep e.val p
    if s.pwr.closed ∨ s.pwrDyn.droopGate then .next s
    else if gate.1 then .next gate.2
    else
      let s := gate.2
      let r := (s.tile p).regs
      let real := s.matmulWants e.val p
      let want := real || s.ballastRuns
      let up (pos : Nat) : State :=
        let n := pos + 1
        s.onTileRegs p fun r => { r with
          state := if 48 ≤ n ∧ (real || !want) then .run else .rampUp
          rampWaves := if 48 ≤ n then (if real || !want then 0 else 48) else n
          rampStep := min 8 (pos / 6 + 1), idleSince := none }
      match r.state with
      | .idle => if want then .next (up 0) else .next s
      | .rampUp => .next (up r.rampWaves)
      | .rampDown =>
        if want then .next (up (6 * groupsDown r.rampWaves))
        else
          let d := r.rampWaves + 1
          .next (s.onTileRegs p fun r => { r with
            state := if 48 ≤ d then .idle else .rampDown, rampWaves := if 48 ≤ d then 0 else d, rampStep := groupsDown d })
      | _ => .next s

/-- RAMP_DOWN_START: RAMP_IDLE ticks after the last MATMUL, with none running or ready. -/
def execRampDownStart (e : Fin 64) (s : State) : Host.Outcome State Fault Refusal :=
  match s.ptile e.val with
  | none => .next s
  | some p =>
    let r := (s.tile p).regs
    if r.state ≠ .run ∨ s.matmulWants e.val p then .next s
    else
      let s := s.passTo (r.idleSince.getD s.now + fld r.ctrl 16 16)
      .next (s.onTileRegs p fun r => { r with state := .rampDown, rampWaves := 0, idleSince := none })

/-! ### Snapshots and aborts (R42, R90) -/

/-- The physical tile that a window addresses (R95). -/
def State.winTile (s : State) : Win → Option Nat
  | .logical e => s.ptile e.val
  | .phys p => some p.val

/-- ENG_SNAP (R42). -/
def State.engSnap (s : State) (w : Win) : State :=
  match s.winTile w with
  | some p => s.onTileRegs p fun r => { r with snapWaves := r.waves, snapHalt := r.haltTicks, snapTick := s.boot.modCount }
  | none => s

def execEngSnap (w : Win) (s : State) : Host.Outcome State Fault Refusal :=
  .next (if s.linkUp then s.tlp.engSnap w else s)

/-- A write of ENG_ABORT (R90): the outcome stands in ENG_ABORT_RESULT. -/
def State.engAbort (s : State) (w : Win) (seq : Word32) : State :=
  match s.winTile w with
  | some p =>
    match s.engineOf p with
    | some e =>
      let a := s.abortItem e seq
      a.2.onTileRegs p fun r => { r with
        abortResult := BitVec.ofNat 64 (2 ^ 63 + seq.toNat * 2 ^ 16 + a.1.toNat) }
    | none => s
  | none => s

def execEngAbort (w : Win) (seq : Word32) (s : State) : Host.Outcome State Fault Refusal :=
  .next (if s.linkUp then s.tlp.engAbort w seq else s)

/-! ### Unparking (R341) -/

/-- QUARTER_UNPARK_DONE (R341): HALT is cleared and the arrays may ramp up; a tile of the quarter that failed its self-test
while parked is retired (R407). -/
def execQuarterUnparkDone (q : Fin 4) (s : State) : Host.Outcome State Fault Refusal :=
  if !s.pwr.unparking.getLsbD q.val then .next s
  else
    let s := ((s.onPwr fun p => { p with unparking := setQ p.unparking q.val false }).haltQuarter q.val false).powerSettle
    .next ((List.range 16).foldl (fun s i =>
      match s.ptile (16 * q.val + i) with
      | some p => if (s.tile p).health = .failedSelftest then s.retire (16 * q.val + i) p 1 0 else s
      | none => s) s)

end Sys2Proof.Machine
end

