-- ==== Sys2Proof/Machine/Output.lean ====
section
/-! DEFINITION. The output stage (R76, R77, R82 to R85): the affine step, mask and modes of Table 03-4, conversion and quantised
rows with their counts (R107 to R117), and the draining of reserved rows (R75). -/

namespace Sys2Proof.Machine

/-! ### Row statistics -/

/-- The row sum of R83: 128 terms per array, then (A0 + A1) + (A2 + A3). -/
def rowSum (ts : List Word32) : Word32 := tree fadd 9 ts
/-- The exact row maximum. -/
def rowMax (ys : List Word32) : Word32 := ys.foldl fmax (inf32 true)

/-- exp2(y − m) of R82 to R85: +0 when y is −∞. -/
def expDiff (y m : Word32) : Word32 := if y = inf32 true then 0 else exp2 (fsub y m)

/-- MAXEXP of a row (R82, R83): m, s and the values p. -/
def maxExp (ys : List Word32) : Word32 × Word32 × List Word32 :=
  let m := rowMax ys
  let p := ys.map fun y => expDiff y m
  (m, rowSum p, p)

/-- COMBINE (R85): the combined statistics and the correction factor. -/
def combine (m0 s0 m s : Word32) : Word32 × Word32 × Word32 :=
  let m1 := fmax m0 m
  let f := expDiff m0 m1
  (m1, fadd (fmul s0 f) (fmul s (expDiff m m1)), f)

/-! ### Values of a row -/

/-- y of R82 for local column j: alpha × x + beta × b[j], masked where n > r + MASK_OFFSET. -/
def affine (b : List Byte) (bias : List Word32) (m j : Nat) (x : Word32) : Word32 × Bool :=
  let y := fmul (obAlpha b) x
  let y := if (obBeta b).toNat % 2 ^ 31 = 0 then y else fadd y (fmul (obBeta b) (bias.getD j 0))
  let masked : Bool := obMask b && decide (((obMBase b + m : Nat) : Int) + obMaskOffset b < ((obNBase b + j : Nat) : Int))
  (if masked then inf32 true else y, masked)

/-- The job key of R111: that of the job slot of CHD_SLICE. -/
def State.jobKey (s : State) : BitVec 128 := 
  match s.job.slots.find? fun j => j.1 == fld s.chd.slice 0 8 with
  | some j => j.2.key
  | none => 0
def State.key0 (s : State) : Word64 := s.jobKey.setWidth 64
def State.key1 (s : State) : Word64 := (s.jobKey >>> 64).setWidth 64

/-- The key of a residual: tensor id, element index, bank (R113). -/
def residKey (tensor : Word32) (idx : Word64) (bank : Nat) : Nat := (tensor.toNat * 2 ^ 64 + idx.toNat) * 2 + bank

/-- Counts one quantised block into an item's tally; `eHi4` is the E2M1 window top of a FALLEN record (R107, R117, R122). -/
def tallyBlock (t : Tally) (eHi4 : Option Nat) (q : Quant) : Tally :=
  let amax := match q.amax with | some (m, e) => encode32 false m e | none => 0
  let sat4 := match eHi4, q.amax with
    | some h, some (m, e) => bit (decide (h < need .e2m1 m e))
    | _, _ => 0
  { t with blocks := t.blocks + 1, sat := t.sat + bit q.sat, sat4 := t.sat4 + sat4, amax := if flt t.amax amax then amax else t.amax }

/-- Quantises block j of an output row m (R82, R109 to R114); detector 0x0401 replaces an input with NaN (R116). -/
def State.quantBlock (s : State) (e p : Nat) (r : Run) (m j : Nat) (ys : List Word32) : Quant × State :=
  let b := r.block
  let i := s.opportunity 0x0401 1 e p fun _ => true
  let s := i.2
  let ys := if i.1.isSome then qnan :: ys.tail else ys
  let f := fmtElem r.outFmt
  let idx (k : Nat) : Word64 := BitVec.ofNat 64 ((obMBase b + m) * obRowLen b + obNBase b + 32 * j + k)
  match roundOf r.rnd with
  | .rne => (quantiseBlock (ys.map decode32) r.eLo r.eHi f false fun _ => 0, s)
  | .sr => (quantiseBlock (ys.map decode32) r.eLo r.eHi f true fun k => srHash r.step r.tensor (idx k) s.key0 s.key1, s)
  | .ef =>
    let c := s.job.committed
    let rin := (List.range 32).map fun k => Sparse.get 0 s.scales.resid (residKey r.tensor (idx k) (c % 2))
    let q := efBlock ys rin r.eLo r.eHi f
    (q.1, s.onScales fun z => { z with
      resid := q.2.zipIdx.foldl (fun x w => Sparse.put 0 x (residKey r.tensor (idx w.2) ((c + 1) % 2)) w.1) z.resid })

/-- Writes a quantised row: element bytes at OUT_BASE, scale bytes at OUT_SCALE (R104), counting each block. -/
def State.quantRow (s : State) (e p : Nat) (r : Run) (m : Nat) (ys : List Word32) : State :=
  let b := r.block
  let f := fmtElem r.outFmt
  (List.range 16).foldl (fun s j =>
    let q := s.quantBlock e p r m j ((ys.drop (32 * j)).take 32)
    let s := q.2.writePad p (obOutBase b + m * obOutPitch b + j * elemBytes f) (packCodes f q.1.codes)
    let s := s.writePad p (obOutScale b + m * obOutSpitch b + j) [q.1.scale]
    let s := if q.1.nonfinite then s.onScales fun z => { z with nonfinite := true } else s
    s.onItem e r.seq fun i => { i with tally := some (tallyBlock (i.tally.getD ⟨obOutRec b, 0, 0, 0, 0⟩) r.eHi4 q.1) }) s

/-- Writes the values of an output row in the output format (R82). -/
def State.writeRow (s : State) (e p : Nat) (r : Run) (m : Nat) (ys : List Word32) : State :=
  let b := r.block
  let at' := obOutBase b + m * obOutPitch b
  if r.outFmt ≤ 2 then s.quantRow e p r m ys
  else if r.outFmt = 3 then s.writePad p at' (ys.flatMap fun y => leBytes 2 (toB16 (decode32 y)).toNat)
  else s.writePad p at' (wordBytes ys)

/-- A drain-only item that uses the wide buffer merges a row of one array: the accumulator entries are added to their slots, or to
zero without W64_IN, and set to +0 (R77, R79). True when a scratchpad word was uncorrectable. -/
def State.mergeRow (s : State) (p : Nat) (split : Bool) (r : Run) (m a : Nat) : List Wide × Bool × State :=
  let b := r.block
  let x := s.readAccRow p r.scratch b a (obAccRow b + m)
  let w := if obW64In b then x.2.2.readWideRow p r.scratch split b a m else (List.replicate 128 ⟨0, 0⟩, false, x.2.2)
  let new := (w.1.zip x.1).map fun q => spill q.1 q.2
  (new, x.2.1 || w.2.1,
    (w.2.2.writeWideRow p r.scratch split b a m new).writeAccRow p r.scratch b a (obAccRow b + m) (List.replicate 128 0))

/-- The wide values of output row m: the slots when the item used them, else (FP32 result, +0) (R77). True when a scratchpad
word was uncorrectable. -/
def State.rowValues (s : State) (p : Nat) (split : Bool) (r : Run) (m : Nat) : List Wide × Bool × State :=
  let b := r.block
  (List.range 4).foldl (fun (acc : List Wide × Bool × State) a =>
    if mergesRows b then
      let w := acc.2.2.mergeRow p split r m a
      (acc.1 ++ w.1, acc.2.1 || w.2.1, w.2.2)
    else if usesWide b then
      let w := acc.2.2.readWideRow p r.scratch split b a m
      (acc.1 ++ w.1, acc.2.1 || w.2.1, w.2.2)
    else
      let w := acc.2.2.readAccRow p r.scratch b a (obAccRow b + m)
      (acc.1 ++ w.1.map fun x => ⟨x, 0⟩, acc.2.1 || w.2.1, w.2.2)) ([], false, s)

/-- Applies the mode of Table 03-4 to a row and writes values and statistics. True when a scratchpad word was uncorrectable. -/
def State.modeRow (s : State) (e p : Nat) (r : Run) (m : Nat) (ys : List (Word32 × Bool)) : Bool × State :=
  let b := r.block
  let st := obStats b + 16 * m
  let vals := ys.map (·.1)
  match obMode b with
  | 1 =>
    let sum := rowSum (ys.map fun y => if y.2 then 0 else y.1)
    (false, (s.writePad p (st + 4) (wordBytes [sum])).writeRow e p r m vals)
  | 2 =>
    let z := s.readPad p (obZrow b + 1024 * m) 1024
    let terms := ys.zipIdx.map fun y => if y.1.2 then 0 else fmul y.1.1 (b16to32 (BitVec.ofNat 16 (le z.1 (2 * y.2) 2)))
    (z.2.1, (z.2.2.writePad p (st + 4) (wordBytes [rowSum terms])).writeRow e p r m vals)
  | 3 =>
    let x := maxExp vals
    let write (s : State) : State := if obP b then s.writeRow e p r m x.2.2 else s
    if obCombine b then
      let o := s.readPad p st 8
      let c := combine (BitVec.ofNat 32 (le o.1 0 4)) (BitVec.ofNat 32 (le o.1 4 4)) x.1 x.2.1
      (o.2.1, write (o.2.2.writePad p st (wordBytes [c.1, c.2.1, c.2.2])))
    else (false, write (s.writePad p st (wordBytes [x.1, x.2.1])))
  | _ => (false, s.writeRow e p r m vals)

/-- Drains output row m of a run (R76, R77, R82). True when a scratchpad word was uncorrectable. -/
def State.drainRow (s : State) (e p : Nat) (split : Bool) (r : Run) (m : Nat) : Bool × State :=
  let b := r.block
  let v := s.rowValues p split r m
  if v.2.1 then (true, v.2.2)
  else if quiet b then (false, v.2.2)
  else if r.outFmt = 5 then
    (false, v.2.2.writePad p (obOutBase b + m * obOutPitch b) (v.1.flatMap fun w => leBytes 4 w.hi.toNat ++ leBytes 4 w.lo.toNat))
  else
    let bias := if (obBeta b).toNat % 2 ^ 31 = 0 then ([], false, v.2.2) else v.2.2.readPad p (obBias b) 2048
    if bias.2.1 then (true, bias.2.2)
    else
      let bs := wordsOf (bias.1.length / 4) bias.1
      bias.2.2.modeRow e p r m (v.1.zipIdx.map fun w => affine b bs m w.2 w.1.hi)

/-- OUTPUT_ROW_DRAIN (R76): the oldest finished row of a half; the last row ends the item. A word of the bank or of the wide
buffer that the drain reads may be uncorrectable (Table 03-6); a row of a poisoned bank ends the item ST_FAULTED (R89). -/
def execOutputRowDrain (e : Fin 64) (h : Half) (up : Option TileUpset) (s : State) : Host.Outcome State Fault Refusal :=
  match s.ptile e.val with
  | none => .next s
  | some p =>
    let split := (s.tile p).regs.split
    let h := halfOf split h
    match (s.tile p).work.drains h with
    | none => .next s
    | some r =>
      let b := r.block
      let m := r.drained
      if (quiet b ∧ !mergesRows b) ∨ r.ready ≤ m then .next s
      else if rowPoisoned (s.tile p).regs (obAccRow b + m) then .next (s.endRun e.val r stFaulted)
      else
        let bank := if obAccRow b + m < 256 then Half.u else .l
        let readsBank := (!usesWide b || mergesRows b) && !r.scratch
        let readsWide := usesWide b && (!mergesRows b || obW64In b) && !r.scratch
        let i := s.opportunity 0x0306 1 e.val p fun q =>
          (readsBank && q % 16 == (if bank = .u then 1 else 2)) || (readsWide && q % 16 == 3)
        let s := i.2
        let hit : Option TileUpset := match i.1, up with
          | some q, _ => if q % 16 = 3 then some .wide else some (.acc (Fin.ofNat 4 (q / 16)) bank)
          | none, some (.acc a k) => if readsBank ∧ k = bank then some (.acc a k) else none
          | none, some .wide => if readsWide then some .wide else none
          | _, _ => none
        match hit with
        | some (.acc a k) => .next (s.accFault e.val p a.val k (some r))
        | some _ => .next (s.wideFault e.val p)
        | none =>
          let d := s.drainRow e.val p split r m
          if d.1 then .next (d.2.scratchFault e.val p r)
          else
            let s := if obTiedDrain b then
                (List.range 4).foldl (fun s a => s.writeAccRow p r.scratch b a (obAccRow b + m) (List.replicate 128 0)) d.2
              else d.2
            let r := { r with drained := m + 1 }
            let s := s.putRun p r
            .next (if m + 1 = obM b then s.endRun e.val r stOk else s)

end Sys2Proof.Machine
end

