-- ==== Sys2Proof/Machine/Reduce.lean ====
section
/-! DEFINITION. The weight-stream broadcast (R266, R267), the reduce-scatter (R269 to R273), its deadline (R274), late
contributions (R294) and the cross-group ring (R303). -/

namespace Sys2Proof.Machine

/-! ### Rings and parts -/

/-- CHD_SLICE: X0, X1, Y0, Y1. -/
def State.sliceOf (s : State) : Nat × Nat × Nat × Nat :=
  let w := s.chd.slice
  (fld w 20 4, fld w 16 4, fld w 12 4, fld w 8 4)

/-- The parts' upper boundaries A, B, C in 56ths (Table 09-7): weight streams, reduce streams. -/
def weightShares (split : Nat) : List Nat :=
  match split with
  | 0 => [14, 28, 42]
  | 1 => [5, 10, 33]
  | 2 => [28, 56, 56]
  | _ => [23, 46, 51]
def reduceShares (split : Nat) : List Nat :=
  match split with
  | 0 => [14, 28, 42]
  | 1 => [23, 46, 51]
  | 2 => [28, 56, 56]
  | _ => [5, 10, 33]

/-- The boundary of a share of `total`, rounded down to a multiple of `unit`. -/
def shareAt (total unit sh : Nat) : Nat := total * sh / 56 / unit * unit

/-- The part, 0 A to 3 D, of a place in a total. -/
def partOf (shares : List Nat) (total unit pos : Nat) : Nat := (shares.filter fun sh => shareAt total unit sh ≤ pos).length

/-- Where a module stands in the two phases of a part of an owner's data: in each phase the ring's size, the module's index from
the position after the owner (the owner is last), the next position,
and the direction of the hop to it where that hop closes a ring narrower than 8 (R264); whether the module lies on the owner's line of the second
phase (R266, R270). -/
structure Path where
  n1 : Nat
  i1 : Nat
  next1 : Nat × Nat
  by1 : Option Nat
  n2 : Nat
  i2 : Nat
  next2 : Nat × Nat
  by2 : Option Nat
  line1 : Bool
  line2 : Bool
  owner : Nat × Nat
deriving DecidableEq, Repr

/-- The index of ring place r from the one after ro. -/
def ringIdx (n r ro : Nat) (plus : Bool) : Nat := if plus then (r + 2 * n - ro - 1) % n else (ro + 2 * n - r - 1) % n
def ringNext (n r : Nat) (plus : Bool) : Nat := if plus then (r + 1) % n else (r + n - 1) % n

/-- The hop from ring place r closes a ring narrower than 8: it goes on in the ring's direction, 0 +X or 2 +Y with `axis`, or the
one against it, through the positions outside the slice (R264). -/
def ringClose (n r axis : Nat) (plus : Bool) : Option Nat :=
  if 1 < n ∧ n < 8 ∧ (if plus then r + 1 = n else r = 0) then some (axis + bit (!plus)) else none

/-- The path of a part for this module: parts A and B run their X phase first, parts A and C run in + directions. -/
def State.pathOf (s : State) (o part : Nat) : Option Path :=
  match s.grp.pos with
  | none => none
  | some (x, y) =>
    let (x0, x1, y0, y1) := s.sliceOf
    let xo := o % 8
    let yo := o / 8
    let inside (a b v : Nat) : Bool := decide (a ≤ v) && decide (v ≤ b)
    if inside x0 x1 x && inside x0 x1 xo && inside y0 y1 y && inside y0 y1 yo then
      let plus := part % 2 == 0
      let nx := x1 - x0 + 1
      let ny := if s.split = 2 then 1 else y1 - y0 + 1
      let ix := ringIdx nx (x - x0) (xo - x0) plus
      let iy := if ny = 1 then 0 else ringIdx ny (y - y0) (yo - y0) plus
      let toX := (x0 + ringNext nx (x - x0) plus, y)
      let toY := (x, y0 + ringNext (y1 - y0 + 1) (y - y0) plus)
      let byX := ringClose nx (x - x0) 0 plus
      let byY := ringClose ny (y - y0) 2 plus
      some (if part < 2 then ⟨nx, ix, toX, byX, ny, iy, toY, byY, y == yo, x == xo, (xo, yo)⟩
        else ⟨ny, iy, toY, byY, nx, ix, toX, byX, x == xo, y == yo, (xo, yo)⟩)
    else none

/-! ### The weight stream -/

def wKey (w cw : Nat) : Nat := w * 2 ^ 32 + cw
/-- SHARD_CW of WSTREAM[w]. -/
def State.shardCw (s : State) (w : Nat) : Nat := fld (s.wword w 1) 0 32

/-- The positions to which this module sends a codeword of a weight stream on, with the direction of a ring's closing hop: the next of the first ring while it lies on the
owner's line, and the next of the second ring (R266). -/
def State.weightNext (s : State) (w cw : Nat) : List (Option Nat × Nat × Nat) :=
  let n := s.shardCw w
  if n = 0 then []
  else
    match s.pathOf (cw / n) (partOf (weightShares s.split) n 1 (cw % n)) with
    | none => []
    | some p =>
      -- the owner is last in its ring: it starts, and the one before it ends
      let a := if p.line1 ∧ 1 < p.n1 ∧ p.i1 + 2 ≠ p.n1 then [(p.by1, p.next1)] else []
      let b := if 1 < p.n2 ∧ p.i2 + 2 ≠ p.n2 then [(p.by2, p.next2)] else []
      a ++ b

/-- Keeps a codeword of a weight stream, as its 36 bytes. -/
def State.keepWeight (s : State) (w cw : Nat) (raw : List Byte) : State :=
  s.onChd fun c => { c with wrecv := Sparse.put [] c.wrecv (wKey w cw) raw }
/-- Keeps a codeword of this owner's copy for the step (R296). -/
def State.keepOwn (s : State) (w cw : Nat) (raw : List Byte) : State :=
  s.onChd fun c => { c with wown := Sparse.put [] c.wown (wKey w cw) raw }

/-- Codewords of a weight stream arrive: they are kept for landing and sent on. The first decides the part of them all. -/
def State.weightIn (s : State) (w cw : Nat) (raws : List (List Byte)) : State :=
  let s := raws.zipIdx.foldl (fun s r => s.keepWeight w (cw + r.2) r.1) s
  if s.chd.wreq.contains w then s
  else (s.weightNext w cw).foldl (fun s d => s.routeBy d.1 1 w cw d.2 false raws.flatten) s

/-- Splits data into 32-byte pieces. -/
def pieces : Nat → List Byte → List (List Byte)
  | 0, _ => []
  | n + 1, d => if d.isEmpty then [] else padTo 32 d :: pieces n (d.drop 32)

/-- The owner's own codewords of 36 bytes: landed here, and handed to its first rings (R266). -/
def State.weightOwn (s : State) (w cw : Nat) (raws : List (List Byte)) : State :=
  raws.zipIdx.foldl (fun s d => (s.keepOwn w (cw + d.2) d.1).weightIn w (cw + d.2) [d.1]) s

/-! ### Landing (R267) -/

/-- A landing list entry: CW_START, CW_COUNT, ENGINES. -/
structure LandEntry where
  start : Nat
  count : Nat
  engines : Nat
deriving DecidableEq, Repr

/-- Reads entry i of WSTREAM[w]'s landing list. -/
def State.landEntry (s : State) (w i : Nat) : Option LandEntry × State :=
  match s.place ((s.wword w 0).toNat + 16 * i) 16 Loc.isG7 with
  | none => (none, s)
  | some l =>
    let r := s.readLoc l 16
    (some ⟨le r.1 0 5, le r.1 5 2, le r.1 8 8⟩, r.2.2)

def engineCount (m : Nat) : Nat := ((List.range 64).filter fun e => bitOf m e).length

/-- The engines of entries 0 to n − 1. -/
def State.engineTotal (s : State) (w n : Nat) : Nat × State :=
  (List.range n).foldl (fun (a : Nat × State) i =>
    let r := a.2.landEntry w i
    (a.1 + (match r.1 with | some x => engineCount x.engines | none => 0), r.2)) (0, s)

/-- WARN CHD_LANDING_RANGE; the stream lands nothing further in the step. -/
def State.landRange (s : State) (w e i : Nat) : State :=
  (s.onChd fun c => { c with stopped := w :: c.stopped }).report 0x0906 .warn 9 0
    (leBytes 1 w ++ leBytes 1 e ++ [0, 0] ++ leBytes 4 i ++ leBytes 4 s.stepNo)

/-- Stores a codeword of 36 bytes in a scratchpad with the health it decodes to (Table 08-1). -/
def State.landWord (s : State) (p off : Nat) (raw : List Byte) : State :=
  let d := decodeWord raw
  (s.writePad p off d.1).onTileMem p fun m => { m with badPad := Sparse.put .good m.badPad (off / 32) (if d.2 = .correctable then .good else d.2) }

/-- Lands an entry in one engine and posts its landing counter. -/
def State.landEngine (s : State) (w slot : Nat) (x : LandEntry) (e : Nat) : State :=
  let s := match s.ptile e with
    | some p => (List.range x.count).foldl (fun (s : State) j => s.landWord p (slot + 32 * j) (Sparse.get [] s.chd.wrecv (wKey w (x.start + j)))) s
    | none => s
  s.scOp ((fld (s.wword w 3) 0 14 + e) % 16384) .add 1 (.landing 0)

/-- WSTREAM_LAND: entry i of stream w, once its codewords have come and its slots are released. -/
def execWstreamLand (w : Fin 256) (i : Nat) (s : State) : Host.Outcome State Fault Refusal :=
  let w := w.val
  let slots := fld (s.wword w 2) 32 8
  let size := fld (s.wword w 2) 40 24
  if !s.mainUp ∨ fld (s.wword w 1) 32 32 ≤ i ∨ s.chd.stopped.contains w ∨ (Sparse.get [] s.chd.landed w).contains i then .next s
  else
    match s.landEntry w i with
    | (none, s) => .next (s.landRange w 0 i)
    | (some x, s) =>
      let engines := (List.range 64).filter fun e => bitOf x.engines e
      let at' := fld (s.wword w 2) 0 32 + (if slots = 0 then 0 else i % slots) * size
      if slots = 0 ∨ size < 32 * x.count ∨ padSize < at' + 32 * x.count ∨ at' % 32 ≠ 0 then .next (s.landRange w (engines.headD 0) i)
      else if !((List.range x.count).all fun j => !(Sparse.get [] s.chd.wrecv (wKey w (x.start + j))).isEmpty) then .next s
      else
        let need := if slots ≤ i then s.engineTotal w (i + 1 - slots) else (0, s)
        if need.2.sc (fld (s.wword w 3) 32 14) < need.1 then .next need.2
        else
          let s := engines.foldl (fun s e => s.landEngine w at' x e) need.2
          .next (s.onChd fun c => { c with landed := Sparse.put [] c.landed w (i :: Sparse.get [] c.landed w) })

/-- Sends this owner's codewords of a weight stream to one module alone (R296): the copy of the step has one value (R115), whether
the companion makes it again or the owner still holds it. -/
def State.weightTo (s : State) (w : Nat) (dest : Nat × Nat) : State :=
  let n := s.shardCw w
  match s.grp.pos with
  | none => s
  | some (x, y) =>
    let o := 8 * y + x
    (List.range n).foldl (fun s j =>
      let raw := Sparse.get [] s.chd.wown (wKey w (o * n + j))
      if raw.isEmpty then s else s.route 1 w (o * n + j) dest false raw) s

/-! ### Reduce streams (R269 to R273) -/

/-- ELEM of a reduce stream. -/
def rElem (s : State) (st : Nat) : Elem := if fld (s.rword st 0) 60 1 = 1 then .e5m2 else .e4m3

/-- The codeword of the scale byte of a block. -/
def scaleCw (blk : Nat) : Nat := 2 ^ 29 + blk / 32

/-- The path of a block: its chunk's owner and its part (R270). -/
def State.redPath (s : State) (st blk : Nat) : Option Path :=
  let c := s.chunk st
  if c = 0 ∨ 64 ≤ 32 * blk / c then none else s.pathOf (32 * blk / c) (partOf (reduceShares s.split) c 1024 (32 * blk % c))

/-- The 32 elements and the scale byte of a block from a store of codewords, when both are there. -/
def blockFrom (m : Sparse (List Byte)) (st blk : Nat) : Option (List Byte × Byte) :=
  let e := Sparse.get [] m (rKey st blk)
  let z := Sparse.get [] m (rKey st (scaleCw blk))
  if e.isEmpty ∨ z.isEmpty then none else some (e, z.getD (blk % 32) 0)

/-- The FP32 values of a block (R63). -/
def blockF32 (f : Elem) (b : List Byte × Byte) : List Word32 := b.1.map fun c => toFp32 (blockValue f b.2 c.toNat)

/-- Elements that this module quantises before block `blk` in stream order, and in which phase it quantises `blk` (R272): each
element counts once per hop, in ascending element order. -/
def State.quantised (s : State) (st blk hop : Nat) : Nat :=
  let c := s.chunk st
  let seg (o part : Nat) : Nat :=
    let lo := o * c + (if part = 0 then 0 else shareAt c 1024 ((reduceShares s.split).getD (part - 1) 56))
    let hi := o * c + (if part = 3 then c else shareAt c 1024 ((reduceShares s.split).getD part 56))
    match s.pathOf o part with
    | none => 0
    | some p =>
      let q := (if p.i1 = 0 then 0 else 1) + (if p.line2 ∧ p.i2 ≠ 0 then 1 else 0)
      q * (min (max (32 * blk) lo) hi - lo)
  let before := ((List.range 64).flatMap fun o => (List.range 4).map fun part => seg o part).sum
  let phase2 : Bool := match s.redPath st blk with | some p => decide (p.n1 ≤ hop) && p.i1 != 0 | none => false
  before + (if phase2 then 1 else 0)

/-- Values that this module quantises per element of a block: 2 when it takes part in both phases. -/
def State.perElem (s : State) (st blk : Nat) : Nat :=
  match s.redPath st blk with
  | some p => max 1 ((if p.i1 = 0 then 0 else 1) + (if p.line2 ∧ p.i2 ≠ 0 then 1 else 0))
  | none => 1

/-- Address of the residual of element k of a block in a bank. -/
def State.redResid (s : State) (st blk hop bank k : Nat) : Nat :=
  bitsOf (s.rword st 4).toNat 0 40 + (s.rword st 5).toNat * bank + 2 * (s.quantised st blk hop + s.perElem st blk * k)

/-- The STEP of the descriptor that wrote this module's block (R271), the job's step where none did. -/
def State.blockStep (s : State) (st blk : Nat) : Word32 :=
  match Sparse.get 0 s.chd.ownStep (rKey st blk) with
  | 0 => s.job.step
  | n + 1 => BitVec.ofNat 32 n

/-- Quantises the sums of a block at a hop (R271, R272, R107 to R113): window [1, 127], SR or EF with the residual at RESID_BASE; a
hop of the cross-group ring, 15 and on, keeps no residual. -/
def State.redQuant (s : State) (st blk hop : Nat) (ys : List Word32) : Quant × State :=
  let f := rElem s st
  let w0 := s.rword st 0
  if fld w0 61 1 = 1 then
    let tensor : Word32 := BitVec.ofNat 32 (fld w0 0 32) ^^^ BitVec.ofNat 32 (hop * 2 ^ 24)
    let idx (k : Nat) : Word64 := s.rword st 2 + BitVec.ofNat 64 (32 * blk + k)
    (quantiseBlock (ys.map decode32) 1 127 f true (fun k => srHash (s.blockStep st blk) tensor (idx k) s.key0 s.key1), s)
  else if s.rword st 4 = 0 ∨ 15 ≤ hop then ((efBlock ys (List.replicate 32 0) 1 127 f).1, s)
  else
    let c := s.job.committed
    let rd := (List.range 32).foldl (fun (a : List Word16 × State) k =>
      let r := a.2.readG7 (s.redResid st blk hop (c % 2) k) 2
      (a.1 ++ [BitVec.ofNat 16 (le r.1 0 2)], r.2.2)) ([], s)
    let q := efBlock ys rd.1 1 127 f
    (q.1, q.2.zipIdx.foldl (fun s r => s.writeG7 (s.redResid st blk hop ((c + 1) % 2) r.2) (leBytes 2 r.1.toNat)) rd.2)

/-- A non-finite sum sets the module's non-finite flag (R116). -/
def State.redSum (s : State) (st blk hop : Nat) (ys : List Word32) : (List Byte × Byte) × State :=
  let q := s.redQuant st blk hop ys
  let s := if q.1.nonfinite then q.2.onScales fun z => { z with nonfinite := true } else q.2
  ((q.1.codes.map fun c => BitVec.ofNat 8 c, q.1.scale), s)

/-- Sends a block of partials on to the next position: its elements at once, its scale byte with those of its codeword. -/
def State.redSend (s : State) (st blk hop : Nat) (by' : Option Nat) (dest : Nat × Nat) (b : List Byte × Byte) (late : Bool) : State :=
  let s := s.routeBy by' 2 st blk dest late (codeword (padTo 32 b.1))
  let key := (st * 16 + hop) * 2 ^ 32 + blk / 32
  let have' := (Sparse.get [] s.chd.scaleOut key).filter (fun z => z.1 / 2 ≠ blk % 32) ++ [(2 * (blk % 32) + bit late, b.2)]
  let total := min 32 (s.rBlocks st - blk / 32 * 32)
  if have'.length < total then s.onChd fun c => { c with scaleOut := Sparse.put [] c.scaleOut key have' }
  else
    let data := (List.range 32).map fun i => match have'.find? fun z => z.1 / 2 == i with | some z => z.2 | none => 0
    (s.onChd fun c => { c with scaleOut := Sparse.put [] c.scaleOut key [] }).routeBy by' 2 st (scaleCw blk) dest
      (have'.any fun z => z.1 % 2 == 1) (codeword data)

/-! ### The cross-group ring (R303) -/

/-- The slow-tier place of DEST. -/
def State.kgradBase (s : State) (st : Nat) : Option Nat :=
  match s.place (s.rword st 3).toNat 1 Loc.isSlow with
  | some (.slow base) => some base
  | _ => none

/-- The first block of unit u of this owner's chunk, and how many blocks of the stream the unit holds. -/
def State.unitBlock (s : State) (st u : Nat) : Nat := s.ownIndex * s.chunk st / 32 + 32 * u
def State.unitBlocks (s : State) (st u : Nat) : Nat := min 32 (s.rBlocks st - s.unitBlock st u)

/-- The 1,024 elements and 32 scale bytes of a unit in the KGRAD place, and their writing. -/
def State.unitRead (s : State) (st u : Nat) : List Byte :=
  match s.kgradBase st with
  | some base =>
    let at' := base + 4224 * (u / 4)
    Memory.bytes s.mem.slow (at' + 1024 * (u % 4)) 1024 ++ Memory.bytes s.mem.slow (at' + 4096 + 32 * (u % 4)) 32
  | none => List.replicate 1056 0
def State.unitWrite (s : State) (st u : Nat) (d : List Byte) : State :=
  match s.kgradBase st with
  | some base =>
    let at' := base + 4224 * (u / 4)
    (s.writeSlow (at' + 1024 * (u % 4)) (d.take 1024)).writeSlow (at' + 4096 + 32 * (u % 4)) (slice d 1024 32)
  | none => s

/-- The piece of a unit: the chunk in G equal pieces at multiples of 1,024 elements. -/
def State.ringPiece (s : State) (st u : Nat) : Nat :=
  ((List.range s.groups).filter fun g => g ≠ 0 ∧ s.chunk st * g / s.groups / 1024 ≤ u).length

/-- The sum of a unit that came in and this group's own, each block by the arithmetic of R271 at hop 15 + k. -/
def State.ringAdd (s : State) (st u hop : Nat) (d : List Byte) : List Byte × State :=
  let f := rElem s st
  let own := s.unitRead st u
  let blockOf (b : List Byte) (i : Nat) : List Byte × Byte := (slice b (32 * i) 32, b.getD (1024 + i) 0)
  let r := (List.range (s.unitBlocks st u)).foldl (fun (a : List (List Byte × Byte) × State) i =>
    let q := a.2.redSum st (s.unitBlock st u + i) hop (List.zipWith fadd (blockF32 f (blockOf d i)) (blockF32 f (blockOf own i)))
    (a.1 ++ [q.1], q.2)) ([], s)
  (padTo 1024 (r.1.flatMap (·.1)) ++ padTo 32 (r.1.map (·.2)), r.2)

/-- The final sum of a unit is here: it goes to its KGRAD place and on, until every group has it. -/
def State.ringFinal (s : State) (st u : Nat) (d : List Byte) : State :=
  let s := (s.unitWrite st u d).onChd fun c => { c with ringDone := rKey st u :: c.ringDone }
  if (s.groupNo + 1) % s.groups = s.ringPiece st u then s else s.ringSend (rKey st u) d

/-- A vote that waited for the ring is posted. -/
def State.ringVote (s : State) : State :=
  match s.grp.voteHeld with
  | some z => if s.ringOpen then s else s.postVote z
  | none => s

/-- One unit goes on: group c + 1 sends its own sum of piece c, each further group adds its own, and the sum that group c ends with
travels round unchanged. -/
def State.ringStep (s : State) (st u : Nat) : State :=
  let key := rKey st u
  let n := s.groups
  let c := s.ringPiece st u
  let have' := (List.range (s.unitBlocks st u)).all fun i => s.chd.ringSum.contains (rKey st (s.unitBlock st u + i))
  let sent (s : State) : State := s.onChd fun t => { t with ringSent := key :: t.ringSent }
  if !s.ringRuns st ∨ s.chd.ringDone.contains key then s
  else if s.groupNo = (c + 1) % n ∧ have' ∧ !s.chd.ringSent.contains key then (sent s).ringSend key (s.unitRead st u)
  else match s.chd.ringIn.find? fun d => d.1 == key with
    | none => s
    | some d =>
      let took (s : State) : State := s.onChd fun t => { t with ringIn := t.ringIn.erase d }
      if s.chd.ringSent.contains key then ((took s).ringFinal st u d.2).ringVote
      else if !have' ∨ s.groupNo = (c + 1) % n then s
      else
        let r := (took s).ringAdd st u (15 + (s.groupNo + 2 * n - c - 2) % n) d.2
        if s.groupNo = c then ((sent r.2).ringFinal st u r.1).ringVote else (sent r.2).ringSend key r.1

/-- What has come over FDT goes on. -/
def State.ringRun (s : State) : State := s.chd.ringIn.foldl (fun s d => s.ringStep (d.1 / 2 ^ 32) (d.1 % 2 ^ 32)) s

/-- The sum of a block has reached its owner: F8 elements and scale in its KGRAD place at DEST (R270, Table 07-2); with several groups
it then goes round them (R303). A replay leaves a sum that has gone round. -/
def State.redLand (s : State) (st blk : Nat) (b : List Byte × Byte) : State :=
  let e := 32 * blk % s.chunk st
  if s.chd.ringDone.contains (rKey st (e / 1024)) then s
  else match s.kgradBase st with
    | some base =>
      let at' := base + 4224 * (e / 4096)
      let s := ((s.writeSlow (at' + e % 4096) (padTo 32 b.1)).writeSlow (at' + 4096 + e % 4096 / 32) [b.2]).onMem fun m => { m with
        gradFmt := Sparse.put 0 m.gradFmt at' (if rElem s st = .e5m2 then 2 else 1) }
      if s.groups = 1 then s
      else (s.onChd fun c => { c with ringSum := if c.ringSum.contains (rKey st blk) then c.ringSum else rKey st blk :: c.ringSum }).ringStep st
        (e / 1024)
    | none => s

/-- A final sum crosses to the companion as gradient traffic (R28, R30). -/
def State.redFinal (s : State) (st blk : Nat) (b : List Byte × Byte) : State :=
  if s.d2dClear .gradMirror 0 then s.redLand st blk b else s.d2dWait (.reduced st blk b.1 b.2)

/-- A block leaves the first phase here: the sum of the line is kept, and starts or waits for the second phase. -/
def State.redLine (s : State) (st blk : Nat) (p : Path) (b : List Byte × Byte) (late : Bool) : State :=
  if p.n2 = 1 then s.redFinal st blk b
  else if p.i2 = 0 then s.redSend st blk (p.n1 - 1) p.by2 p.next2 b late
  else s.onChd fun c => { c with
    partials := Sparse.put [] c.partials (rKey st blk) (b.1 ++ [b.2]), partLate := c.partLate ++ (if late then [rKey st blk] else []) }

/-- A block leaves this module after hop number `hop`: on along its ring, or out of the phase (R270). -/
def State.redOut (s : State) (st blk hop : Nat) (p : Path) (b : List Byte × Byte) (late : Bool) : State :=
  if hop < p.n1 - 1 then s.redSend st blk hop p.by1 p.next1 b late
  else if hop = p.n1 - 1 then s.redLine st blk p b late
  else if hop - (p.n1 - 1) < p.n2 - 1 then s.redSend st blk hop p.by2 p.next2 b late
  else s.redFinal st blk b

/-! ### The fold area (R294): the blocks of the VALID streams one after another, elements first, then the scale bytes. -/

/-- The blocks that fit, and the place of a block among them. -/
def State.foldRoom (s : State) : Nat := s.grp.cfg.foldSize / 33
def State.foldAt (s : State) (st blk : Nat) : Nat := (((List.range st).filter (rValid s)).map s.rBlocks).sum + blk

def State.foldRead (s : State) (st blk : Nat) : (List Byte × Byte) × State :=
  let k := s.foldAt st blk
  let base := s.grp.cfg.foldBase.toNat
  let e := s.readG7 (base + 32 * k) 32
  let z := e.2.2.readG7 (base + 32 * s.foldRoom + k) 1
  ((e.1, z.1.getD 0 0), z.2.2)
def State.foldWrite (s : State) (st blk : Nat) (b : List Byte × Byte) : State :=
  let k := s.foldAt st blk
  let base := s.grp.cfg.foldBase.toNat
  ((s.writeG7 (base + 32 * k) (padTo 32 b.1)).writeG7 (base + 32 * s.foldRoom + k) [b.2]).onChd fun c => { c with
    fold := if c.fold.contains (rKey st blk) then c.fold else rKey st blk :: c.fold }

/-- This module's own contribution with the block of the fold area added (R294). -/
def State.ownBlock (s : State) (st blk : Nat) : Option (List Word32 × State) :=
  match blockFrom s.chd.own st blk with
  | none => none
  | some b =>
    let f := rElem s st
    let ys := blockF32 f b
    if s.chd.fold.contains (rKey st blk) then
      let r := s.foldRead st blk
      some (List.zipWith fadd ys (blockF32 f r.1), r.2.onChd fun c => { c with fold := c.fold.filter (· != rKey st blk) })
    else some (ys, s)

/-- The reduce span of the step begins with its first reduce flit (R274). -/
def State.spanBegin (s : State) : State := s.onGrp fun g => { g with spanStart := some (g.spanStart.getD s.now) }

/-- Counts late blocks of a step that are not finite (R294). -/
def State.lateNonfinite (s : State) (st : Nat) (step : Word32) : State :=
  (s.onGrpStats fun g => { g with lateNonfinite := inc g.lateNonfinite }).report 0x0A03 .warn 0x11 s.ownIndex
    (leBytes 4 step.toNat ++ leBytes 2 st ++ leBytes 4 1)

/-- A late contribution (R294): discarded when it is not finite or under DROP, kept in the fold area under FOLD. -/
def State.lateBlock (s : State) (st blk : Nat) (b : List Byte × Byte) : State :=
  let f := rElem s st
  let key := rKey st blk
  let s := s.onChd fun c => { c with
    late := c.late.filter (· != key), own := Sparse.put [] c.own (rKey st blk) [] }
  let ys := blockF32 f b
  if !(ys.all isFinite) then s.lateNonfinite st (s.blockStep st blk)
  else if s.grp.cfg.policy = 1 then
    let kept (s : State) : State := s.onGrpStats fun g => { g with lateFolded := inc g.lateFolded }
    if s.chd.fold.contains key then
      let r := s.foldRead st blk
      let q := quantiseBlock ((List.zipWith fadd ys (blockF32 f r.1)).map decode32) 1 127 f false fun _ => 0
      kept (r.2.foldWrite st blk (q.codes.map fun c => BitVec.ofNat 8 c, q.scale))
    else if s.foldAt st blk < s.foldRoom then kept (s.foldWrite st blk b)
    else s.onGrpStats fun g => { g with lateDropped := inc g.lateDropped }
  else s.onGrpStats fun g => { g with lateDropped := inc g.lateDropped }

/-- A block of this module's own contribution is complete: late, or sent where this module starts the block's ring. -/
def State.ownReady (s : State) (st blk : Nat) : State :=
  match blockFrom s.chd.own st blk with
  | none => s
  | some b =>
    if s.chd.late.contains (rKey st blk) then s.lateBlock st blk b
    else
      match s.redPath st blk with
      | none => s
      | some p =>
        if p.i1 ≠ 0 then s
        else
          let s := s.onGrp fun g => { g with lastOwn := s.now }
          match s.chd.fold.contains (rKey st blk), s.ownBlock st blk with
          | true, some (ys, s) =>
            let r := s.redSum st blk 0 ys
            r.2.redOut st blk 0 p r.1 false
          | _, _ => s.redOut st blk 0 p b false

/-- Blocks that codeword n of a stream belongs to. -/
def blocksOfCw (n : Nat) : List Nat := if n < 2 ^ 29 then [n] else (List.range 32).map fun i => 32 * (n - 2 ^ 29) + i

/-- One codeword reaches the reduce channel at its sender, from a descriptor of a step. -/
def State.reduceWord (s : State) (step : Word32) (st n : Nat) (d : List Byte) : State :=
  let blks := (blocksOfCw n).filter fun b => b < s.rBlocks st ∧ (blockFrom s.chd.own st b).isNone
  let s := s.onChd fun c => { c with
    own := Sparse.put [] c.own (rKey st n) d, ownStep := Sparse.put 0 c.ownStep (rKey st n) (step.toNat + 1) }
  blks.foldl (fun s b => s.ownReady st b) s

/-- A write to a reduce stream (R269): a frozen stream drops and counts it (R144, R273). -/
def State.reduceWrite (s : State) (step : Word32) (st off : Nat) (d : List Byte) : State :=
  if rFrozen s st then s.onChd fun c => { c with frozenDrop := addW c.frozenDrop d.length }
  else (List.range (d.length / 32)).foldl (fun s i => s.reduceWord step st (off / 32 + i) ((d.drop (32 * i)).take 32)) s

/-- REDUCE_HOP (R271): a partial that arrived in flits is taken from them, else from the command. A block whose own contribution
is missing waits, or is passed over once the deadline has expired (R274). -/
def execReduceHop (st : Fin 1024) (hop blk : Nat) (elems : List Byte) (scale : Byte) (late : Bool) (s : State) :
    Host.Outcome State Fault Refusal :=
  let st := st.val
  if !s.mainUp ∨ !rValid s st ∨ rFrozen s st ∨ s.rBlocks st ≤ blk then .next s
  else
    match s.redPath st blk with
    | none => .next s
    | some p =>
      let first := decide (hop < p.n1)
      if hop = 0 ∨ (first ∧ p.i1 ≠ hop) ∨ (!first ∧ (!p.line2 ∨ p.i2 + (p.n1 - 1) ≠ hop)) then .next s
      else
        let pst := 1024 * (if first then 1 else 2) + st
        let held := blockFrom s.chd.rin pst blk
        let inc' := held.getD (padTo 32 elems, scale)
        let late := late || s.chd.rinLate.contains (rKey pst blk) || (!first && s.chd.partLate.contains (rKey st blk))
        let f := rElem s st
        let took (s : State) : State := s.onChd fun c => { c with
          rin := if held.isSome then Sparse.put [] c.rin (rKey pst blk) [] else c.rin, rinLate := c.rinLate.filter (· != rKey pst blk) }
        let s := s.spanBegin
        if first then
          match s.ownBlock st blk with
          | some (ys, s) =>
            let r := s.redSum st blk hop (List.zipWith fadd (blockF32 f inc') ys)
            .next ((took (r.2.onGrp fun g => { g with lastOwn := s.now })).redOut st blk hop p r.1 late)
          | none =>
            if s.grp.expired then
              let s := s.onChd fun c => { c with
                lateBlocks := inc c.lateBlocks, late := if c.late.contains (rKey st blk) then c.late else rKey st blk :: c.late }
              .next ((took s).redOut st blk hop p inc' true)
            else .next s
        else
          match Sparse.get [] s.chd.partials (rKey st blk) with
          | [] => .next s
          | own =>
            let r := s.redSum st blk hop (List.zipWith fadd (blockF32 f inc') (blockF32 f (own.take 32, own.getD 32 0)))
            let s := took (r.2.onChd fun c => { c with
              partials := Sparse.put [] c.partials (rKey st blk) [], partLate := c.partLate.filter (· != rKey st blk) })
            .next (s.redOut st blk hop p r.1 late)

/-- A starting position whose block is missing at the deadline sends a zero block with LATE (R274). -/
def State.zeroStart (s : State) (st blk : Nat) : State :=
  match s.redPath st blk with
  | none => s
  | some p =>
    if p.i1 ≠ 0 ∨ (blockFrom s.chd.own st blk).isSome ∨ s.chd.late.contains (rKey st blk) then s
    else
      let s := s.onChd fun c => { c with lateBlocks := inc c.lateBlocks, late := rKey st blk :: c.late }
      s.redOut st blk 0 p (List.replicate 32 0, 0) true

/-- REDUCE_DEADLINE_EXPIRY. Under FOLD and DROP the Apex's own expiry starts VOTE_LIMIT (R288). -/
def execReduceDeadlineExpiry (s : State) : Host.Outcome State Fault Refusal :=
  match s.grp.spanStart with
  | none => .next s
  | some t =>
    if s.chd.deadline = 0 ∨ s.grp.expired then .next s
    else
      let s := s.passTo (t + s.chd.deadline.toNat)
      let s := s.onGrp fun g => { g with
        expired := true, voteStart := if g.role = .apex ∨ g.role = .leadApex then some (g.voteStart.getD s.now) else g.voteStart }
      let streams := (List.range 1024).filter fun st => rValid s st && !rFrozen s st
      .next (streams.foldl (fun s st => (List.range (s.rBlocks st)).foldl (fun s b => s.zeroStart st b) s) s)

end Sys2Proof.Machine
end

