-- ==== Sys2Proof/Machine/Dma.lean ====
section
/-! DEFINITION. The copies of the DMA engines: DMA (R166, R263), OFFLOAD and PREFETCH (R167). -/

namespace Sys2Proof.Machine

/-- Cuts data into pieces of `size` bytes with their offsets. -/
def cut (size : Nat) : Nat → Nat → List Byte → List (Nat × List Byte)
  | 0, _, _ => []
  | n + 1, off, d => if d.isEmpty then [] else (off, d.take size) :: cut size n (off + size) (d.drop size)

/-- Host-bound data in write requests of at most 512 bytes (Table 11-1), with Relaxed Ordering (R313). -/
def State.hostData (s : State) (a : Nat) (d : List Byte) : State :=
  (cut 512 d.length a d).foldl (fun s p => s.hostWrite true p.1 p.2) s

/-- The 288/256 codewords of data, 36 bytes each. -/
def codewords (d : List Byte) : List Byte := (pieces d.length d).flatMap codeword

/-- Sends data as codewords of a stream of the mirror VC, 27 to a flit (R250). -/
def State.sendMirror (s : State) (stream cw : Nat) (dest : Nat × Nat) (d : List Byte) : State :=
  (cut 864 d.length 0 d).foldl (fun s p => s.route 3 stream (cw + p.1 / 32) dest false (codewords p.2)) s

/-- The stream of the mirror VC for remote writes (Table 09-5). -/
def remoteStream (pad : Bool) (e : Nat) : Nat := if pad then 0x100 + e else 0x3FE

/-- Key of a logical position (x, y) in the counts of remote writes. -/
def posKey (x y : Nat) : Nat := 16 * y + x

/-- A remote write (R263): its codewords count for the receiving module. A write to this module's own position stays here. -/
def State.remoteWrite (s : State) (x y : Nat) (pad : Bool) (e off : Nat) (d : List Byte) : State :=
  if s.grp.pos = some (x, y) then s.writeLoc (if pad then .pad e off else .g7 off) d
  else (s.onStreams fun t => { t with
      wrSent := Sparse.put 0 t.wrSent (posKey x y) (Sparse.get 0 t.wrSent (posKey x y) + d.length / 32) }).sendMirror
    (remoteStream pad e) (off / 32) (x, y) d

/-- Writes the data of a copy of a step at its destination. -/
def State.copyTo (s : State) (step : Word32) (l : Loc) (d : List Byte) : State :=
  match l with
  | .host a => s.hostData a d
  | .remote x y pad e off => s.remoteWrite x y pad e off d
  | .reduce st off => s.reduceWrite step st off d
  | l => s.writeLoc l d

/-- The checks on a destination beyond its space: codewords of remote writes and of reduce streams (R263, R269), a VALID stream
with the range inside it unless it is frozen (R144, R269). -/
def State.destOk (s : State) (l : Loc) (len : Nat) : Bool :=
  match l with
  | .remote _ _ _ _ off => off % 32 == 0 && len % 32 == 0
  | .reduce st off =>
    rValid s st && off % 32 == 0 && len % 32 == 0 &&
      (rFrozen s st ||
        (List.range (len / 32)).all fun i =>
          let n := off / 32 + i
          if n < 2 ^ 29 then decide (n < s.rBlocks st) else decide (32 * (n - 2 ^ 29) < s.rBlocks st))
  | _ => true

/-- A copy as its descriptor gives it: source, or none for zeros; destination; length. -/
structure Copy where
  src : Option Loc
  dst : Loc
  len : Nat
deriving DecidableEq, Repr

/-- The copy of a DMA (Table 06-9), none when a field is out of range (R161). -/
def State.dmaCopy (s : State) (d : List Byte) : Option Copy :=
  let len := le d 56 4
  let zero := bitOf (le d 60 1) 1
  match s.place (dAddr d 48) len Loc.isDest with
  | none => none
  | some dst =>
    if len = 0 ∨ !s.destOk dst len then none
    else if zero then some ⟨none, dst, len⟩
    else match s.place (dAddr d 40) len Loc.isSource with
      | none => none
      | some src => some ⟨some src, dst, len⟩

/-- The copies of OFFLOAD and PREFETCH (Table 06-10). -/
def State.offloadCopy (s : State) (d : List Byte) : Option Copy :=
  match s.place (dAddr d 40) (le d 56 4) Loc.isHost, s.place (dAddr d 48) (le d 56 4) Loc.isG7 with
  | some h, some m => some ⟨some m, h, le d 56 4⟩
  | _, _ => none
def State.prefetchCopy (s : State) (d : List Byte) : Option Copy :=
  match s.offloadCopy d with
  | some c => some ⟨some c.dst, c.src.getD c.dst, c.len⟩
  | none => none

/-- A copy that needs the host waits while host-bound requests wait (R315, R318). -/
def Copy.needsHost (c : Copy) : Bool := c.dst.isHost || (match c.src with | some l => l.isHost | none => false)

/-- A range of G7 whose park queue is full. -/
def State.locFull (s : State) (len : Nat) : Loc → Bool
  | .g7 o => s.parkFull o len
  | _ => false
/-- A copy waits before it issues an access to a channel whose park queue is full (R232), and one that reads or writes the slow
tier while a module of the die-to-die link retrains (R30). -/
def State.copyParked (s : State) (c : Copy) : Bool :=
  let held (l : Loc) : Bool := s.locFull c.len l || (l.isSlow && s.d2dBusy)
  held c.dst || (match c.src with | some l => held l | none => false)

/-- An item read an uncorrectable word of a scratchpad: ENG_FAULT.SCRATCH, and the step is replayed (Tables 08-1, 03-6). -/
def State.copyFault (s : State) (l : Loc) (step : Word32) : State :=
  match l with
  | .pad e _ =>
    match s.ptile e with
    | some p =>
      (s.onTileRegs p fun g => { g with fault := (g.fault &&& 0xFFFFFFFFFFFF0FFF) ||| 0x100 }).onJob fun j => { j with
        faultReplay := j.faultReplay || step == j.step }
    | none => s
  | _ => s

/-- Performs a copy and ends its item, or leaves it waiting: ST_FAULTED when its reader meets an uncorrectable codeword (R222), and nothing is written
then. -/
def State.doCopy (s : State) (q : Nat) (i : Item) (c : Copy) : State :=
  if (c.needsHost ∧ !s.hostOpen) ∨ s.copyParked c then s
  else
    match c.src with
    | none =>
      let s := s.copyTo (dStep i.desc) c.dst (List.replicate c.len 0)
      (if c.dst.isHost then s.markHost q else s).finish q i.seq stOk 0 0
    | some l =>
      let r := s.readLoc l c.len
      if r.2.1 then (r.2.2.copyFault l (dStep i.desc)).finish q i.seq stFaulted 0 0
      else
        let s := r.2.2.copyTo (dStep i.desc) c.dst r.1
        (if c.dst.isHost then s.markHost q else s).finish q i.seq stOk 0 0

/-- Runs an item of a copying kind: one that was taken and waits, for the host or a park queue, goes on, else the next is taken. -/
def State.runCopy (s : State) (q : Nat) (k : Kind) (f : State → List Byte → Option Copy) : State :=
  let go (i : Item) (s : State) : State :=
    match f s i.desc with
    | none => s.finish q i.seq stBadOpcode 0 0
    | some c => s.doCopy q i c
  match (s.queue q).window.find? fun i => i.running && dKind i.desc == some k with
  | some i => go i s
  | none => s.runKind q k go

/-- DMA (R166). -/
def execDma (d : Fin 8) (s : State) : Host.Outcome State Fault Refusal :=
  .next (s.runCopy (64 + d.val) .dma State.dmaCopy)

/-- OFFLOAD (R167). -/
def execOffload (d : Fin 8) (s : State) : Host.Outcome State Fault Refusal :=
  .next (s.runCopy (64 + d.val) .offload State.offloadCopy)

/-- PREFETCH (R167). -/
def execPrefetch (d : Fin 8) (s : State) : Host.Outcome State Fault Refusal :=
  .next (s.runCopy (64 + d.val) .prefetch State.prefetchCopy)

end Sys2Proof.Machine
end

