-- ==== Sys2Proof/Machine/Jvi.lean ====
section
/-! DEFINITION. JVI instructions that touch registers alone (R188 to R191, Table 06-18): each is a function of the word and the
context, whose pc already stands at the next instruction. VECTOR kernels and update programs run the same functions. -/

namespace Sys2Proof.Machine

/-! ### Registers (R188, Table 06-13) -/

/-- The read-only registers, the job key (R111), and whether an update program of a BLOCK32 group runs (R204). -/
structure JEnv where
  vlen : Nat
  core : Nat
  engine : Nat
  step : Word32
  seq : Word32
  k0 : Word64
  k1 : Word64
  block32 : Bool
deriving DecidableEq, Repr

/-- What an instruction does: the context goes on, with the non-finite flag when a quantiser met one (R116), or the VECTOR
completes with ST_BAD_OPCODE. -/
inductive JRes where
  | next (x : JviCtx) (nonfinite : Bool)
  | bad
deriving DecidableEq, Repr

/-- The first n entries of a list, filled up with a default. -/
def lanesOf {α : Type} (d : α) (n : Nat) (l : List α) : List α := l.take n ++ List.replicate (n - l.length) d

def JviCtx.getV (x : JviCtx) (n i : Nat) : List Word32 := lanesOf 0 n (Sparse.get [] x.v i)
def JviCtx.setV (x : JviCtx) (i : Nat) (l : List Word32) : JviCtx :=
  { x with v := Sparse.put [] x.v i (if l.all (· == 0) then [] else l) }
/-- p0 is all ones and ignores writes. -/
def JviCtx.getP (x : JviCtx) (n i : Nat) : List Bool :=
  if i = 0 then List.replicate n true else lanesOf false n (Sparse.get [] x.p i)
def JviCtx.setP (x : JviCtx) (i : Nat) (l : List Bool) : JviCtx :=
  if i = 0 then x else { x with p := Sparse.put [] x.p i (if l.all (!·) then [] else l) }
/-- s0 reads zero and ignores writes. -/
def JviCtx.getS (x : JviCtx) (i : Nat) : Word64 := if i = 0 then 0 else Sparse.get 0 x.s i
def JviCtx.setS (x : JviCtx) (i : Nat) (v : Word64) : JviCtx := if i = 0 then x else { x with s := Sparse.put 0 x.s i v }

/-- The lanes in which an instruction acts (R189). -/
def JviCtx.act (x : JviCtx) (n : Nat) (w : Word64) : List Bool := (x.getP n (jP w)).map (· != jNeg w)

/-- Lanes whose predicate is false keep their destination (R189). -/
def merge {α : Type} (act : List Bool) (old new : List α) : List α :=
  (act.zip (old.zip new)).map fun t => if t.1 then t.2.2 else t.2.1

/-- Writes v[i] in the active lanes. -/
def JviCtx.putV (x : JviCtx) (n : Nat) (w : Word64) (i : Nat) (new : List Word32) : JviCtx :=
  x.setV i (merge (x.act n w) (x.getV n i) new)
/-- Writes p[D mod 8] in the active lanes. -/
def JviCtx.putP (x : JviCtx) (n : Nat) (w : Word64) (new : List Bool) : JviCtx :=
  x.setP (jD w % 8) (merge (x.act n w) (x.getP n (jD w % 8)) new)

/-! ### Shared forms -/

def jGo (x : JviCtx) : JRes := .next x false

/-- s[D] := f s[A] s[B]. -/
def jScalar (f : Word64 → Word64 → Word64) (w : Word64) (x : JviCtx) : JRes :=
  jGo (x.setS (jD w) (f (x.getS (jA w)) (x.getS (jB w))))
/-- v[D] := f v[A]. -/
def jUnary (f : Word32 → Word32) (n : Nat) (w : Word64) (x : JviCtx) : JRes :=
  jGo (x.putV n w (jD w) ((x.getV n (jA w)).map f))
/-- v[D] := f v[A] v[B]. -/
def jBinary (f : Word32 → Word32 → Word32) (n : Nat) (w : Word64) (x : JviCtx) : JRes :=
  jGo (x.putV n w (jD w) (((x.getV n (jA w)).zip (x.getV n (jB w))).map fun t => f t.1 t.2))
/-- p[D] := f v[A] v[B]. -/
def jCompare (f : Word32 → Word32 → Bool) (n : Nat) (w : Word64) (x : JviCtx) : JRes :=
  jGo (x.putP n w (((x.getV n (jA w)).zip (x.getV n (jB w))).map fun t => f t.1 t.2))

/-! ### Control (class 0x0) -/

/-- A branch: taken to a target inside the kernel, or ST_BAD_OPCODE; not taken it is never an error (R190). -/
def jBranch (taken : Bool) (w : Word64) (x : JviCtx) : JRes :=
  if !taken then jGo x
  else
    let t : Int := x.pc + jSext w
    if 0 ≤ t ∧ t < x.code.length then jGo { x with pc := t.toNat } else .bad

def jJmp (_ : JEnv) (w : Word64) (x : JviCtx) : JRes := jBranch true w x
def jBz (_ : JEnv) (w : Word64) (x : JviCtx) : JRes := jBranch (x.getS (jA w) == 0) w x
def jBnz (_ : JEnv) (w : Word64) (x : JviCtx) : JRes := jBranch (x.getS (jA w) != 0) w x
def jLoop (_ : JEnv) (w : Word64) (x : JviCtx) : JRes :=
  let x := x.setS (jA w) (x.getS (jA w) - 1)
  jBranch (x.getS (jA w) != 0) w x
def jNop (_ : JEnv) (_ : Word64) (x : JviCtx) : JRes := jGo x

/-! ### Scalar (class 0x1) -/

/-- sext(imm) as 64 bits. -/
def jImm64 (w : Word64) : Word64 := BitVec.ofInt 64 (jSext w)
/-- (s[B] + imm) mod 64. -/
def jShift (w b : Word64) : Nat := (b.toNat + jImm w) % 64
def boolWord (b : Bool) : Word64 := if b then 1 else 0

def jSadd (_ : JEnv) (w : Word64) : JviCtx → JRes := jScalar (fun a b => a + b + jImm64 w) w
def jSsub (_ : JEnv) (w : Word64) : JviCtx → JRes := jScalar (fun a b => a - b) w
def jSmul (_ : JEnv) (w : Word64) : JviCtx → JRes := jScalar (fun a b => a * b) w
def jSand (_ : JEnv) (w : Word64) : JviCtx → JRes := jScalar (fun a b => a &&& b) w
def jSor (_ : JEnv) (w : Word64) : JviCtx → JRes := jScalar (fun a b => a ||| b) w
def jSxor (_ : JEnv) (w : Word64) : JviCtx → JRes := jScalar (fun a b => a ^^^ b) w
def jSshl (_ : JEnv) (w : Word64) : JviCtx → JRes := jScalar (fun a b => a <<< jShift w b) w
def jSshr (_ : JEnv) (w : Word64) : JviCtx → JRes := jScalar (fun a b => a >>> jShift w b) w
def jSsra (_ : JEnv) (w : Word64) : JviCtx → JRes := jScalar (fun a b => a.sshiftRight (jShift w b)) w
def jSlui (_ : JEnv) (w : Word64) : JviCtx → JRes :=
  jScalar (fun a _ => BitVec.ofNat 64 (jImm w * 2 ^ 32) ||| (a &&& 0xFFFFFFFF)) w
def jScmplt (_ : JEnv) (w : Word64) : JviCtx → JRes := jScalar (fun a b => boolWord (decide (a.toNat < b.toNat))) w
def jScmpeq (_ : JEnv) (w : Word64) : JviCtx → JRes := jScalar (fun a b => boolWord (a == b)) w
def jScmplts (_ : JEnv) (w : Word64) : JviCtx → JRes := jScalar (fun a b => boolWord (decide (a.toInt < b.toInt))) w

/-- SRD: the read-only registers of Table 06-13. -/
def jSrd (v : JEnv) (w : Word64) (x : JviCtx) : JRes :=
  match jImm w with
  | 0 => jGo (x.setS (jD w) (BitVec.ofNat 64 v.vlen))
  | 1 => jGo (x.setS (jD w) (BitVec.ofNat 64 v.core))
  | 2 => jGo (x.setS (jD w) (BitVec.ofNat 64 v.engine))
  | 3 => jGo (x.setS (jD w) (v.step.setWidth 64))
  | 4 => jGo (x.setS (jD w) (v.seq.setWidth 64))
  | _ => .bad

/-! ### FP32 (class 0x2) -/

def jVadd (v : JEnv) : Word64 → JviCtx → JRes := jBinary fadd v.vlen
def jVsub (v : JEnv) : Word64 → JviCtx → JRes := jBinary fsub v.vlen
def jVmul (v : JEnv) : Word64 → JviCtx → JRes := jBinary fmul v.vlen
def jVfma (v : JEnv) (w : Word64) (x : JviCtx) : JRes :=
  let n := v.vlen
  jGo (x.putV n w (jD w) (((x.getV n (jA w)).zip ((x.getV n (jB w)).zip (x.getV n (jC w)))).map fun t => ffma t.1 t.2.1 t.2.2))
def jVmin (v : JEnv) : Word64 → JviCtx → JRes := jBinary fmin v.vlen
def jVmax (v : JEnv) : Word64 → JviCtx → JRes := jBinary fmax v.vlen
def jVabs (v : JEnv) : Word64 → JviCtx → JRes := jUnary fabs v.vlen
def jVneg (v : JEnv) : Word64 → JviCtx → JRes := jUnary fneg v.vlen
def jVcmplt (v : JEnv) : Word64 → JviCtx → JRes := jCompare flt v.vlen
def jVcmple (v : JEnv) : Word64 → JviCtx → JRes := jCompare (fun a b => flt a b || feq a b) v.vlen
def jVcmpeq (v : JEnv) : Word64 → JviCtx → JRes := jCompare feq v.vlen
def jVsel (v : JEnv) (w : Word64) (x : JviCtx) : JRes :=
  let n := v.vlen
  jGo (x.putV n w (jD w) (merge (x.getP n (jC w % 8)) (x.getV n (jB w)) (x.getV n (jA w))))
def jVbcast (v : JEnv) (w : Word64) (x : JviCtx) : JRes :=
  jGo (x.putV v.vlen w (jD w) (List.replicate v.vlen ((x.getS (jA w)).setWidth 32)))
def jVimm (v : JEnv) (w : Word64) (x : JviCtx) : JRes :=
  jGo (x.putV v.vlen w (jD w) (List.replicate v.vlen (BitVec.ofNat 32 (jImm w))))
def jVrsubi (v : JEnv) (w : Word64) : JviCtx → JRes := jUnary (fun a => fsub (BitVec.ofNat 32 (jImm w)) a) v.vlen w
def jVmuli (v : JEnv) (w : Word64) : JviCtx → JRes := jUnary (fun a => fmul a (BitVec.ofNat 32 (jImm w))) v.vlen w

/-! ### Functions (class 0x3) -/

def jVexp2 (v : JEnv) : Word64 → JviCtx → JRes := jUnary exp2 v.vlen
def jVsqrt (v : JEnv) : Word64 → JviCtx → JRes := jUnary fsqrt v.vlen
def jVrecip (v : JEnv) : Word64 → JviCtx → JRes := jUnary frecip v.vlen
def jVrsqrt (v : JEnv) : Word64 → JviCtx → JRes := jUnary frsqrt v.vlen
def jVlog2 (v : JEnv) : Word64 → JviCtx → JRes := jUnary flog2 v.vlen
/-- FN 9 to 15 are refused (R137). -/
def jVderiv (v : JEnv) (w : Word64) (x : JviCtx) : JRes :=
  if 9 ≤ jImm w % 16 then .bad else jUnary (deriv (jImm w % 16)) v.vlen w x
def jVdcode (v : JEnv) (w : Word64) (x : JviCtx) : JRes :=
  if 9 ≤ jImm w % 16 then .bad else jUnary (fun a => BitVec.ofNat 32 (dcode (jImm w % 16) a)) v.vlen w x

/-! ### Integer (class 0x4) -/

def jViadd (v : JEnv) : Word64 → JviCtx → JRes := jBinary (fun a b => a + b) v.vlen
def jVisub (v : JEnv) : Word64 → JviCtx → JRes := jBinary (fun a b => a - b) v.vlen
def jVimul (v : JEnv) : Word64 → JviCtx → JRes := jBinary (fun a b => a * b) v.vlen
def jViand (v : JEnv) : Word64 → JviCtx → JRes := jBinary (fun a b => a &&& b) v.vlen
def jVior (v : JEnv) : Word64 → JviCtx → JRes := jBinary (fun a b => a ||| b) v.vlen
def jVixor (v : JEnv) : Word64 → JviCtx → JRes := jBinary (fun a b => a ^^^ b) v.vlen
def jVishl (v : JEnv) : Word64 → JviCtx → JRes := jBinary (fun a b => a <<< (b.toNat % 32)) v.vlen
def jVishr (v : JEnv) : Word64 → JviCtx → JRes := jBinary (fun a b => a >>> (b.toNat % 32)) v.vlen
def jVisra (v : JEnv) : Word64 → JviCtx → JRes := jBinary (fun a b => a.sshiftRight (b.toNat % 32)) v.vlen

/-- FP32 of a signed integer, rounded to nearest even. -/
def cvtF (a : Word32) : Word32 := ofDy (a.toInt, 0) false
/-- The signed integer of an FP32, rounded to nearest even and saturating; NaN gives 0. -/
def cvtI (a : Word32) : Word32 :=
  match decode32 a with
  | .nan _ => 0
  | .inf n => if n then 0x80000000 else 0x7FFFFFFF
  | .fin n m e =>
    -- 2^63 and above saturate alike
    let k := if m ≠ 0 ∧ 63 < e then 2 ^ 63 else rneInt m e
    let v := sgn n k
    if v < -(2 ^ 31) then 0x80000000 else if v ≥ 2 ^ 31 then 0x7FFFFFFF else BitVec.ofInt 32 v
def jVcvtf (v : JEnv) : Word64 → JviCtx → JRes := jUnary cvtF v.vlen
def jVcvti (v : JEnv) : Word64 → JviCtx → JRes := jUnary cvtI v.vlen
def jVlane (v : JEnv) (w : Word64) (x : JviCtx) : JRes :=
  jGo (x.putV v.vlen w (jD w) ((List.range v.vlen).map (BitVec.ofNat 32)))
def jVicmplt (v : JEnv) : Word64 → JviCtx → JRes := jCompare (fun a b => decide (a.toInt < b.toInt)) v.vlen
def jVicmpeq (v : JEnv) : Word64 → JviCtx → JRes := jCompare (fun a b => a == b) v.vlen

/-! ### Format (class 0x5) -/

/-- A lane whose predicate is false takes part as +0 (R190). -/
def maskLanes (act : List Bool) (l : List Word32) : List Word32 := (act.zip l).map fun t => if t.1 then t.2 else 0

/-- A list in pieces of k. -/
def piecesOf {α : Type} (k : Nat) : Nat → List α → List (List α)
  | 0, _ => []
  | n + 1, l => l.take k :: piecesOf k n (l.drop k)

/-- The destination lanes of one quantised block: code, scale byte, clamp bit. -/
def quantLanes (q : Quant) : List Word32 :=
  (q.codes.zip q.clamped).map fun t => BitVec.ofNat 32 (t.1 + q.scale.toNat * 256 + bit t.2 * 65536)

/-- Window and element of VQUANT and VEFQ are in range. -/
def quantImmOk (w : Word64) : Bool :=
  let i := jImm w
  decide (bitsOf i 14 2 ≤ 2) && decide (1 ≤ bitsOf i 7 7) && decide (bitsOf i 7 7 ≤ bitsOf i 0 7)

/-- VQUANT (R107). -/
def jVquant (v : JEnv) (w : Word64) (x : JviCtx) : JRes :=
  let i := jImm w
  let n := v.vlen
  let rnd := bitsOf i 16 2
  if !quantImmOk w ∨ rnd % 2 = 1 then .bad
  else
    let f := elemOf (bitsOf i 14 2)
    let qs := (piecesOf 32 (n / 32) (maskLanes (x.act n w) (x.getV n (jA w)))).zipIdx.map fun b =>
      quantiseBlock (b.1.map decode32) (bitsOf i 7 7) (bitsOf i 0 7) f (rnd == 2) fun k =>
        srHash v.step ((x.getS (jB w)).setWidth 32) (x.getS (jC w) + BitVec.ofNat 64 (32 * b.2 + k)) v.k0 v.k1
    .next (x.putV n w (jD w) (qs.flatMap quantLanes)) (qs.any (·.nonfinite))

/-- VEFQ (R112). -/
def jVefq (v : JEnv) (w : Word64) (x : JviCtx) : JRes :=
  let i := jImm w
  let n := v.vlen
  if !quantImmOk w ∨ bitsOf i 16 2 ≠ 0 then .bad
  else
    let f := elemOf (bitsOf i 14 2)
    let a := x.act n w
    let xs := piecesOf 32 (n / 32) (maskLanes a (x.getV n (jA w)))
    let rs := piecesOf 32 (n / 32) (maskLanes a (x.getV n (jB w)))
    let qs := (xs.zip rs).map fun b => efBlock b.1 (b.2.map (·.setWidth 16)) (bitsOf i 7 7) (bitsOf i 0 7) f
    let y := x.putV n w (jD w) (qs.flatMap fun q => quantLanes q.1)
    .next (y.putV n w ((jD w + 1) % 32) (qs.flatMap fun q => q.2.map (·.setWidth 32))) (qs.any (·.1.nonfinite))

/-- The value of a code with its scale byte (R97, R98); a NaN keeps its sign (R102). -/
def dequant (k : Nat) (a : Word32) : Word32 :=
  if k = 3 then a <<< 16
  else
    match blockValue (elemOf k) (BitVec.ofNat 8 (bitsOf a.toNat 8 8)) (bitsOf a.toNat 0 (elemBits (elemOf k))) with
    | .nan n => if n then 0xFFC00000 else qnan
    | u => toFp32 u
def jVdq (v : JEnv) (w : Word64) : JviCtx → JRes := jUnary (dequant (jImm w % 4)) v.vlen w
def jVrb16 (v : JEnv) : Word64 → JviCtx → JRes := jUnary (fun a => b16to32 (toB16 (decode32 a))) v.vlen

/-- VPACK: codes two to a byte, or the scale bytes of the blocks. -/
def jVpack (v : JEnv) (w : Word64) (x : JviCtx) : JRes :=
  let n := v.vlen
  let a := x.getV n (jA w)
  match jImm w with
  | 0 =>
    let b := (piecesOf 2 (n / 2) a).map fun t => BitVec.ofNat 32 ((t.getD 0 0).toNat % 16 + (t.getD 1 0).toNat % 16 * 16)
    jGo (x.putV n w (jD w) (lanesOf 0 n b))
  | 1 =>
    let b := (piecesOf 32 (n / 32) a).map fun t => BitVec.ofNat 32 (bitsOf (t.headD 0).toNat 8 8)
    jGo (x.putV n w (jD w) (lanesOf 0 n b))
  | _ => .bad
def jVunpack (v : JEnv) (w : Word64) (x : JviCtx) : JRes :=
  let n := v.vlen
  jGo (x.putV n w (jD w) (lanesOf 0 n ((x.getV n (jA w)).flatMap fun a =>
    [BitVec.ofNat 32 (bitsOf a.toNat 0 4), BitVec.ofNat 32 (bitsOf a.toNat 4 4)])))
/-- VSPILL (R77): hi in v[D], lo in v[(D + 1) mod 32]. -/
def jVspill (v : JEnv) (w : Word64) (x : JviCtx) : JRes :=
  let n := v.vlen
  let d := (jD w + 1) % 32
  let r := ((x.getV n (jD w)).zip ((x.getV n d).zip (x.getV n (jA w)))).map fun t => spill ⟨t.1, t.2.1⟩ t.2.2
  jGo ((x.putV n w (jD w) (r.map (·.hi))).putV n w d (r.map (·.lo)))

/-! ### Cross-lane (class 0x6) -/

/-- Lanes of one reduction: 32 with imm bit 0 set or in a BLOCK32 update program (R190, R204), else all. -/
def crossScope (v : JEnv) (w : Word64) : Nat := if jImm w % 2 = 1 ∨ v.block32 then 32 else v.vlen

/-- Reduces each group of lanes by the fixed tree (R191) and spreads the result over its group. -/
def jReduce (f : Word32 → Word32 → Word32) (unit : Word32) (v : JEnv) (w : Word64) (x : JviCtx) : JRes :=
  let n := v.vlen
  let k := crossScope v w
  let a := ((x.act n w).zip (x.getV n (jA w))).map fun t => if t.1 then t.2 else unit
  jGo (x.putV n w (jD w) ((piecesOf k (n / k) a).flatMap fun g => List.replicate k (tree f 9 g)))

def jVsumr : JEnv → Word64 → JviCtx → JRes := jReduce fadd 0
def jVmaxr : JEnv → Word64 → JviCtx → JRes := jReduce fmax (inf32 true)
def jVbrd (v : JEnv) (w : Word64) (x : JviCtx) : JRes :=
  let n := v.vlen
  jGo (x.putV n w (jD w) (List.replicate n ((x.getV n (jA w)).getD ((x.getS (jB w)).toNat % n) 0)))
def jVperm (v : JEnv) (w : Word64) (x : JviCtx) : JRes :=
  let n := v.vlen
  let a := x.getV n (jA w)
  jGo (x.putV n w (jD w) ((x.getV n (jB w)).map fun b => a.getD (b.toNat % n) 0))
def jVext (v : JEnv) (w : Word64) (x : JviCtx) : JRes :=
  let n := v.vlen
  jGo (x.setS (jD w) (((x.getV n (jA w)).getD ((x.getS (jB w)).toNat % n) 0).setWidth 64))

/-! ### Hash (class 0xA) -/

def jVhash (v : JEnv) (w : Word64) (x : JviCtx) : JRes :=
  let tid : Word32 := (x.getS (jA w)).setWidth 32
  let base := x.getS (jC w)
  jGo (x.putV v.vlen w (jD w) ((x.getV v.vlen (jB w)).map fun b =>
    BitVec.ofNat 32 (srHash v.step tid (base + b.setWidth 64) v.k0 v.k1)))

/-! ### The register instructions by opcode -/

/-- Opcodes 0x00 to 0x1F, END apart. -/
def jviOpA (op : Nat) : Option (JEnv → Word64 → JviCtx → JRes) :=
  match op with
  | 0x01 => some jJmp | 0x02 => some jBz | 0x03 => some jBnz | 0x04 => some jLoop | 0x05 => some jNop
  | 0x10 => some jSadd | 0x11 => some jSsub | 0x12 => some jSmul | 0x13 => some jSand | 0x14 => some jSor | 0x15 => some jSxor
  | 0x16 => some jSshl | 0x17 => some jSshr | 0x18 => some jSsra | 0x19 => some jSlui | 0x1A => some jScmplt
  | 0x1B => some jScmpeq | 0x1C => some jScmplts | 0x1F => some jSrd
  | _ => none
/-- Opcodes 0x20 to 0x36. -/
def jviOpB (op : Nat) : Option (JEnv → Word64 → JviCtx → JRes) :=
  match op with
  | 0x20 => some jVadd | 0x21 => some jVsub | 0x22 => some jVmul | 0x23 => some jVfma | 0x24 => some jVmin | 0x25 => some jVmax
  | 0x26 => some jVabs | 0x27 => some jVneg | 0x28 => some jVcmplt | 0x29 => some jVcmple | 0x2A => some jVcmpeq
  | 0x2B => some jVsel | 0x2C => some jVbcast | 0x2D => some jVimm | 0x2E => some jVrsubi | 0x2F => some jVmuli
  | 0x30 => some jVexp2 | 0x31 => some jVsqrt | 0x32 => some jVrecip | 0x33 => some jVrsqrt | 0x34 => some jVlog2
  | 0x35 => some jVderiv | 0x36 => some jVdcode
  | _ => none
/-- Opcodes 0x40 to 0x64 and 0xA0. -/
def jviOpC (op : Nat) : Option (JEnv → Word64 → JviCtx → JRes) :=
  match op with
  | 0x40 => some jViadd | 0x41 => some jVisub | 0x42 => some jVimul | 0x43 => some jViand | 0x44 => some jVior
  | 0x45 => some jVixor | 0x46 => some jVishl | 0x47 => some jVishr | 0x48 => some jVisra | 0x49 => some jVcvtf
  | 0x4A => some jVcvti | 0x4B => some jVlane | 0x4C => some jVicmplt | 0x4D => some jVicmpeq
  | 0x50 => some jVquant | 0x51 => some jVefq | 0x52 => some jVdq | 0x53 => some jVrb16 | 0x54 => some jVpack
  | 0x55 => some jVunpack | 0x56 => some jVspill | 0x60 => some jVsumr | 0x61 => some jVmaxr | 0x62 => some jVbrd
  | 0x63 => some jVperm | 0x64 => some jVext | 0xA0 => some jVhash
  | _ => none
/-- The instruction of an opcode that touches registers alone. -/
def jviOp (op : Nat) : Option (JEnv → Word64 → JviCtx → JRes) :=
  match jviOpA op with
  | some f => some f
  | none => match jviOpB op with
    | some f => some f
    | none => jviOpC op

end Sys2Proof.Machine
end

