-- ==== Sys2Proof/Machine/Scale.lean ====
section
/-! DEFINITION. Scale records: their commands (R118), derivation after a commit (R121 to R123, Table 04-8) and the events of
Table 04-9. -/

namespace Sys2Proof.Machine

/-! ### Fields of a record (Table 04-7) -/

def recLayer (r : ScaleRec) : Nat := fld r.w0 16 16
def recReturn (r : ScaleRec) : Nat := fld r.w1 48 16
def recGood (r : ScaleRec) : Nat := fld r.w1 32 16
def recThr (r : ScaleRec) : Nat := let t := fld r.w1 6 5; if 6 ≤ t ∧ t ≤ 20 then t else 12
def recH (r : ScaleRec) : Nat := fld r.w1 3 3
def recExtra (r : ScaleRec) : Nat := fld r.w1 0 3
def recSat (r : ScaleRec) : Nat := fld r.w2 32 32
def recBlocks (r : ScaleRec) : Nat := fld r.w2 0 32
def recSat4 (r : ScaleRec) : Nat := fld r.w3 32 32
def recAmax (r : ScaleRec) : Word32 := BitVec.ofNat 32 (fld r.w3 0 32)

def ScaleRec.setState (r : ScaleRec) (v : Nat) : ScaleRec := { r with w0 := setFld r.w0 12 4 v }
def ScaleRec.setGood (r : ScaleRec) (v : Nat) : ScaleRec := { r with w1 := setFld r.w1 32 16 (min v 0xFFFF) }
def ScaleRec.setExtra (r : ScaleRec) (v : Nat) : ScaleRec := { r with w1 := setFld r.w1 0 3 v }
def ScaleRec.setEHi (r : ScaleRec) (v : Nat) : ScaleRec := { r with w1 := setFld r.w1 11 7 v }
def ScaleRec.setEHi4 (r : ScaleRec) (v : Nat) : ScaleRec := { r with w1 := setFld r.w1 25 7 v }
def ScaleRec.clear (r : ScaleRec) : ScaleRec := { r with w2 := 0, w3 := 0 }

/-- A step is unclean when SAT × 2^THR > BLOCKS (Table 04-7). -/
def unclean (r : ScaleRec) : Bool := decide (recBlocks r < recSat r * 2 ^ recThr r)
def unclean4 (r : ScaleRec) : Bool := decide (recBlocks r < recSat4 r * 2 ^ recThr r)

/-- A NATIVE record whose native element is E2M1. -/
def nativeE2m1 (r : ScaleRec) : Bool := recState r == 1 && recElem r == 0
/-- R122: a request for fall-back. -/
def requests (r : ScaleRec) : Bool := nativeE2m1 r && unclean r

/-- The layer of record i; LAYER 0xFFFF makes the record a layer of its own (R123). -/
def layerKey (i : Nat) (r : ScaleRec) : Nat := if recLayer r = 0xFFFF then 0x10000 + i else recLayer r

/-! ### Writes (R118) -/

/-- A record after a write: RO fields keep their values, STATE takes 0 or 4 only, ELEM above 2 stores 0 (Table 04-7). -/
def writeRec (old new : ScaleRec) : ScaleRec :=
  let st := if recState new = 0 ∨ recState new = 4 then recState new else recState old
  let el := if fld new.w0 4 4 ≤ 2 then fld new.w0 4 4 else 0
  -- reserved bits 3:0 are not kept
  let w0 := setFld (setFld (setFld new.w0 12 4 st) 4 4 el) 0 4 0
  let w1 := setFld (setFld (setFld new.w1 32 16 (recGood old)) 25 7 (recEHi4 old)) 0 3 (recExtra old)
  { old with w0 := w0, w1 := w1 }

/-- Writes take effect, oldest first. -/
def State.putScaleWrites (s : State) (ws : List (Nat × ScaleRec)) : State :=
  ws.foldl (fun s w => s.setScaleRec w.1 (writeRec (s.scaleRec w.1) w.2)) s
/-- Every waiting write takes effect: at a boundary without a derivation, or while no job runs (R118). -/
def State.applyScaleWrites (s : State) : State :=
  (s.putScaleWrites (s.scales.applying ++ s.scales.waiting)).onScales fun c => { c with waiting := [], applying := [] }
/-- The writes of the step that ended follow its derivation (R118). -/
def State.applyDerived (s : State) : State :=
  (s.putScaleWrites s.scales.applying).onScales fun c => { c with applying := [] }

def recToBytes (r : ScaleRec) : List Byte := leBytes 8 r.w0.toNat ++ leBytes 8 r.w1.toNat ++ leBytes 8 r.w2.toNat ++ leBytes 8 r.w3.toNat
def recOf (b : List Byte) : ScaleRec :=
  ⟨BitVec.ofNat 64 (le b 0 8), BitVec.ofNat 64 (le b 8 8), BitVec.ofNat 64 (le b 16 8), BitVec.ofNat 64 (le b 24 8)⟩

/-- First record and count of a CFG_SCALE payload in range (Table 13-9). -/
def scaleRange (b : List Byte) : Bool := decide (1 ≤ le b 2 2) && decide (le b 2 2 ≤ 125) && decide (le b 0 2 + le b 2 2 ≤ 8192)

/-- CFG_SCALE_READ (R118). -/
def cfgScaleReadCmd (b : List Byte) (s : State) : CmdResult :=
  if !scaleRange b then refuse s stBadOpcode
  else
    let recs := (List.range (le b 2 2)).flatMap fun k => recToBytes (s.scaleRec (le b 0 2 + k))
    .done stOk (leBytes 2 (le b 0 2) ++ leBytes 2 (le b 2 2) ++ leBytes 4 0 ++ recs) s

/-- CFG_SCALE_WRITE (R118): at the next boundary, or at once while no job runs. -/
def cfgScaleWriteCmd (b : List Byte) (s : State) : CmdResult :=
  if !scaleRange b ∨ b.length < 8 + 32 * le b 2 2 then refuse s stBadOpcode
  else
    let ws := (List.range (le b 2 2)).map fun k => (le b 0 2 + k, recOf (slice b (8 + 32 * k) 32))
    let s := s.onScales fun c => { c with waiting := c.waiting ++ ws }
    .done stOk [] (if s.jobRuns then s else s.applyScaleWrites)

def execCfgScaleRead (r : Route) (s : State) : Host.Outcome State Fault Refusal := .next (s.command r 0x0203 cfgScaleReadCmd)
def execCfgScaleWrite (r : Route) (s : State) : Host.Outcome State Fault Refusal := .next (s.command r 0x0204 cfgScaleWriteCmd)

/-! ### Derivation (R121 to R123) -/

/-- Record i with the counts of the step that ended (R121). -/
def State.endedRec (s : State) (i : Nat) : ScaleRec :=
  let e := Sparse.get Reset.scaleRec s.scales.ended i
  { s.scaleRec i with w2 := e.w2, w3 := e.w3 }
/-- The records that the derivation looks at. -/
def State.endedRecs (s : State) : List (Nat × ScaleRec) := s.scales.ended.map fun k => (k.1, s.endedRec k.1)

/-- What the CP evaluates from the counts of the step before it writes anything. -/
structure Boundary where
  /-- Layers having a NATIVE E2M1 record that counted, and those among them with a request. -/
  layers : List Nat
  asking : List Nat
  /-- Layers with an unclean PROBE record. -/
  failing : List Nat
  broad : Bool
deriving DecidableEq, Repr

def State.boundary (s : State) : Boundary :=
  let recs := s.endedRecs
  let layers := ((recs.filter fun k => nativeE2m1 k.2 && recBlocks k.2 != 0).map fun k => layerKey k.1 k.2).dedup
  let asking := ((recs.filter fun k => requests k.2).map fun k => layerKey k.1 k.2).dedup
  let failing := ((recs.filter fun k => recState k.2 == 2 && unclean k.2).map fun k => layerKey k.1 k.2).dedup
  ⟨layers, asking, failing, decide (1 ≤ layers.length) && decide (layers.length < 2 * asking.length) && !s.scales.probed⟩

/-- Which row of Table 04-8 applies to a record: the first whose From and Condition hold. -/
inductive ScaleRow where
  | first | fall | probe | headroom2 | settle | goodFallen | clear | saturated | goodNative | keep
deriving DecidableEq, Repr

def rowFor (b : Boundary) (i : Nat) (r : ScaleRec) : ScaleRow :=
  let l := layerKey i r
  let counted := recBlocks r != 0
  if recState r = 0 then (if counted then .first else .keep)
  else if nativeE2m1 r ∧ l ∈ b.asking then (if b.broad then .probe else .fall)
  else if nativeE2m1 r ∧ l ∈ b.failing then .fall
  else if nativeE2m1 r ∧ b.broad then .headroom2
  else if recState r = 2 then (if l ∈ b.failing then .fall else .settle)
  else if !counted then .keep
  else if recState r = 3 then (if unclean r then .saturated else if unclean4 r then .clear else .goodFallen)
  else if recState r = 1 then (if unclean r then .saturated else .goodNative)
  else .keep

/-- The record after its transition, before its window is derived; `leaves` says that it left FALLEN. -/
def transition (row : ScaleRow) (r : ScaleRec) : ScaleRec × Bool :=
  match row with
  | .first => (r.setState 1, false)
  | .fall => ((r.setState 3).setGood 0, false)
  | .probe => ((r.setState 2).setExtra (max (recExtra r) 2), false)
  | .headroom2 => (r.setExtra (max (recExtra r) 2), false)
  | .settle => ((r.setState 1).setGood 0, false)
  | .goodFallen =>
    if recReturn r ≠ 0 ∧ recReturn r ≤ recGood r + 1 then ((r.setState 1).setGood 0, true) else (r.setGood (recGood r + 1), false)
  | .clear => (r.setGood 0, false)
  | .saturated => ((r.setExtra (min 4 (recExtra r + 1))).setGood 0, false)
  | .goodNative =>
    if recReturn r ≠ 0 ∧ 0 < recExtra r ∧ recReturn r ≤ recGood r + 1 then ((r.setExtra (recExtra r - 1)).setGood 0, false)
    else (r.setGood (recGood r + 1), false)
  | .keep => (r, false)

/-- Derives the window top of a record that counted (R122) and clears its counts. -/
def deriveTop (old r : ScaleRec) : ScaleRec :=
  let f := if recState r = 3 then Elem.e4m3 else fmtElem (recElem r)
  let r :=
    if recBlocks old = 0 then r
    else match finMag (decode32 (recAmax old)) with
      | none => r
      | some (m, e) =>
        let top (f : Elem) : Nat := min 127 (need f m e + recH r + recExtra r)
        let r' := r.setEHi (top f)
        if recState r = 3 then r'.setEHi4 (top .e2m1) else r'
  r.clear

/-- The derivation of one record with its events. -/
def State.deriveRec (s : State) (b : Boundary) (i : Nat) (r : ScaleRec) : State :=
  let row := rowFor b i r
  let t := transition row r
  let spent := Sparse.get 0 s.scales.fallenSteps i + (if recState r = 3 then 1 else 0)
  let lay := leBytes 2 i ++ leBytes 2 (recLayer r)
  let s := if row = .fall then s.report 0x0401 .note 0x12 i (lay ++ leBytes 4 (recSat r) ++ leBytes 4 (recBlocks r)) else s
  let s := if t.2 then s.report 0x0403 .info 0x12 i (lay ++ leBytes 4 spent) else s
  let s := if row = .saturated ∧ recExtra r < recExtra t.1 then
      s.report 0x0404 .info 0x12 i (lay ++ leBytes 1 (recExtra t.1) ++ leBytes 3 0 ++ leBytes 4 (recSat r)) else s
  let s := s.onScales fun c => { c with
    fallenSteps := Sparse.put 0 c.fallenSteps i (if recState t.1 = 3 ∧ row ≠ .fall then spent else 0)
    probed := c.probed || row == .probe }
  -- what the next step has counted so far stays
  let live := s.scaleRec i
  s.setScaleRec i { deriveTop r t.1 with w2 := live.w2, w3 := live.w3 }

/-- The derivation of the step that ended (R121 to R123, R125), then the writes that waited for its boundary (R118). -/
def State.derive (s : State) : State :=
  match s.scales.due with
  | none => s
  | some n =>
    let b := s.boundary
    let recs := s.endedRecs
    let s := if b.broad then s.report 0x0402 .note 0 0 (leBytes 4 n.toNat ++ leBytes 2 b.asking.length ++ leBytes 2 b.layers.length) else s
    let s := s.onScales fun c => { c with probed := false }
    let s := recs.foldl (fun s k => s.deriveRec b k.1 k.2) s
    (s.onScales fun c => { c with due := none, ended := [] }).applyDerived

/-- SCALE_DERIVE. -/
def execScaleDerive (s : State) : Host.Outcome State Fault Refusal := .next (if s.cpReady then s.derive else s)

/-- A step commits: its counts await their derivation, and those of the next step start at zero (R120, R121). A derivation still to
come is made first. -/
def State.endCounts (s : State) : State :=
  let s := s.derive
  s.onScales fun c => { c with
    due := some s.job.step, ended := c.recs, applying := c.applying ++ c.waiting, waiting := []
    recs := (c.recs.map fun k => (k.1, k.2.clear)).filter fun k => k.2 != Reset.scaleRec }

end Sys2Proof.Machine
end

