-- ==== Sys2Proof/Machine/Vector.lean ====
section
/-! DEFINITION. VECTOR kernels (R165, R192), the step of a context by each JVI instruction of Table 06-18 but the stream class,
and the limit on vector steps. Each instruction is one vector step (R37, R203). -/

namespace Sys2Proof.Machine

/-! ### Kernel images (R192) -/

/-- The checks of R192 in their order on a whole image: the status of the first that fails. `hit` is detector 0x0603. -/
def imageCheck (img : List Byte) (hit : Bool) : Word16 :=
  let n := le img 0 4
  if n = 0 ∨ 4096 < n then stBadOpcode
  else if le img 8 2 ≠ 1 ∨ le img 10 6 ≠ 0 then stBadOpcode
  else if hit ∨ crc32c (slice img 16 (8 * n)) ≠ le img 4 4 then stBadCheck
  else stOk

/-- The instructions of an image. -/
def imageCode (img : List Byte) : List Word64 := (List.range (le img 0 4)).map fun i => BitVec.ofNat 64 (le img (16 + 8 * i) 8)

/-- Reads and checks a kernel image at a module address: a status and its instructions. -/
def State.fetchImage (s : State) (q a : Nat) : Word16 × List Word64 × State :=
  match s.place a 16 Loc.isBlock with
  | none => (stBadOpcode, [], s)
  | some l =>
    let h := s.readLoc l 16
    let n := le h.1 0 4
    if h.2.1 then (stFaulted, [], h.2.2)
    else if imageCheck (slice h.1 0 16) false = stBadOpcode then (stBadOpcode, [], h.2.2)
    else
      match h.2.2.place a (16 + 8 * n) Loc.isBlock with
      | none => (stBadOpcode, [], h.2.2)
      | some l =>
        let r := h.2.2.readLoc l (16 + 8 * n)
        let i := r.2.2.fires 0x0603 (if q < 72 then 3 else 4) (if q < 72 then q else q - 72)
        let s := i.2.injEnd (if q < 72 then 3 else 4) (if q < 72 then q else q - 72)
        if r.2.1 then (stFaulted, [], s) else (imageCheck r.1 i.1, imageCode r.1, s)

/-! ### Contexts (R188) -/

/-- A context at kernel entry: s1 to s16 hold the argument block, every other register is zero. Copies that the core started
earlier go on. -/
def JviCtx.enter (x : JviCtx) (q : Nat) (i : Item) (code : List Word64) : JviCtx :=
  let r := (List.range 16).foldl (fun (r : JviCtx) k => r.setS (k + 1) (BitVec.ofNat 64 (le i.block (8 * k) 8))) Reset.jvi
  { r with
    busy := true, queue := q, seq := i.seq, step := dStep i.desc, code := code, limit := le i.desc 56 4, copies := x.copies }

/-- The contexts that a VECTOR of queue q runs on (R165). -/
def vectorCtxs (q : Nat) (d : List Byte) : List Ctx :=
  if h : q < 64 then [.engine ⟨q, h⟩] else (vectorCores d).map Ctx.core

/-- A VECTOR completes: its contexts stop. -/
def State.endVector (s : State) (q : Nat) (seq : Word32) (status : Word16) : State :=
  (s.dropRun q seq).finish q seq status 0 0

/-- VECTOR (R165): the argument block was fetched and checked with the descriptor; the image is checked now. -/
def execVector (q : Fin 76) (s : State) : Host.Outcome State Fault Refusal :=
  .next (s.runKind q.val .vector fun i s =>
    if i.block.length ≠ 128 then s.finish q.val i.seq stBadOpcode 0 0
    else
      let r := s.fetchImage q.val (dAddr i.desc 40)
      if r.1 ≠ stOk then r.2.2.finish q.val i.seq r.1 0 0
      else (vectorCtxs q.val i.desc).foldl (fun s c => s.setCtx c ((s.ctx c).enter q.val i r.2.1)) r.2.2)

/-- The read-only registers of a context. -/
def State.jenv (s : State) (c : Ctx) : JEnv :=
  let x := s.ctx c
  match c with
  | .engine e => ⟨512, 0, e.val, x.step, x.seq, s.key0, s.key1, false⟩
  | .core k => ⟨128, k.val, 0xFF, x.step, x.seq, s.key0, s.key1, false⟩

/-- STEP_LIMIT vector steps have run (R165). -/
def JviCtx.spent (x : JviCtx) : Bool := x.limit != 0 && decide (x.limit ≤ x.steps)

/-- The word at a context's pc when its opcode is the one given and the context may run it. -/
def State.jfetch (s : State) (c : Ctx) (op : Nat) : Option Word64 :=
  let x := s.ctx c
  if x.busy && !x.spent then
    match x.code[x.pc]? with
    | some w => if jOp w = op then some w else none
    | none => none
  else none

/-- The context after an instruction: a pc past the last instruction makes the VECTOR complete with ST_BAD_OPCODE (R190). -/
def State.jput (s : State) (c : Ctx) (x : JviCtx) : State :=
  if x.pc < x.code.length then s.setCtx c x else s.endVector x.queue x.seq stBadOpcode

/-- The context with its pc at the next instruction and the step counted. -/
def JviCtx.tick (x : JviCtx) : JviCtx := { x with pc := x.pc + 1, steps := x.steps + 1 }

/-- One step of a context by a register instruction; a word of another opcode takes no such step. -/
def State.jvi (s : State) (c : Ctx) (op : Nat) (f : JEnv → Word64 → JviCtx → JRes) : Host.Outcome State Fault Refusal :=
  match s.jfetch c op with
  | none => .next s
  | some w =>
    let x := s.ctx c
    match f (s.jenv c) w x.tick with
    | .bad => .next (s.endVector x.queue x.seq stBadOpcode)
    | .next y nf => .next ((if nf then s.onScales fun z => { z with nonfinite := true } else s).jput c y)

/-- END (R190): the VECTOR completes when the last of its contexts ends. -/
def execJEnd (c : Ctx) (s : State) : Host.Outcome State Fault Refusal :=
  match s.jfetch c 0x00 with
  | none => .next s
  | some _ =>
    let x := s.ctx c
    let s := s.setCtx c { Reset.jvi with copies := x.copies }
    let more := (List.finRange 32).any fun k =>
      let y := s.ctx (.core k)
      y.busy && y.queue == x.queue && y.seq == x.seq
    .next (if more then s else s.finish x.queue x.seq stOk 0 0)

/-- UNASSIGNED_OPCODE (R189). -/
def execUnassignedOpcode (c : Ctx) (s : State) : Host.Outcome State Fault Refusal :=
  let x := s.ctx c
  match x.code[x.pc]? with
  | some w => .next (if x.busy && !x.spent && !jviAssigned (jOp w) then s.endVector x.queue x.seq stBadOpcode else s)
  | none => .next s

/-- VECTOR_STEP_LIMIT (R165). -/
def execVectorStepLimit (c : Ctx) (s : State) : Host.Outcome State Fault Refusal :=
  let x := s.ctx c
  .next (if x.busy && x.spent then s.endVector x.queue x.seq stTimeout else s)

/-! ### Memory (class 0x7) -/

/-- Bytes of the memory that a context loads from and stores to. -/
def ctxRoom : Ctx → Nat
  | .engine _ => padSize
  | .core _ => localSize

/-- The physical tile of an engine's context. -/
def State.ctxTile (s : State) : Ctx → Option Nat
  | .engine e => s.ptile e.val
  | .core _ => none

/-- Looks at the codewords that pieces of `size` bytes at the addresses touch; true when one is uncorrectable (Table 08-1). -/
def State.ctxLook (s : State) (c : Ctx) (addrs : List Nat) (size : Nat) : Bool × State :=
  match c with
  | .engine e =>
    match s.ptile e.val with
    | none => (false, s)
    | some p =>
      let r := lookAll (fun s cw => s.padLook p cw) s (addrs.flatMap fun a => cwSpan a size).dedup
      (r.1, r.2.2)
  | .core k => if addrs.isEmpty then (false, s) else let r := s.readLocal k.val 0 0; (r.2.1, r.2.2)

/-- The number that `size` little-endian bytes at an address of the context's memory spell. -/
def State.ctxLoad (s : State) (c : Ctx) (a size : Nat) : Nat :=
  match c with
  | .engine e => match s.ptile e.val with | some p => leNat (Memory.bytes (s.tile p).mem.pad a size) | none => 0
  | .core k => leNat (Memory.bytes (s.localMem k.val) a size)

def State.ctxStore (s : State) (c : Ctx) (a : Nat) (d : List Byte) : State :=
  match c with
  | .engine e => match s.ptile e.val with | some p => s.writePad p a d | none => s
  | .core k => s.writeLocal k.val a d

/-- An uncorrectable codeword ends the VECTOR with ST_FAULTED (Table 08-1); a scratchpad one sets ENG_FAULT SCRATCH. -/
def State.ctxFault (s : State) (c : Ctx) : State :=
  let x := s.ctx c
  let s := match s.ctxTile c with
    | some p => s.onTileRegs p fun g => { g with fault := (g.fault &&& 0xFFFFFFFFFFFF0FFF) ||| 0x100 }
    | none => s
  let s := s.onJob fun j => { j with faultReplay := j.faultReplay || x.step == j.step }
  s.endVector x.queue x.seq stFaulted

/-- Base address s[A] + sext(imm), modulo 2^64. -/
def jBase (w : Word64) (x : JviCtx) : Nat := (x.getS (jA w) + jImm64 w).toNat

/-- The address of lane i for each form of class 0x7: contiguous, strided, by index vector. -/
inductive LaneForm where
  | unit
  | stride
  | index
deriving DecidableEq, Repr

/-- The address of lane i, modulo 2^64 (R190). -/
def laneAddr (form : LaneForm) (size : Nat) (w : Word64) (x : JviCtx) (idx : List Word32) (i : Nat) : Nat :=
  match form with
  | .unit => (BitVec.ofNat 64 (jBase w x) + BitVec.ofNat 64 (size * i)).toNat
  | .stride => (BitVec.ofNat 64 (jBase w x) + BitVec.ofNat 64 i * x.getS (jB w)).toNat
  | .index => (BitVec.ofNat 64 (jBase w x) + (idx.getD i 0).setWidth 64).toNat

/-- Addresses of the active lanes, lanes rising. -/
def laneAddrs (form : LaneForm) (size n : Nat) (w : Word64) (x : JviCtx) : List (Nat × Nat) :=
  let idx := x.getV n (jB w)
  (((x.act n w).zipIdx.filter (·.1)).map (·.2)).map fun i => (i, laneAddr form size w x idx i)

/-- A vector load: lanes zero-extended; an access outside the memory is refused (R190). -/
def State.jload (s : State) (c : Ctx) (op : Nat) (form : LaneForm) (size : Nat) : Host.Outcome State Fault Refusal :=
  match s.jfetch c op with
  | none => .next s
  | some w =>
    let x := s.ctx c
    let n := (s.jenv c).vlen
    let la := laneAddrs form size n w x
    if la.any fun p => decide (ctxRoom c < p.2 + size) then .next (s.endVector x.queue x.seq stBadOpcode)
    else
      let r := s.ctxLook c (la.map (·.2)) size
      if r.1 then .next (r.2.ctxFault c)
      else
        let new := (List.range n).map fun i => BitVec.ofNat 32 (match la.find? (·.1 == i) with | some p => r.2.ctxLoad c p.2 size | none => 0)
        .next (r.2.jput c (x.tick.putV n w (jD w) new))

/-- A vector store: lanes rising, so that the highest lane's value stays (R191). -/
def State.jstore (s : State) (c : Ctx) (op : Nat) (form : LaneForm) (size : Nat) : Host.Outcome State Fault Refusal :=
  match s.jfetch c op with
  | none => .next s
  | some w =>
    let x := s.ctx c
    let n := (s.jenv c).vlen
    let la := laneAddrs form size n w x
    if la.any fun p => decide (ctxRoom c < p.2 + size) then .next (s.endVector x.queue x.seq stBadOpcode)
    else
      let v := x.getV n (jD w)
      let s := la.foldl (fun s p => s.ctxStore c p.2 (leBytes size (v.getD p.1 0).toNat)) s
      .next (s.jput c x.tick)

def execJVld (c : Ctx) (s : State) : Host.Outcome State Fault Refusal := s.jload c 0x70 .unit 4
def execJVst (c : Ctx) (s : State) : Host.Outcome State Fault Refusal := s.jstore c 0x71 .unit 4
def execJVlds (c : Ctx) (s : State) : Host.Outcome State Fault Refusal := s.jload c 0x72 .stride 4
def execJVsts (c : Ctx) (s : State) : Host.Outcome State Fault Refusal := s.jstore c 0x73 .stride 4
def execJVgath (c : Ctx) (s : State) : Host.Outcome State Fault Refusal := s.jload c 0x74 .index 4
def execJVscat (c : Ctx) (s : State) : Host.Outcome State Fault Refusal := s.jstore c 0x75 .index 4
def execJVld16 (c : Ctx) (s : State) : Host.Outcome State Fault Refusal := s.jload c 0x76 .unit 2
def execJVst16 (c : Ctx) (s : State) : Host.Outcome State Fault Refusal := s.jstore c 0x77 .unit 2
def execJVld8 (c : Ctx) (s : State) : Host.Outcome State Fault Refusal := s.jload c 0x78 .unit 1
def execJVst8 (c : Ctx) (s : State) : Host.Outcome State Fault Refusal := s.jstore c 0x79 .unit 1

/-- SLD. -/
def execJSld (c : Ctx) (s : State) : Host.Outcome State Fault Refusal :=
  match s.jfetch c 0x7A with
  | none => .next s
  | some w =>
    let x := s.ctx c
    let a := jBase w x
    if ctxRoom c < a + 8 then .next (s.endVector x.queue x.seq stBadOpcode)
    else
      let r := s.ctxLook c [a] 8
      .next (if r.1 then r.2.ctxFault c else r.2.jput c (x.tick.setS (jD w) (BitVec.ofNat 64 (r.2.ctxLoad c a 8))))

/-- SST. -/
def execJSst (c : Ctx) (s : State) : Host.Outcome State Fault Refusal :=
  match s.jfetch c 0x7B with
  | none => .next s
  | some w =>
    let x := s.ctx c
    let a := jBase w x
    if ctxRoom c < a + 8 then .next (s.endVector x.queue x.seq stBadOpcode)
    else .next ((s.ctxStore c a (leBytes 8 (x.getS (jD w)).toNat)).jput c x.tick)

/-! ### Sync (class 0x9) -/

def ctxSource : Ctx → ScSource
  | .engine e => .engine e
  | .core k => .core k

/-- The counter that SCADD and SCWAIT name. -/
def jCounter (w : Word64) (x : JviCtx) : Nat := ((x.getS (jA w)).toNat + jImm w) % 16384

/-- SCADD. -/
def execJScadd (c : Ctx) (s : State) : Host.Outcome State Fault Refusal :=
  match s.jfetch c 0x90 with
  | none => .next s
  | some w =>
    let x := s.ctx c
    .next ((s.scOp (jCounter w x) .add ((x.getS (jB w)).setWidth 32) (ctxSource c)).jput c x.tick)

/-- SCWAIT: the step takes place once the counter is high enough. -/
def execJScwait (c : Ctx) (s : State) : Host.Outcome State Fault Refusal :=
  match s.jfetch c 0x91 with
  | none => .next s
  | some w =>
    let x := s.ctx c
    .next (if ((x.getS (jB w)).setWidth 32 : Word32).toNat ≤ s.sc (jCounter w x) then s.jput c x.tick else s)

/-! ### The register instructions -/

def execJJmp (c : Ctx) (s : State) : Host.Outcome State Fault Refusal := s.jvi c 0x01 jJmp
def execJBz (c : Ctx) (s : State) : Host.Outcome State Fault Refusal := s.jvi c 0x02 jBz
def execJBnz (c : Ctx) (s : State) : Host.Outcome State Fault Refusal := s.jvi c 0x03 jBnz
def execJLoop (c : Ctx) (s : State) : Host.Outcome State Fault Refusal := s.jvi c 0x04 jLoop
def execJNop (c : Ctx) (s : State) : Host.Outcome State Fault Refusal := s.jvi c 0x05 jNop
def execJSadd (c : Ctx) (s : State) : Host.Outcome State Fault Refusal := s.jvi c 0x10 jSadd
def execJSsub (c : Ctx) (s : State) : Host.Outcome State Fault Refusal := s.jvi c 0x11 jSsub
def execJSmul (c : Ctx) (s : State) : Host.Outcome State Fault Refusal := s.jvi c 0x12 jSmul
def execJSand (c : Ctx) (s : State) : Host.Outcome State Fault Refusal := s.jvi c 0x13 jSand
def execJSor (c : Ctx) (s : State) : Host.Outcome State Fault Refusal := s.jvi c 0x14 jSor
def execJSxor (c : Ctx) (s : State) : Host.Outcome State Fault Refusal := s.jvi c 0x15 jSxor
def execJSshl (c : Ctx) (s : State) : Host.Outcome State Fault Refusal := s.jvi c 0x16 jSshl
def execJSshr (c : Ctx) (s : State) : Host.Outcome State Fault Refusal := s.jvi c 0x17 jSshr
def execJSsra (c : Ctx) (s : State) : Host.Outcome State Fault Refusal := s.jvi c 0x18 jSsra
def execJSlui (c : Ctx) (s : State) : Host.Outcome State Fault Refusal := s.jvi c 0x19 jSlui
def execJScmplt (c : Ctx) (s : State) : Host.Outcome State Fault Refusal := s.jvi c 0x1A jScmplt
def execJScmpeq (c : Ctx) (s : State) : Host.Outcome State Fault Refusal := s.jvi c 0x1B jScmpeq
def execJScmplts (c : Ctx) (s : State) : Host.Outcome State Fault Refusal := s.jvi c 0x1C jScmplts
def execJSrd (c : Ctx) (s : State) : Host.Outcome State Fault Refusal := s.jvi c 0x1F jSrd
def execJVadd (c : Ctx) (s : State) : Host.Outcome State Fault Refusal := s.jvi c 0x20 jVadd
def execJVsub (c : Ctx) (s : State) : Host.Outcome State Fault Refusal := s.jvi c 0x21 jVsub
def execJVmul (c : Ctx) (s : State) : Host.Outcome State Fault Refusal := s.jvi c 0x22 jVmul
def execJVfma (c : Ctx) (s : State) : Host.Outcome State Fault Refusal := s.jvi c 0x23 jVfma
def execJVmin (c : Ctx) (s : State) : Host.Outcome State Fault Refusal := s.jvi c 0x24 jVmin
def execJVmax (c : Ctx) (s : State) : Host.Outcome State Fault Refusal := s.jvi c 0x25 jVmax
def execJVabs (c : Ctx) (s : State) : Host.Outcome State Fault Refusal := s.jvi c 0x26 jVabs
def execJVneg (c : Ctx) (s : State) : Host.Outcome State Fault Refusal := s.jvi c 0x27 jVneg
def execJVcmplt (c : Ctx) (s : State) : Host.Outcome State Fault Refusal := s.jvi c 0x28 jVcmplt
def execJVcmple (c : Ctx) (s : State) : Host.Outcome State Fault Refusal := s.jvi c 0x29 jVcmple
def execJVcmpeq (c : Ctx) (s : State) : Host.Outcome State Fault Refusal := s.jvi c 0x2A jVcmpeq
def execJVsel (c : Ctx) (s : State) : Host.Outcome State Fault Refusal := s.jvi c 0x2B jVsel
def execJVbcast (c : Ctx) (s : State) : Host.Outcome State Fault Refusal := s.jvi c 0x2C jVbcast
def execJVimm (c : Ctx) (s : State) : Host.Outcome State Fault Refusal := s.jvi c 0x2D jVimm
def execJVrsubi (c : Ctx) (s : State) : Host.Outcome State Fault Refusal := s.jvi c 0x2E jVrsubi
def execJVmuli (c : Ctx) (s : State) : Host.Outcome State Fault Refusal := s.jvi c 0x2F jVmuli
def execJVexp2 (c : Ctx) (s : State) : Host.Outcome State Fault Refusal := s.jvi c 0x30 jVexp2
def execJVsqrt (c : Ctx) (s : State) : Host.Outcome State Fault Refusal := s.jvi c 0x31 jVsqrt
def execJVrecip (c : Ctx) (s : State) : Host.Outcome State Fault Refusal := s.jvi c 0x32 jVrecip
def execJVrsqrt (c : Ctx) (s : State) : Host.Outcome State Fault Refusal := s.jvi c 0x33 jVrsqrt
def execJVlog2 (c : Ctx) (s : State) : Host.Outcome State Fault Refusal := s.jvi c 0x34 jVlog2
def execJVderiv (c : Ctx) (s : State) : Host.Outcome State Fault Refusal := s.jvi c 0x35 jVderiv
def execJVdcode (c : Ctx) (s : State) : Host.Outcome State Fault Refusal := s.jvi c 0x36 jVdcode
def execJViadd (c : Ctx) (s : State) : Host.Outcome State Fault Refusal := s.jvi c 0x40 jViadd
def execJVisub (c : Ctx) (s : State) : Host.Outcome State Fault Refusal := s.jvi c 0x41 jVisub
def execJVimul (c : Ctx) (s : State) : Host.Outcome State Fault Refusal := s.jvi c 0x42 jVimul
def execJViand (c : Ctx) (s : State) : Host.Outcome State Fault Refusal := s.jvi c 0x43 jViand
def execJVior (c : Ctx) (s : State) : Host.Outcome State Fault Refusal := s.jvi c 0x44 jVior
def execJVixor (c : Ctx) (s : State) : Host.Outcome State Fault Refusal := s.jvi c 0x45 jVixor
def execJVishl (c : Ctx) (s : State) : Host.Outcome State Fault Refusal := s.jvi c 0x46 jVishl
def execJVishr (c : Ctx) (s : State) : Host.Outcome State Fault Refusal := s.jvi c 0x47 jVishr
def execJVisra (c : Ctx) (s : State) : Host.Outcome State Fault Refusal := s.jvi c 0x48 jVisra
def execJVcvtf (c : Ctx) (s : State) : Host.Outcome State Fault Refusal := s.jvi c 0x49 jVcvtf
def execJVcvti (c : Ctx) (s : State) : Host.Outcome State Fault Refusal := s.jvi c 0x4A jVcvti
def execJVlane (c : Ctx) (s : State) : Host.Outcome State Fault Refusal := s.jvi c 0x4B jVlane
def execJVicmplt (c : Ctx) (s : State) : Host.Outcome State Fault Refusal := s.jvi c 0x4C jVicmplt
def execJVicmpeq (c : Ctx) (s : State) : Host.Outcome State Fault Refusal := s.jvi c 0x4D jVicmpeq
def execJVquant (c : Ctx) (s : State) : Host.Outcome State Fault Refusal := s.jvi c 0x50 jVquant
def execJVefq (c : Ctx) (s : State) : Host.Outcome State Fault Refusal := s.jvi c 0x51 jVefq
def execJVdq (c : Ctx) (s : State) : Host.Outcome State Fault Refusal := s.jvi c 0x52 jVdq
def execJVrb16 (c : Ctx) (s : State) : Host.Outcome State Fault Refusal := s.jvi c 0x53 jVrb16
def execJVpack (c : Ctx) (s : State) : Host.Outcome State Fault Refusal := s.jvi c 0x54 jVpack
def execJVunpack (c : Ctx) (s : State) : Host.Outcome State Fault Refusal := s.jvi c 0x55 jVunpack
def execJVspill (c : Ctx) (s : State) : Host.Outcome State Fault Refusal := s.jvi c 0x56 jVspill
def execJVsumr (c : Ctx) (s : State) : Host.Outcome State Fault Refusal := s.jvi c 0x60 jVsumr
def execJVmaxr (c : Ctx) (s : State) : Host.Outcome State Fault Refusal := s.jvi c 0x61 jVmaxr
def execJVbrd (c : Ctx) (s : State) : Host.Outcome State Fault Refusal := s.jvi c 0x62 jVbrd
def execJVperm (c : Ctx) (s : State) : Host.Outcome State Fault Refusal := s.jvi c 0x63 jVperm
def execJVext (c : Ctx) (s : State) : Host.Outcome State Fault Refusal := s.jvi c 0x64 jVext
def execJVhash (c : Ctx) (s : State) : Host.Outcome State Fault Refusal := s.jvi c 0xA0 jVhash

end Sys2Proof.Machine
end

