-- ==== Sys2Proof/Machine/Boundary.lean ====
section
/-! DEFINITION. The slow-tier directory and the parameter groups (R195 to R200, Tables 07-1 to 07-3), the writes that wait for a
step boundary and the boundary itself (R422). -/

namespace Sys2Proof.Machine

/-! ### The layout directory (R197) -/

def State.dirAt (s : State) (off : Nat) : Nat := leNat (Memory.bytes s.mem.slow off 8)
def State.setDir (s : State) (off v : Nat) : State := s.writeSlow off (leBytes 8 v)
/-- Base of the region whose directory entry is at `dir`, plus the place of entry i of a given size. -/
def State.region (s : State) (dir i size : Nat) : Nat := bitsOf (s.dirAt dir) 0 40 + i * size
/-- UPD_LAYOUT has been run. -/
def State.laidOut (s : State) : Bool := s.dirAt 0 == 1

/-- Directory offsets of the regions (Table 07-1). -/
def dPgt : Nat := 0x80
def dSched : Nat := 0x88
def dProg : Nat := 0x90
def dCrec : Nat := 0x98
def dMaster : Nat := 0xA0
def dMom (bank : Nat) : Nat := if bank = 0 then 0xA8 else 0xB0
def dResid : Nat := 0xB8
def dKgrad : Nat := 0xC0
def dNgrad : Nat := 0xC8
def dNpgt : Nat := 0xD0
def dMirror : Nat := 0xD8
def dMtag : Nat := 0xE0
def dBdig : Nat := 0xE8
def dDone : Nat := 0xF0
def dGdig : Nat := 0xF8
def dExport : Nat := 0x100
def dNscale : Nat := 0x108

def State.committedStep (s : State) : Nat := s.dirAt 0x20
def State.mirrorAcked (s : State) : Nat := s.dirAt 0x28
def State.mirrorStep (s : State) : Nat := s.dirAt 0x30

/-! ### Parameter groups (Table 07-3) -/

/-- A parameter group descriptor. -/
structure Pg where
  first : Nat
  count : Nat
  elements : Nat
  valid : Bool
  frozen : Bool
  digest : Bool
  block32 : Bool
  tied : Nat
  m1 : Elem
  m2 : Elem
  program : Nat
  schedule : Nat
  fwd : Nat
  consts : List Word32
  step : Nat
  bank : Nat
  updates : Nat
deriving DecidableEq, Repr

def pgOf (b : List Byte) : Pg :=
  let w := le b 16 8
  { first := le b 0 4
    count := le b 4 4
    elements := le b 8 8
    valid := bitOf w 63
    frozen := bitOf w 62
    digest := bitOf w 61
    block32 := bitOf w 60
    tied := (let t := bitsOf w 48 4; if t = 0 then 1 else min t 8)
    m1 := if bitsOf w 40 4 = 2 then .e5m2 else .e4m3
    m2 := if bitsOf w 44 4 = 1 then .e4m3 else .e5m2
    program := bitsOf w 26 6
    schedule := bitsOf w 18 8
    fwd := bitsOf (le b 24 8) 0 13
    consts := (List.range 4).map fun i => BitVec.ofNat 32 (le b (32 + 4 * i) 4)
    step := le b 48 8 / 2
    bank := le b 48 8 % 2
    updates := le b 56 4 }

def State.pgBytes (s : State) (g : Nat) : List Byte := Memory.bytes s.mem.slow (s.region dPgt g 64) 64
def State.pg (s : State) (g : Nat) : Pg := pgOf (s.pgBytes g)
/-- A group of the −X neighbour as NPGT describes it. -/
def State.npg (s : State) (g : Nat) : Pg := pgOf (Memory.bytes s.mem.slow (s.region dNpgt g 64) 64)

/-- The reset values of a descriptor (R198). -/
def pgReset : List Byte := leBytes 16 0 ++ leBytes 8 (2 ^ 61 + 2 * 2 ^ 44 + 2 ^ 40) ++ leBytes 40 0

/-- Valid groups, ascending; those that take updates (R211). -/
def State.validGroups (s : State) : List Nat := if s.laidOut then (List.range 4096).filter fun g => (s.pg g).valid else []
def State.liveGroups (s : State) : List Nat := s.validGroups.filter fun g => !(s.pg g).frozen

/-- Words 0 to 5 of a descriptor as stored: the reserved fields of words 2 and 3 read zero (R14). -/
def pgClean (b : List Byte) : List Byte :=
  let w2 := setFld (setFld (setFld (BitVec.ofNat 64 (le b 16 8)) 52 8 0) 35 5 0) 0 18 0
  let w3 := setFld (setFld (BitVec.ofNat 64 (le b 24 8)) 29 35 0) 13 3 0
  slice b 0 16 ++ leBytes 8 w2.toNat ++ leBytes 8 w3.toNat ++ slice b 32 16
/-- A descriptor write: words 6 and 7 are RO; the group counts as written anew (R198, R210). -/
def State.writePg (s : State) (g : Nat) (b : List Byte) : State :=
  (s.writeSlow (s.region dPgt g 64) (pgClean b)).onScales fun c => { c with badGroups := c.badGroups.filter (· != g) }

/-- A schedule write (R201). -/
def State.writeSched (s : State) (k : Nat) (b : List Byte) : State :=
  -- bytes 2 to 7 of a channel are reserved (R14)
  s.writeSlow (s.region dSched k 4160) ((List.range 8).foldl (fun b c => patch b (520 * c + 2) (List.replicate 6 0)) (padTo 4160 b))

/-! ### What waits for the boundary -/

/-- Puts a write that waits into force. -/
def State.applyWaiting (s : State) (w : Waiting) : State :=
  match w with
  | .pgd g b => s.writePg g b
  | .schedule k b => s.writeSched k b
  | .policy p f => s.onGrp fun g => { g with cfg := { g.cfg with policy := p, factor := f } }
  | .reduceWord st k v => s.onChd fun c => { c with reduce := Sparse.put 0 c.reduce (8 * st + k) v }
  | .wstreamWord w k v => s.onChd fun c => { c with wstream := Sparse.put 0 c.wstream (4 * w + k) v }
  | .chdPos vals =>
    let s := (s.onChd fun c => { c with pos := vals.zipIdx.foldl (fun m v => Sparse.put Reset.chdPos m v.2 v.1) c.pos }).setPos
    -- a module that serves a position is no failed one
    s.onGrp fun g => { g with failed := g.failed.filter fun f => (List.range 8).all fun x => s.col x (f / 9) != f % 9 }

/-- A setting that takes effect at the next boundary; at once while no job runs (R422). -/
def State.atBoundary (s : State) (w : Waiting) : State :=
  if s.jobRuns then s.onJob fun j => { j with waiting := j.waiting ++ [w] } else s.applyWaiting w

/-! ### Moved positions (R216, R277, R302) -/

/-- The +X neighbour of a logical position in its slice: the buddy (section The buddy mirror); the −X neighbour. -/
def State.plusX (s : State) (p : Nat × Nat) : Nat × Nat :=
  let (x0, x1, _, _) := s.sliceOf
  if x0 ≤ p.1 ∧ p.1 ≤ x1 then (if p.1 = x1 then x0 else p.1 + 1, p.2) else ((p.1 + 1) % 8, p.2)
def State.minusX (s : State) (p : Nat × Nat) : Nat × Nat :=
  let (x0, x1, _, _) := s.sliceOf
  if x0 ≤ p.1 ∧ p.1 ≤ x1 then (if p.1 = x0 then x1 else p.1 - 1, p.2) else ((p.1 + 7) % 8, p.2)

/-- The record of a block as the mirror and the exports hold it: master, active moments, residual (Table 07-2), and whether a
word of it is uncorrectable. -/
def State.blockRecord (s : State) (bank b : Nat) : List Byte × Bool × State :=
  let m := s.readSlow (s.region dMaster b 16384) 16384
  let o := m.2.2.readSlow (s.region (dMom bank) b 8448) 8448
  let r := o.2.2.readSlow (s.region dResid b 8192) 8192
  (m.1 ++ o.1 ++ r.1, m.2.1 || o.2.1 || r.2.1, r.2.2)

/-- A codeword of the slow tier as it travels: an uncorrectable one as the poison word (R252, R223). -/
def State.slowWord (s : State) (cw : Nat) : List Byte × State :=
  let l := s.slowLook cw
  (if l.1.isBad then poisonWord else codeword (Memory.bytes s.mem.slow (32 * cw) 32), l.2)

/-- Codewords of the slow tier go out on the mirror VC; they cross the die-to-die link, in the order of their
class, and wait while a module of it retrains (R28, R30). -/
def State.mirrorOut (s : State) (stream cw : Nat) (dest : Nat × Nat) (data : List Byte) : State :=
  if s.d2dClear .gradMirror 1 then s.route 3 stream cw dest false data else s.d2dWait (.mirrorOut stream cw dest.1 dest.2 data)

/-- Sends codewords of the slow tier on a stream of the mirror VC, 27 to a flit. -/
def State.sendSlow (s : State) (stream cw : Nat) (dest : Nat × Nat) (off len : Nat) : State :=
  let n := len / 32
  (List.range ((n + 26) / 27)).foldl (fun s i =>
    let k := min 27 (n - 27 * i)
    let w := (List.range k).foldl (fun (a : List Byte × State) j =>
      let r := a.2.slowWord (off / 32 + 27 * i + j)
      (a.1 ++ r.1, r.2)) ([], s)
    w.2.mirrorOut stream (cw + 27 * i) dest w.1) s

/-- Writes a block's record in a bank. -/
def State.putRecord (s : State) (bank b : Nat) (rec : List Byte) : State :=
  ((s.writeSlow (s.region dMaster b 16384) (slice rec 0 16384)).writeSlow (s.region (dMom bank) b 8448) (slice rec 16384 8448)).writeSlow
    (s.region dResid b 8192) (slice rec 24832 8192)

/-- The blocks of a group. -/
def Pg.blocks (g : Pg) : List Nat := (List.range g.count).map (g.first + ·)

/-- Sends the record of one block on a stream of the mirror VC. -/
def State.sendBlock (s : State) (stream : Nat) (dest : Nat × Nat) (bank b : Nat) : State :=
  let at' := 1032 * b
  ((s.sendSlow stream at' dest (s.region dMaster b 16384) 16384).sendSlow stream (at' + 512) dest (s.region (dMom bank) b 8448) 8448).sendSlow
    stream (at' + 776) dest (s.region dResid b 8192) 8192

/-- Sends the records of groups' blocks, in block order. -/
def State.sendBlocks (s : State) (stream : Nat) (dest : Nat × Nat) (groups : List Nat) : State :=
  groups.foldl (fun s g => (s.pg g).blocks.foldl (fun s b => s.sendBlock stream dest (s.pg g).bank b) s) s

/-- The active bank of a block: that of its group. -/
def State.bankOf (s : State) (b : Nat) : Nat :=
  match s.validGroups.find? fun g => decide ((s.pg g).first ≤ b) && decide (b < (s.pg g).first + (s.pg g).count) with
  | some g => (s.pg g).bank
  | none => 0

/-- Sends the record of every block of the shard as a restored shard (stream 0x002). -/
def State.sendShard (s : State) (dest : Nat × Nat) : State :=
  (List.range (s.dirAt 0x08)).foldl (fun s b => s.sendBlock 2 dest (s.bankOf b) b) s

/-- The scale records as they are sent: 8,192 of 32 bytes. -/
def State.scaleBytes (s : State) : List Byte := (List.range 8192).flatMap fun i => recToBytes (s.scaleRec i)

/-- The position of this module moves or its buddy does: a new buddy is sent the whole committed state (R216), and a substitute
that gives its position back sends shard, mirror and scale records to the module that takes it (R302). -/
def State.movePos (s : State) (vals : List Word64) : State :=
  let old := s.grp.pos
  let role := s.grp.role
  let buddyCol (s : State) : Nat := match s.grp.pos with | some p => let b := s.plusX p; s.col b.1 b.2 | none => 16
  let before := buddyCol s
  let s := s.applyWaiting (.chdPos vals)
  -- what a module counted of its neighbour's traffic belongs to the position it had
  let s := if s.grp.pos = old then s
    else s.onComp fun t => { t with gradStep := none, gradSeen := [], scaleSeen := 0, gradTag := [], mirrorIn := [], rebuildSeen := 0, restoreScale := [] }
  let s := if s.grp.role = role then s else s.msix 275
  match old, s.grp.pos with
  | some p, none =>
    -- the records that leave are those of the committed step
    let s := s.derive
    let s := ((s.sendShard p).sendMirror 3 0 p s.scaleBytes).sendSlow 0 0 p (s.region dMirror 0 0) (33024 * s.dirAt 0x10)
    if s.physX = 8 then s.parkSpare true else s
  | some p, some q =>
    if p = q ∧ buddyCol s ≠ before then (s.setDir 0x28 0).sendBlocks 0 (s.plusX q) s.validGroups else s
  | _, _ => s

/-! ### What the Apex sends (R277, R281, R298) -/

/-- The module of row y that serves no position, where it is not failed. -/
def State.freePlace (s : State) (y : Nat) : List (Nat × Nat) := if s.grp.failed.contains (9 * y + s.freeCol y) then [] else [(8, y)]
def State.everyone (s : State) : List (Nat × Nat) := (s.otherPositions ++ (List.range 8).flatMap s.freePlace).filter fun p => p != s.ownPos
/-- Sends a message to every other module of the group. -/
def State.toEveryone (s : State) (b : List Byte) : State := s.everyone.foldl (fun s p => s.sendControl p.1 p.2 b) s

/-- An MB[15] command to one module, in 28-byte pieces (R379); RESYNC lets every module take it. -/
def mbImage (op : Nat) (seq : Word32) (epoch : Word16) (payload : List Byte) : List Byte :=
  let h := leBytes 2 op ++ leBytes 2 1 ++ leBytes 4 seq.toNat ++ leBytes 2 payload.length ++ leBytes 10 0 ++ leBytes 4 epoch.toNat
  let q := padTo 64 h ++ payload
  patch q 16 (leBytes 4 (requestCrc q))
def State.mbCommand (s : State) (dest : Nat × Nat) (op : Nat) (payload : List Byte) : State :=
  let q := mbImage op s.grp.mbSeq s.grp.epoch payload
  let s := (List.range ((q.length + 27) / 28)).foldl (fun s i =>
    s.sendControl dest.1 dest.2 (leBytes 4 (if i = 0 then 0x20 else 0x21) ++ (q.drop (28 * i)).take 28)) s
  s.onGrp fun g => { g with mbSeq := g.mbSeq + 1 }

/-! ### A position is given back (R302) -/

/-- CHD_POS values that give a position back to its replaced module. -/
def State.givesBack (s : State) (v : List Word64) : Bool :=
  (List.range 8).any fun y => (List.range 8).any fun x => s.col x y == 8 && fld (v.getD y 0) (4 * x) 4 != 8

/-- The group is quiesced while the copy runs, as in phase R of a recovery that replays nothing; the Apex tells the replaced module
the step of the state that it takes. -/
def State.quiesceReturn (s : State) : State :=
  let n := s.job.step
  let t : Word32 := BitVec.ofNat 32 s.committedStep
  let s := ((s.onStreams fun u => { u with held := true }).onGrp fun g => { g with phase := 4, recCase := 1, recStep := n, recTarget := t }).msix 275
  match s.grp.returning with
  | some (c, y) =>
    let x := ((List.range 8).find? fun x => s.col x y == c).getD 0
    (s.mbCommand (x, y) 0x0B06 (leBytes 2 s.grp.epoch.toNat ++ leBytes 2 4 ++ leBytes 4 n.toNat ++ leBytes 4 t.toNat ++ leBytes 4 1)).sendApexState
  | none => if s.isApex then s.sendApexState else s

/-- CHD_POS as GRP_SUBSTITUTE gave it comes in force (R277). -/
def State.takePos (s : State) : State :=
  match s.grp.newPos with
  | none => s
  | some v =>
    let back := s.givesBack v && s.grp.phase == 5
    let s := (s.onGrp fun g => { g with newPos := none }).movePos v
    if back then s.quiesceReturn else s

/-! ### The boundary (R422) -/

/-- HOST_LOST ends at the first boundary after FINAL (R159, R320), with INFO ACT_PLAN_RESTORED. -/
def State.endHostLost (s : State) : State :=
  if s.job.finalGiven ∧ s.streams.hostLost then
    let n := s.job.switched
    ((s.onStreams fun t => { t with hostLost := false }).onJob fun j => { j with finalGiven := false, switched := 0 }).report 0x0503 .info
      0x10 s.jobSlot (leBytes 4 (s.job.step + 1).toNat ++ leBytes 2 n)
  else s

/-- The journal keeps what belongs to later steps; the queues that stopped for want of room fetch again (R184, R185). -/
def State.trimJournal (s : State) : State :=
  let keep := s.streams.journal.filter fun e => s.job.step.toNat < e.step.toNat
  let s := s.onStreams fun t => let t := { t with journal := keep }; { t with jnlUsed := BitVec.ofNat 64 (jnlSpan t) }
  (List.range 76).foldl (fun s q => if (s.queue q).jnlFull then (s.onQueue q fun u => { u with jnlFull := false }).fetch q else s) s

/-- The rest of a replay is abandoned when its step ends without it (R296). -/
def State.abandonReplay (s : State) : State :=
  if !s.job.replaying then s
  else
    let s := (List.range 76).foldl (fun s q => (s.abortStep q).onQueue q fun u => { u with window := u.window.filter fun i => !i.replay }) s
    s.onChd fun c => { c with late := [] }

/-- Applies a function to every tile that differs from a tile at reset. -/
def State.onTiles (s : State) (f : Tile → Tile) : State :=
  { s with tiles := (s.tiles.map fun k => (k.1, f k.2)).filter fun k => k.2 != Reset.tile }

/-- What the chord interface holds of the step that ends (R267, R269). -/
def State.clearStep (s : State) : State :=
  let done := s.job.step
  let later (m : Sparse Vote) : Sparse Vote := m.filter fun v => done.toNat < v.2.step.toNat
  ((s.onChd fun c => { c with
    own := [], ownStep := [], rin := [], rinLate := [], partials := [], partLate := [], ringSum := [], ringSent := [], ringDone := [], ringIn := []
    ringOut := [], scaleOut := [], wrecv := [], wown := [], landed := [], stopped := [], wreq := [] }).onGrp
    fun g => { g with
      voted := false, voteHeld := none, spanStart := none, lastOwn := 0, expired := false, straggles := false, lateStart := s.chd.lateBlocks, voteStart := none
      rowVotes := later g.rowVotes, colVotes := later g.colVotes, groupVotes := later g.groupVotes }).onTiles fun t =>
      { t with regs := { t.regs with residueStep := false } }

/-- A step boundary: step s is settled, by its commit record or by SKIP. -/
def State.stepBoundary (s : State) (commit : Bool) : State :=
  let n := s.job.step
  let s := s.abandonReplay
  let s := if commit then s.endCounts else s.derive.clearCounts.applyScaleWrites
  let s := s.job.waiting.foldl State.applyWaiting (s.onJob fun j => { j with waiting := [] })
  let s := s.endHostLost.remapSwitch.trimJournal.clearStep
  let s := s.onJob fun j => { j with
    step := n + 1, committed := if commit then j.committed + 1 else j.committed, verdict := 0, replaying := false, faultReplay := false
    lastCommit := if commit then some n else j.lastCommit, lastSkip := if commit then j.lastSkip else some n }
  let s := if commit ∧ s.grp.phase = 5 then s.onGrp fun g => { g with noDeadline := false, substitute := false } else s
  -- during a recovery CHD_POS comes in force at the end of phase S alone (R277)
  let s := (if s.grp.phase = 5 then s.takePos else s).snapshotCounters
  if commit ∧ s.isApex then s.sendApexState else s

end Sys2Proof.Machine
end

