-- ==== Sys2Proof/Machine/Update.lean ====
section
/-! DEFINITION. Schedules (R202), the run of an update program with its epilogue (R203, R204), the update of one commit block
(R200, R205, R210) and the digests (R218), as functions of a block's data. -/

namespace Sys2Proof.Machine

/-! ### Schedules (R202, Table 07-4) -/

def knotStep (ch : List Byte) (i : Nat) : Nat := le ch (8 + 8 * i) 4
def knotValue (ch : List Byte) (i : Nat) : Word32 := BitVec.ofNat 32 (le ch (12 + 8 * i) 4)
/-- An unsigned integer as FP32 with one rounding. -/
def f32OfNat (n : Nat) : Word32 := encode32 false n 0

/-- The value of a channel at step s. -/
def schedValue (ch : List Byte) (s : Nat) : Word32 :=
  let n := le ch 0 1
  if n = 0 then 0
  else if s ≤ knotStep ch 0 then knotValue ch 0
  else if knotStep ch (n - 1) ≤ s then knotValue ch (n - 1)
  else
    let i := ((List.range n).filter fun k => knotStep ch k ≤ s).foldl max 0
    let mode := le ch 1 1
    let f := fmul (f32OfNat (s - knotStep ch i)) (frecip (f32OfNat (knotStep ch (i + 1) - knotStep ch i)))
    if mode = 1 then ffma f (fsub (knotValue ch (i + 1)) (knotValue ch i)) (knotValue ch i)
    else if mode = 2 then
      let l0 := flog2 (knotValue ch i)
      exp2 (ffma f (fsub (flog2 (knotValue ch (i + 1))) l0) l0)
    else knotValue ch i

/-- A channel that UPD_SCHEDULE_WRITE accepts (R201). -/
def channelOk (ch : List Byte) : Bool :=
  let n := le ch 0 1
  decide (n ≤ 64) && ((List.range (n - 1)).all fun i => decide (knotStep ch i < knotStep ch (i + 1))) &&
    (le ch 1 1 != 2 || (List.range n).all fun i => flt 0 (knotValue ch i) && !flt 0x3F800000 (knotValue ch i) && !isNan (knotValue ch i))
def channelBytes (sched : List Byte) (c : Nat) : List Byte := slice sched (520 * c) 520
def scheduleOk (sched : List Byte) : Bool := (List.range 8).all fun c => channelOk (channelBytes sched c)

/-! ### Update programs (R203, R204) -/

/-- A word that an update program may hold: no branch backward, no counted loop, no class 0x7, 0x8 or 0x9. -/
def programWordOk (w : Word64) : Bool :=
  let op := jOp w
  let k := op / 16
  op != 0x04 && k != 7 && k != 8 && k != 9 && !((op == 0x01 || op == 0x02 || op == 0x03) && decide (jSext w < 0))
def programOk (code : List Word64) : Bool := decide (code.length ≤ 256) && code.all programWordOk

/-- Runs a program to its end: the registers, and whether a quantiser met a non-finite value; none where an instruction ends it
with ST_BAD_OPCODE. -/
def runProgram (env : JEnv) : Nat → JviCtx → Bool → Option (JviCtx × Bool)
  | 0, _, _ => none
  | fuel + 1, x, nf =>
    match x.code[x.pc]? with
    | none => none
    | some w =>
      if jOp w = 0 then some (x, nf)
      else
        match jviOp (jOp w) with
        | none => none
        | some f =>
          match f env w { x with pc := x.pc + 1, steps := x.steps + 1 } with
          | .bad => none
          | .next y n => runProgram env fuel y (nf || n)

/-- What an update of 128 elements needs besides their data (Table 07-5). -/
structure UpdEnv where
  jenv : JEnv
  code : List Word64
  group : Nat
  count : Nat
  sched : List Word32
  consts : List Word32
  m1 : Elem
  m2 : Elem
deriving DecidableEq, Repr

/-- 128 elements: master, moments, gradient. -/
structure Chunk where
  w : List Word32
  m1 : List Word32
  m2 : List Word32
  g : List Word32
deriving DecidableEq, Repr

/-- The registers at entry (Table 07-5); `base` is the group element index of lane 0, `n` the lanes below ELEMENTS. -/
def entryCtx (u : UpdEnv) (c : Chunk) (base n : Nat) : JviCtx :=
  let x := { Reset.jvi with busy := true, code := u.code }
  let x := (((x.setV 0 c.w).setV 1 c.m1).setV 2 c.m2).setV 3 c.g
  let x := x.setP 1 ((List.range 128).map fun i => decide (i < n))
  let s : List Nat := [u.jenv.step.toNat, u.count, u.group, base] ++ u.sched.map (·.toNat) ++ u.consts.map (·.toNat)
  s.zipIdx.foldl (fun x v => x.setS (v.2 + 1) (BitVec.ofNat 64 v.1)) x

/-- What the update of a chunk yields: new master, the moments' codes and scale bytes, whether a valid lane holds a non-finite
value in v0, v1 or v2 (R210). -/
structure ChunkOut where
  w : List Word32
  q1 : List (List Nat × Byte)
  q2 : List (List Nat × Byte)
  bad : Bool
deriving DecidableEq, Repr

/-- The epilogue on one moment (R204): window [1, 127], RNE. -/
def epilogue (f : Elem) (l : List Word32) : List (List Nat × Byte) :=
  (piecesOf 32 4 l).map fun b =>
    let q := quantiseBlock (b.map decode32) 1 127 f false fun _ => 0
    (q.codes, q.scale)

/-- The update of a chunk; `poke` is detector 0x0701, a NaN in lane 0 of v0. -/
def updateChunk (u : UpdEnv) (c : Chunk) (base n : Nat) (poke : Bool) : Option (ChunkOut × Bool) :=
  match runProgram u.jenv 257 (entryCtx u c base n) false with
  | none => none
  | some (x, nf) =>
    let p := x.getP 128 1
    let clear (l : List Word32) : List Word32 := (p.zip l).map fun t => if t.1 then t.2 else 0
    let v0 := x.getV 128 0
    let v0 := clear (if poke then v0.set 0 qnan else v0)
    let v1 := clear (x.getV 128 1)
    let v2 := clear (x.getV 128 2)
    -- a non-finite moment meets the epilogue's quantiser (R116)
    some (⟨v0, epilogue u.m1 v1, epilogue u.m2 v2, !((v0 ++ v1 ++ v2).all isFinite)⟩, nf || !((v1 ++ v2).all isFinite))

/-! ### One commit block -/

/-- 128 scale bytes and 4,096 F8 codes as FP32 (R63, Table 07-2). -/
def f8Values (f : Elem) (b : List Byte) : List Word32 :=
  (List.range 4096).map fun k => toFp32 (blockValue f (b.getD (4096 + k / 32) 0) (b.getD k 0).toNat)

/-- The sum of the gradient places in order (R200). -/
def sumPlaces : List (List Word32) → List Word32
  | [] => List.replicate 4096 0
  | g :: r => r.foldl (fun a b => List.zipWith fadd a b) g

/-- The stored form of a moment: codes, then scale bytes. -/
def momentBytes (q : List (List Nat × Byte)) : List Byte := (q.flatMap fun b => b.1.map fun c => BitVec.ofNat 8 c) ++ q.map (·.2)

/-- The data of a block before its update. -/
structure BlockIn where
  w : List Word32
  m1 : List Word32
  m2 : List Word32
  g : List Word32
  resid : List Word16
deriving DecidableEq, Repr

/-- A block's new record, as its 33,024 bytes, and the flags of its update. -/
structure BlockOut where
  record : List Byte
  bad : Bool
  nonfinite : Bool
  /-- What the forward copy adds to FWD_REC (R117). -/
  tally : Tally
deriving DecidableEq, Repr

/-- The quantisation of the forward copy that leaves the residual (R205, R115): window, element, SR with its tensor id. -/
structure FwdQuant where
  lo : Nat
  hi : Nat
  elem : Elem
  sr : Bool
  tensor : Word32
  /-- The record's index; E_HI4 of a FALLEN record. -/
  index : Nat
  eHi4 : Option Nat
deriving DecidableEq, Repr

/-- The forward copy of each format block with its residual: the element index under SR is the group element index (R111). -/
def fwdBlocks (q : FwdQuant) (env : JEnv) (b : BlockIn) (base : Nat) : List (Quant × List Word16) :=
  (List.range 128).map fun j =>
    efRound ((b.w.drop (32 * j)).take 32) ((b.resid.drop (32 * j)).take 32) q.lo q.hi q.elem q.sr fun k =>
      srHash env.step q.tensor (BitVec.ofNat 64 (base + 32 * j + k)) env.k0 env.k1

/-- What the forward copy counts: the format blocks that hold a position below ELEMENTS (R117). -/
def fwdTally (q : FwdQuant) (blocks : List (Quant × List Word16)) (valid : Nat) : Tally :=
  blocks.zipIdx.foldl (fun t x => if 32 * x.2 < valid then tallyBlock t q.eHi4 x.1.1 else t) ⟨q.index, 0, 0, 0, 0⟩

/-- The 32 chunks of a block in order; `pokes` says where detector 0x0701 fires. -/
def chunksFrom (u : UpdEnv) (b : BlockIn) (base valid : Nat) (pokes : Nat → Bool) : List Nat → Option (List ChunkOut × Bool)
  | [] => some ([], false)
  | i :: r =>
    let cut (l : List Word32) : List Word32 := (l.drop (128 * i)).take 128
    match updateChunk u ⟨cut b.w, cut b.m1, cut b.m2, cut b.g⟩ (base + 128 * i) (valid - 128 * i) (pokes i) with
    | none => none
    | some (c, nf) =>
      match chunksFrom u b base valid pokes r with
      | none => none
      | some (cs, nf') => some (c :: cs, nf || nf')

/-- The update of a block: `base` is the group element index of its first position, `valid` its positions below ELEMENTS. Padding
stays +0 (R196). -/
def updateBlock (u : UpdEnv) (q : FwdQuant) (b : BlockIn) (base valid : Nat) (pokes : Nat → Bool) : Option BlockOut :=
  match chunksFrom u b base valid pokes (List.range 32) with
  | none => none
  | some (cs, nf) =>
    let w := cs.flatMap (·.w)
    let fwd := fwdBlocks q u.jenv b base
    let resid := (fwd.flatMap (·.2)).zipIdx.map fun r => if r.2 < valid then r.1 else 0
    some {
      record := (w.flatMap fun x => leBytes 4 x.toNat) ++ momentBytes (cs.flatMap (·.q1)) ++ momentBytes (cs.flatMap (·.q2)) ++
        resid.flatMap fun x => leBytes 2 x.toNat
      bad := cs.any (·.bad)
      nonfinite := nf || fwd.zipIdx.any fun x => decide (32 * x.2 < valid) && x.1.1.nonfinite
      tally := fwdTally q fwd valid }

/-! ### Digests (R218) -/

/-- Product in GF(2^128) with x^128 + x^7 + x^2 + x + 1. -/
def gf128Mul (a b : Nat) : Nat :=
  ((List.range 128).foldl (fun (s : Nat × Nat) i =>
    (if bitOf b i then s.1 ^^^ s.2 else s.1, if bitOf s.2 127 then (2 * s.2) % 2 ^ 128 ^^^ 0x87 else 2 * s.2)) (0, a)).1

/-- The polynomial hash of 128-bit values. -/
def polyHash (h : Nat) (cs : List Nat) : Nat := cs.foldl (fun d c => gf128Mul (d ^^^ c) h) 0

/-- The digest key: the job key with bit 127 set. -/
def State.digestKey (s : State) : Nat := (s.key0.toNat + s.key1.toNat * 2 ^ 64) ||| 2 ^ 127

/-- The digest of a block's record. -/
def State.blockDigest (s : State) (rec : List Byte) : Nat :=
  polyHash s.digestKey ((List.range 2064).map fun i => le rec (16 * i) 16)

end Sys2Proof.Machine
end

