-- ==== Sys2Proof/Machine/Commit.lean ====
section
/-! DEFINITION. The commit of a step (R205 to R212): its record, the update of its blocks, its end, the commit of the step (R207),
and COMMIT. -/

namespace Sys2Proof.Machine

/-! ### Places and tables -/

/-- Byte offset of a gradient place within its region (Table 07-2): groups ascending, places within a group, blocks within a place. -/
def placeOff (pg : Nat → Pg) (g place : Nat) : Nat :=
  4224 * ((((List.range g).map fun h => if (pg h).valid then (pg h).tied * (pg h).count else 0).sum) + place * (pg g).count)

/-- The element format of a block of this module's gradient places: that of the reduce stream that delivered it (R200, R269, R270);
where nothing was delivered, that of the stream that would; a free one where none would. `off` is the offset in KGRAD. -/
def State.keptElem (s : State) (_g off : Nat) : Elem × State :=
  let a := s.region dKgrad 0 0 + off
  let hit (st : Nat) : Bool :=
    let d := bitsOf (s.rword st 3).toNat 0 40
    rValid s st && decide (d ≤ a) && decide (a < d + 4224 * ((s.chunk st + 4095) / 4096))
  match Sparse.get 0 s.mem.gradFmt a, (List.range 1024).find? hit with
  | 1, _ => (.e4m3, s)
  | 2, _ => (.e5m2, s)
  | _, some st => (rElem s st, s)
  | _, none =>
    let r := s.draw
    (if r.1.toNat % 2 = 0 then .e4m3 else .e5m2, r.2)

/-- The element format of a group of the −X neighbour: that of the reduce streams that carry the group, which are the same on every
module (R269); a free one where none carries it. -/
def State.neighbourElem (s : State) (g _off : Nat) : Elem × State :=
  match (List.range 1024).find? fun st => rValid s st && fld (s.rword st 0) 32 12 == g with
  | some st => (rElem s st, s)
  | none =>
    let r := s.draw
    (if r.1.toNat % 2 = 0 then .e4m3 else .e5m2, r.2)

/-- The program that a group names: its instructions, none when none was stored. -/
def State.progCode (s : State) (k : Nat) : Option (List Word64) :=
  let img := Memory.bytes s.mem.slow (s.region dProg k 4096) 4096
  if imageCheck img false = stOk ∧ programOk (imageCode img) then some (imageCode img) else none

/-- The values of the schedule's channels at a step. -/
def State.schedNow (s : State) (k step : Nat) : List Word32 :=
  let b := Memory.bytes s.mem.slow (s.region dSched k 4160) 4160
  (List.range 8).map fun c => schedValue (channelBytes b c) step

/-- How FWD_REC, record i, quantises (R205); in Spring a format E2M1 is E4M3 (R124). -/
def fwdQuant (spring : Bool) (i : Nat) (r : ScaleRec) : FwdQuant :=
  let f := if recState r = 3 then Elem.e4m3 else fmtElem (recElem r)
  let f := if spring ∧ f = .e2m1 then .e4m3 else f
  let w := windowOf (recState r == 0) (recEHi r) (recW r) f
  ⟨w.1, w.2, f, recRound r == 2, recTensor r, i, if recState r = 3 then some (recEHi4 r) else none⟩

/-- FWD_REC records of a commit as derived for its step: those in force when it began; a recovery takes what its record notes
(R205, R212; notes/assumptions/319.md). -/
def State.commitFwd (s : State) (c : CommitRun) (i : Nat) : FwdQuant :=
  let n := Sparse.get (false, []) s.mem.crecFwd c.recAddr
  match c.recovery, n.2.find? fun k => k.1 == i with
  | true, some k => fwdQuant n.1 i k.2
  | _, _ => fwdQuant (s.pwr.regime == .spring) i (s.scaleRec i)

/-- The update environment of a group. -/
def State.updEnv (s : State) (g : Nat) (pg : Pg) (core : Nat) (step seq : Word32) : UpdEnv where
  jenv := ⟨128, core, 0xFF, step, seq, s.key0, s.key1, pg.block32⟩
  code := (s.progCode pg.program).getD []
  group := g
  count := pg.updates + 1
  sched := s.schedNow pg.schedule step.toNat
  consts := pg.consts
  m1 := pg.m1
  m2 := pg.m2

/-- The words of a record's bytes: master, moments, residual. -/
def blockIn (pg : Pg) (rec : List Byte) (g : List Word32) : BlockIn where
  w := (List.range 4096).map fun k => BitVec.ofNat 32 (le rec (4 * k) 4)
  m1 := f8Values pg.m1 (slice rec 16384 4224)
  m2 := f8Values pg.m2 (slice rec 20608 4224)
  g := g
  resid := (List.range 4096).map fun k => BitVec.ofNat 16 (le rec (24832 + 2 * k) 2)

/-- Reads the gradient places of a block: their sum, and whether a word is uncorrectable. -/
def State.readGrads (s : State) (elem : State → Nat → Nat → Elem × State) (dir : Nat) (pgs : Nat → Pg) (g b : Nat) : List Word32 × Bool × State :=
  let pg := pgs g
  let r := (List.range pg.tied).foldl (fun (a : List (List Word32) × Bool × State) p =>
    let off := placeOff pgs g p + 4224 * (b - pg.first)
    let f := elem a.2.2 g off
    let d := f.2.readSlow (f.2.region dir 0 0 + off) 4224
    (a.1 ++ [f8Values f.1 d.1], a.2.1 || d.2.1, d.2.2)) ([], false, s)
  (sumPlaces r.1, r.2.1, r.2.2)

/-! ### The commit record (Table 07-6) -/

def State.digestDue (s : State) (step : Nat) : Bool := s.dirAt 0x18 != 0 && step % s.dirAt 0x18 == 0

def State.recordBytes (s : State) (c : CommitRun) (state : Nat) : List Byte :=
  let a := leBytes 8 c.step.toNat ++ leBytes 2 c.pgFirst ++ leBytes 2 c.pgCount
  let b := leBytes 1 state ++ leBytes 1 (bit (s.digestDue c.step.toNat)) ++ [0, 0]
  let n := leBytes 4 c.blocks
  padTo 64 (a ++ b ++ n ++ leBytes 8 0 ++ leBytes 4 (crc32c (a ++ n)))

def State.setRecState (s : State) (c : CommitRun) (state : Nat) : State := s.writeSlow (c.recAddr + 12) (leBytes 1 state)

/-- Groups of a commit's range (R205), and every group it names. -/
def CommitRun.named (c : CommitRun) : List Nat := (List.range c.pgCount).map (c.pgFirst + ·)
def State.rangeOf (s : State) (c : CommitRun) : List Nat := c.named.filter fun g => (s.pg g).valid && !(s.pg g).frozen

/-- The source of a commit's records (R424). -/
def CommitRun.source (c : CommitRun) : Nat × Nat := match c.queue with | some (q, _) => (4, q - 72) | none => (0, 0)
def State.commitReport (s : State) (c : CommitRun) (code : Nat) (sev : Severity) (payload : List Byte) : State :=
  s.report code sev c.source.1 c.source.2 (leBytes 4 c.step.toNat ++ payload)

/-- Counts of a commit that runs gather per record, to be added when it ends (R117). -/
def State.addFwd (s : State) (t : Tally) : State :=
  s.onComp fun c =>
    match c.tallies.find? fun x => x.index == t.index with
    | some _ => { c with tallies := c.tallies.map fun x => if x.index = t.index then
        { x with blocks := x.blocks + t.blocks, sat := x.sat + t.sat, sat4 := x.sat4 + t.sat4, amax := if flt x.amax t.amax then t.amax else x.amax }
        else x }
    | none => { c with tallies := c.tallies ++ [t] }

/-- A commit ends: its counts reach their records, unless its descriptor has NOCOUNT (R117, R146). -/
def State.payFwd (s : State) (queue : Option (Nat × Word32)) : State :=
  let no : Bool := match queue with
    | some (q, seq) => (match s.item q seq with | some i => dNoCount i.desc | none => false)
    | none => false
  (if no then s else s.comp.tallies.foldl State.addTally s).onComp fun c => { c with tallies := [] }

/-- What a request that ends at once adds: nothing while another commit awaits its buddy with counts of its own. -/
def State.payEnded (t s : State) (queue : Option (Nat × Word32)) : State := if s.comp.commit.isSome then t else t.payFwd queue

/-- A COMMIT ends with its status and outcome (Table 07-7). -/
def State.endCommit (s : State) (c : CommitRun) (status : Word16) (outcome : Nat) : State :=
  let s := (s.payFwd c.queue).onComp fun t => { t with commit := none }
  match c.queue with
  | some (q, seq) => s.finish q seq status outcome 0
  | none => s.endCommand c.route status []

/-! ### The buddy (R213, R214) -/

/-- The buddy's position, when this module has one. -/
def State.buddy (s : State) : Option (Nat × Nat) := s.grp.pos.map s.plusX

/-- Sends the kept gradients of the range, and once per step the scale records with their counts (R213). -/
def State.sendGrads (s : State) (c : CommitRun) : State :=
  match s.buddy with
  | none => s
  | some d =>
    let s := (s.rangeOf c).foldl (fun s g =>
      (List.range (s.pg g).tied).foldl (fun s p =>
        let off := placeOff s.pg g p
        s.sendSlow 1 (off / 32) d (s.region dKgrad 0 0 + off) (4224 * (s.pg g).count)) s) s
    -- a recovery sends the kept gradients again, and no records: those of the step went with its first range
    if c.recovery ∨ s.comp.scaleSent = some c.step then s
    else (s.sendMirror 3 0 d s.scaleBytes).onComp fun t => { t with scaleSent := some c.step }

/-! ### The update of a block (R205 step 3, R206, R209, R210) -/

/-- DONE of a block. -/
def State.blockDone (s : State) (b : Nat) : Bool := bitOf (Memory.read s.mem.slow (s.region dDone 0 0 + b / 8)).toNat (b % 8)
def State.setDone (s : State) (b : Nat) (v : Bool) : State :=
  let a := s.region dDone 0 0 + b / 8
  let x := (Memory.read s.mem.slow a).toNat
  s.writeSlow a [BitVec.ofNat 8 (x - bit (bitOf x (b % 8)) * 2 ^ (b % 8) + bit v * 2 ^ (b % 8))]

/-- Adds 1 to a 4-byte count of the record. -/
def State.bumpRec (s : State) (c : CommitRun) (off : Nat) : State :=
  s.writeSlow (c.recAddr + off) (leBytes 4 (leNat (Memory.bytes s.mem.slow (c.recAddr + off) 4) + 1))

/-- A block whose state holds an uncorrectable word is taken from the buddy's mirror where it can be (R209): its record, and
whether there is one. -/
def State.mendBlock (s : State) (c : CommitRun) (bank b : Nat) : Option (List Byte × State) :=
  match Config.mirrorRecord s.committedStep b with
  | none => none
  | some r => some (padTo 33024 r, (s.putRecord bank b (padTo 33024 r)).commitReport c 0x0704 .warn (leBytes 4 b))

/-- The update of block b of group g: the status that stops the commit, if one does, and whether it left a non-finite value. -/
def State.commitBlock (s : State) (c : CommitRun) (g b : Nat) : Option Word16 × Bool × State :=
  let pg := s.pg g
  let core := b % 32
  let src := c.source
  let l := s.readLocal core 0 32
  if l.2.1 then (some stFaulted, false, l.2.2)
  else
    let r := l.2.2.blockRecord pg.bank b
    let fetched := if r.2.1 then r.2.2.mendBlock c pg.bank b else some (r.1, r.2.2)
    match fetched with
    | none => (some stFaulted, false, r.2.2.commitReport c 0x0705 .fault (leBytes 4 b))
    | some (rec, s) =>
      let gr := s.readGrads State.keptElem dKgrad s.pg g b
      if gr.2.1 then (some stFaulted, false, gr.2.2.commitReport c 0x0705 .fault (leBytes 4 b))
      else
        let seq := c.seq
        let s := gr.2.2
        let pokes := (List.range 32).foldl (fun (a : List Bool × State) _ =>
          let i := if src.1 = 4 then a.2.fires 0x0701 4 src.2 else (false, a.2)
          (a.1 ++ [i.1], i.2)) ([], s)
        let s := pokes.2
        let base := 4096 * (b - pg.first)
        match updateBlock (s.updEnv g pg core c.step seq) (s.commitFwd c pg.fwd) (blockIn pg rec gr.1) base (pg.elements - base)
            (fun i => pokes.1.getD i false) with
        | none => (some stBadOpcode, false, s.injEnd 4 src.2)
        | some o =>
          let s := s.writeSlow (s.region (dMom (1 - pg.bank)) b 8448) (slice o.record 16384 8448)
          let s := (s.writeSlow (s.region dMaster b 16384) (slice o.record 0 16384)).writeSlow (s.region dResid b 8192) (slice o.record 24832 8192)
          let s := (s.writeSlow (s.region dBdig b 16) (leBytes 16 (s.blockDigest o.record))).setDone b true
          let s := s.bumpRec c 20
          let s := (if c.recovery then s.bumpRec c 24 else s).addFwd o.tally
          let s := if o.nonfinite then s.onScales fun z => { z with nonfinite := true } else s
          (none, o.bad, s)

/-- Blocks of a group in order; one WARN UPDATE_NONFINITE per group and step, and the group then clears the finite bit until it is
written anew (R210). A recovery passes over the blocks that are done (R212). -/
def State.commitGroup (s : State) (c : CommitRun) (g : Nat) : Option Word16 × State :=
  let r := (s.pg g).blocks.foldl (fun (a : Option Word16 × Bool × State) b =>
    if a.1.isSome ∨ (c.recovery ∧ a.2.2.blockDone b) then a
    else
      let x := a.2.2.commitBlock c g b
      if x.2.1 ∧ !a.2.1 then
        let t := x.2.2.commitReport c 0x0703 .warn (leBytes 2 g ++ leBytes 4 b)
        (x.1, true, (t.onScales fun z => { z with badGroups := if z.badGroups.contains g then z.badGroups else g :: z.badGroups }).injEnd 4 c.source.2)
      else (x.1, a.2.1 || x.2.1, x.2.2)) (none, false, s)
  (r.1, r.2.2)

/-- The blocks of the range (R205 step 3). -/
def State.commitBlocks (s : State) (c : CommitRun) : Option Word16 × State :=
  (s.rangeOf c).foldl (fun (a : Option Word16 × State) g => if a.1.isSome then a else a.2.commitGroup c g) (none, s)

/-! ### The end of a commit (R205 steps 4 to 7, R207, R218, R422) -/

/-- The digest of a group: its block digests in block order, then its count (R218). -/
def State.groupDigest (s : State) (g : Nat) : Nat :=
  polyHash s.digestKey ((s.pg g).blocks.map fun b => leNat (Memory.bytes s.mem.slow (s.region dBdig b 16) 16)) ^^^ (s.pg g).count

/-- The digest over groups with DIGEST set, in ascending order (R218). -/
def State.digestOver (s : State) (groups : List Nat) : Nat :=
  polyHash s.digestKey ((groups.filter fun g => (s.pg g).digest).map s.groupDigest)

/-- Every valid, unfrozen group has committed step n (R207). -/
def State.allCommitted (s : State) (n : Word32) : Bool := s.liveGroups.all fun g => (s.pg g).step == n.toNat

/-- The companion sets STEP_COMMITTED to n, and MIRROR_ACKED with it on a module that is its own buddy (notes/assumptions/120.md), and when a digest is due forms SHARD_DIGEST; the verdict is then awaited (R207, R218,
R219). -/
def State.recordStep (s : State) (n : Word32) : State :=
  let s := s.setDir 0x20 n.toNat
  let s := if s.buddy = s.grp.pos then s.setDir 0x28 n.toNat else s
  if s.digestDue n.toNat then
    ((s.writeSlow 0x38 (leBytes 16 (s.digestOver s.validGroups))).setDir 0x48 n.toNat).onComp fun t => { t with verdictDue := some n }
  else s

/-- A COMMIT of step n has been taken and has not ended: its tickets are met in a companion queue, or it waits in a mailbox (R207). -/
def State.commitHeld (s : State) (n : Word32) : Bool :=
  ((List.range 4).any fun c => match s.takeable (72 + c) with
    | some i => dKind i.desc == some .commit && dStep i.desc == n && !s.refusesStep (72 + c) i
    | none => false) ||
    allRoutes.any fun r =>
      let m := s.mbox r
      m.state == .posted && m.checked && mOp m.request == 0x0706 && le (mPayload m.request) 16 4 == n.toNat

/-- A job step whose verdict is COMMIT reaches its boundary once the module treats it as committed (R207, R422). -/
def State.settleStep (s : State) : State :=
  let n := s.job.step
  if s.job.verdict = 1 ∧ s.comp.commit.isNone ∧ s.allCommitted n ∧ !s.commitHeld n then
    let s := if s.committedStep = n.toNat ∧ !s.liveGroups.isEmpty then s else s.recordStep n
    -- a step that updated nothing leaves the mirror as it was
    let s := if s.laidOut ∧ s.liveGroups.isEmpty then s.setDir 0x28 n.toNat else s
    s.stepBoundary true
  else s

/-- Word 6 and UPDATES of a group (R205 step 5). -/
def State.flipGroup (s : State) (g : Nat) (step : Word32) : State :=
  let p := s.pg g
  s.writeSlow (s.region dPgt g 64 + 48) (leBytes 8 (2 * step.toNat + (1 - p.bank)) ++ leBytes 4 (p.updates + 1))

/-- The flip: word 6 of the range's groups, ascending; a recovery passes over those flipped already (R205 step 5, R212). -/
def State.flipRange (s : State) (c : CommitRun) : State :=
  (s.rangeOf c).foldl (fun s g => if c.recovery ∧ c.step.toNat ≤ (s.pg g).step then s else s.flipGroup g c.step) s

/-- Group digests and range digest, when the record says that they are due (R205 step 6, R218). -/
def State.commitDigests (s : State) (c : CommitRun) : State :=
  if bitOf (Memory.read s.mem.slow (c.recAddr + 13)).toNat 0 then
    ((s.rangeOf c).foldl (fun s g => s.writeSlow (s.region dGdig g 16) (leBytes 16 (s.groupDigest g))) s).writeSlow (c.recAddr + 32)
      (leBytes 16 (s.digestOver (s.rangeOf c)))
  else s

/-- NOTE COMMIT_RESUMED of a recovery (R212). -/
def State.resumedNote (s : State) (c : CommitRun) : State :=
  if c.recovery then
    s.commitReport c 0x0701 .note (leBytes 4 (leNat (Memory.bytes s.mem.slow (c.recAddr + 24) 4)) ++ leBytes 1 c.fromState)
  else s

/-- The new records of the range stream to the buddy (R214). -/
def State.sendRange (s : State) (c : CommitRun) : State :=
  match s.buddy with
  | some d => s.sendBlocks 0 d (s.rangeOf c)
  | none => s

/-- STEP_COMMITTED follows once every live group has committed and no COMMIT of the step that was taken is unfinished (R207); a module that is its own buddy needs no mirror elsewhere
(notes/assumptions/120.md). -/
def State.noteCommitted (s : State) (n : Word32) : State :=
  let s := if s.allCommitted n ∧ !s.liveGroups.isEmpty ∧ !s.commitHeld n ∧ s.committedStep ≠ n.toNat then s.recordStep n else s
  if s.buddy = s.grp.pos then s.setDir 0x28 s.committedStep else s

/-- What follows the buddy's acknowledgement: the flip, the digests, the record, the mirror stream, the end (R205 steps 5 to 7, R212,
R214). -/
def State.finishCommit (s : State) (c : CommitRun) : State :=
  let s := (s.flipRange c).commitDigests c
  let s := (s.writeSlow (c.recAddr + 48) (leBytes 6 s.now)).setRecState c 3
  ((((s.resumedNote c).sendRange c).endCommit c stOk 0).noteCommitted c.step).settleStep

/-- The kept gradients are on their way; the commit waits for the buddy, unless the module is its own. -/
def State.awaitBuddy (s : State) (c : CommitRun) : State :=
  if s.buddy = s.grp.pos then s.finishCommit c else s.onComp fun t => { t with commit := some c }

/-- Steps 1 to 4 of R205: the status that stops the commit, if one does. -/
def State.beginCommit (s : State) (c : CommitRun) : Option Word16 × State :=
  let fwd := ((s.rangeOf c).map fun g => (s.pg g).fwd).dedup.map fun i => (i, s.scaleRec i)
  let s := (s.writeSlow c.recAddr (s.recordBytes c 1)).onMem fun m => { m with
    crecSeq := Sparse.put 0 m.crecSeq c.recAddr c.seq
    crecFwd := Sparse.put (false, []) m.crecFwd c.recAddr (s.pwr.regime == .spring, fwd) }
  let s := (s.rangeOf c).foldl (fun (s : State) g => (s.pg g).blocks.foldl (fun s b => s.setDone b false) s) s
  let r := (s.sendGrads c).commitBlocks c
  match r.1 with
  | some st => (some st, r.2)
  | none => (none, (r.2.setRecState c 2).awaitBuddy c)

/-- The recovery of an open record (R212): the status that stops it, if one does. -/
def State.recoverCommit (s : State) (c : CommitRun) : Option Word16 × State :=
  let r := if c.fromState = 1 then s.commitBlocks c else (none, s)
  match r.1 with
  | some st => (some st, r.2)
  | none => (none, ((r.2.setRecState c 2).sendGrads c).awaitBuddy c)

/-- A commit as the record at an address gives it; none when its CRC does not hold. -/
def State.openRecord (s : State) (a : Nat) (queue : Option (Nat × Word32)) (route : Option Route) : Option CommitRun :=
  let b := Memory.bytes s.mem.slow a 64
  if crc32c (slice b 0 12 ++ slice b 16 4) ≠ le b 28 4 then none
  else some {
    queue := queue, route := route, recAddr := a, step := BitVec.ofNat 32 (le b 0 8), pgFirst := le b 8 2, pgCount := le b 10 2
    blocks := le b 16 4, redone := 0, recovery := true, fromState := le b 12 1
    seq := Sparse.get 0 s.mem.crecSeq a }

/-! ### COMMIT (Table 06-11, Table 07-7) -/

/-- The fields of a COMMIT: from a descriptor, or from UPD_COMMIT. -/
structure CommitReq where
  queue : Option (Nat × Word32)
  route : Option Route
  step : Word32
  pgFirst : Nat
  pgCount : Nat
  phase : Nat
  record : Nat
deriving DecidableEq, Repr

/-- A run that stands for a request, for its records and its end. -/
def CommitReq.run (r : CommitReq) (a : Nat) (blocks : Nat) : CommitRun :=
  ⟨r.queue, r.route, a, r.step, r.pgFirst, r.pgCount, blocks, 0, false, 0, match r.queue with | some (_, q) => q | none => 0⟩

/-- The slow-tier offset of RECORD when it is a CREC slot. -/
def State.crecSlot (s : State) (a : Nat) : Option Nat :=
  let base := s.region dCrec 0 64
  match s.place a 64 Loc.isSlow with
  | some (.slow o) => if s.laidOut ∧ base ≤ o ∧ o < base + 4096 ∧ (o - base) % 64 = 0 then some o else none
  | _ => none

/-- The vote skipped the step, or the digest verdict of the step before was REPAIR or REVERT (Table 07-7). -/
def State.commitSkips (s : State) (step : Word32) : Bool :=
  s.job.lastSkip == some step || (s.jobRuns && decide (step.toNat < s.job.step.toNat) && s.job.lastCommit != some step) ||
    (match s.comp.verdict with | some (v, n) => v != 0 && n + 1 == step | none => false)

/-- An export is open, as the EXPORT region says (R220). -/
def State.exportOpen (s : State) : Bool := s.laidOut && Memory.read s.mem.slow (s.region dExport 0 0 + 16) == 1

/-- The conditions of R205 on the module itself. -/
def State.commitMay (s : State) : Bool :=
  s.comp.commit.isNone && s.mirrorAcked == s.committedStep && !s.exportOpen && s.comp.verdictDue.isNone

/-- What a COMMIT that is taken comes to (Table 07-7). -/
inductive CommitPlan where
  /-- It ends at once: status, outcome, whether the record becomes SKIPPED. -/
  | ends (status : Word16) (outcome : Nat) (skip : Option CommitRun)
  /-- Every named group is frozen. -/
  | frozen (c : CommitRun)
  /-- Its record cannot be trusted (R212). -/
  | unreadable (c : CommitRun)
  /-- It begins once the conditions of R205 hold. -/
  | begins (c : CommitRun)
  /-- It recovers an open record. -/
  | recovers (c : CommitRun)
deriving DecidableEq, Repr

def State.commitPlan (s : State) (r : CommitReq) : CommitPlan :=
  let named := (List.range r.pgCount).map (r.pgFirst + ·)
  match s.crecSlot r.record with
  | none => .ends stBadOpcode 0 none
  | some a =>
    if r.pgCount = 0 ∨ 4096 < r.pgFirst + r.pgCount ∨ 1 < r.phase ∨ !(named.all fun g => (s.pg g).valid) then .ends stBadOpcode 0 none
    else if r.phase = 1 then
      let st := (Memory.read s.mem.slow (a + 12)).toNat
      if st ≠ 1 ∧ st ≠ 2 then .ends stAlreadyDone 0 none
      else match s.openRecord a r.queue r.route with
        | none => .unreadable (r.run a 0)
        | some c => .recovers c
    else
      let c := r.run a (((named.filter fun g => !(s.pg g).frozen).map fun g => (s.pg g).count).sum)
      if s.commitSkips r.step then .ends stOk 3 (some c)
      else if named.all fun g => (s.pg g).frozen then .frozen c
      else if !(named.all fun g => (s.pg g).frozen || (s.progCode (s.pg g).program).isSome) then .ends stBadOpcode 0 none
      else .begins c

/-- No COMMIT of step s proceeds before VOTE_RESULT of step s (R291); the recovery of an open record is not held. -/
def State.votedFor (s : State) (r : CommitReq) : Bool :=
  r.phase == 1 || !s.jobRuns || decide (r.step.toNat < s.job.step.toNat) || (r.step == s.job.step && s.job.verdict == 1)

/-- Whether the plan of a request can be carried out now: the record that each group names is derived for the step (R121). -/
def State.planMay (s : State) (r : CommitReq) : CommitPlan → Bool
  | .begins c => s.votedFor r && s.commitMay && (s.rangeOf c).all fun g => s.recDerived r.step (s.pg g).fwd
  | .recovers _ => s.comp.commit.isNone
  | _ => s.votedFor r

/-- Carries out a plan: the status and outcome with which it ends at once, or none while it waits for the buddy or has ended as
finished. -/
def State.runPlan (s : State) : CommitPlan → Option (Word16 × Nat) × State
  | .ends st o skip =>
    match skip with
    | some c => (some (st, o), s.writeSlow c.recAddr (s.recordBytes c 4))
    | none => (some (st, o), s)
  | .frozen c => (some (stFrozen, 0), s.commitReport c 0x0702 .note (leBytes 2 c.pgFirst))
  | .unreadable c => (some (stFaulted, 0), s.commitReport c 0x0705 .fault (leBytes 4 0))
  | .begins c => let r := s.beginCommit c; (r.1.map fun st => (st, 0), r.2)
  | .recovers c => let r := s.recoverCommit c; (r.1.map fun st => (st, 0), r.2)

/-- The request of a descriptor on companion queue c. -/
def commitReq (q : Nat) (d : List Byte) : CommitReq where
  queue := some (q, dSeq d)
  route := none
  step := dStep d
  pgFirst := le d 40 2
  pgCount := le d 42 2
  phase := le d 44 1
  record := dAddr d 48

/-- COMMIT: taken once its tickets are met and the conditions of R205 hold. -/
def execCommit (c : Fin 4) (s : State) : Host.Outcome State Fault Refusal :=
  let q := 72 + c.val
  match s.takeable q with
  | none => .next s
  | some i =>
    let r := commitReq q i.desc
    let p := s.commitPlan r
    if dKind i.desc = some .commit ∧ (s.planMay r p ∨ s.refusesStep q i) then
      .next (s.runKind q .commit fun _ t =>
        match t.runPlan p with
        | (some e, t) => (((t.payEnded s r.queue).finish q i.seq e.1 e.2 0).noteCommitted r.step).settleStep
        | (none, t) => t)
    else .next s

/-- UPD_COMMIT (Table 07-8): PG_FIRST, PG_COUNT, PHASE, RECORD and STEP. -/
def updCommitReq (r : Route) (b : List Byte) : CommitReq :=
  ⟨none, some r, BitVec.ofNat 32 (le b 16 4), le b 0 2, le b 2 2, le b 4 1, le b 8 8⟩

/-- The command is RUNNING while its commit waits for the buddy. -/
def updCommitCmd (r : Route) (b : List Byte) (s : State) : CmdResult :=
  -- the command itself no longer waits
  let s := s.setMbox r { s.mbox r with checked := false }
  match s.runPlan (s.commitPlan (updCommitReq r b)) with
  | (some e, t) => .done e.1 [] ((t.payEnded s none).noteCommitted (updCommitReq r b).step)
  | (none, t) => if t.comp.commit.isSome then .running t else .done stOk [] t

/-- UPD_COMMIT: it waits in its mailbox until the conditions of R205 hold. -/
def execUpdCommit (r : Route) (s : State) : Host.Outcome State Fault Refusal :=
  let q := updCommitReq r (mPayload (s.mbox r).request)
  if s.planMay q (s.commitPlan q) then .next (s.command r 0x0706 (updCommitCmd r)).settleStep else .next s

end Sys2Proof.Machine
end

