-- ==== Sys2Proof/Machine/Mirror.lean ====
section
/-! DEFINITION. The receiving side of the mirror VC: the neighbour's state and kept gradients (R213, R214), a restored shard (R215,
R299), remote writes (R263); and the acknowledgements GRAD_ACK and MIRROR_ACK (Table 09-6). -/

namespace Sys2Proof.Machine

/-- Stores a codeword of 36 bytes in the slow tier with the health it decodes to; a corrected one is stored corrected (Table 08-1). -/
def State.slowLand (s : State) (off : Nat) (raw : List Byte) : State :=
  let d := decodeWord raw
  (s.writeSlow off d.1).setSlowHealth (off / 32) (if d.2 = .correctable then .good else d.2)
def State.g7Land (s : State) (off : Nat) (raw : List Byte) : State :=
  let d := decodeWord raw
  (s.writeG7 off d.1).setG7Health (off / 32) (if d.2 = .correctable then .good else d.2)

/-! ### The mirror of the −X neighbour (R214) -/

/-- The step that arriving blocks of the mirror carry: that of the kept gradients last received; a target while the group recovers
(notes/assumptions/121.md). -/
def State.mirrorTag (s : State) : Nat :=
  match s.comp.gradStep with
  | some n => n.toNat
  | none => if s.grp.phase < 5 then s.grp.recTarget.toNat else (s.job.lastCommit.getD 0).toNat

def State.tagOf (s : State) (b : Nat) : Nat := leNat (Memory.bytes s.mem.slow (s.region dMtag b 8) 8)

/-- Groups of the neighbour. -/
def State.nGroups (s : State) : List Nat := if s.laidOut then (List.range 4096).filter fun g => (s.npg g).valid else []

/-- A block counts as holding step n: its tag is n, or its group takes no updates (R211). -/
def State.mirrorHolds (s : State) (n b : Nat) : Bool :=
  s.tagOf b == n || s.nGroups.any fun g =>
    (s.npg g).frozen && decide ((s.npg g).first ≤ b) && decide (b < (s.npg g).first + (s.npg g).count)

/-- Word 6 and UPDATES of the neighbour's groups follow its commits (notes/assumptions/122.md). -/
def State.followNpgt (s : State) (n : Nat) : State :=
  s.nGroups.foldl (fun s g =>
    let p := s.npg g
    if p.frozen then s
    else s.writeSlow (s.region dNpgt g 64 + 48) (leBytes 8 (2 * n + (1 - p.bank)) ++ leBytes 4 (p.updates + 1))) s

/-- A control message that acknowledges to the −X neighbour (Table 09-6). -/
def State.ackNeighbour (s : State) (step kind : Nat) : State :=
  match s.grp.pos with
  | some p => let d := s.minusX p; s.sendControl d.1 d.2 (leBytes 4 0x04 ++ leBytes 8 step ++ leBytes 1 kind)
  | none => s

/-- Once every tag equals n, MIRROR_STEP is n, and the buddy acknowledges. Records that come with no kept gradients before the first
step are a state that the neighbour sends whole (R216). -/
def State.mirrorFull (s : State) (n : Nat) : State :=
  if (List.range (s.dirAt 0x10)).all (s.mirrorHolds n) then
    let s := if (s.mirrorStep ≠ 0 ∨ s.comp.gradStep.isSome) ∧ s.mirrorStep < n then s.followNpgt n else s
    (s.setDir 0x30 n).ackNeighbour n 1
  else s

/-- A codeword of the mirror: a block is written as one unit when all of it has come. -/
def State.mirrorWord (s : State) (cw : Nat) (raw : List Byte) : State :=
  let b := cw / 1032
  let m := Sparse.put [] s.comp.mirrorIn cw raw
  if (List.range 1032).all fun k => !(Sparse.get [] m (1032 * b + k)).isEmpty then
    let s := (List.range 1032).foldl (fun s k => s.slowLand (s.region dMirror b 33024 + 32 * k) (Sparse.get [] m (1032 * b + k))) s
    let s := s.onComp fun t => { t with mirrorIn := m.filter fun e => decide (e.1 / 1032 ≠ b) }
    let n := s.mirrorTag
    (s.writeSlow (s.region dMtag b 8) (leBytes 8 n)).mirrorFull n
  else s.onComp fun t => { t with mirrorIn := m }

/-! ### Kept gradients and scale records of the neighbour (R213) -/

/-- The step of arriving kept gradients: the present step while the mirror holds the last committed one, else that one, whose commit
the neighbour is still at (notes/assumptions/121.md). -/
def State.arrivingStep (s : State) : Word32 :=
  let last := s.job.lastCommit.getD 0
  if last.toNat ≤ s.mirrorStep then s.job.step else last

/-- A change of step starts the counts of arriving data anew. -/
def State.noteArriving (s : State) : State :=
  let n := s.arrivingStep
  if s.comp.gradStep = some n then s
  else s.onComp fun t => { t with gradStep := some n, gradSeen := [], scaleSeen := 0 }

/-- NSCALE holds the records of step n. -/
def State.nscaleOf (s : State) : Nat := leNat (Memory.bytes s.mem.slow (s.region dNscale 0 0 + 262144) 8)

/-- The buddy acknowledges once every place that began to arrive is whole, and NSCALE is written; a substitute asks for no NSCALE of
a step that its predecessor acknowledged (R213, section Recovering a failed module; notes/assumptions/123.md). -/
def State.gradsWhole (s : State) : State :=
  let n := (s.comp.gradStep.getD 0).toNat
  if s.comp.gradSeen.isEmpty ∧ s.comp.gradTag.any (fun t => t.2.toNat = n) ∧ (s.nscaleOf = n ∨ (s.grp.substitute ∧ s.comp.scaleSeen = 0)) then
    s.ackNeighbour n 0
  else s

/-- The neighbour's group whose places hold a codeword of NGRAD. -/
def State.ngroupAt (s : State) (off : Nat) : Option Nat :=
  s.nGroups.find? fun g => decide (placeOff s.npg g 0 ≤ off) && decide (off < placeOff s.npg g (s.npg g).tied)

/-- A codeword of kept gradients. -/
def State.gradWord (s : State) (cw : Nat) (raw : List Byte) : State :=
  let s := s.noteArriving
  let s := s.slowLand (s.region dNgrad 0 0 + 32 * cw) raw
  match s.ngroupAt (32 * cw) with
  | none => s
  | some g =>
    let n := Sparse.get 0 s.comp.gradSeen g + 1
    let whole := decide (132 * (s.npg g).tied * (s.npg g).count ≤ n)
    let s := s.onComp fun t => { t with
      gradSeen := Sparse.put 0 t.gradSeen g (if whole then 0 else n)
      gradTag := if whole then (g, t.gradStep.getD 0) :: t.gradTag.filter (·.1 != g) else t.gradTag }
    if whole then s.gradsWhole else s

/-- A scale record of the neighbour. -/
def State.nscaleWord (s : State) (i : Nat) (raw : List Byte) : State :=
  let s := s.noteArriving
  let s := s.slowLand (s.region dNscale 0 0 + 32 * (i % 8192)) raw
  let n := s.comp.scaleSeen + 1
  if n < 8192 then s.onComp fun t => { t with scaleSeen := n }
  else
    let step := (s.comp.gradStep.getD 0).toNat
    ((s.writeSlow (s.region dNscale 0 0 + 262144) (leBytes 8 step)).onComp fun t => { t with scaleSeen := 0 }).gradsWhole

/-! ### A restored shard (R215, R299, R302) -/

/-- The step of a restored shard: the target while the group recovers; a position that is given back is told no step, and the value
is free (notes/assumptions/124.md). -/
def State.restoredStep (s : State) : Nat × State :=
  if s.grp.phase < 5 ∨ s.grp.substitute then (s.grp.recTarget.toNat, s)
  else let r := s.draw; (r.1.toNat % 2 ^ 32, r.2)

/-- The restored shard is whole: records, word 6 of every group, STEP_COMMITTED (R215); the buddy's mirror is what it was rebuilt
from. -/
def State.restoreDone (s : State) : State :=
  let recs := (List.range 8192).map fun i => recOf (Memory.bytes s.comp.restoreScale (32 * i) 32)
  let s := recs.zipIdx.foldl (fun s r => s.setScaleRec r.2 r.1) s
  let t := s.restoredStep
  let s := t.2.validGroups.foldl (fun s g => s.writeSlow (s.region dPgt g 64 + 48) (leBytes 8 (2 * t.1))) t.2
  ((s.setDir 0x20 t.1).setDir 0x28 t.1).onComp fun c => { c with rebuildSeen := 0, restoreScale := [] }

def State.restoreCount (s : State) : State :=
  let n := s.comp.rebuildSeen + 1
  let s := s.onComp fun t => { t with rebuildSeen := n }
  if 1032 * s.dirAt 0x08 + 8192 ≤ n then s.restoreDone else s

/-- A codeword of a restored shard: to MASTER, bank 0, RESID. -/
def State.shardWord (s : State) (cw : Nat) (raw : List Byte) : State :=
  let b := cw / 1032
  let k := cw % 1032
  let at' := if k < 512 then s.region dMaster b 16384 + 32 * k
    else if k < 776 then s.region (dMom 0) b 8448 + 32 * (k - 512)
    else s.region dResid b 8192 + 32 * (k - 776)
  (s.slowLand at' raw).restoreCount

/-- A derived scale record that comes with a shard. -/
def State.recordWord (s : State) (i : Nat) (raw : List Byte) : State :=
  (s.onComp fun t => { t with restoreScale := Memory.write t.restoreScale (32 * (i % 8192)) (decodeWord raw).1 }).restoreCount

/-! ### The mirror VC -/

/-- A codeword of a remote write; codewords count by source (R263). -/
def State.remoteWord (s : State) (src : Nat × Nat) : State :=
  s.onChd fun c => { c with wrDone := Sparse.put 0 c.wrDone (posKey src.1 src.2) (Sparse.get 0 c.wrDone (posKey src.1 src.2) + 1) }

def State.writeAckTo (s : State) (src : Nat × Nat) : State :=
  s.sendControl src.1 src.2 (leBytes 4 0x03 ++ leBytes 8 (Sparse.get 0 s.chd.wrDone (posKey src.1 src.2)))

/-- One codeword of the mirror VC for this module (Table 09-5). Records from the −X neighbour are its own; from elsewhere they
come with a shard. -/
def State.mirrorVcWord (s : State) (src : Nat × Nat) (stream cw : Nat) (raw : List Byte) : State :=
  if stream = 0 then s.mirrorWord cw raw
  else if stream = 1 then s.gradWord cw raw
  else if stream = 2 then s.shardWord cw raw
  else if stream = 3 then (if (s.grp.pos.map s.minusX) = some src then s.nscaleWord cw raw else s.recordWord cw raw)
  else if stream = 0x3FE then (s.g7Land (32 * cw) raw).remoteWord src
  else if 0x100 ≤ stream ∧ stream < 0x140 then
    (match s.ptile (stream - 0x100) with | some p => s.landWord p (32 * cw) raw | none => s).remoteWord src
  else s

/-- The codewords of a flit of the mirror VC; a remote write is acknowledged once its codewords are visible (R263). -/
def State.mirrorLand (s : State) (src : Nat × Nat) (stream cw : Nat) (raws : List (List Byte)) : State :=
  let s := raws.zipIdx.foldl (fun s r => s.mirrorVcWord src stream (cw + r.2) r.1) s
  if stream = 0x3FE ∨ (0x100 ≤ stream ∧ stream < 0x140) then s.writeAckTo src else s

/-- What is bound for the slow tier crosses to the companion as mirror traffic (R28, R30). -/
def State.mirrorIn (s : State) (src : Nat × Nat) (stream cw : Nat) (raws : List (List Byte)) : State :=
  if stream < 4 ∧ !s.d2dClear .gradMirror 0 then s.d2dWait (.mirrorIn src.1 src.2 stream cw raws) else s.mirrorLand src stream cw raws

/-! ### Acknowledgements at the owner -/

/-- GRAD_ACK (R213, R205 step 4): the commit that waits for step n goes on. -/
def execGradAck (m : CtlMsg) (s : State) : Host.Outcome State Fault Refusal :=
  if !s.boot.mainOn ∨ le m.bytes 0 1 ≠ 0x04 ∨ le m.bytes 12 1 ≠ 0 then .next s
  else
    let s := s.takeCtl m
    match s.comp.commit with
    | some c => .next (if le m.bytes 4 8 = c.step.toNat then s.finishCommit c else s)
    | none => .next s

/-- MIRROR_ACK (R214). -/
def execMirrorAck (m : CtlMsg) (s : State) : Host.Outcome State Fault Refusal :=
  if !s.boot.mainOn ∨ le m.bytes 0 1 ≠ 0x04 ∨ le m.bytes 12 1 ≠ 1 then .next s
  else .next ((s.takeCtl m).setDir 0x28 (le m.bytes 4 8))

end Sys2Proof.Machine
end

