-- ==== Sys2Proof/Machine/Chord.lean ====
section
/-! DEFINITION. DATA flits (R250 to R257): acceptance, the violations of Table 09-8, forwarding and transit (R262, R264), delivery by
virtual channel (Table 09-5); and the control messages POST, POST_APPLIED and WRITE_ACK (Table 09-6). -/

namespace Sys2Proof.Machine

/-! ### Forwarding (R262, R264) -/

/-- A logical position lies in this module's slice; a spare, column 8, goes with its row. -/
def State.inSlice (s : State) (x y : Nat) : Bool :=
  let (x0, x1, y0, y1) := s.sliceOf
  (x == 8 || decide (x0 ≤ x) && decide (x ≤ x1)) && decide (y0 ≤ y) && decide (y ≤ y1)

/-- The VC and ORIG_VC with which a flit leaves: transit while it passes a module outside its slice that serves another job, its own
VC again when it re-enters its slice; a module that serves no job leaves it on the VC it came on. -/
def State.transitVc (s : State) (h : FlitHdr) : Nat × Nat :=
  let own := s.inSlice h.dx h.dy && s.inSlice h.sx h.sy
  if !s.jobRuns ∨ s.grp.pos.isNone then (h.vc, h.origVc)
  else if h.vc = 4 then (if own then (h.origVc, 0) else (4, h.origVc))
  else if own then (h.vc, 0)
  else (4, h.vc)

/-- Hands a flit that is not for this module to its next hop. -/
def State.forward (s : State) (p : Nat) (h : FlitHdr) (data : List Byte) : State :=
  match s.dirTo (some (oppDir (s.port p).dir)) (h.sx, h.sy) h.dx h.dy with
  | none => s
  | some d =>
    let v := s.transitVc h
    s.sendDir d ⟨v.1, h.stream, h.offset, h.dx, h.dy, h.sx, h.sy, h.late, v.2, data⟩

/-! ### Delivery -/

/-- Kinds of control message (Tables 09-6 and 10-4). -/
def controlKnown (k : Nat) : Bool :=
  (decide (1 ≤ k) && decide (k ≤ 4)) || (decide (0x10 ≤ k) && decide (k ≤ 0x17)) || k == 0x19 || (decide (0x20 ≤ k) && decide (k ≤ 0x22))

/-- Codewords of a stream, region or space (Table 09-8 row 7; an engine without a tile lies outside it, R93); none when the stream is not VALID (row 5). -/
def State.vcRoom (s : State) (vc stream offset n : Nat) : Option Bool :=
  let last := offset + n
  if vc = 0 then some true
  else if vc = 1 then
    (if 256 ≤ stream ∨ s.shardCw stream = 0 then none else some (decide (last ≤ 64 * s.shardCw stream)))
  else if vc = 2 then
    (if !rValid s stream then none
     else some ((List.range n).all fun i =>
      let c := offset + i
      if c < 2 ^ 29 then decide (c < s.rBlocks stream) else decide (32 * (c - 2 ^ 29) < s.rBlocks stream)))
  else if stream = 0 then some (decide (last ≤ 1032 * s.dirAt 0x10))
  else if stream = 1 then some (decide (last ≤ 132 * (s.nGroups.map fun g => (s.npg g).tied * (s.npg g).count).sum))
  else if stream = 2 then some (decide (last ≤ 1032 * s.dirAt 0x08))
  else if stream = 3 then some (decide (last ≤ 8192))
  else if stream = 0x3FE then some (decide (32 * last ≤ g7Size))
  else if 0x100 ≤ stream ∧ stream < 0x140 then some (decide (32 * last ≤ padSize) && (s.ptile (stream - 0x100)).isSome)
  else none

/-- The data of a reduce codeword as its unit consumes it; an uncorrectable one is a free value (notes/assumptions/96.md). -/
def State.reduceData (s : State) (raw : List Byte) : List Byte × State :=
  let d := decodeWord raw
  if d.2 = .uncorrectable then
    (List.range 4).foldl (fun (a : List Byte × State) _ => let r := a.2.draw; (a.1 ++ leBytes 8 r.1.toNat, r.2)) ([], s)
  else (d.1, s)

/-- The phase, 1 or 2, in which a partial of a block comes from logical (x, y): parts A and B run along X first (R270). -/
def State.phaseFrom (s : State) (st blk x y : Nat) : Nat :=
  let c := s.chunk st
  let own := s.ownPos
  let alongX : Bool := y == own.2 && x != own.1
  let xFirst := decide (partOf (reduceShares s.split) c 1024 (32 * blk % c) < 2)
  if alongX == xFirst then 1 else 2

/-- Partials from logical (x, y) wait for their REDUCE_HOP, those of the two phases apart. -/
def State.reduceIn (s : State) (x y st cw : Nat) (late : Bool) (raws : List (List Byte)) : State :=
  raws.zipIdx.foldl (fun s r =>
    let n := cw + r.2
    let d := s.reduceData r.1
    let key := rKey (1024 * s.phaseFrom st (if n < 2 ^ 29 then n else 32 * (n - 2 ^ 29)) x y + st) n
    let marks := if late ∧ n < 2 ^ 29 then [key] else []
    d.2.onChd fun c => { c with rin := Sparse.put [] c.rin key d.1, rinLate := c.rinLate ++ marks }) s

/-- A control codeword for this module: it waits to be applied; one of unknown kind is dropped (row 6). -/
def State.controlIn (s : State) (p : Nat) (h : FlitHdr) (b raw : List Byte) : State :=
  let d := decodeWord raw
  if d.2.isBad then s
  else if !controlKnown (le d.1 0 1) then s.chdViol p 6 b
  else s.onChd fun c => { c with ctlIn := c.ctlIn ++ [⟨some (Fin.ofNat 8 p), h.sx, h.sy, d.1⟩] }

/-- A flit for this module, by its virtual channel. -/
def State.deliver (s : State) (p : Nat) (h : FlitHdr) (b : List Byte) (raws : List (List Byte)) : State :=
  let vc := if h.vc = 4 then h.origVc else h.vc
  let drop (s : State) : State := s.onChd fun c => { c with dropped := addW c.dropped raws.length }
  match s.vcRoom vc h.stream h.offset raws.length with
  | none => drop (s.chdViol p 5 b)
  | some false => s.chdViol p 7 b
  | some true =>
    if vc = 0 then raws.foldl (fun s r => s.controlIn p h b r) s
    else if vc = 1 then s.weightIn h.stream h.offset raws
    else if vc = 2 then s.spanBegin.reduceIn h.sx h.sy h.stream h.offset h.late raws
    else s.mirrorIn (h.sx, h.sy) h.stream h.offset raws

/-- What becomes of a DATA flit accepted in order. -/
def State.flitAccept (s : State) (p : Nat) (h : FlitHdr) (b : List Byte) : State :=
  let raws := (List.range h.ncw).map fun i => flitCw b i
  let s := s.onPort p fun o => { o with
    rxSeq := h.seq, nakOut := false, rx := inc o.rx, returns := o.returns.set h.vc (o.returns.getD h.vc 0 + 1) }
  if 8 < h.dx then (s.chdViol p 5 b).onChd fun c => { c with dropped := addW c.dropped raws.length }
  else if s.dirTo (some (oppDir (s.port p).dir)) (h.sx, h.sy) h.dx h.dy = none then s.deliver p h b raws
  else (if h.vc = 2 then s.spanBegin else s).forward p h raws.flatten

/-- FLIT_DATA (R254, Table 09-8). -/
def execFlitData (p : Fin 8) (bytes : List Byte) (s : State) : Host.Outcome State Fault Refusal :=
  let p := p.val
  match s.flitReceive p bytes fun t => t == 1 || decide (5 ≤ t) with
  | .none_ => .next s
  | .bad s => .next s
  | .good (some r) b s => .next ((s.chdViol p r b).portInjEnd p)
  | .good none b s =>
    let h := hdrOf b
    if !s.creditGranted p h.vc then .next (((s.chdViol p 2 b).sendNak p).portInjEnd p)
    else
      let s := ((s.takeAck p h.ack b).2).takeCredits p h.crVc h.crCount b
      if h.seq ≠ (s.port p).rxSeq + 1 then .next ((if (s.port p).nakOut then s else s.sendNak p).portInjEnd p)
      else .next ((s.flitAccept p h b).portInjEnd p)

/-! ### Control messages of other modules -/

/-- POST_MSG (R169): the home router applies the target and answers POST_APPLIED with the tag. -/
def execPostMsg (m : CtlMsg) (s : State) : Host.Outcome State Fault Refusal :=
  if !s.boot.mainOn ∨ le m.bytes 0 1 ≠ 0x01 then .next s
  else
    let s := s.takeCtl m
    let t := postTarget (slice m.bytes 1 7)
    let src : ScSource := .chord (m.port.getD 0)
    let s := if t.op = 1 then s.scOp t.sc .add (BitVec.ofNat 32 t.value) src
      else if t.op = 2 then s.scOp t.sc .set (BitVec.ofNat 32 t.value) src else s
    .next (s.sendControl m.srcX m.srcY (leBytes 8 0x02 ++ slice m.bytes 8 4))

/-- POST_APPLIED (R169): the POST whose last target this was completes. -/
def execPostApplied (m : CtlMsg) (s : State) : Host.Outcome State Fault Refusal :=
  if !s.boot.mainOn ∨ le m.bytes 0 1 ≠ 0x02 then .next s
  else
    let s := s.takeCtl m
    match s.streams.posts.find? fun e => e.1 == le m.bytes 8 1 && e.2.toNat % 2 ^ 24 == le m.bytes 9 3 with
    | none => .next s
    | some e =>
      let s := s.onStreams fun t => { t with posts := t.posts.erase e }
      .next (match s.item e.1 e.2 with
        | some i => if i.running then s.postSettle e.1 e.2 else s
        | none => s)

/-- WRITE_ACK (R263): cumulative codewords that the sender has written for this module. -/
def execWriteAck (m : CtlMsg) (s : State) : Host.Outcome State Fault Refusal :=
  if !s.boot.mainOn ∨ le m.bytes 0 1 ≠ 0x03 then .next s
  else .next ((s.takeCtl m).onStreams fun t => { t with
    wrAcked := Sparse.put 0 t.wrAcked (posKey m.srcX m.srcY) (le m.bytes 4 8) })

end Sys2Proof.Machine
end

