-- ==== Sys2Proof/Machine/D2d.lean ====
section
/-! DEFINITION. The die-to-die link (R26 to R31): units, lane repair and half width. -/

namespace Sys2Proof.Machine

/-- The directions in which a class runs (R28). -/
def d2dRuns (cls : D2dClass) (toComp : Bool) : Bool :=
  match cls with
  | .workingCopy => !toComp
  | .gradMirror => true
  | .control => true

/-- The 36-byte codewords of a unit. -/
def unitWords : Nat → List Byte → List (List Byte)
  | 0, _ => []
  | n + 1, d => if d.isEmpty then [] else padTo 36 d :: unitWords n (d.drop 36)

/-- A unit reaches the other die. One of the working-copy class carries a weight stream (2 bytes), its first codeword (5 bytes), a
zero byte and the 36-byte codewords of this owner's copy as the companion's memory holds them (R29, notes/assumptions/20.md): the
owner lands them and starts their broadcast (R266). -/
def State.d2dArrive (s : State) (cls : D2dClass) (dir : Nat) (data : List Byte) : State :=
  let s := s.emit (.d2d cls dir data)
  if cls = .workingCopy then s.weightOwn (le data 0 2) (le data 2 5) (unitWords data.length (data.drop 8)) else s

/-- What waited crosses the link. -/
def State.d2dCross (s : State) : D2dTraffic → State
  | .unit cls dir data => s.d2dArrive cls dir data
  | .mirrorOut stream cw x y data => s.route 3 stream cw (x, y) false data
  | .mirrorIn x y stream cw raws => s.mirrorLand (x, y) stream cw raws
  | .reduced st blk elems scale => s.redLand st blk (elems, scale)

/-- What waits in a direction crosses, in issue order, once no module retrains (R28 to R30). -/
def State.d2dRetry (s : State) (dir : Nat) : State :=
  if s.d2dBusy then s
  else
    (s.d2d.waiting.filter fun w => w.lane.2 == dir).foldl State.d2dCross
      (s.onD2d fun d => { d with waiting := d.waiting.filter fun w => w.lane.2 != dir })

/-- A unit is delivered, behind whatever of its class and direction waits (R28). -/
def State.d2dDeliver (s : State) (cls : D2dClass) (dir : Nat) (data : List Byte) : State :=
  if s.d2d.waiting.any fun w => w.lane == (cls, dir) then s.d2dWait (.unit cls dir data) else s.d2dArrive cls dir data

/-- A retrain has ended: what waits in both directions drains in issue order, and the companion's queues fetch again. -/
def State.d2dDrain (s : State) : State :=
  if s.d2dBusy then s else ([72, 73, 74, 75]).foldl State.fetch ((s.d2dRetry 0).d2dRetry 1)

/-- A lane of a module has failed 16 consecutive units: the module retrains, or faults when already at half width (R30, R31). -/
def State.d2dLaneFailed (s : State) (m dir : Nat) : State :=
  let l := s.d2dLink m dir
  match l.lanes.find? fun k => decide (16 ≤ Sparse.get 0 l.fails k) with
  | none => s
  | some k =>
    if l.lanes.length = 32 then
      (s.onD2dLink m dir fun l => { l with failed := true }).report 0x0103 .fault 6 m (leBytes 1 m ++ leBytes 1 dir ++ leBytes 2 32)
    else s.onD2dLink m dir fun l => { l with retrain := some (k, s.now) }

/-- D2D_UNIT_RECEIVE. A unit whose CRC fails waits and is sent again ahead of the next unit that passes; a module that retrains in
either direction takes none (R30). Detector 0x0101 fails the CRC of the unit on a lane; its handling ends with the unit, or with
the D2D_LANE_REPAIRED of the retrain that it brings about (R404). -/
def execD2dUnitReceive (m : Fin 8) (toComp : Bool) (badLanes : List (Fin 68)) (cls : D2dClass) (data : List Byte) (s : State) :
    Host.Outcome State Fault Refusal :=
  let m := m.val
  let dir := d2dDir toComp
  let l := s.d2dLink m dir
  if !s.mainUp ∨ l.failed ∨ !d2dRuns cls toComp then .next s
  else if s.d2dHeld m then .next (s.d2dWait (.unit cls dir data))
  else
    let i := s.opportunity 0x0101 6 m 0 fun sub => sub / 128 == dir && l.lanes.contains (sub % 128)
    let s := i.2
    let bad := (l.lanes.filter fun k => badLanes.any fun b => b.val == k) ++ (match i.1 with | some sub => [sub % 128] | none => [])
    let s := s.onD2dLink m dir fun l => { l with
      fails := l.lanes.foldl (fun f k => Sparse.put 0 f k (if bad.contains k then Sparse.get 0 f k + 1 else 0)) l.fails }
    let s := if bad.isEmpty then (s.d2dRetry dir).d2dDeliver cls dir data else s.d2dWait (.unit cls dir data)
    let s := s.d2dLaneFailed m dir
    .next (if s.d2dHeld m then s else s.injEnd 6 m)

/-- The lanes in service without lane k: its redundant lane in its place, or the half that does not hold it. -/
def repairLanes (l : D2dLink) (k : Nat) : List Nat :=
  if 0 < l.spares then l.lanes.map fun x => if x = k then 68 - l.spares else x
  else if (l.lanes.take 32).contains k then l.lanes.drop 32 else l.lanes.take 32

/-- D2D_RETRAIN_DONE. -/
def execD2dRetrainDone (m : Fin 8) (toComp : Bool) (s : State) : Host.Outcome State Fault Refusal :=
  let m := m.val
  let dir := d2dDir toComp
  let l := s.d2dLink m dir
  match l.retrain with
  | none => .next s
  | some (k, since) =>
    let lanes := repairLanes l k
    let spares := l.spares - 1
    let s := s.onD2dLink m dir fun l => { l with
      lanes := lanes, spares := spares, retrain := none, fails := Sparse.put 0 l.fails k 0 }
    let s := s.report 0x0101 .note 6 m (leBytes 1 dir ++ leBytes 1 k ++ leBytes 1 spares ++ [0] ++ leBytes 4 (s.now - since) ++
      leBytes 1 lanes.length)
    let s := s.injEnd 6 m
    let s := if lanes.length = 32 then s.report 0x0102 .warn 6 m (leBytes 1 m ++ leBytes 1 dir ++ leBytes 2 32) else s
    .next (s.d2dLaneFailed m dir).d2dDrain

end Sys2Proof.Machine
end

