-- ==== Sys2Proof/Machine/Upd.lean ====
section
/-! DEFINITION. The UPD commands (Table 07-8), the rebuild of a neighbour's shard (R215, R299), exports and repairs (R219 to R221), and
phase 8 of start-up (R212, R361). -/

namespace Sys2Proof.Machine

/-! ### UPD_LAYOUT (R197) -/

/-- Directory offset and bytes of each region for a shard of b blocks beside n neighbour blocks (Table 07-1). -/
def regionNeeds (b n : Nat) : List (Nat × Nat) :=
  [(dPgt, 262144), (dSched, 256 * 4160), (dProg, 64 * 4096), (dCrec, 4096), (dMaster, 16384 * b), (dMom 0, 8448 * b), (dMom 1, 8448 * b),
    (dResid, 8192 * b), (dKgrad, 4224 * b), (dNgrad, 4224 * n), (dNpgt, 262144), (dMirror, 33024 * n), (dMtag, 8 * n), (dBdig, 16 * b),
    (dDone, (b + 7) / 8), (dGdig, 65536), (dExport, 4096), (dNscale, 262152)]

/-- Bases of regions of the sizes given, each 4 KiB-aligned, from an offset on, and where they end. -/
def placeRegions (at' : Nat) : List Nat → List Nat × Nat
  | [] => ([], at')
  | z :: r => let p := placeRegions ((at' + z + 4095) / 4096 * 4096) r; (at' :: p.1, p.2)

/-- UPD_LAYOUT: SHARD_BLOCKS, NB_BLOCKS, DIGEST_EVERY, then the 18 region sizes in the order of Table 07-1; a region
takes the larger of the size given and the size that Table 07-1 needs with one tied place. -/
def updLayoutCmd (b : List Byte) (s : State) : CmdResult :=
  let needs := regionNeeds (le b 0 8) (le b 8 8)
  let sizes := (needs.zipIdx).map fun z => max z.1.2 (le b (24 + 8 * z.2) 8)
  let p := placeRegions 4096 sizes
  if s.jobRuns then refuse s stBusy
  else if slowSize < p.2 then refuse s stOverQuota
  else
    let s := s.writeSlow 0 (leBytes 8 1 ++ slice b 0 24 ++ leBytes 48 0)
    let s := (needs.zip p.1).foldl (fun (s : State) z => s.setDir z.1.1 z.2) s
    let s := (List.range 4096).foldl (fun (s : State) g => s.writeSlow (s.region dPgt g 64) pgReset) s
    .done stOk [] (s.writeSlow (s.region dCrec 0 64) (List.replicate 4096 0))

def execUpdLayout (r : Route) (s : State) : Host.Outcome State Fault Refusal := .next (s.command r 0x0701 updLayoutCmd)

/-! ### Groups, schedules, programs (R198, R201, R203) -/

/-- A COMMIT that has not completed names group g: one that runs, that a companion queue holds, or that waits in a mailbox. -/
def State.namedByCommit (s : State) (g : Nat) : Bool :=
  (match s.comp.commit with | some c => c.named.contains g | none => false) ||
    ((List.range 4).any fun c => (s.queue (72 + c)).window.any fun i =>
      dKind i.desc == some .commit && i.run != .complete && decide (le i.desc 40 2 ≤ g) && decide (g < le i.desc 40 2 + le i.desc 42 2)) ||
    allRoutes.any fun r =>
      let m := s.mbox r
      let p := mPayload m.request
      m.state == .posted && m.checked && mOp m.request == 0x0706 && decide (le p 0 2 ≤ g) && decide (g < le p 0 2 + le p 2 2)

/-- Bytes of the fields that a job holds fast: FIRST_BLOCK, BLOCK_COUNT, ELEMENTS, and TIED. -/
def pgFixed (b : List Byte) : List Byte × Nat := (slice b 0 16, bitsOf (le b 16 8) 48 4)

/-- UPD_GROUP_WRITE: group index, then the descriptor. -/
def updGroupWriteCmd (b : List Byte) (s : State) : CmdResult :=
  let g := le b 0 2
  let d := slice b 8 64
  if 4096 ≤ g ∨ !s.laidOut ∨ b.length < 8 + 48 then refuse s stBadOpcode
  else if (s.jobRuns ∧ pgFixed d ≠ pgFixed (s.pgBytes g)) ∨ s.namedByCommit g then refuse s stBusy
  else .done stOk [] (s.atBoundary (.pgd g d))

/-- UPD_GROUP_READ: the group index; it returns the descriptor. -/
def updGroupReadCmd (b : List Byte) (s : State) : CmdResult :=
  let g := le b 0 2
  if 4096 ≤ g ∨ !s.laidOut then refuse s stBadOpcode else .done stOk (s.pgBytes g) s

/-- UPD_SCHEDULE_WRITE: schedule index, then its bytes. -/
def updScheduleWriteCmd (b : List Byte) (s : State) : CmdResult :=
  let k := le b 0 2
  let d := padTo 4160 (b.drop 8)
  if 256 ≤ k ∨ !s.laidOut ∨ !scheduleOk d then refuse s stBadOpcode else .done stOk [] (s.atBoundary (.schedule k d))

/-- UPD_PROGRAM_LOAD: program index, then the kernel image. -/
def updProgramLoadCmd (b : List Byte) (s : State) : CmdResult :=
  let k := le b 0 2
  let img := b.drop 8
  let c := imageCheck img false
  if c ≠ stOk then refuse s c
  else if 64 ≤ k ∨ !s.laidOut ∨ 4096 < img.length ∨ !programOk (imageCode img) then refuse s stBadOpcode
  else .done stOk [] (s.writeSlow (s.region dProg k 4096) (padTo 4096 img))

def execUpdGroupWrite (r : Route) (s : State) : Host.Outcome State Fault Refusal := .next (s.command r 0x0702 updGroupWriteCmd)
def execUpdGroupRead (r : Route) (s : State) : Host.Outcome State Fault Refusal := .next (s.command r 0x0703 updGroupReadCmd)
def execUpdScheduleWrite (r : Route) (s : State) : Host.Outcome State Fault Refusal := .next (s.command r 0x0704 updScheduleWriteCmd)
def execUpdProgramLoad (r : Route) (s : State) : Host.Outcome State Fault Refusal := .next (s.command r 0x0705 updProgramLoadCmd)

/-! ### UPD_RESTORE (R215, R299) -/

/-- A companion event of a command (R424). -/
def State.updReport (s : State) (code : Nat) (sev : Severity) (payload : List Byte) : State := s.report code sev 0 0 payload

/-- What a block of the mirror needs for target t: true to be rolled forward; none when it meets neither condition. -/
def State.restoreNeed (s : State) (t g b : Nat) : Option Bool :=
  if s.mirrorHolds t b then some false
  else if s.tagOf b + 1 = t ∧ s.comp.gradTag.any fun x => x.1 = g ∧ x.2.toNat = t then some true
  else none

/-- The scale records of the neighbour as NSCALE holds them. -/
def State.nscaleRecs (s : State) : List ScaleRec :=
  (List.range 8192).map fun i => recOf (Memory.bytes s.mem.slow (s.region dNscale 0 0 + 32 * i) 32)

/-- Rolls one mirror block forward to step t with the group's program and the neighbour's records (R215, R205). -/
def State.rollBlock (s : State) (recs : List ScaleRec) (t g b : Nat) : Option State :=
  let pg := s.npg g
  let m := s.readSlow (s.region dMirror b 33024) 33024
  let gr := m.2.2.readGrads State.neighbourElem dNgrad s.npg g b
  if m.2.1 ∨ gr.2.1 then none
  else
    let q := gr.2.2.draw
    let s := q.2
    let base := 4096 * (b - pg.first)
    match updateBlock (s.updEnv g pg (b % 32) (BitVec.ofNat 32 t) (q.1.setWidth 32)) (fwdQuant false pg.fwd (recs.getD pg.fwd Reset.scaleRec))
        (blockIn pg m.1 gr.1) base (pg.elements - base) fun _ => false with
    | none => none
    | some o => some ((s.writeSlow (s.region dMirror b 33024) o.record).writeSlow (s.region dMtag b 8) (leBytes 8 t))

/-- Blocks of the neighbour's groups with their groups. -/
def State.nBlocks (s : State) : List (Nat × Nat) := s.nGroups.flatMap fun g => (s.npg g).blocks.map fun b => (g, b)

/-- Rolls forward what needs it, counting the blocks. -/
def State.rollAll (recs : List ScaleRec) (t : Nat) : List (Nat × Nat) → Nat → State → Option (Nat × State)
  | [], n, s => some (n, s)
  | (g, b) :: r, n, s =>
    match s.restoreNeed t g b with
    | none => none
    | some false => State.rollAll recs t r n s
    | some true => match s.rollBlock recs t g b with
      | none => none
      | some s => State.rollAll recs t r (n + 1) s

/-- The neighbour's records as the boundary of step t derives them (R121, R122). -/
def derivedRecs (recs : List ScaleRec) : List ScaleRec :=
  let z := { State.reset with scales := { Reset.scales with
    recs := recs.zipIdx.foldl (fun (m : Sparse ScaleRec) (r : ScaleRec × Nat) => Sparse.put Reset.scaleRec m r.2 r.1) [], probed := recs.any fun r => recState r == 2 } }
  let b := z.boundary
  recs.zipIdx.map fun r => deriveTop r.1 (transition (rowFor b r.2 r.1) r.1).1

/-- UPD_RESTORE: target step t, destination x, y. -/
def updRestoreCmd (b : List Byte) (s : State) : CmdResult :=
  let t := le b 0 4
  let dest := (le b 4 1, le b 5 1)
  if !s.laidOut ∨ s.nscaleOf ≠ t ∨ !(s.nBlocks.all fun x => (s.restoreNeed t x.1 x.2).isSome) then refuse s stFaulted
  else
    match State.rollAll s.nscaleRecs t s.nBlocks 0 s with
    | none => refuse s stFaulted
    | some (n, s) =>
      let s := if s.mirrorStep < t then (s.followNpgt t).setDir 0x30 t else s
      let s := (List.range (s.dirAt 0x10)).foldl (fun (s : State) k => s.sendSlow 2 (1032 * k) dest (s.region dMirror k 33024) 33024) s
      let s := s.sendMirror 3 0 dest ((derivedRecs s.nscaleRecs).flatMap recToBytes)
      .done stOk [] (s.updReport 0x0709 .note (leBytes 4 t ++ leBytes 4 n ++ leBytes 1 dest.1 ++ leBytes 1 dest.2))

def execUpdRestore (r : Route) (s : State) : Host.Outcome State Fault Refusal := .next (s.command r 0x0707 updRestoreCmd)

/-! ### UPD_DIGEST_VERDICT (R219) -/

/-- Step, verdict (0 AGREE, 1 REPAIR, 2 REVERT), source replica. The first group that differs is not stated and is a free value. -/
def updDigestVerdictCmd (b : List Byte) (s : State) : CmdResult :=
  let step : Word32 := BitVec.ofNat 32 (le b 0 4)
  let v := le b 4 1
  if 2 < v then refuse s stBadOpcode
  else if s.comp.verdictDue ≠ some step then refuse s stBadSeq
  else
    let s := s.onComp fun t => { t with verdictDue := none, verdict := some (v, step) }
    if v = 0 then .done stOk [] s
    else
      let r := s.draw
      .done stOk [] (r.2.updReport 0x0706 .warn (leBytes 4 step.toNat ++ leBytes 2 (r.1.toNat % 4096)))

def execUpdDigestVerdict (r : Route) (s : State) : Host.Outcome State Fault Refusal := .next (s.command r 0x0708 updDigestVerdictCmd)

/-! ### Exports (R220, R221) -/

/-- Segments of the shard: of 8,192 blocks, the last with the rest. -/
def State.segments (s : State) : Nat := (s.dirAt 0x08 + 8191) / 8192

/-- Segment i: its header, with the shard digest of the committed step, then 33,024 bytes per block. -/
def State.segment (s : State) (i : Nat) : List Byte × State :=
  let n := min 8192 (s.dirAt 0x08 - 8192 * i)
  let d := (List.range n).foldl (fun (a : List Byte × State) j =>
    let b := 8192 * i + j
    let r := a.2.blockRecord (a.2.bankOf b) b
    (a.1 ++ r.1, r.2.2)) ([], s)
  let p := s.grp.pos.getD (0, 0)
  (padTo 64 (leBytes 8 s.committedStep ++ leBytes 1 p.1 ++ leBytes 1 p.2 ++ leBytes 4 i ++ leBytes 4 n ++ leBytes 16 (s.digestOver s.validGroups) ++ leBytes 4 (crc32c d.1)) ++
    d.1, d.2)

/-- The EXPORT region records step, endpoint and segments acknowledged, and that the export is open. -/
def State.noteExport (s : State) : State :=
  match s.comp.export_ with
  | some e => s.writeSlow (s.region dExport 0 0) (leBytes 8 e.step.toNat ++ leBytes 4 e.slot ++ leBytes 4 e.acked ++ [1])
  | none => s

/-- The export is closed. -/
def State.closeExport (s : State) : State :=
  let s := s.onComp fun t => { t with export_ := none }
  if s.exportOpen then s.writeSlow (s.region dExport 0 0 + 16) [0] else s

/-- Sends the next segment, or ends the export when all are acknowledged. -/
def State.exportNext (s : State) : State :=
  match s.comp.export_ with
  | none => s
  | some e =>
    if e.total ≤ e.acked then s.closeExport.endCommand e.route stOk []
    else
      let d := s.segment e.acked
      ((d.2.onComp fun t => { t with export_ := some { e with sent := e.acked + 1 } }).fdtMessage e.slot 2 [] e.acked d.1 (.segment e.acked))

/-- A segment has been acknowledged. -/
def State.segmentAcked (s : State) (i : Nat) : State :=
  match s.comp.export_ with
  | some e => if e.acked = i then ((s.onComp fun t => { t with export_ := some { e with acked := i + 1 } }).noteExport).exportNext else s
  | none => s

/-- UPD_EXPORT_START: connection slot, RESUME. An export that is open, whatever interrupted it, goes on at the first segment not
acknowledged (R221). -/
def updExportStartCmd (r : Route) (b : List Byte) (s : State) : CmdResult :=
  let k := le b 0 1
  let resume := bitOf (le b 1 1) 0
  let runs : Bool := match s.comp.export_ with | some e => e.route.isSome | none => false
  if s.comp.commit.isSome ∨ runs ∨ (s.exportOpen ∧ !resume) then refuse s stBusy
  else if (s.conn k).state ≠ .open_ ∨ 64 ≤ k then refuse s stTimeout
  else if s.exportOpen then
    let x := Memory.bytes s.mem.slow (s.region dExport 0 0) 16
    let e : ExportRun := ⟨k, some r, BitVec.ofNat 32 (le x 0 8), le x 12 4, s.segments, 0⟩
    .running ((s.onComp fun t => { t with export_ := some e }).updReport 0x070A .info (slice x 0 4 ++ slice x 12 4)).noteExport.exportNext
  else if s.segments = 0 ∨ !s.laidOut then .done stOk [] s
  else .running (s.onComp fun t => { t with
    export_ := some ⟨k, some r, BitVec.ofNat 32 s.committedStep, 0, s.segments, 0⟩ }).noteExport.exportNext

/-- UPD_EXPORT_ABORT: closes the export; the command that ran it ends. -/
def updExportAbortCmd (_ : List Byte) (s : State) : CmdResult :=
  match s.comp.export_ with
  | some e => .done stOk [] (s.closeExport.endCommand e.route stTimeout [])
  | none => .done stOk [] s.closeExport

def execUpdExportStart (r : Route) (s : State) : Host.Outcome State Fault Refusal := .next (s.command r 0x070A (updExportStartCmd r))
def execUpdExportAbort (r : Route) (s : State) : Host.Outcome State Fault Refusal := .next (s.command r 0x070B updExportAbortCmd)

/-! ### UPD_REPAIR (R219) -/

/-- UPD_REPAIR: source endpoint (connection slot), step. It waits for the segments. -/
def updRepairCmd (r : Route) (b : List Byte) (s : State) : CmdResult :=
  let k := le b 0 1
  if (s.conn k).state ≠ .open_ ∨ 64 ≤ k then refuse s stTimeout
  else if s.comp.repair.isSome then refuse s stBusy
  else if !s.laidOut ∨ s.comp.commit.isSome then refuse s stFaulted
  else
    let e : ExportRun := ⟨k, some r, BitVec.ofNat 32 (le b 4 4), 0, s.segments, 0⟩
    .running (s.onComp fun t => { t with repair := some e })

def execUpdRepair (r : Route) (s : State) : Host.Outcome State Fault Refusal := .next (s.command r 0x0709 (updRepairCmd r))

/-- The scale records that come with a shard in case 2 of a recovery (R299): Table 10-5 brings them by UPD_REPAIR, whose segments have no
field for them (R220), and their values are free (notes/assumptions/185.md). -/
def State.replicaRecords (s : State) : State :=
  (List.range 8192).foldl (fun s i =>
    let r := (List.range 4).foldl (fun (a : List Byte × State) _ => let d := a.2.draw; (a.1 ++ leBytes 8 d.1.toNat, d.2)) ([], s)
    r.2.setScaleRec i (recOf r.1)) s

/-- The repair ends: the digest is checked against the source's; the step is reached. -/
def State.repairDone (s : State) (e : ExportRun) (digest src : List Byte) : State :=
  let s := s.onComp fun t => { t with repair := none }
  if leNat digest ≠ s.digestOver s.validGroups then s.endCommand e.route stFaulted []
  else
    let s := s.validGroups.foldl (fun (s : State) g => s.writeSlow (s.region dPgt g 64 + 48) (leBytes 8 (2 * e.step.toNat + (s.pg g).bank))) s
    let s := ((s.setDir 0x20 e.step.toNat).writeSlow 0x38 digest).setDir 0x48 e.step.toNat
    let s := if s.grp.phase < 5 ∧ s.grp.recCase = 2 then s.replicaRecords else s
    let reverted : Bool := match s.comp.verdict with | some (v, _) => v == 2 | none => false
    let body := leBytes 4 e.step.toNat ++ src
    (if reverted then s.updReport 0x0708 .warn body else s.updReport 0x0707 .note body).endCommand e.route stOk []

/-- A segment has come on slot k (Table 11-5): each block is written in the bank that its group names. -/
def State.segmentIn (s : State) (k : Nat) (m : FdtMsg) : State :=
  match s.comp.repair with
  | none => s
  | some e =>
    if e.slot ≠ k ∨ m.addr ≠ e.acked then s
    else
      let d := Memory.bytes m.data 0 m.len
      let n := le d 14 4
      if crc32c (d.drop 64) ≠ le d 34 4 ∨ le d 0 8 ≠ e.step.toNat ∨ d.length ≠ 64 + 33024 * n then
        (s.onComp fun t => { t with repair := none }).endCommand e.route stFaulted []
      else
        let s := (List.range n).foldl (fun (s : State) j =>
          let b := 8192 * m.addr + j
          let r := slice d (64 + 33024 * j) 33024
          (s.putRecord (s.bankOf b) b r).writeSlow (s.region dBdig b 16) (leBytes 16 (s.blockDigest r))) s
        let e := { e with acked := e.acked + 1 }
        let s := s.onComp fun t => { t with repair := some e }
        if e.total ≤ e.acked then s.repairDone e (slice d 18 16) (slice d 8 2) else s

/-! ### STARTUP_RECOVER (R212, R361) -/

/-- The first record slot that is OPEN or WEIGHTS_DONE. -/
def State.openSlot (s : State) : Option Nat :=
  if !s.laidOut then none
  else ((List.range 64).map fun i => s.region dCrec i 64).find? fun a =>
    let st := (Memory.read s.mem.slow (a + 12)).toNat
    st == 1 || st == 2

/-- Start-up is complete (R361). -/
def State.startupDone (s : State) : State :=
  let s := s.onTiles fun t => { t with regs := { t.regs with cpScratch := false } }
  let s := s.onBoot fun b => { b with phase := 15, ready := true, startupTick := b.modCount }
  let s := if s.physX = 8 ∧ s.grp.pos.isNone then s.parkSpare true else s
  let s := (s.setRegime s.runRegime).holdWinter.powerSettle
  (s.report 0x0D09 .info 0x0F 0 (leBytes 1 (regimeNum s.pwr.regime) ++ leBytes 1 s.boot.image ++ [0, 0] ++ leBytes 4 s.now ++
    leBytes 4 (s.now - s.boot.phase8Tick))).endWaiter stOk

/-- STARTUP_RECOVER: each open record is finished in turn; the last step leaves Spring, unless a port
is MISCABLED (R248). -/
def execStartupRecover (accOk : Bool) (s : State) : Host.Outcome State Fault Refusal :=
  if s.boot.phase ≠ 8 ∨ s.boot.springHeld ∨ !s.boot.mainOn ∨ s.comp.commit.isSome then .next s
  else if !accOk then .next (s.hold 6)
  else
    match s.openSlot with
    | none => .next (if (List.range 8).any fun p => (s.port p).state == .miscabled then s.hold 2 else s.startupDone)
    | some a =>
      match s.openRecord a none none with
      | none => .next ((s.updReport 0x0705 .fault (leBytes 4 (leNat (Memory.bytes s.mem.slow a 4)))).hold 6)
      | some c =>
        let r := s.recoverCommit c
        .next (if r.1.isSome then r.2.hold 6 else r.2)

end Sys2Proof.Machine
end

