-- ==== Sys2Proof/Machine/Eth.lean ====
section
/-! DEFINITION. The rows of the Ethernet ports and of FDT (R321 to R329), and the CFG_FDT commands. -/

namespace Sys2Proof.Machine

/-! ### Ports (R321, R322, R325) -/

/-- The address that a request names is this port's own (R322). -/
def State.ownAddr (s : State) (i : Nat) : EthKind → Bool
  | .arp a => a == (s.ethPort i).addr
  | .neighborDiscovery a => a == (s.ethPort i).addr
  | .echo a => a == (s.ethPort i).addr
  | _ => false

/-- A pause frame of the FDT priority: nothing of it goes out for the time given, 512 bit times of 400 Gb/s a quantum; a time of 0
ends the pause (R328, IEEE 802.1Qbb). -/
def State.pause (s : State) (i quanta : Nat) : State :=
  (s.onEthPort i fun e => { e with pausedTo := s.now + (128 * quanta + 999) / 1000 }).endPause i

/-- ETH_FRAME_RECEIVE (R321, R322): requests for the port's own address are answered, pause frames obeyed where priority flow
control is enabled, the rest dropped and counted. -/
def execEthFrameReceive (i : Fin 2) (kind : EthKind) (rx : EthRx) (s : State) : Host.Outcome State Fault Refusal :=
  if (s.ethPort i.val).state ≠ 1 then .next s
  else
    let f := s.ethFrame i.val rx
    let s := f.2
    if !f.1 then .next s
    else if s.ownAddr i.val kind then .next ((s.onEthPort i.val fun e => { e with txFrames := inc e.txFrames }).emit (.ethReply i.val kind))
    else match kind, (s.ethPort i.val).pfc with
      | .pfcPause n, true => .next (s.pause i.val n)
      | _, _ => .next (s.onEthPort i.val fun e => { e with other := inc e.other })

/-- The connections in a state that uses ports. -/
def State.usedSlots (s : State) : List Nat := (List.range 64).filter fun k => (s.conn k).state == .open_ || (s.conn k).state == .opening

/-- ETH_PORT_DOWN (R325): vector 276 (Table 11-3); a connection with no port left is LOST (Table 11-10), and the rate of the
others falls to the line rate left (R328). -/
def execEthPortDown (i : Fin 2) (s : State) : Host.Outcome State Fault Refusal :=
  if (s.ethPort i.val).state ≠ 1 then .next s
  else
    let s := (s.onEthPort i.val fun e => { e with state := 0, pausedTo := 0, held := [] }).msix 276
    .next (s.usedSlots.foldl (fun s k =>
      if (s.pickPort (s.conn k)).isNone then s.connLost k 2
      else s.onConn k fun c => { c with rate := if c.state = .open_ then s.clampRate c c.rate else c.rate }) s)

/-- ETH_PORT_UP (R325). -/
def execEthPortUp (i : Fin 2) (s : State) : Host.Outcome State Fault Refusal :=
  if !s.boot.mainOn ∨ (s.ethPort i.val).state = 1 then .next s
  else
    let s := s.onEthPort i.val fun e => { e with state := 1 }
    .next (s.usedSlots.foldl (fun s k => s.fdtPump k) s)

/-! ### Packets -/

/-- FDT_DATA (R326, R327); a piece of the cross-group ring goes on (R303). -/
def execFdtData (pkt : FdtPacket) (s : State) : Host.Outcome State Fault Refusal :=
  match s.fdtReceive pkt ftData isOpen with
  | none => .next s
  | some (none, s) => .next s
  | some (some k, s) =>
    let r := s.fdtDataIn k pkt
    .next (r.1.foldl (fun s m => s.segmentIn k m) r.2).ringRun

/-- The fields of an acknowledgement (Table 11-4). -/
def ackOf (b : List Byte) : Word32 × Nat × Nat × Word32 := (BitVec.ofNat 32 (be b 16 4), be b 20 2, be b 22 2, BitVec.ofNat 32 (be b 24 4))

/-- Takes an ACK or NAK of slot k: row 13, then R326; exports go on with the segment that completed. -/
def State.ackIn (s : State) (k : Nat) (nak : Bool) (pkt : FdtPacket) : State :=
  let (ack, sack, window, msg) := ackOf pkt.bytes
  if ackBeyond (s.conn k) ack sack then s.fdtViol 13 (some k) pkt.port.val pkt.bytes
  else
    let r := s.fdtAcked k nak (bitOf (be pkt.bytes 1 1) 1 && !nak) ack sack window msg
    r.1.foldl (fun s o => match o.1 with | .segment i => if o.2 then s else s.segmentAcked i | _ => s) r.2

/-- FDT_ACK. -/
def execFdtAck (pkt : FdtPacket) (s : State) : Host.Outcome State Fault Refusal :=
  match s.fdtReceive pkt ftAck isOpen with
  | some (some k, s) => .next (s.ackIn k false pkt)
  | some (none, s) => .next s
  | none => .next s

/-- FDT_NAK. -/
def execFdtNak (pkt : FdtPacket) (s : State) : Host.Outcome State Fault Refusal :=
  match s.fdtReceive pkt ftNak isOpen with
  | some (some k, s) => .next (s.ackIn k true pkt)
  | some (none, s) => .next s
  | none => .next s

/-- FDT_CNP (R328). -/
def execFdtCnp (pkt : FdtPacket) (s : State) : Host.Outcome State Fault Refusal :=
  match s.fdtReceive pkt ftCnp isOpen with
  | some (some k, s) => .next (s.rateCut k)
  | some (none, s) => .next s
  | none => .next s

/-- FDT_PROBE: answered with ACK. -/
def execFdtProbe (pkt : FdtPacket) (s : State) : Host.Outcome State Fault Refusal :=
  match s.fdtReceive pkt ftProbe isOpen with
  | some (some k, s) => .next (s.fdtAckNow k pkt.ce)
  | some (none, s) => .next s
  | none => .next s

/-! ### Opening and closing (R325) -/

/-- A connection that has just opened, over the counters of its slot. -/
def Conn.fresh (c : Conn) : Conn := { Reset.conn with txBytes := c.txBytes, retx := c.retx, cnp := c.cnp }

def State.openWith (s : State) (k : Nat) (remoteId : Word32) : State :=
  (s.onConn k fun c => { c with
    state := .open_, remoteId := remoteId, rate := s.lineRate c.ports, target := s.lineRate c.ports, rateTick := s.now, lastHeard := s.now
    timer := none, expiries := 0 }).ringPump

/-- A new connection of slot k to a peer that opens it: ports that are UP, the payload of a 1,500-byte MTU, a new id
(notes/assumptions/71.md). -/
def State.acceptOpen (s : State) (k : Nat) (pkt : FdtPacket) (remoteId : Word32) : State :=
  let r := s.newId
  let ports := bit ((s.ethPort 0).state == 1) + 2 * bit ((s.ethPort 1).state == 1)
  let s := r.2.onConn k fun c => { c.fresh with localId := r.1, remote := pkt.src, ports := ports, mtu := 1024 }
  (s.openWith k remoteId).fdtSend k ftOpenAck 0 0 0 0 [] []

/-- FDT_OPEN: answered with OPEN_ACK; on a slot already open to the peer with another id, the old connection is LOST (row 14). -/
def execFdtOpen (pkt : FdtPacket) (s : State) : Host.Outcome State Fault Refusal :=
  let taken := s.fdtTaken pkt
  match s.fdtReceive pkt ftOpen isOpen with
  | some (none, s) =>
    if fdtMalformed pkt ∨ !taken then .next s
    else
      let id : Word32 := BitVec.ofNat 32 (be pkt.bytes 8 4)
      match (List.range 64).find? fun k => ((s.conn k).state == .open_ || (s.conn k).state == .opening) && (s.conn k).remote == pkt.src with
      | some k =>
        if (s.conn k).state = .opening then
          let route := (s.conn k).openRoute
          let s := ((s.openWith k id).onConn k fun c => { c with openRoute := none }).endCommand route stOk []
          .next (s.fdtSend k ftOpenAck 0 0 0 0 [] [])
        else if (s.conn k).remoteId = id then .next (s.fdtSend k ftOpenAck 0 0 0 0 [] [])
        else .next (((s.fdtViol 14 (some k) pkt.port.val pkt.bytes).connLost k 1).acceptOpen k pkt id)
      | none =>
        match (List.range 64).find? fun k => (s.conn k).state == .closed || (s.conn k).state == .lost with
        | some k => .next (s.acceptOpen k pkt id)
        | none => .next s
  | some (some _, s) => .next s
  | none => .next s

/-- FDT_OPEN_ACK. -/
def execFdtOpenAck (pkt : FdtPacket) (s : State) : Host.Outcome State Fault Refusal :=
  match s.fdtReceive pkt ftOpenAck (fun c => c == .opening || c == .open_) with
  | some (some k, s) =>
    if (s.conn k).state ≠ .opening then .next s
    else
      let route := (s.conn k).openRoute
      let s := (s.openWith k (BitVec.ofNat 32 (be pkt.bytes 8 4))).onConn k fun c => { c with openRoute := none }
      .next (s.endCommand route stOk [])
  | some (none, s) => .next s
  | none => .next s

/-- FDT_CLOSE. -/
def execFdtClose (pkt : FdtPacket) (s : State) : Host.Outcome State Fault Refusal :=
  match s.fdtReceive pkt ftClose (fun c => c == .opening || c == .open_) with
  | some (some k, s) => .next (s.connStop k .closed)
  | some (none, s) => .next s
  | none => .next s

/-! ### Timers (R326, R328) -/

/-- FDT_RETX_TIMEOUT: everything unacknowledged goes out again, or OPEN; the timeout doubles and the rate halves; after RETRY_LIMIT
timeouts in a row the connection is LOST. -/
def execFdtRetxTimeout (c : Fin 64) (s : State) : Host.Outcome State Fault Refusal :=
  let k := c.val
  match (s.conn k).timer with
  | none => .next s
  | some t =>
    if (s.conn k).state ≠ .open_ ∧ (s.conn k).state ≠ .opening then .next s
    else
      let s := s.passTo (t + (s.conn k).rto)
      let n := (s.conn k).expiries + 1
      if s.eth.retryLimit ≤ n then .next (s.connLost k 0)
      else
        let s := s.onConn k fun c => { c with
          expiries := n, rto := min 6400000 (2 * c.rto), rate := if c.state = .open_ then max 1000 (c.rate / 2) else c.rate, timer := some s.now }
        .next (if (s.conn k).state = .opening then s.fdtSend k ftOpen 0 0 0 0 [] [] else s.fdtResend k fun _ => true)

/-- FDT_ACK_TIMER. -/
def execFdtAckTimer (c : Fin 64) (s : State) : Host.Outcome State Fault Refusal :=
  let k := c.val
  if (s.conn k).state ≠ .open_ ∨ (s.conn k).unackedRx = 0 then .next s
  else .next ((s.passTo ((s.conn k).ackTick + 1000)).fdtAckNow k false)

/-- FDT_PROBE_TIMER. -/
def execFdtProbeTimer (c : Fin 64) (s : State) : Host.Outcome State Fault Refusal :=
  let k := c.val
  if (s.conn k).state ≠ .open_ then .next s
  else .next ((s.passTo ((s.conn k).lastHeard + 1000000)).fdtSend k ftProbe 0 0 0 0 [] [])

/-- FDT_RATE_PERIOD. -/
def execFdtRatePeriod (c : Fin 64) (s : State) : Host.Outcome State Fault Refusal :=
  let k := c.val
  if (s.conn k).state ≠ .open_ then .next s
  else .next ((s.passTo ((s.conn k).rateTick + s.eth.periodT)).rateRaise k)

/-! ### CFG_FDT commands (Table 13-9; payload layouts: notes/assumptions/66.md and 67.md) -/

/-- CFG_FDT_PORT: port u8 at 0, MAC at 8, address at 16, VLAN u16 at 32, DSCP u8 at 34, UDP port u16 at 36, shift of g u8 at 38, T u32
at 40, A u32 in Mb/s at 44 (ranges of Table 11-6), priority flow control enabled in bit 0 of byte 48. -/
def cfgFdtPortCmd (b : List Byte) (s : State) : CmdResult :=
  let i := le b 0 1
  let g := le b 38 1
  let t := le b 40 4
  let a := le b 44 4
  if 1 < i ∨ 63 < le b 34 1 ∨ g < 1 ∨ 8 < g ∨ t < 1000 ∨ 100000 < t ∨ a < 500 ∨ 20000 < a then refuse s stBadOpcode
  else
    let s := s.onEthPort i fun e => { e with mac := BitVec.ofNat 48 (le b 8 6), config := slice b 16 18, pfc := bitOf (le b 48 1) 0 }
    .done stOk [] (s.onEth fun e => { e with dscp := le b 34 1, udpPort := le b 36 2, gShift := g, periodT := t, stepA := a })

/-- The largest payload that an MTU leaves (R324). -/
def payloadOf (mtu : Nat) : Option Nat :=
  if 9000 ≤ mtu then some 8192 else if 4200 ≤ mtu then some 4064 else if 1500 ≤ mtu then some 1024 else none

/-- CFG_FDT_OPEN: slot u8 at 0, remote address at 16, ports u8 at 32, MTU u16 at 34; it ends when the connection is open or lost. -/
def cfgFdtOpenCmd (r : Route) (b : List Byte) (s : State) : CmdResult :=
  let k := le b 0 1
  let ports := le b 32 1
  match payloadOf (le b 34 2) with
  | none => refuse s stBadOpcode
  | some mtu =>
    if 64 ≤ k ∨ ports = 0 ∨ 3 < ports then refuse s stBadOpcode
    else if (s.conn k).state = .open_ ∨ (s.conn k).state = .opening then refuse s stBusy
    else
      let d := s.newId
      let s := d.2.onConn k fun c => { c.fresh with
        state := .opening, localId := d.1, remote := le b 16 16, ports := ports, mtu := mtu, openRoute := some r, timer := some s.now }
      if (s.pickPort (s.conn k)).isNone then .done stTimeout [] (s.connStop k .closed)
      else .running (s.fdtSend k ftOpen 0 0 0 0 [] [])

/-- CFG_FDT_CLOSE: slot u8 at 0. -/
def cfgFdtCloseCmd (b : List Byte) (s : State) : CmdResult :=
  let k := le b 0 1
  if 64 ≤ k then refuse s stBadOpcode
  else if (s.conn k).state = .closed then refuse s stAlreadyDone
  else .done stOk [] ((if (s.conn k).state = .lost then s else s.fdtSend k ftClose 0 0 0 0 [] []).connStop k .closed)

def execCfgFdtPort (r : Route) (s : State) : Host.Outcome State Fault Refusal := .next (s.command r 0x0205 cfgFdtPortCmd)
def execCfgFdtOpen (r : Route) (s : State) : Host.Outcome State Fault Refusal := .next (s.command r 0x0206 (cfgFdtOpenCmd r))
def execCfgFdtClose (r : Route) (s : State) : Host.Outcome State Fault Refusal := .next (s.command r 0x0207 cfgFdtCloseCmd)

end Sys2Proof.Machine
end

