-- ==== Sys2Proof/Machine/Group.lean ====
section
/-! DEFINITION. The group messages of Table 10-4 and the group's timers: heartbeats (R279), succession (R280, R281), the Equinox vote
and its result (R286 to R291), digests (R292), the straggler deadline (R293), weight requests (R296), failures and recovery (R297 to
R301). -/

namespace Sys2Proof.Machine

/-! ### Receiving and sending -/

/-- The FDT slot by which a message came, when it came over FDT. -/
def State.fdtFrom (s : State) (m : CtlMsg) : Option Nat :=
  if m.port.isSome then none else (s.eth.inbox.find? fun k => k.2 == padTo 32 m.bytes).map (·.1)

/-- Removes the first message of these bytes. -/
def dropMsg (b : List Byte) : List (Nat × List Byte) → List (Nat × List Byte)
  | [] => []
  | k :: r => if k.2 = b then r else k :: dropMsg b r

/-- A message is taken from where it arrived. -/
def State.takeMsg (s : State) (m : CtlMsg) : State :=
  if m.port.isSome then s.takeCtl m else s.onEth fun t => { t with inbox := dropMsg (padTo 32 m.bytes) t.inbox }

/-- The module can take a message of kind k. -/
def State.hears (s : State) (m : CtlMsg) (k : Nat) : Bool := s.boot.mainOn && le m.bytes 0 1 == k

/-- APEX_EPOCH of a message, and whether it is older than the one followed (R280). -/
def msgEpoch (b : List Byte) : Word16 := BitVec.ofNat 16 (le b 2 2)
def State.isStale (s : State) (m : CtlMsg) : Bool := (s.fdtFrom m).isNone && decide ((msgEpoch m.bytes).toNat < s.grp.epoch.toNat)
/-- A stale message is dropped as a violation (R280, Table 14-7). -/
def State.dropStale (s : State) (m : CtlMsg) : State :=
  match m.port with
  | some p => (s.takeMsg m).chdViol p.val 6 m.bytes
  | none => s.takeMsg m

def State.isLead (s : State) : Bool := s.grp.role == .leadApex

/-- Spares: modules of column 8 that serve no position. -/
def State.spareIdle (s : State) (y : Nat) : Bool := (List.range 8).all fun x => s.col x y != 8
/-- The role follows the Apex; a change of role sends vector 275 (Table 11-3). -/
def State.roleWatch (s : State) : State :=
  let old := s.grp.role
  let s := s.setRole
  if s.grp.role = old then s else s.msix 275

/-! ### APEX_STATE (R281) -/

/-- APEX_STATE: the entry keeps it. -/
def execApexState (m : CtlMsg) (s : State) : Host.Outcome State Fault Refusal :=
  if !s.hears m 0x19 then .next s
  else if s.isStale m then .next (s.dropStale m)
  else .next ((s.takeMsg m).onGrp fun g => { g with apexState := some (padTo 32 m.bytes) })

/-! ### The result of a vote (R290, R293) -/

/-- The deadline of the next step (R293): 0 under NONE, in a recovery, and until a step has committed after it. -/
def State.nextDeadline (s : State) (commit : Bool) (span : Nat) : Nat :=
  let c := s.grp.cfg
  if c.policy = 0 ∨ s.grp.phase < 5 ∨ (s.grp.noDeadline ∧ !commit) then 0
  else min (max (max (span * 1024 * c.factor / 64) (s.grp.prevDeadline * 7 / 8)) c.deadlineMin) c.deadlineMax

/-- VOTE_RESULT (Table 10-3). -/
def resultBytes (verdict : Nat) (epoch : Word16) (step : Word32) (cause groups voters stragglers deadline nfGroup nfPos : Nat) : List Byte :=
  leBytes 1 0x11 ++ leBytes 1 verdict ++ leBytes 2 epoch.toNat ++ leBytes 4 step.toNat ++ leBytes 1 cause ++ leBytes 1 groups ++
    leBytes 2 voters ++ leBytes 4 stragglers ++ leBytes 8 deadline ++ leBytes 1 nfGroup ++ leBytes 1 nfPos ++ leBytes 6 0

/-- A module receives the verdict of its step (R290): CHD_DEADLINE, RESULT_SC, and at SKIP the record and the boundary. -/
def State.applyResult (s : State) (b : List Byte) (src : ScSource) : State :=
  let commit := le b 1 1 == 0
  let s := s.onChd fun c => { c with deadline := BitVec.ofNat 64 (le b 16 8) }
  let s := s.onJob fun j => { j with verdict := if commit then 1 else 2 }
  if commit then (s.scOp s.grp.cfg.resultSc .add 1 src).settleStep
  else
    let cause := le b 8 1
    let s := s.onGrpStats fun g => { g with skips := Sparse.put 0 g.skips cause (inc (Sparse.get 0 g.skips cause)) }
    let s := s.groupReport 0x0A01 .note (leBytes 4 s.stepNo ++ leBytes 1 cause ++ leBytes 1 (le b 24 1) ++ leBytes 1 (le b 25 1))
    (s.stepBoundary false).scOp s.grp.cfg.resultSc .add 1 src

/-- The result goes on by the reverse of R287: an Apex sends it to the Vertices, a Vertex to its row. -/
def State.spreadResult (s : State) (b : List Byte) : State :=
  match s.grp.pos with
  | none => s
  | some (x, y) =>
    let rows := if s.isApex then ((List.range 8).filter (· ≠ y)).map fun v => (s.apexPos.1, v) else []
    let row := if s.isApex ∨ s.grp.role = .vertex then ((List.range 8).filter (· ≠ x)).map fun u => (u, y) else []
    (rows ++ row).foldl (fun s p => s.sendControl p.1 p.2 b) s

/-- The lead Apex issues the result to every other Apex and to its own group. -/
def State.issueResult (s : State) (b : List Byte) : State :=
  let s := ((List.range s.groups).filter (· ≠ s.groupNo)).foldl (fun s g => s.fdtControl (s.groupSlot g) b) s
  let s := s.onGrp fun g => { g with groupVotes := [], prevDeadline := le b 16 8 }
  ((s.spreadResult b).applyResult b (.chord 0)).sendApexState

/-- The verdict once every active group has voted (R290). A recovery of a group holds the step (R289). -/
def State.tryVerdict (s : State) : State :=
  let n := s.job.step
  let vs := (List.range s.groups).filterMap fun g => (s.grp.groupVotes.find? fun v => v.1 == g && v.2.step == n)
  if !s.isLead ∨ s.grp.phase < 5 ∨ !s.grp.groupHeld.isEmpty ∨ s.job.verdict ≠ 0 ∨ vs.length < s.groups then s
  else
    match vs with
    | [] => s
    | v :: r =>
      let all := r.foldl (fun a w => combineVotes a w.2) v.2
      let commit := all.finite
      let nf := vs.find? fun w => !w.2.finite
      s.issueResult (resultBytes (bit (!commit)) s.grp.epoch n (bit (!commit)) s.groups all.voters all.stragglers (s.nextDeadline commit all.span)
        (match nf with | some w => w.1 | none => 0xFF) (match nf with | some w => w.2.firstNf | none => 0xFF))

/-- VOTE_RESULT: an Apex passes on what came from the lead Apex under its own epoch. -/
def execVoteResult (m : CtlMsg) (s : State) : Host.Outcome State Fault Refusal :=
  if !s.hears m 0x11 then .next s
  else if s.isStale m then .next (s.dropStale m)
  else
    let far := (s.fdtFrom m).isSome
    let s := s.takeMsg m
    -- ROLLBACK of a recovery in case 3 revokes the verdict (Table 10-5)
    if le m.bytes 4 4 ≠ s.stepNo ∨ (s.job.verdict ≠ 0 ∧ le m.bytes 8 1 ≠ 3) ∨ !s.jobRuns then .next s
    else
      let b := if far then patch (padTo 32 m.bytes) 2 (leBytes 2 s.grp.epoch.toNat) else padTo 32 m.bytes
      let s := (s.spreadResult b).applyResult b (match m.port with | some p => .chord p | none => .chord 0)
      .next (if s.isApex then s.sendApexState else s)

/-! ### VOTE (R287 to R289) -/

/-- Votes of one step from eight places, combined. -/
def combined (l : Sparse Vote) (n : Word32) : Option Vote :=
  let vs := (List.range 8).filterMap fun k => (l.find? fun v => v.1 == k && v.2.step == n).map (·.2)
  if vs.length < 8 then none
  else match vs with
    | [] => none
    | v :: r => some (r.foldl combineVotes v)

/-- The group's result at the Apex: to the lead Apex over FDT, or to the verdict (R289). -/
def State.groupResult (s : State) (v : Vote) : State :=
  let v := { v with group := s.groupNo }
  let s := s.onGrp fun g => { g with colVotes := g.colVotes.filter fun w => w.2.step != v.step }
  let s := s.onGrp fun g => { g with groupVotes := Sparse.ins s.groupNo v (Sparse.del s.groupNo g.groupVotes) }
  if s.isLead then s.tryVerdict
  else if s.grp.lost then s
  else s.fdtControl (s.groupSlot 0) (voteBytes v)

def State.colVote (s : State) (y : Nat) (v : Vote) : State :=
  let s := s.onGrp fun g => { g with colVotes := Sparse.ins y v (Sparse.del y g.colVotes) }
  match combined s.grp.colVotes v.step with
  | some w => if s.grp.phase = 5 then s.groupResult w else s
  | none => s

def State.rowVote (s : State) (x y : Nat) (v : Vote) : State :=
  let s := s.onGrp fun g => { g with rowVotes := Sparse.ins x v (Sparse.del x g.rowVotes) }
  match combined s.grp.rowVotes v.step with
  | some w =>
    let s := s.onGrp fun g => { g with rowVotes := g.rowVotes.filter fun u => u.2.step != v.step }
    if s.isApex then s.colVote y w else (let a := s.apexPos; s.sendControl a.1 a.2 (voteBytes w))
  | none => s

/-- The records of late contributions in a combined vote (R306): of another row the vote tells how many positions were late and their
sum, but neither the positions nor the shares, which are free. -/
def State.lateNotes (s : State) (y : Nat) (step : Word32) : Nat → Nat → State
  | 0, _ => s
  | n + 1, late =>
    let d := s.draw
    let p := d.2.draw
    let k := if n = 0 then late else p.1.toNat % (late + 1)
    State.lateNotes (p.2.groupReport 0x0A02 .note (leBytes 4 step.toNat ++ leBytes 1 (8 * y + d.1.toNat % 8) ++ leBytes 4 k ++
      leBytes 1 s.grp.cfg.policy)) y step n (late - k)

/-- What the Apex notes of a vote: the start of VOTE_LIMIT where there is no deadline (R288), and late contributions. -/
def State.noteVote (s : State) (own : Bool) (x y : Nat) (v : Vote) : State :=
  let s := if s.chd.deadline = 0 ∧ v.step = s.job.step then s.onGrp fun g => { g with voteStart := some (g.voteStart.getD s.now) } else s
  if v.lateBlocks = 0 then s
  else if own then
    s.groupReport 0x0A02 .note (leBytes 4 v.step.toNat ++ leBytes 1 (8 * y + x) ++ leBytes 4 v.lateBlocks ++ leBytes 1 s.grp.cfg.policy)
  else s.lateNotes y v.step (max 1 v.stragglers) v.lateBlocks

/-- VOTE: a Vertex combines its row's, the Apex the rows', the lead Apex the groups'. -/
def execVote (m : CtlMsg) (s : State) : Host.Outcome State Fault Refusal :=
  if !s.hears m 0x10 then .next s
  else if s.isStale m then .next (s.dropStale m)
  else
    let v := voteOf m.bytes
    let from' := (s.fdtFrom m).map s.slotGroup
    let s := s.takeMsg m
    if v.step.toNat < s.stepNo then .next s
    else match from' with
    | some k =>
      (if s.isLead ∧ k < s.groups ∧ k ≠ s.groupNo then
        .next (s.onGrp fun g => { g with
          groupVotes := Sparse.ins k { v with group := k } (Sparse.del k g.groupVotes)
          groupHeard := Sparse.put 0 g.groupHeard k (s.now + 1), groupHeld := g.groupHeld.filter (· != k) }).tryVerdict
       else .next s)
    | none =>
    if v.epoch ≠ s.grp.epoch ∨ 8 ≤ m.srcX ∨ 8 ≤ m.srcY then .next s
    else
      match s.grp.pos with
      | none => .next s
      | some (_, y) =>
        let own := m.srcY == y
        let s := if s.isApex then s.noteVote own m.srcX m.srcY v else s
        if own ∧ (s.isApex ∨ s.grp.role = .vertex) then .next (s.rowVote m.srcX y v)
        else if s.isApex then .next (s.colVote m.srcY v)
        else .next s

/-- VOTE_GRACE_EXPIRY (R286). -/
def execVoteGraceExpiry (s : State) : Host.Outcome State Fault Refusal :=
  match s.grp.spanStart with
  | none => .next s
  | some t =>
    if !s.grp.expired ∨ s.grp.voted ∨ !s.jobRuns ∨ s.grp.pos.isNone then .next s
    else .next ((s.passTo (t + s.chd.deadline.toNat + s.grp.cfg.voteGrace)).postVote true)

/-! ### Failures and recovery (R279, R282, R297 to R301) -/

/-- RECOVERY (Table 10-4). -/
def State.recoveryBytes (s : State) (phase : Nat) : List Byte :=
  leBytes 1 0x16 ++ leBytes 1 phase ++ leBytes 2 s.grp.epoch.toNat ++ leBytes 4 s.grp.recStep.toNat ++ leBytes 1 s.grp.recCase ++
    bits72 s.grp.failed

/-- Quiesce (R298 Q; R186, steps 1 and 2); a COMMIT that runs keeps waiting for its buddy (R297). The deadline is 0 in a recovery
(R293). In case 0 the step is voted anew. -/
def State.quiesce (s : State) : State :=
  let keeps (i : Item) : Bool := s.comp.commit.isSome && i.running && dKind i.desc == some .commit
  let s := (List.range 76).foldl (fun s q => s.abortItems q fun i => !keeps i) (s.onStreams fun t => { t with held := true })
  let s := (s.onChd fun c => { c with deadline := 0 }).onGrp fun g => { g with noDeadline := true, prevDeadline := 0, voteStart := none }
  if s.grp.recCase = 0 then s.onGrp fun g => { g with
    voted := false, rowVotes := [], colVotes := [], groupVotes := g.groupVotes.filter fun v => v.1 != s.groupNo } else s

/-- At the end of phase S the substitution is in force (R277). A COMMIT that waits sends its kept gradients to the buddy's substitute
(R297, R212). -/
def State.takeSubst (s : State) : State :=
  let buddyCol (s : State) : Option Nat := s.buddy.map fun b => s.col b.1 b.2
  let t := s.takePos
  match s.comp.commit with
  | some c => if buddyCol t = buddyCol s then t else t.sendGrads { c with recovery := true }
  | none => t

/-- The group runs again: it restarts step s, finishes it, or goes on from the export's step. -/
def State.resumeRun (s : State) : State :=
  let s := (s.onStreams fun t => { t with held := s.boot.shutdown.isSome }).onGrpStats fun g => { g with recoveries := inc g.recoveries }
  if s.grp.recCase = 0 then (if s.jobRuns then s.replayStep 4 else s)
  else if s.grp.recCase = 3 then s.onJob fun j => { j with step := s.grp.recTarget + 1 }
  else s

/-- The step of this module's last export (R219), as its EXPORT region records it. -/
def State.exportStep (s : State) : Word32 := BitVec.ofNat 32 (if s.laidOut then leNat (Memory.bytes s.mem.slow (s.region dExport 0 0) 8) else 0)

/-- The target step of a case (Table 10-5). -/
def State.caseTarget (s : State) (c : Nat) (step : Word32) : Word32 := if c = 0 then step - 1 else if c = 3 then s.exportStep else step

/-- A module enters a recovery phase. -/
def State.enterPhase (s : State) (phase case : Nat) (step target : Word32) (failed : List Nat) : State :=
  let old := s.grp.phase
  let s := s.onGrp fun g => { g with
    phase := phase, recCase := case, recStep := step, recTarget := target, failed := failed
    recStart := if old = 5 ∧ phase < 5 then s.now else g.recStart, groupHeld := if phase = 5 then g.groupHeld.filter (· != s.groupNo) else g.groupHeld }
  -- case 3 is the REVERT of R219: the export is taken by UPD_REPAIR
  let s := if phase = 4 ∧ case = 3 then s.onComp fun t => { t with verdictDue := none, verdict := some (2, step) } else s
  let s := if phase = 1 then s.quiesce else s
  let s := if 3 ≤ phase then s.takeSubst else s
  let s := if phase = 5 ∧ old ≠ 5 then s.resumeRun else s
  if phase = old then s else s.msix 275

/-- The Apex announces a phase and enters it itself. -/
def State.announce (s : State) (phase : Nat) : State :=
  let g := s.grp
  ((s.toEveryone (s.recoveryBytes phase)).enterPhase phase g.recCase g.recStep g.recTarget g.failed).sendApexState

/-- The restore case of a failure of logical (x, y) (Table 10-5): 0 before the verdict, when no module can have begun a COMMIT. After it
the Apex knows what its own module has begun and, where it is the buddy, acknowledged; no message tells it of the others, and the
choice among the lines that can hold is free (notes/assumptions/219.md). -/
def State.chooseCase (s : State) (x y : Nat) : Nat × State :=
  if s.job.verdict ≠ 1 then (0, s)
  else
    let begun := s.comp.commit.isSome || s.committedStep == s.stepNo
    let buddy := s.grp.pos == some (s.plusX (x, y))
    let acked := s.comp.gradSeen.isEmpty && s.comp.gradTag.any fun t => t.2.toNat == s.stepNo
    let l := (if begun then [] else [0]) ++ (if buddy && !acked then [] else [1]) ++
      (if buddy && acked then [] else [if 1 < s.groups then 2 else 3])
    let r := s.draw
    (l.getD (r.1.toNat % l.length) 1, r.2)

/-- VOTE_RESULT ROLLBACK of case 3 (Table 10-5). -/
def State.rollBack (s : State) : State :=
  if s.grp.recCase = 3 ∧ s.isLead then s.issueResult (resultBytes 1 s.grp.epoch s.job.step 3 s.groups 0 0 0 0xFF 0xFF) else s

/-- The Apex starts a recovery, or restarts one with a further failure (R281, R297). -/
def State.beginRecovery (s : State) (x y : Nat) : State :=
  let n := s.job.step
  let c := if s.grp.phase = 5 then s.chooseCase x y else (s.grp.recCase, s)
  let s := c.2.onGrp fun g => { g with recPos := 8 * y + x, recCase := c.1, recStep := n, recTarget := c.2.caseTarget c.1 n, restoring := [] }
  (s.announce 1).rollBack

/-- The lead Apex loses a group (R301): SKIP of the step in progress, the group leaves the list and the groups after it move up, FAULT
GROUP_LOST. -/
def State.loseGroup (s : State) (g cause : Nat) : State :=
  let n := s.job.step
  let s := if s.job.verdict = 0 ∧ s.jobRuns then
      s.issueResult (resultBytes 1 s.grp.epoch n 2 s.groups 0 0 (s.nextDeadline false 0) 0xFF 0xFF) else s
  let held := (s.grp.groupHeld.filter (· ≠ g)).map fun k => if g < k then k - 1 else k
  let s := s.onGrp fun t => { t with
    slots := (((List.range s.groups).map s.groupSlot).eraseIdx g), cfg := { t.cfg with groups := t.cfg.groups.eraseIdx g }
    groupHeard := [], groupVotes := [], groupHeld := held }
  (s.roleWatch.groupReport 0x0A09 .fault (leBytes 1 g ++ leBytes 4 n.toNat ++ leBytes 1 cause)).sendApexState

/-- This Apex's own group is lost. Only the lead Apex issues the result; another stays silent from now on, and the lead Apex finds
it out at XVOTE_LIMIT (R289). -/
def State.ownLost (s : State) (cause : Nat) : State :=
  let s := s.onGrp fun g => { g with lost := true, restoring := [] }
  if s.isLead then s.loseGroup s.groupNo cause else s.sendApexState

/-- The Apex declares a physical module failed (R279, R282). A row has no spare once a position of it is substituted, or another
failed module of it is to be. -/
def State.declareFailed (s : State) (f cause : Nat) : State :=
  if !s.isApex ∨ s.grp.failed.contains f then s
  else
    let y := f / 9
    let c := f % 9
    let other := (List.range 8).any fun x => s.grp.failed.contains (9 * y + s.col x y)
    let noSpare := !s.spareIdle y || s.grp.failed.contains (9 * y + 8) || other
    let s := s.onGrp fun g => { g with failed := f :: g.failed }
    let s := s.groupReport 0x0A04 .warn (leBytes 4 s.stepNo ++ leBytes 1 f ++ leBytes 1 cause)
    match (List.range 8).find? fun x => s.col x y == c with
    | none => (if c = 8 then s.groupReport 0x0A08 .warn (leBytes 1 y) else s).sendApexState
    | some x => if noSpare then s.ownLost 0 else s.beginRecovery x y

/-- FAIL_SELF (R279). -/
def execFailSelf (m : CtlMsg) (s : State) : Host.Outcome State Fault Refusal :=
  if !s.hears m 0x14 then .next s
  else if s.isStale m then .next (s.dropStale m)
  else .next ((s.takeMsg m).declareFailed (s.phys (m.srcX, m.srcY)) 1)

/-- Positions whose vote has not arrived (R288). Of another row the Apex misses one combined vote; which positions of it are silent, one
or more, is free (notes/assumptions/218.md). -/
def State.silent (s : State) : List Nat × State :=
  let n := s.job.step
  let have' (l : Sparse Vote) (k : Nat) : Bool := l.any fun v => v.1 == k && v.2.step == n
  (List.range 8).foldl (fun (a : List Nat × State) y =>
    if have' a.2.grp.colVotes y then a
    else if s.grp.pos.map (·.2) = some y then (a.1 ++ ((List.range 8).filter fun x => !have' a.2.grp.rowVotes x).map (fun x => s.phys (x, y)), a.2)
    else
      let r := a.2.draw
      let mask := 1 + r.1.toNat % 255
      (a.1 ++ ((List.range 8).filter fun x => bitOf mask x).map (fun x => s.phys (x, y)), r.2)) ([], s)

/-- VOTE_LIMIT_EXPIRY (R288). -/
def execVoteLimitExpiry (s : State) : Host.Outcome State Fault Refusal :=
  match s.grp.voteStart with
  | none => .next s
  | some t =>
    if !s.isApex ∨ s.grp.phase < 5 ∨ s.job.verdict ≠ 0 ∨ (s.grp.groupVotes.any fun v => v.1 == s.groupNo && v.2.step == s.job.step) then .next s
    else
      let r := ((s.passTo (t + s.grp.cfg.voteLimit)).onGrp fun g => { g with voteStart := none }).silent
      .next (r.1.foldl (fun s f => s.declareFailed f 3) r.2)

/-- XVOTE_LIMIT_EXPIRY (R289, R301). -/
def execXvoteLimitExpiry (g : Fin 28) (s : State) : Host.Outcome State Fault Refusal :=
  let k := g.val
  if !s.isLead ∨ s.groups ≤ k ∨ k = s.groupNo ∨ (s.grp.groupVotes.any fun v => v.1 == k && v.2.step == s.job.step) then .next s
  else .next ((s.passTo (Sparse.get 0 s.grp.groupHeard k - 1 + s.grp.cfg.xvoteLimit)).loseGroup k 2)

/-- RECOVERING_PERIOD (R289): the Apex of a group in recovery tells the lead Apex that its group lives. -/
def execRecoveringPeriod (s : State) : Host.Outcome State Fault Refusal :=
  .next (if s.grp.role = .apex ∧ s.grp.phase < 5 ∧ !s.grp.lost then
    s.fdtControl (s.groupSlot 0) (leBytes 2 0x18 ++ leBytes 2 s.grp.epoch.toNat ++ leBytes 4 s.stepNo) else s)

/-- RECOVERY (R298). -/
def execRecovery (m : CtlMsg) (s : State) : Host.Outcome State Fault Refusal :=
  if !s.hears m 0x16 ∨ 5 < le m.bytes 1 1 then .next s
  else if s.isStale m then .next (s.dropStale m)
  else
    let step : Word32 := BitVec.ofNat 32 (le m.bytes 4 4)
    let c := le m.bytes 8 1
    .next ((s.takeMsg m).enterPhase (le m.bytes 1 1) c step (s.caseTarget c step) (set72 m.bytes 9))

/-- The positions that failed modules serve. -/
def State.lostPositions (s : State) : List (Nat × Nat) := ((List.range 64).map fun i => (i % 8, i / 8)).filter fun p => s.grp.failed.contains (s.phys p)

/-- CHD_POS with the spare of its row in the place of every failed module. -/
def State.substituted (s : State) : List Word64 :=
  (List.range 8).map fun y => (List.range 8).foldl (fun w x => if s.grp.failed.contains (9 * y + s.col x y) then setFld w (4 * x) 4 8 else w) (s.chdPos y)

/-- The payload of GRP_SUBSTITUTE: epoch, then CHD_POS[0] to CHD_POS[7]. -/
def State.posBytes (s : State) (v : List Word64) : List Byte := leBytes 8 s.grp.epoch.toNat ++ v.flatMap fun w => leBytes 8 w.toNat

/-- The Apex writes CHD_POS on every module (R277). -/
def State.writePos (s : State) (v : List Word64) : State :=
  (s.everyone.foldl (fun s p => s.mbCommand p 0x0B05 (s.posBytes v)) s).onGrp fun g => { g with newPos := some v }

/-- A command of the recovery, whose answer the Apex awaits: whether it is UPD_RESTORE. -/
def State.restoreBy (s : State) (dest : Nat × Nat) (restore : Bool) (payload : List Byte) : State :=
  let seq := s.grp.mbSeq
  (s.mbCommand dest (if restore then 0x0707 else 0x0709) payload).onGrp fun g => { g with restoring := g.restoring ++ [(seq, restore)] }

/-- Case 3: every module takes the export (Table 10-5), from the endpoint that the EXPORT region names. -/
def State.revertAll (s : State) : State :=
  let slot := if s.laidOut then leNat (Memory.bytes s.mem.slow (s.region dExport 0 0 + 8) 4) else 0
  ((List.range 64).map fun i => (i % 8, i / 8)).foldl (fun s p => s.restoreBy p false (leBytes 4 slot ++ leBytes 4 s.grp.recTarget.toNat)) s

/-- Phase R (Table 10-5): the buddy of each position restores its shard (cases 0 and 1), the substitute takes it from the lowest-numbered
other group (case 2), or every module from the export (case 3). -/
def State.restorePhase (s : State) (lost : List (Nat × Nat)) : State :=
  let t := s.grp.recTarget.toNat
  if s.grp.recCase ≤ 1 then lost.foldl (fun s p => s.restoreBy (s.plusX p) true (leBytes 4 t ++ leBytes 1 p.1 ++ leBytes 1 p.2)) s
  else if s.grp.recCase = 2 then
    let slot := s.groupSlot (if s.groupNo = 0 then 1 else 0)
    lost.foldl (fun s p => s.restoreBy p false (leBytes 4 slot ++ leBytes 4 t)) s
  else s.revertAll

/-- Phase S has ended: C and R start together (R298). -/
def State.endSubstitute (s : State) : State :=
  let lost := s.lostPositions
  let old := lost.map fun p => s.col p.1 p.2
  let s := (s.announce 3).announce 4
  let s := (lost.zip old).foldl (fun s p =>
    s.groupReport 0x0A05 .note (leBytes 4 s.stepNo ++ leBytes 1 (8 * p.1.2 + p.1.1) ++ leBytes 1 p.2 ++ leBytes 1 p.1.2)) s
  s.restorePhase lost

/-- The answer to a command of the recovery. A rebuild that fails gives way to the export (R215); any other failure loses the
group (R301). -/
def State.restoreAnswer (s : State) (seq : Word32) (status : Nat) : State :=
  match s.grp.restoring.find? fun r => r.1 == seq with
  | none => s
  | some r =>
    let s := s.onGrp fun g => { g with restoring := g.restoring.erase r }
    if !s.isApex ∨ status = stOk.toNat then s
    else if r.2 then
      let s := s.onGrp fun g => { g with recCase := 3, recTarget := s.exportStep, restoring := [] }
      (s.announce 4).revertAll.rollBack
    else s.ownLost 1

/-- MB_CMD_DONE (R379): the Apex keeps the status and response. -/
def execMbCmdDone (m : CtlMsg) (s : State) : Host.Outcome State Fault Refusal :=
  .next (if s.boot.mainOn ∧ le m.bytes 0 1 = 0x22 then
    ((s.takeCtl m).onCp fun c => { c with mbDone := Sparse.put [] c.mbDone (8 * m.srcY + m.srcX) (slice m.bytes 4 26) }).restoreAnswer
      (BitVec.ofNat 32 (le m.bytes 4 4)) (le m.bytes 8 2) else s)

/-- The recovery is over: NOTE RECOVERY_DONE; where a position was given back, INFO POSITION_RETURNED (R302). -/
def State.endRecovery (s : State) : State :=
  let g := s.grp
  let run := if g.recCase = 0 then g.recStep else g.recTarget + 1
  let s := s.announce 5
  match g.returning with
  | some (c, y) =>
    let x := ((List.range 8).find? fun x => s.col x y == c).getD 0
    ((s.onGrp fun g => { g with returning := none }).groupReport 0x0A0A .info (leBytes 4 s.stepNo ++ leBytes 1 (8 * y + x) ++ leBytes 1 c)).tryVerdict
  | none =>
    (s.groupReport 0x0A06 .note (leBytes 4 run.toNat ++ leBytes 1 g.recPos ++ leBytes 1 (s.col (g.recPos % 8) (g.recPos / 8)) ++ leBytes 1 g.recCase ++
      [0] ++ leBytes 4 ((s.now - g.recStart) / 1000))).tryVerdict

/-- Phases C and R have ended as far as the Apex can tell: every command of the restore is answered, and GRP_READY has come where the
Apex is itself the substitute (R298). -/
def State.restored (s : State) : Bool := s.grp.restoring.isEmpty && (!s.grp.substitute || s.grp.readyStep.isSome)

/-- RECOVERY_PHASE_END: the Apex starts the next phase; C and R end together. -/
def execRecoveryPhaseEnd (s : State) : Host.Outcome State Fault Refusal :=
  if !s.isApex ∨ s.grp.lost then .next s
  else match s.grp.phase with
    | 1 => .next ((s.announce 2).writePos s.substituted)
    | 2 => .next s.endSubstitute
    | 3 => .next (if s.restored then s.endRecovery else s)
    | 4 => .next (if s.restored then s.endRecovery else s)
    | _ => .next s

/-! ### Heartbeats and succession (R279 to R281) -/

/-- What a place counts as in `heard`: 8y + x, or 64 + y for a spare. -/
def placeKey (x y : Nat) : Nat := if x < 8 then 8 * y + x else 64 + y

/-- Detector 0x0A01 withholds heartbeats of this module. -/
def State.withheld (s : State) : Bool × State :=
  if s.grp.hbHeld ≠ 0 then (true, s.onGrp fun g => { g with hbHeld := g.hbHeld - 1 })
  else
    let i := s.opportunity 0x0A01 0x11 s.ownIndex 0 fun _ => true
    match i.1 with
    | some n => (true, (i.2.injEnd 0x11 s.ownIndex).onGrp fun g => { g with hbHeld := n - 1 })
    | none => (false, i.2)

/-- This module's heartbeat of the period: an Apex's to every module, a Vertex's summary of its row to the Apex, another's to its
Vertex. -/
def State.sendHeartbeat (s : State) : State :=
  let b := leBytes 2 0x13 ++ leBytes 2 s.grp.epoch.toNat ++ leBytes 4 s.stepNo
  if s.isApex then s.toEveryone b
  else
    let a := s.apexPos
    let v := s.vertexPos
    match s.grp.role, s.grp.pos with
    | .vertex, some (x, y) =>
      let bits := ((List.range 8).filter fun u => u == x || s.grp.heard.contains (8 * y + u)).map fun u => 2 ^ u
      s.sendControl a.1 a.2 (b ++ leBytes 1 bits.sum)
    | _, _ => s.sendControl v.1 v.2 b

/-- The Apex counts the periods that each module has missed (R279). Of a row whose Vertex is silent it counts the Vertex alone. -/
def State.countMissed (s : State) : State :=
  let xa := s.apexPos.1
  let ownRow (y : Nat) : Bool := match s.grp.pos with | some (_, v) => v == y | none => false
  let known := (s.otherPositions ++ (match s.grp.pos with | some (_, y) => s.freePlace y | none => [])).filter
    fun p => !s.grp.failed.contains (s.phys p) && (ownRow p.2 || p.1 == xa || s.grp.heard.contains (placeKey xa p.2))
  known.foldl (fun s p =>
    let k := placeKey p.1 p.2
    let n := if s.grp.heard.contains k then 0 else Sparse.get 0 s.grp.missed k + 1
    let s := s.onGrp fun g => { g with missed := Sparse.put 0 g.missed k n }
    if n = s.grp.cfg.hbMiss then s.declareFailed (s.phys p) 0 else s) s

/-- Any other module counts the Apex's missed periods; an entry of the list waits its turn to claim (R280). -/
def State.countApex (s : State) : State :=
  let a := s.apexPos
  let n := if s.grp.heard.contains (placeKey a.1 a.2) then 0 else s.grp.apexMissed + 1
  let s := s.onGrp fun g => { g with apexMissed := n }
  let k := s.grp.cfg.succession.idxOf s.ownIndex
  if n = s.grp.cfg.hbMiss ∧ s.grp.pos.isSome ∧ k < s.grp.cfg.succession.length ∧ !s.boot.faulted then
    s.onGrp fun g => { g with claimDue := some (s.now + 200000 * k) }
  else s

/-- HEARTBEAT_PERIOD. The CP sends heartbeats. -/
def execHeartbeatPeriod (s : State) : Host.Outcome State Fault Refusal :=
  if !s.boot.mainOn ∨ !s.cpReady then .next s
  else
    let w := s.withheld
    let s := if w.1 then w.2 else w.2.sendHeartbeat
    let s := if s.isApex then s.countMissed else s.countApex
    .next (s.onGrp fun g => { g with heard := [] })

/-- HEARTBEAT. -/
def execHeartbeat (m : CtlMsg) (s : State) : Host.Outcome State Fault Refusal :=
  if !s.hears m 0x13 then .next s
  else if s.isStale m then .next (s.dropStale m)
  else
    let s := s.takeMsg m
    let row := if s.isApex ∧ m.srcX < 8 then ((List.range 8).filter fun u => bitOf (le m.bytes 8 1) u).map fun u => 8 * m.srcY + u else []
    .next (s.onGrp fun g => { g with heard := placeKey m.srcX m.srcY :: row ++ g.heard })

/-- The last VOTE and DIGEST go to the new Apex (R281). -/
def State.resend (s : State) : State :=
  let v := s.vertexPos
  let a := s.apexPos
  let s := match s.grp.lastVote with
    | some x =>
      let x := { x with epoch := s.grp.epoch }
      if x.step = s.job.step ∧ s.grp.voted then (s.onGrp fun g => { g with lastVote := some x }).sendControl v.1 v.2 (voteBytes x) else s
    | none => s
  match s.grp.lastDigest with
  | some d => if s.comp.verdictDue.isSome then s.sendControl a.1 a.2 (patch d 2 (leBytes 2 s.grp.epoch.toNat)) else s
  | none => s

/-- A module follows a new Apex: votes of the old epoch are gone. -/
def State.followApex (s : State) (epoch : Word16) (entry : Nat) : State :=
  ((s.onGrp fun g => { g with
    epoch := epoch, apexEntry := entry, claimDue := none, apexMissed := 0, rowVotes := [], colVotes := [], missed := [] }).onGrpStats fun g =>
      { g with takeovers := inc g.takeovers }).roleWatch

/-- What the new Apex takes from the last APEX_STATE it holds. -/
def State.adoptState (s : State) : State :=
  match s.grp.apexState with
  | none => s
  | some b => s.onGrp fun g => { g with
      failed := (g.failed ++ set72 b 16).dedup, prevDeadline := le b 8 8, phase := if le b 1 1 < 5 then le b 1 1 else g.phase }

/-- A new Apex goes on (R281): the old Apex's position joins the failed set, and a recovery in progress restarts at its quiesce phase. -/
def State.takeOver (s : State) (f : Nat) : State :=
  if s.grp.failed.contains f then
    (if s.grp.phase < 5 then
      ((s.onGrp fun g => { g with restoring := [], recPos := match s.lostPositions with | p :: _ => 8 * p.2 + p.1 | [] => g.recPos }).announce 1).rollBack
     else s.sendApexState)
  else (s.declareFailed f 0).sendApexState

/-- APEX_CLAIM_TIMER (R280): the entry claims, takes over, and declares the old Apex failed. -/
def execApexClaimTimer (s : State) : Host.Outcome State Fault Refusal :=
  match s.grp.claimDue with
  | none => .next s
  | some t =>
    if s.boot.faulted ∨ !s.cpReady then .next (s.onGrp fun g => { g with claimDue := none })
    else
      let s := s.passTo t
      let old := s.apexPos
      let k := s.grp.cfg.succession.idxOf s.ownIndex
      let e := s.grp.epoch + 1
      let s := s.toEveryone (leBytes 2 0x15 ++ leBytes 2 e.toNat ++ leBytes 1 k ++ leBytes 1 s.ownIndex)
      let s := (s.followApex e k).groupReport 0x0A07 .note (leBytes 2 e.toNat ++ leBytes 1 k ++ leBytes 1 (8 * old.2 + old.1))
      .next (s.adoptState.resend.takeOver (s.phys old))

/-- APEX_CLAIM (R280): the claim of the highest epoch, and of the lowest entry within one, is accepted. -/
def execApexClaim (m : CtlMsg) (s : State) : Host.Outcome State Fault Refusal :=
  if !s.hears m 0x15 then .next s
  else if s.isStale m then .next (s.dropStale m)
  else
    let e := msgEpoch m.bytes
    let k := le m.bytes 4 1
    let s := s.takeMsg m
    if e = s.grp.epoch ∧ s.grp.apexEntry ≤ k then .next s
    else .next (s.followApex e k).resend

/-! ### Digests (R292) -/

/-- The verdict of one replica among the digests of a position, with the group to repair from: 0 AGREE, 1 REPAIR, 2 REVERT. -/
def digestVerdict (ds : List (List Byte)) (d : List Byte) : Nat × Nat :=
  if ds.all (· == d) then (0, 0)
  else
    match ds.find? fun x => decide (3 ≤ ds.length) && decide (ds.length < 2 * (ds.filter (· == x)).length) with
    | some x => if x = d then (0, 0) else (1, ds.idxOf x)
    | none => (2, 0)

/-- The digests of one step: key 64 × group + position; the digest itself. -/
def State.digestsOf (s : State) (g : Nat) (n : Nat) : List (List Byte) :=
  (List.range 64).filterMap fun p => (s.grp.digests.find? fun d => d.1 == 64 * g + p && le d.2 4 4 == n).map fun d => slice d.2 8 16

/-- Verdicts reach a position of this group by UPD_DIGEST_VERDICT, those of another group its Apex over FDT. -/
def State.sendVerdict (s : State) (g p n : Nat) (v : Nat × Nat) : State :=
  if g = s.groupNo then s.mbCommand (p % 8, p / 8) 0x0708 (leBytes 4 n ++ leBytes 1 v.1 ++ leBytes 1 v.2)
  else s.fdtControl (s.groupSlot g) (leBytes 1 0x12 ++ leBytes 1 (v.1 + 1) ++ leBytes 2 s.grp.epoch.toNat ++ leBytes 4 n ++ leBytes 16 0 ++ leBytes 4 g ++
    leBytes 1 p ++ leBytes 1 v.2)

/-- The lead Apex compares once it holds every digest of a step. -/
def State.compareDigests (s : State) (n : Nat) : State :=
  let all := (List.range s.groups).map fun g => s.digestsOf g n
  if !(all.all fun l => l.length == 64) then s
  else
    let s := s.onGrp fun g => { g with digests := [] }
    (List.range s.groups).foldl (fun s g => (List.range 64).foldl (fun s p =>
      let ds := all.map fun l => l.getD p []
      s.sendVerdict g p n (digestVerdict ds (ds.getD g []))) s) s

/-- An Apex passes its 64 digests on. -/
def State.passDigests (s : State) (n : Nat) : State :=
  let l := s.digestsOf s.groupNo n
  if l.length < 64 then s
  else
    let s := s.onGrp fun g => { g with digests := [] }
    l.zipIdx.foldl (fun s d => s.fdtControl (s.groupSlot 0) (leBytes 2 0x12 ++ leBytes 2 s.grp.epoch.toNat ++ leBytes 4 n ++ d.1 ++ leBytes 4 s.groupNo ++ leBytes 1 d.2)) s

/-- DIGEST. -/
def execDigest (m : CtlMsg) (s : State) : Host.Outcome State Fault Refusal :=
  if !s.hears m 0x12 then .next s
  else if s.isStale m then .next (s.dropStale m)
  else
    let b := padTo 32 m.bytes
    let n := le b 4 4
    let far := (s.fdtFrom m).isSome
    let s := s.takeMsg m
    let put (k : Nat) (s : State) : State := s.onGrp fun g => { g with digests := Sparse.ins k b (Sparse.del k g.digests) }
    if !s.isApex then .next s
    else if far then
      (if le b 1 1 ≠ 0 then .next (s.sendVerdict s.groupNo (le b 28 1) n (le b 1 1 - 1, le b 29 1))
       else if s.isLead ∧ le b 24 4 < s.groups ∧ le b 28 1 < 64 then .next ((put (64 * le b 24 4 + le b 28 1) s).compareDigests n)
       else .next s)
    else if 8 ≤ m.srcX ∨ 8 ≤ m.srcY then .next s
    else
      let s := put (64 * s.groupNo + 8 * m.srcY + m.srcX) s
      .next (if s.isLead then s.compareDigests n else s.passDigests n)

/-! ### Weight requests (R296) -/

/-- WEIGHT_REQUEST: an owner sends its codewords of the stream to the requester alone. -/
def execWeightRequest (m : CtlMsg) (s : State) : Host.Outcome State Fault Refusal :=
  if !s.hears m 0x17 then .next s
  else if s.isStale m then .next (s.dropStale m)
  else
    let s := s.takeMsg m
    let p := le m.bytes 10 1
    .next (if le m.bytes 4 4 = s.stepNo ∧ le m.bytes 8 2 < 256 ∧ p < 64 then s.weightTo (le m.bytes 8 2) (p % 8, p / 8) else s)

end Sys2Proof.Machine
end

