-- ==== Sys2Proof/Machine/GrpCmd.lean ====
section
/-! DEFINITION. The GRP commands (R305, Table 10-9). Their fields stand in the order of the table, little-endian and naturally aligned
(R384). -/

namespace Sys2Proof.Machine

/-- A field that keeps its default where it is given as 0. -/
def orDefault (v d : Nat) : Nat := if v = 0 then d else v

/-- GRP_CONFIG: group id at 0; the count of active groups at 4 and their ids from 8, 28 places; the succession list at 120, 0xFF
ends it; HB_MISS at 128; VOTE_SC 130, VOTE_THRESHOLD 132, RESULT_SC 136; VOTE_GRACE, VOTE_LIMIT, XVOTE_LIMIT, DEADLINE_MIN,
DEADLINE_MAX, FOLD_BASE and FOLD_SIZE from 144. -/
def grpCfgOf (b : List Byte) (old : GrpCfg) : GrpCfg :=
  let list := ((List.range 8).map fun k => le b (120 + k) 1).takeWhile (· < 64)
  { old with
    groupId := BitVec.ofNat 32 (le b 0 4)
    groups := (List.range (min 28 (le b 4 1))).map fun g => le b (8 + 4 * g) 4
    succession := if list.isEmpty then Reset.grpCfg.succession else list
    hbMiss := orDefault (le b 128 1) 5
    voteSc := le b 130 2 % 16384
    voteThreshold := BitVec.ofNat 32 (le b 132 4)
    resultSc := le b 136 2 % 16384
    voteGrace := le b 144 8
    voteLimit := orDefault (le b 152 8) 10000000
    xvoteLimit := orDefault (le b 160 8) 20000000
    deadlineMin := le b 168 8
    deadlineMax := le b 176 8
    foldBase := BitVec.ofNat 64 (le b 184 8)
    foldSize := le b 192 8 }

def grpConfigCmd (b : List Byte) (s : State) : CmdResult :=
  if s.jobRuns then refuse s stBusy else .done stOk [] (s.onGrp fun g => { g with cfg := grpCfgOf b g.cfg, slots := List.range (min 28 (le b 4 1)), lost := false }).roleWatch
def execGrpConfig (r : Route) (s : State) : Host.Outcome State Fault Refusal := .next (s.command r 0x0B01 grpConfigCmd)

/-- GRP_POLICY: policy at 0 (0 NONE, 1 FOLD, 2 DROP), factor at 1. -/
def grpPolicyCmd (b : List Byte) (s : State) : CmdResult :=
  let p := le b 0 1
  let f := le b 1 1
  if 2 < p ∨ f < 64 then refuse s stBadOpcode else .done stOk [] (s.atBoundary (.policy p f))
def execGrpPolicy (r : Route) (s : State) : Host.Outcome State Fault Refusal := .next (s.command r 0x0B02 grpPolicyCmd)

/-- Roles in the order of Table 10-1. -/
def roleNum : Role → Nat
  | .apex => 0
  | .leadApex => 1
  | .vertex => 2
  | .member => 3
  | .spare => 4

/-- GRP_STATUS: role, epoch at 2, position at 4 (0xFF a spare), CHD_POS from 8, phase at 72, step at 76. -/
def grpStatusCmd (_b : List Byte) (s : State) : CmdResult :=
  .done stOk (leBytes 2 (roleNum s.grp.role) ++ leBytes 2 s.grp.epoch.toNat ++ leBytes 4 (if s.grp.pos.isSome then s.ownIndex else 0xFF) ++
    ((List.range 8).flatMap fun y => leBytes 8 (s.chdPos y).toNat) ++ leBytes 4 s.grp.phase ++ leBytes 4 s.stepNo) s
def execGrpStatus (r : Route) (s : State) : Host.Outcome State Fault Refusal := .next (s.command r 0x0B03 grpStatusCmd)

/-- GRP_STATS: votes, skips by causes 1 to 3, late blocks folded, dropped, not finite, recoveries, takeovers. -/
def grpStatsCmd (_b : List Byte) (s : State) : CmdResult :=
  let g := s.grpStats
  let l := [g.votes] ++ [1, 2, 3].map (fun c => Sparse.get 0 g.skips c) ++ [g.lateFolded, g.lateDropped, g.lateNonfinite, g.recoveries, g.takeovers]
  .done stOk (l.flatMap fun w => leBytes 8 w.toNat) s
def execGrpStats (r : Route) (s : State) : Host.Outcome State Fault Refusal := .next (s.command r 0x0B04 grpStatsCmd)

/-- A command that runs in MB[15] alone (R305). -/
def mb15Only (r : Route) (f : List Byte → State → CmdResult) (b : List Byte) (s : State) : CmdResult :=
  if r = .chord then f b s else refuse s stDeniedRegime

/-- A spare that is given a position leaves Winter and becomes its substitute (Table 10-6). -/
def State.calledUp (s : State) (v : List Word64) : State :=
  let mine := (List.range 8).any fun x => fld (v.getD s.physY 0) (4 * x) 4 == s.physX
  if s.grp.pos.isNone ∧ mine then (s.onGrp fun g => { g with substitute := true, readyStep := none }).parkSpare false else s

/-- GRP_SUBSTITUTE (R277): epoch at 0, CHD_POS from 8. In force at the step boundary or the end of phase S; at once while no job runs
and no recovery. -/
def grpSubstituteCmd (b : List Byte) (s : State) : CmdResult :=
  let v := (List.range 8).map fun y => BitVec.ofNat 64 (le b (8 + 8 * y) 4)
  if le b 0 2 < s.grp.epoch.toNat then refuse s stBadSeq
  else if s.grp.newPos.isSome ∧ s.grp.newPos ≠ some v then refuse s stBusy
  else
    let s := (s.calledUp v).onGrp fun g => { g with newPos := some v }
    .done stOk [] (if s.jobRuns ∨ s.grp.phase < 5 then s else s.takePos)
def execGrpSubstitute (r : Route) (s : State) : Host.Outcome State Fault Refusal := .next (s.command r 0x0B05 (mb15Only r grpSubstituteCmd))

/-- GRP_RECOVER: epoch at 0, phase at 2, step s at 4, target t at 8, case at 12 (R298). -/
def grpRecoverCmd (b : List Byte) (s : State) : CmdResult :=
  if le b 0 2 < s.grp.epoch.toNat then refuse s stBadSeq
  else if s.pwr.regime = .none_ ∨ s.pwr.regime = .spring then refuse s stDeniedRegime
  else if 5 < le b 2 1 then refuse s stBadOpcode
  else .done stOk [] (s.enterPhase (le b 2 1) (le b 12 1) (BitVec.ofNat 32 (le b 4 4)) (BitVec.ofNat 32 (le b 8 4)) s.grp.failed)
def execGrpRecover (r : Route) (s : State) : Host.Outcome State Fault Refusal := .next (s.command r 0x0B06 (mb15Only r grpRecoverCmd))

/-- GRP_READY: position at 0, step at 4 (R298). -/
def grpReadyCmd (b : List Byte) (s : State) : CmdResult :=
  if !s.grp.substitute then refuse s stDeniedRegime
  else .done stOk [] (s.onGrp fun g => { g with readyStep := some (BitVec.ofNat 32 (le b 4 4)) })
def execGrpReady (r : Route) (s : State) : Host.Outcome State Fault Refusal := .next (s.command r 0x0B07 grpReadyCmd)

/-- GRP_RETURN (R302): column at 0 and row at 1 of the replacement, whose row has a substituted position. The Apex gives the position
back at the next boundary, at which the group is quiesced for the copy. -/
def grpReturnCmd (b : List Byte) (s : State) : CmdResult :=
  let c := le b 0 1
  let y := le b 1 1
  if 7 < c ∨ 7 < y then refuse s stBadOpcode
  else if s.grp.returning.isSome ∨ s.grp.newPos.isSome ∨ s.grp.phase < 5 then refuse s stBusy
  else
    match s.isApex, (List.range 8).find? fun x => s.col x y == 8 with
    | true, some x =>
      let v := (List.range 8).map fun k => if k = y then setFld (s.chdPos k) (4 * x) 4 c else s.chdPos k
      let s := (s.onGrp fun g => { g with returning := some (c, y), failed := g.failed.filter (· != 9 * y + c) }).writePos v
      .done stOk [] (if s.jobRuns then s else s.takePos).sendApexState
    | _, _ => refuse s stDeniedRegime
def execGrpReturn (r : Route) (s : State) : Host.Outcome State Fault Refusal := .next (s.command r 0x0B08 grpReturnCmd)

end Sys2Proof.Machine
end

