-- ==== Sys2Proof/Machine/Host.lean ====
section
/-! DEFINITION. The host interface (chapter 11): accesses through BAR2 and BAR4 (R309, R310), HST_FLUSH (R312), the link, resets and
power states (R315, R318 to R320), flush reads (R314), the PCIe rows of Table 11-7, and the HST commands (R56, R179, R387). -/

namespace Sys2Proof.Machine

/-! ### Advanced Error Reporting (Tables 11-1, 11-7) -/

/-- Reports an uncorrectable error through AER: its bit of the status, as PCIe 6.0 numbers it, is set. -/
def State.aerSet (s : State) (b : Nat) : State := s.onHst fun h => { h with aer := h.aer ||| BitVec.ofNat 32 (2 ^ b) }
def State.aer (s : State) (kind b : Nat) : State := (s.aerSet b).emit (.aer kind)
def State.unsupported (s : State) : State := (s.aerSet 20).emit .unsupported

/-! ### BAR2 and BAR4 (Table 11-2) -/

/-- The place of an access; none outside the contents. -/
def State.barPlace (s : State) (b : Bar) (off len : Nat) : Option Loc :=
  match b with
  | .bar2 => if off + len ≤ g7Size then some (.g7 off) else none
  | .bar4 =>
    if off + len ≤ slowSize then some (.slow off)
    else
      let o := off - 0x10000000000
      let e := o / 0x800000
      if 0x10000000000 ≤ off ∧ e < 64 ∧ o % 0x800000 + len ≤ padSize ∧ (s.ptile e).isSome then some (.pad e (o % 0x800000)) else none

/-- Stores the poison word in the codewords of a scratchpad that a range touches. -/
def State.poisonPad (s : State) (p off len : Nat) : State :=
  (cwSpan off len).foldl (fun s cw =>
    s.onTileMem p fun m => { m with
      pad := Memory.write m.pad (32 * cw) (List.replicate 32 0), badPad := Sparse.put .good m.badPad cw .poison }) s

/-- The data of a poisoned write is not retained (R309). -/
def State.poisonLoc (s : State) (l : Loc) (len : Nat) : State :=
  match l with
  | .g7 o => s.poisonG7 o len
  | .slow o => s.poisonSlow (max o 4096) (len - (4096 - o))
  | .pad e o => match s.ptile e with | some p => s.poisonPad p o len | none => s
  | _ => s

/-- Table 11-7 row 5. -/
def State.barOutside (s : State) (hdr : Word64) : State := (s.onHst fun h => { h with oor := inc h.oor }).hostViol 5 hdr

/-- BAR_MEMORY_WRITE. -/
def execBarMemoryWrite (hdr : Word64) (b : Bar) (off : Nat) (data : List Byte) (ep : Bool) (s : State) : Host.Outcome State Fault Refusal :=
  if !s.linkUp then .next s
  else
    let s := s.tlp
    let s := if ep then (s.aer 1 12).hostViol 2 hdr else s
    match s.barPlace b off data.length with
    | none => .next (s.barOutside hdr)
    | some l => .next (if ep then s.poisonLoc l data.length else s.writeLoc l data)

/-- BAR_MEMORY_READ. -/
def execBarMemoryRead (hdr : Word64) (b : Bar) (off : Nat) (len : Nat) (s : State) : Host.Outcome State Fault Refusal :=
  if !s.linkUp then .next s
  else
    let s := s.tlp
    match s.barPlace b off len with
    | none => .next ((s.barOutside hdr).emit (.completion false (List.replicate len 0)))
    | some l =>
      let r := s.readLoc l len
      .next (r.2.2.emit (.completion r.2.1 r.1))

/-- HST_FLUSH_READ (R312): every posted write received before it is visible already; the read returns MOD_COUNT. -/
def execHstFlushRead (s : State) : Host.Outcome State Fault Refusal :=
  .next (if s.linkUp then (let s := s.tlp; s.emit (.completion false (leBytes 8 s.now))) else s)

/-! ### Link, resets, power states -/

/-- PCIE_LINK_DOWN (R318). -/
def execPcieLinkDown (s : State) : Host.Outcome State Fault Refusal := .next (if s.linkUp then s.linkDown else s)

/-- PCIE_LINK_UP (R318): the link trains to L0 at a generation and width of Table 11-1. -/
def execPcieLinkUp (gen width : Nat) (s : State) : Host.Outcome State Fault Refusal :=
  let can : Bool := decide (4 ≤ gen) && decide (gen ≤ 6) && (width == 4 || width == 8 || width == 16)
  .next (if s.boot.mainOn ∧ s.hst.link = .down ∧ can then (s.onHst fun h => { h with gen := gen, width := width }).linkBack else s)

/-- LINK_DOWN_LIMIT_EXPIRY (R319). -/
def execLinkDownLimitExpiry (s : State) : Host.Outcome State Fault Refusal :=
  if s.hst.link ≠ .down ∨ s.hst.downSince = 0 then .next s
  else .next ((s.passTo (s.hst.downSince - 1 + s.downLimit)).linkRecord 0).hostReset

/-- Configuration space, MSI-X table and PBA at their reset values (R315). -/
def State.functionReset (s : State) : State :=
  s.onHst fun h => { h with bme := false, msixEn := false, d3hot := false, msixTable := [], pba := [] }

/-- HOST_RESET (R320): PERST# or a hot reset takes the link down and resets the function. -/
def execHostReset (s : State) : Host.Outcome State Fault Refusal :=
  .next (if s.boot.mainOn then (s.functionReset.onHst fun h => { h with link := .down, gen := 0, width := 0 }).hostReset else s)

/-- FUNCTION_LEVEL_RESET (R315). -/
def execFunctionLevelReset (s : State) : Host.Outcome State Fault Refusal := .next (if s.linkUp then s.tlp.functionReset else s)

/-- The function enters D3hot (R315). -/
def State.toD3hot (s : State) : State := s.functionReset.onHst fun h => { h with d3hot := true }

/-- D3HOT_ENTRY (R315). -/
def execD3hotEntry (s : State) : Host.Outcome State Fault Refusal := .next (if s.linkUp then s.tlp.toD3hot else s)

/-- A dword of the function's configuration space: the identity of Table 11-1, Bus Master Enable in bit 2 of dword 1; PCIe 6.0 and
the function give the rest. BAR0, BAR2 and BAR4 are 64-bit, BAR2 and BAR4 prefetchable, of the sizes of Table 11-2; the PCI Express
capability gives a max payload of 512 bytes, function-level reset, 64 GT/s x16 with no ASPM, and the present link; MSI-X 2,048 vectors
and its enable; AER its two status registers. -/
def State.configDword (s : State) (n : Nat) : Word32 :=
  let other := Config.configDword n
  let put (mask v : Word32) : Word32 := (other &&& ~~~mask) ||| v
  if n = 0 then 0x68040000 ||| Config.vendorId.setWidth 32
  else if n = 1 then (Config.configDword 1 &&& 0xFFFFFFFB) ||| BitVec.ofNat 32 (4 * bit s.hst.bme)
  else if n = 2 then 0x120000B0
  else if n = 4 then put 0x03FFFFFF 4
  else if n = 6 ∨ n = 8 then 0xC
  else if n = 7 then put 0x1F 0
  else if n = 9 then put 0x1FF 0
  else if n = Config.pcieCap then put 0xFF 0x10
  else if n = Config.pcieCap + 1 then put 0x10000007 0x10000002
  else if n = Config.pcieCap + 3 then put 0xFFF 0x106
  else if n = Config.pcieCap + 4 then put 0x3FF0000 (BitVec.ofNat 32 (s.hst.gen % 16 * 2 ^ 16 + s.hst.width % 64 * 2 ^ 20))
  else if n = Config.msixCap then put 0xC7FF00FF (0x07FF0011 ||| BitVec.ofNat 32 (2 ^ 31 * bit s.hst.msixEn))
  else if n = Config.aerCap then put 0xFFFF 1
  else if n = Config.aerCap + 1 then s.hst.aer
  else if n = Config.aerCap + 4 then s.hst.aerCorr
  else Config.configDword n

/-- CONFIG_REQUEST (R307, R315, Table 11-7 row 3). -/
def execConfigRequest (hdr : Word64) (fn : Nat) (op : CfgOp) (s : State) : Host.Outcome State Fault Refusal :=
  if !s.linkUp then .next s
  else
    let s := s.tlp
    if fn ≠ 0 then .next (s.unsupported.hostViol 3 hdr)
    else match op with
      | .busMaster on =>
        let s := s.onHst fun h => { h with bme := on }
        .next (if !on then s else if s.hst.link = .rewrite then s.linkRewrite else s.hostResume)
      | .msixEnable on => .next (s.onHst fun h => { h with msixEn := on })
      | .power on => .next (if on then s.toD3hot else (s.onHst fun h => { h with d3hot := false }).hostResume)
      | .read n => .next (s.emit (.completion false (leBytes 4 (s.configDword n).toNat)))
      | .aerRead => .next (s.emit (.completion false (leBytes 4 s.hst.aer.toNat)))
      | .aerClear m => .next (s.onHst fun h => { h with aer := h.aer &&& ~~~(BitVec.ofNat 32 m) })

/-! ### Flush reads -/

/-- FLUSH_READ_ISSUE (R314): at once for a FENCE or a log half full, else when FLUSH_PERIOD has passed. -/
def execFlushReadIssue (s : State) : Host.Outcome State Fault Refusal :=
  match s.hst.lastAddr with
  | none => .next s
  | some a =>
    if s.hst.flushOut ∨ !s.hostOpen then .next s
    else .next ((if s.hostFence ∨ s.logHalf then s else s.passTo (s.hst.flushTick + s.flushPeriod)).flushIssue a)

/-- FLUSH_READ_COMPLETE (R314). -/
def execFlushReadComplete (s : State) : Host.Outcome State Fault Refusal :=
  .next (if s.hst.flushOut ∧ s.boot.mainOn ∧ s.hst.link = .l0 then s.flushDone else s)

/-! ### Other rows of Table 11-7 -/

/-- MALFORMED_TLP (row 1). -/
def execMalformedTlp (hdr : Word64) (s : State) : Host.Outcome State Fault Refusal :=
  .next (if s.linkUp then (s.tlp.aer 0 18).hostViol 1 hdr else s)

/-- UNSUPPORTED_REQUEST (row 3). -/
def execUnsupportedRequest (hdr : Word64) (_k : UrKind) (s : State) : Host.Outcome State Fault Refusal :=
  .next (if s.linkUp then s.tlp.unsupported.hostViol 3 hdr else s)

/-- UNEXPECTED_COMPLETION (row 6). -/
def execUnexpectedCompletion (hdr : Word64) (s : State) : Host.Outcome State Fault Refusal :=
  .next (if s.linkUp then (s.tlp.aer 2 16).hostViol 6 hdr else s)

/-- An access that BAR0 accepts: 4 or 8 bytes, naturally aligned (R310). -/
def bar0Ok (off size : Nat) : Bool := (size == 4 || size == 8) && off % size == 0

/-- BAR0_BAD_SIZE_READ (row 4). -/
def execBar0BadSizeRead (hdr : Word64) (off : Nat) (size : Nat) (s : State) : Host.Outcome State Fault Refusal :=
  .next (if s.linkUp ∧ !bar0Ok off size then (s.tlp.hostViol 4 hdr).emit (.completion false (List.replicate size 0)) else s)

/-! ### HST commands -/

/-- HST_CORRELATE (R56, R57): the record carries the tick of the command's receipt. -/
def hstCorrelateCmd (r : Route) (b : List Byte) (s : State) : CmdResult :=
  let t := (s.mbox r).receipt
  if (match s.cp.lastCorrelate with | some l => decide (t.toNat < l + 100000) | none => false) then refuse s stBusy
  else
    let now := s.boot.modCount
    let s := (s.onCp fun c => { c with lastCorrelate := some t.toNat }).onBoot fun x => { x with modCount := t }
    let s := s.report 0x0202 .info (match r with | .smb => 0x0D | _ => 0x0C) 0 (slice b 0 8 ++ leBytes 2 (t.toNat / 2 ^ 48) ++ slice b 8 2)
    .done stOk (leBytes 8 t.toNat) (s.onBoot fun x => { x with modCount := now })

def execHstCorrelate (r : Route) (s : State) : Host.Outcome State Fault Refusal := .next (s.command r 0x0C01 (hstCorrelateCmd r))

/-- HST_FENCE (R179): every write received is visible already; a STALE queue polls once more (R175). -/
def hstFenceCmd (_b : List Byte) (s : State) : CmdResult :=
  .done stOk [] ((List.range 76).foldl (fun s q => if (s.queue q).state = .stale ∧ s.mayRead q then (s.poll q).2 else s) s)

def execHstFence (r : Route) (s : State) : Host.Outcome State Fault Refusal := .next (s.command r 0x0C02 hstFenceCmd)

/-- HST_BUF_REGISTER (R387). -/
def hstBufRegisterCmd (b : List Byte) (s : State) : CmdResult :=
  let n := le b 0 2
  if n = 0 ∨ 250 < n ∨ b.length < 8 + 16 * n then refuse s stBadOpcode
  else
    let new := (List.range n).map fun i => (le b (8 + 16 * i) 8, le b (16 + 16 * i) 8)
    let all := (if s.hst.replaceList then [] else s.hst.ranges) ++ new
    if 4096 < all.length then refuse s stOverQuota
    else
      let s := s.onHst fun h => { h with ranges := all, replaceList := false }
      let s := if bitOf (le b 2 1) 0 ∧ s.streams.hostLost then s.onJob fun j => { j with finalGiven := true } else s
      -- while no job runs there is no boundary to wait for (R422)
      .done stOk [] (if s.jobRuns then s else s.endHostLost)

def execHstBufRegister (r : Route) (s : State) : Host.Outcome State Fault Refusal := .next (s.command r 0x0C03 hstBufRegisterCmd)

/-- HST_BUF_LIST: first range, ranges returned, then the ranges from byte 8 as they were registered. -/
def hstBufListCmd (b : List Byte) (s : State) : CmdResult :=
  let l := (s.hst.ranges.drop (le b 0 2)).take 250
  .done stOk (leBytes 2 (le b 0 2) ++ leBytes 2 l.length ++ leBytes 4 0 ++ l.flatMap fun r => leBytes 8 r.1 ++ leBytes 8 r.2) s

def execHstBufList (r : Route) (s : State) : Host.Outcome State Fault Refusal := .next (s.command r 0x0C04 hstBufListCmd)

end Sys2Proof.Machine
end

