-- ==== Sys2Proof/Machine/Jobs.lean ====
section
/-! DEFINITION. The JOB commands (R386, R90, Table 13-9). -/

namespace Sys2Proof.Machine

/-- What the module held of an earlier job's steps is gone: votes, counts of remote writes, the step's codewords. -/
def State.freshJob (s : State) : State :=
  let s := ((s.onStreams fun t => { t with wrSent := [], wrAcked := [], fullStep := none }).onChd fun c => { c with wrDone := [], late := [] }).clearStep
  s.onGrp fun g => { g with rowVotes := [], colVotes := [], groupVotes := [], digests := [], lastVote := none, lastDigest := none }

/-- JOB_START: writes the key and CHD_SLICE and takes the snapshot of R186; the first step is the one being run. -/
def jobStartCmd (b : List Byte) (s : State) : CmdResult :=
  let j := le b 0 1
  let x0 := le b 24 1 % 16
  let x1 := le b 24 1 / 16
  let y0 := le b 25 1 % 16
  let y1 := le b 25 1 / 16
  if 7 < j ∨ x1 < x0 ∨ 7 < x1 ∨ y1 < y0 ∨ 7 < y1 then refuse s stBadOpcode
  else if (s.job.slots.any fun k => k.1 == j) then refuse s stBusy
  else
    let first : Word32 := BitVec.ofNat 32 (le b 4 4)
    let s := s.freshJob.onJob fun t => { t with
      slots := Sparse.ins j ⟨first, BitVec.ofNat 128 (le b 8 16), (x0, x1, y0, y1)⟩ t.slots
      step := first, committed := 0, replaying := false, faultReplay := false, verdict := 0, lastCommit := none, lastSkip := none }
    let s := s.onChd fun c => { c with slice := BitVec.ofNat 64 (x0 * 2 ^ 20 + x1 * 2 ^ 16 + y0 * 2 ^ 12 + y1 * 2 ^ 8 + j) }
    .done stOk [] s.snapshotCounters

def execJobStart (r : Route) (s : State) : Host.Outcome State Fault Refusal := .next (s.command r 0x0601 jobStartCmd)

/-- With no job running there is no boundary to wait for: what waits for one takes effect (R422, R236). -/
def State.idleNow (s : State) : State :=
  if s.jobRuns then s
  else
    let s := s.job.waiting.foldl State.applyWaiting (s.onJob fun j => { j with waiting := [] })
    let s := s.applyScaleWrites.remapSwitch
    if s.grp.phase = 5 then s.takePos else s

/-- JOB_STOP. -/
def jobStopCmd (b : List Byte) (s : State) : CmdResult :=
  let j := le b 0 1
  if !(s.job.slots.any fun k => k.1 == j) then refuse s stAlreadyDone
  else if s.comp.commit.isSome ∧ fld s.chd.slice 0 8 = j then refuse s stBusy
  else .done stOk [] (s.onJob fun t => { t with slots := Sparse.del j t.slots }).idleNow

def execJobStop (r : Route) (s : State) : Host.Outcome State Fault Refusal := .next (s.command r 0x0602 jobStopCmd)

/-- JOB_ABORT (R90): engine queues only. -/
def jobAbortCmd (b : List Byte) (s : State) : CmdResult :=
  let q := le b 0 1
  let seq : Word32 := BitVec.ofNat 32 (le b 4 4)
  if 63 < q then refuse s stBadOpcode
  else
    let a := s.abortItem q seq
    .done a.1 [] (match a.2.ptile q with
      | some p => a.2.onTileRegs p fun r => { r with abortResult := BitVec.ofNat 64 (2 ^ 63 + seq.toNat * 2 ^ 16 + a.1.toNat) }
      | none => a.2)

def execJobAbort (r : Route) (s : State) : Host.Outcome State Fault Refusal := .next (s.command r 0x0603 jobAbortCmd)

/-- JOB_STATUS: slot (0xFF when no job runs in the slot of CHD_SLICE), step committed, HOST_LOST, slice. -/
def jobStatusCmd (_b : List Byte) (s : State) : CmdResult :=
  let j := fld s.chd.slice 0 8
  let slot := if s.job.slots.any fun k => k.1 == j then j else 0xFF
  let w := s.chd.slice
  .done stOk (leBytes 4 slot ++ leBytes 4 s.committedStep ++ leBytes 1 (bit s.streams.hostLost) ++
    leBytes 1 (fld w 16 4 * 16 + fld w 20 4) ++ leBytes 1 (fld w 8 4 * 16 + fld w 12 4)) s

def execJobStatus (r : Route) (s : State) : Host.Outcome State Fault Refusal := .next (s.command r 0x0604 jobStatusCmd)

end Sys2Proof.Machine
end

