-- ==== Sys2Proof/Machine/RegWrite.lean ====
section
/-! DEFINITION. PCIe writes of BAR0 registers by their access codes (R13, R14): identity and mailboxes (Table 13-5), doorbells (Table
06-15), sync counters (R194), Almanac (Table 14-10), chords (Tables 09-9 to 09-11), memory (Table 08-7), host (Tables 11-8, 11-9) and
tile windows (Tables 03-9, 03-10). Registers not named here are read-only, and reserved offsets ignore writes. -/

namespace Sys2Proof.Machine

/-- A register of which `size` bytes from offset `off` are written. -/
def mergeReg (old : Word64) (off size : Nat) (v : Word64) : Word64 := if size = 8 then v else setFld old (8 * (off % 8)) 32 (v.toNat % 2 ^ 32)

/-- Any queue is enabled. -/
def State.anyQueue (s : State) : Bool := (List.range 76).any fun q => (s.queue q).enable

/-! ### Doorbell region (Table 06-16) -/

def State.writeQueueReg (s : State) (q reg off size : Nat) (v : Word64) : State :=
  let u := s.queue q
  if reg = 0 then (if u.enable then s else s.onQueue q fun u => { u with base := mergeReg u.base off size v })
  else if reg = 1 then
    let old := BitVec.ofNat 64 (bit u.enable * 2 ^ 63 + u.log2n * 2 ^ 32 + u.seqStart.toNat)
    s.writeQctrl q (mergeReg old off size v)
  else if reg = 2 then (if off % 8 = 0 then s.writeBell q (v.setWidth 32) else s)
  else s

def State.writeStreamReg (s : State) (a off size : Nat) (v : Word64) : State :=
  let w := mergeReg 0 off size v
  if a = 0x11980 then s.onStreams fun t => { t with qerr0 := t.qerr0 &&& ~~~w }
  else if a = 0x11988 then s.onStreams fun t => { t with qerr1 := t.qerr1 &&& ~~~w }
  else if a = 0x11990 then (if s.anyQueue then s else s.onStreams fun t => { t with jnlBase := mergeReg t.jnlBase off size v })
  else if a = 0x11998 then s.onStreams fun t => { t with jnlSize := mergeReg t.jnlSize off size v }
  else if a = 0x119A8 then s.onStreams fun t => { t with jnlFail := mergeReg t.jnlFail off size v, jnlFails := 0 }
  else s

/-! ### Sync counters (R194, Table 06-17) -/

def State.writeSc (s : State) (hdr : Word64) (n off size : Nat) (v : Word64) : State :=
  if size = 4 then (if off % 8 = 0 then s.scOp n .add (v.setWidth 32) .pcie else s)
  else
    let x := v.setWidth 32
    match fld v 60 4 with
    | 0 => s.scOp n .add x .pcie
    | 1 => s.scOp n .set x .pcie
    | 2 => s.scOp n .sub x .pcie
    | 3 => s.scOp n .clear x .pcie
    | _ => s.hostViol 8 hdr

/-! ### Chords (Tables 09-9 to 09-11) -/

/-- The value that a REDUCE_STREAM or WSTREAM word will hold once the writes that wait are in force. -/
def State.pendingWord (s : State) (isReduce : Bool) (st w : Nat) : Word64 :=
  s.job.waiting.foldl (fun (old : Word64) x =>
    match x with
    | .reduceWord a b v => if isReduce ∧ a = st ∧ b = w then v else old
    | .wstreamWord a b v => if !isReduce ∧ a = st ∧ b = w then v else old
    | _ => old) (if isReduce then s.rword st w else s.wword st w)

def State.writeChord (s : State) (a off size : Nat) (v : Word64) : State :=
  if 0x320000 ≤ a then
    let i := (a - 0x320000) / 8
    if 1024 ≤ i then s
    else
      let x := mergeReg (s.pendingWord false (i / 4) (i % 4)) off size v
      s.atBoundary (.wstreamWord (i / 4) (i % 4) (if i % 4 = 3 then x &&& 0x00003FFF00003FFF else x))
  else if 0x310000 ≤ a then
    let i := (a - 0x310000) / 8
    if i % 8 = 7 then s
    else
      let x := mergeReg (s.pendingWord true (i / 8) (i % 8)) off size v
      s.atBoundary (.reduceWord (i / 8) (i % 8) (if i % 8 = 0 then x &&& 0xF0000FFFFFFFFFFF else x))
  else if 0x301000 ≤ a ∧ a < 0x301800 then
    (if a % 0x100 = 8 ∧ fld (mergeReg 0 off size v) 0 1 = 1 then s.portRetrain ((a - 0x301000) / 0x100) false else s)
  else if a = 0x300008 then s.onChd fun c => { c with arb := mergeReg c.arb off size v &&& 0xFFFFFFFF }
  else if a = 0x300010 then s.onChd fun c => { c with deadline := mergeReg c.deadline off size v }
  else if a = 0x300018 then s.onChd fun c => { c with slice := mergeReg c.slice off size v &&& 0xFFFFFF }
  else if a = 0x300020 then s.onChd fun c => { c with violLimit := mergeReg c.violLimit off size v }
  else s

/-! ### Host (Tables 11-8, 11-9) -/

/-- Writes the MSI-X table; of Vector Control only the mask bit is kept (as its complement). A vector that is unmasked while its PBA
bit is set sends its message (R402). -/
def State.writeMsix (s : State) (o size : Nat) (v : Word64) : State :=
  let d := (leBytes size v.toNat).zipIdx.map fun (x : Byte × Nat) =>
    if (o + x.2) % 16 < 12 then x.1 else if (o + x.2) % 16 = 12 then (x.1 &&& 1) ^^^ 1 else 0
  let s := s.onHst fun h => { h with msixTable := Memory.write h.msixTable o d }
  let n := o / 16
  if n ∈ s.hst.pba ∧ !s.masked n then (s.onHst fun h => { h with pba := h.pba.erase n }).msix n else s

def State.writeHost (s : State) (a off size : Nat) (v : Word64) : State :=
  if 0x508000 ≤ a ∧ a < 0x510000 then s.writeMsix (off - 0x508000) size v
  else if 0x502000 ≤ a ∧ a < 0x504000 then
    let k := (a - 0x502000) / 8
    let w := mergeReg (Sparse.get 0 s.hst.watch k) off size v
    -- a write of THRESHOLD alone does not write ARMED
    if size = 4 ∧ off % 8 = 0 then s.onHst fun h => { h with watch := Sparse.put 0 h.watch k (w &&& 0x80003FFFFFFFFFFF) } else s.writeWatch k w
  else if a = 0x500008 then s.onHst fun h => { h with ctrl := mergeReg h.ctrl off size v &&& 0xFFFFFFFF }
  else if a = 0x500018 then (if s.anyQueue then s else s.onHst fun h => { h with wlogBase := mergeReg h.wlogBase off size v })
  else if a = 0x500020 then s.onHst fun h => { h with wlogSize := mergeReg h.wlogSize off size v }
  else s

/-! ### Tile windows (Tables 03-10, 03-12) -/

/-- An item of the engine runs: in the arrays, in the vector unit, or of a kind that its sequencer carries out. -/
def State.engineRuns (s : State) (p : Nat) : Bool :=
  !(s.tile p).work.runs.isEmpty || (s.tile p).vec.busy ||
    (match s.engineOf p with | some e => (s.queue e).window.any (·.running) | none => false)

/-- ENG_CTRL: a write of ACC_RESERVE that Table 03-12 does not accept leaves it as it was. -/
def engCtrl (t : Tile) (runs : Bool) (w : Word64) : Word64 :=
  let n := fld w 8 8
  let keep := decide (64 < n) || n % 8 != 0 || runs
  (if keep then setFld w 8 8 (fld t.regs.ctrl 8 8) else w) &&& 0xFFFFFF03

def State.writeTile (s : State) (win : Win) (reg off size : Nat) (v : Word64) : State :=
  match s.winTile win with
  | none => s
  | some p =>
    let t := s.tile p
    let w := mergeReg 0 off size v
    if reg = 0x10 then s.onTileRegs p fun r => { r with ctrl := engCtrl t (s.engineRuns p) (mergeReg r.ctrl off size v) }
    else if reg = 0x18 then s.engSnap win
    else if reg = 0x48 then s.onTileRegs p fun r => { r with fault := r.fault &&& ~~~w }
    else if reg = 0x50 then s.onTileRegs p fun r => { r with poison := r.poison &&& ~~~(w.setWidth 8) }
    else if reg = 0x58 then (if off % 8 = 0 then s.engAbort win (v.setWidth 32) else s)
    else s

/-! ### BAR0 -/

/-- A write of `size` bytes at an aligned offset of BAR0. -/
def State.bar0Write (s : State) (hdr : Word64) (off size : Nat) (v : Word64) : State :=
  let a := off / 8 * 8
  if a < 0x1000 then (if 0x100 ≤ a ∧ a < 0x180 then s.mbxBell hdr ((a - 0x100) / 8) else s)
  else if a < 0x11000 then
    let n := a / 0x1000 - 1
    if h : n < 15 then
      let r := Route.pcie ⟨n, h⟩
      s.setMbox r { s.mbox r with bytes := mboxStore (s.mbox r).bytes (off % 0x1000) (leBytes size v.toNat) }
    else s.hostViol 7 hdr
  else if a < 0x11980 then s.writeQueueReg ((a - 0x11000) / 0x20) (a % 0x20 / 8) off size v
  else if a < 0x12000 then s.writeStreamReg a off size v
  else if 0x100000 ≤ a ∧ a < 0x120000 then s.writeSc hdr ((a - 0x100000) / 8) off size v
  else if a = 0x210008 then s.writeAlmCtrl (mergeReg (BitVec.ofNat 64 (s.alm.flushLevel * 2 ^ 16)) off size v)
  else if 0x300000 ≤ a ∧ a < 0x400000 then s.writeChord a off size v
  else if a = 0x400008 then s.writeMemCtrl (mergeReg s.mem.ctrl off size v)
  else if a = 0x400028 then (if s.anyQueue then s else s.onMem fun m => { m with jnlCopy := mergeReg m.jnlCopy off size v })
  else if 0x500000 ≤ a ∧ a < 0x520000 then s.writeHost a off size v
  else if 0x1000000 ≤ a ∧ a < 0x1400000 then s.writeTile (.logical (Fin.ofNat 64 ((a - 0x1000000) / 0x10000))) (a % 0x10000) off size v
  else if 0x2000000 ≤ a ∧ a < 0x2440000 then s.writeTile (.phys (Fin.ofNat 68 ((a - 0x2000000) / 0x10000))) (a % 0x10000) off size v
  else s

/-- REGISTER_WRITE (R13, R310): a write of another size or alignment is a violation of Table 11-7 row 4 and is ignored. -/
def execRegisterWrite (hdr : Word64) (off : Nat) (size : Nat) (v : Word64) (s : State) : Host.Outcome State Fault Refusal :=
  if !s.linkUp then .next s
  else
    let s := s.tlp
    .next (if bar0Ok off size then s.bar0Write hdr off size v else s.hostViol 4 hdr)

end Sys2Proof.Machine
end

