-- ==== Sys2Proof/Machine/Stream.lean ====
section
/-! DEFINITION. The JVI stream class (Table 06-18, opcodes 0x80 to 0x83): copies between a companion core's local memory, the slow
tier and FDT. -/

namespace Sys2Proof.Machine

/-- A stream instruction of a companion core; on an engine it is refused with ST_BAD_OPCODE (Table 06-14). -/
def State.jstream (s : State) (c : Ctx) (op : Nat) (f : Fin 32 → Word64 → JviCtx → State) : Host.Outcome State Fault Refusal :=
  match s.jfetch c op with
  | none => .next s
  | some w =>
    let x := s.ctx c
    match c with
    | .engine _ => .next (s.endVector x.queue x.seq stBadOpcode)
    | .core k => .next (f k w x)

/-- A copy between the slow tier and local memory is allowed: a multiple of 32 bytes inside both (R161). -/
def streamOk (w : Word64) (x : JviCtx) : Bool :=
  let n := (x.getS (jC w)).toNat
  n % 32 == 0 && (locRange (x.getS (jA w)).toNat n Loc.isSlow).isSome && decide ((x.getS (jB w)).toNat + n ≤ localSize)

/-- TRD and TWR start a copy. -/
def State.startCopy (s : State) (k : Fin 32) (w : Word64) (x : JviCtx) (copy : Nat → Nat → Nat → StreamCopy) : State :=
  if !streamOk w x then s.endVector x.queue x.seq stBadOpcode
  else s.jput (.core k) { x.tick with
    copies := x.copies ++ [copy (bitsOf (x.getS (jA w)).toNat 0 40) (x.getS (jB w)).toNat (x.getS (jC w)).toNat] }

/-- TRD. -/
def execJTrd (c : Ctx) (s : State) : Host.Outcome State Fault Refusal :=
  s.jstream c 0x80 fun k w x => s.startCopy k w x StreamCopy.trd
/-- TWR. -/
def execJTwr (c : Ctx) (s : State) : Host.Outcome State Fault Refusal :=
  s.jstream c 0x81 fun k w x => s.startCopy k w x fun a l n => .twr a l n x.queue x.seq

/-- TFDT: a WRITE message of s[C] bytes of local memory over connection slot imm bits 5:0. Over a connection that is not open it
ends as one whose connection is LOST. -/
def execJTfdt (c : Ctx) (s : State) : Host.Outcome State Fault Refusal :=
  s.jstream c 0x82 fun k w x =>
    let n := (x.getS (jC w)).toNat
    let a := (x.getS (jB w)).toNat
    let slot := jImm w % 64
    if localSize < a + n ∨ n = 0 then s.endVector x.queue x.seq stBadOpcode
    else if (s.conn slot).state ≠ .open_ then
      s.jput (.core k) { x.tick with copies := x.copies ++ [.tfdt slot 0 .timeout] }
    else
      let r := s.readLocal k.val a n
      if r.2.1 then r.2.2.ctxFault (.core k)
      else
        let msg := (r.2.2.conn slot).nextMsg
        let s := r.2.2.setCtx (.core k) { x.tick with copies := x.copies ++ [.tfdt slot msg .open_] }
        let s := s.fdtMessage slot 0 [] (x.getS (jA w)).toNat r.1 (.core k.val)
        s.jput (.core k) (s.ctx (.core k))

/-- TWAIT: goes on once every copy of the core has completed; one whose connection is LOST ends the VECTOR with ST_TIMEOUT,
one whose message was rejected with ST_FAULTED (Table 11-7 row 12). -/
def execJTwait (c : Ctx) (s : State) : Host.Outcome State Fault Refusal :=
  s.jstream c 0x83 fun k _ x =>
    let has (r : CopyRes) : Bool := x.copies.any fun y => match y with | .tfdt _ _ q => q == r | _ => false
    let rest := x.copies.filter fun y => match y with | .tfdt _ _ q => q == .open_ || q == .ok | _ => true
    if has .timeout then (s.setCtx (.core k) { x with copies := rest }).endVector x.queue x.seq stTimeout
    else if has .rejected then (s.setCtx (.core k) { x with copies := rest }).endVector x.queue x.seq stFaulted
    else if x.copies.isEmpty then s.jput (.core k) x.tick
    else s

/-- The first copy of a core that can complete: a TRD or TWR, or a TFDT whose message has completed. -/
def copyDue : List StreamCopy → Option (StreamCopy × List StreamCopy)
  | [] => none
  | .tfdt k m r :: t =>
    if r = .ok then some (.tfdt k m r, t)
    else match copyDue t with
      | some p => some (p.1, .tfdt k m r :: p.2)
      | none => none
  | y :: t => some (y, t)

/-- STREAM_COPY_DONE: the oldest copy that can complete moves its data. An uncorrectable codeword ends the VECTOR with ST_FAULTED
(Table 08-1). -/
def execStreamCopyDone (c : Fin 32) (s : State) : Host.Outcome State Fault Refusal :=
  let x := s.ctx (.core c)
  match copyDue x.copies with
  | none => .next s
  | some (y, rest) =>
    let s := s.setCtx (.core c) { x with copies := rest }
    let fail (s : State) : State := if x.busy then s.ctxFault (.core c) else s
    match y with
    | .trd a l n =>
      let r := s.readSlow a n
      .next (if r.2.1 then fail r.2.2 else r.2.2.writeLocal c.val l r.1)
    | .twr a l n _ _ =>
      let r := s.readLocal c.val l n
      .next (if r.2.1 then fail r.2.2 else r.2.2.storeSlow a r.1)
    | .tfdt _ _ _ => .next s

end Sys2Proof.Machine
end

