-- ==== Sys2Proof/Machine/Dispatch.lean ====
section
/-! DEFINITION. The meaning of every command: one arm per row of the command table, each one call of its meaning. -/

namespace Sys2Proof.Machine

/-- The effect of a command on everything but the queue of waiting commands. -/
def exec (i : Instr) (s : State) : Host.Outcome State Fault Refusal :=
  match i with
  | .standbyApply mv => Sys2Proof.Machine.execStandbyApply mv s
  | .startupRom => Sys2Proof.Machine.execStartupRom s
  | .startupIdentity pattern => Sys2Proof.Machine.execStartupIdentity pattern s
  | .startupConfig => Sys2Proof.Machine.execStartupConfig s
  | .mainInputApply mv => Sys2Proof.Machine.execMainInputApply mv s
  | .startupRails bad gen width => Sys2Proof.Machine.execStartupRails bad gen width s
  | .startupTiles failing => Sys2Proof.Machine.execStartupTiles failing s
  | .startupMemory g7 lp => Sys2Proof.Machine.execStartupMemory g7 lp s
  | .startupLinks peers eth0 eth1 => Sys2Proof.Machine.execStartupLinks peers eth0 eth1 s
  | .startupRecover accOk => Sys2Proof.Machine.execStartupRecover accOk s
  | .mainInputLoss => Sys2Proof.Machine.execMainInputLoss s
  | .emergOff => Sys2Proof.Machine.execEmergOff s
  | .mainRailsOff => Sys2Proof.Machine.execMainRailsOff s
  | .standbyLoss => Sys2Proof.Machine.execStandbyLoss s
  | .dualInputLoss => Sys2Proof.Machine.execDualInputLoss s
  | .mainOffIntervalExpiry => Sys2Proof.Machine.execMainOffIntervalExpiry s
  | .governorPeriod rd => Sys2Proof.Machine.execGovernorPeriod rd s
  | .calibrationWindow rd => Sys2Proof.Machine.execCalibrationWindow rd s
  | .envelopeEffective => Sys2Proof.Machine.execEnvelopeEffective s
  | .envelopeLeaseExpiry => Sys2Proof.Machine.execEnvelopeLeaseExpiry s
  | .droopTrip q depth => Sys2Proof.Machine.execDroopTrip q depth s
  | .droopRelease q => Sys2Proof.Machine.execDroopRelease q s
  | .droopGateEnd ns waves => Sys2Proof.Machine.execDroopGateEnd ns waves s
  | .droopClear pauseNs => Sys2Proof.Machine.execDroopClear pauseNs s
  | .slewDone ns => Sys2Proof.Machine.execSlewDone ns s
  | .overcurrentDetect peak => Sys2Proof.Machine.execOvercurrentDetect peak s
  | .dieTempStep readings => Sys2Proof.Machine.execDieTempStep readings s
  | .quarterParkDone q => Sys2Proof.Machine.execQuarterParkDone q s
  | .quarterUnparkDone q => Sys2Proof.Machine.execQuarterUnparkDone q s
  | .solsticePhaseStart => Sys2Proof.Machine.execSolsticePhaseStart s
  | .solsticePhaseEnd => Sys2Proof.Machine.execSolsticePhaseEnd s
  | .cpWatchdogExpiry pc => Sys2Proof.Machine.execCpWatchdogExpiry pc s
  | .cpMemUe code page word => Sys2Proof.Machine.execCpMemUe code page word s
  | .cpWarmRestartDone ticks => Sys2Proof.Machine.execCpWarmRestartDone ticks s
  | .modCountWrap => Sys2Proof.Machine.execModCountWrap s
  | .modCountLowRead => Sys2Proof.Machine.execModCountLowRead s
  | .modInfo r => Sys2Proof.Machine.execModInfo r s
  | .modPowerOn r => Sys2Proof.Machine.execModPowerOn r s
  | .modPowerOff r => Sys2Proof.Machine.execModPowerOff r s
  | .modReset r => Sys2Proof.Machine.execModReset r s
  | .modStatus r => Sys2Proof.Machine.execModStatus r s
  | .cfgMcbRead r => Sys2Proof.Machine.execCfgMcbRead r s
  | .cfgMcbWrite r => Sys2Proof.Machine.execCfgMcbWrite r s
  | .cfgScaleRead r => Sys2Proof.Machine.execCfgScaleRead r s
  | .cfgScaleWrite r => Sys2Proof.Machine.execCfgScaleWrite r s
  | .cfgFdtPort r => Sys2Proof.Machine.execCfgFdtPort r s
  | .cfgFdtOpen r => Sys2Proof.Machine.execCfgFdtOpen r s
  | .cfgFdtClose r => Sys2Proof.Machine.execCfgFdtClose r s
  | .pwrCap r => Sys2Proof.Machine.execPwrCap r s
  | .pwrEnvelope r => Sys2Proof.Machine.execPwrEnvelope r s
  | .pwrTarget r => Sys2Proof.Machine.execPwrTarget r s
  | .pwrShare r => Sys2Proof.Machine.execPwrShare r s
  | .pwrPark r => Sys2Proof.Machine.execPwrPark r s
  | .pwrStatus r => Sys2Proof.Machine.execPwrStatus r s
  | .memQuota r => Sys2Proof.Machine.execMemQuota r s
  | .memAlloc r => Sys2Proof.Machine.execMemAlloc r s
  | .memFree r => Sys2Proof.Machine.execMemFree r s
  | .memUsage r => Sys2Proof.Machine.execMemUsage r s
  | .chdStatus r => Sys2Proof.Machine.execChdStatus r s
  | .jobStart r => Sys2Proof.Machine.execJobStart r s
  | .jobStop r => Sys2Proof.Machine.execJobStop r s
  | .jobAbort r => Sys2Proof.Machine.execJobAbort r s
  | .jobStatus r => Sys2Proof.Machine.execJobStatus r s
  | .updLayout r => Sys2Proof.Machine.execUpdLayout r s
  | .updGroupWrite r => Sys2Proof.Machine.execUpdGroupWrite r s
  | .updGroupRead r => Sys2Proof.Machine.execUpdGroupRead r s
  | .updScheduleWrite r => Sys2Proof.Machine.execUpdScheduleWrite r s
  | .updProgramLoad r => Sys2Proof.Machine.execUpdProgramLoad r s
  | .updCommit r => Sys2Proof.Machine.execUpdCommit r s
  | .updRestore r => Sys2Proof.Machine.execUpdRestore r s
  | .updDigestVerdict r => Sys2Proof.Machine.execUpdDigestVerdict r s
  | .updRepair r => Sys2Proof.Machine.execUpdRepair r s
  | .updExportStart r => Sys2Proof.Machine.execUpdExportStart r s
  | .updExportAbort r => Sys2Proof.Machine.execUpdExportAbort r s
  | .almRead r => Sys2Proof.Machine.execAlmRead r s
  | .almConfig r => Sys2Proof.Machine.execAlmConfig r s
  | .almFlush r => Sys2Proof.Machine.execAlmFlush r s
  | .secIdentity r => Sys2Proof.Machine.execSecIdentity r s
  | .secAttest r => Sys2Proof.Machine.execSecAttest r s
  | .secFwWrite r => Sys2Proof.Machine.execSecFwWrite r s
  | .secFwActivate r => Sys2Proof.Machine.execSecFwActivate r s
  | .secLmsStatus r => Sys2Proof.Machine.execSecLmsStatus r s
  | .diagInject r => Sys2Proof.Machine.execDiagInject r s
  | .diagSelftest r => Sys2Proof.Machine.execDiagSelftest r s
  | .diagClear r => Sys2Proof.Machine.execDiagClear r s
  | .grpConfig r => Sys2Proof.Machine.execGrpConfig r s
  | .grpPolicy r => Sys2Proof.Machine.execGrpPolicy r s
  | .grpStatus r => Sys2Proof.Machine.execGrpStatus r s
  | .grpStats r => Sys2Proof.Machine.execGrpStats r s
  | .grpSubstitute r => Sys2Proof.Machine.execGrpSubstitute r s
  | .grpRecover r => Sys2Proof.Machine.execGrpRecover r s
  | .grpReady r => Sys2Proof.Machine.execGrpReady r s
  | .grpReturn r => Sys2Proof.Machine.execGrpReturn r s
  | .hstCorrelate r => Sys2Proof.Machine.execHstCorrelate r s
  | .hstFence r => Sys2Proof.Machine.execHstFence r s
  | .hstBufRegister r => Sys2Proof.Machine.execHstBufRegister r s
  | .hstBufList r => Sys2Proof.Machine.execHstBufList r s
  | .smbBlockWrite pecOk offset data => Sys2Proof.Machine.execSmbBlockWrite pecOk offset data s
  | .smbBlockRead pecOk offset => Sys2Proof.Machine.execSmbBlockRead pecOk offset s
  | .wave e up => Sys2Proof.Machine.execWave e up s
  | .rampWave e => Sys2Proof.Machine.execRampWave e s
  | .rampDownStart e => Sys2Proof.Machine.execRampDownStart e s
  | .feederWrite e h => Sys2Proof.Machine.execFeederWrite e h s
  | .weightLoadDone e h a => Sys2Proof.Machine.execWeightLoadDone e h a s
  | .outputRowDrain e h up => Sys2Proof.Machine.execOutputRowDrain e h up s
  | .tileHang e spareStage => Sys2Proof.Machine.execTileHang e spareStage s
  | .engSnap w => Sys2Proof.Machine.execEngSnap w s
  | .engAbort w seq => Sys2Proof.Machine.execEngAbort w seq s
  | .registerWrite hdr off size v => Sys2Proof.Machine.execRegisterWrite hdr off size v s
  | .qdoorbell q d => Sys2Proof.Machine.execQdoorbell q d s
  | .descriptorRepoll q => Sys2Proof.Machine.execDescriptorRepoll q s
  | .queueEnable q v => Sys2Proof.Machine.execQueueEnable q v s
  | .queueDisable q v => Sys2Proof.Machine.execQueueDisable q v s
  | .queueResume q v => Sys2Proof.Machine.execQueueResume q v s
  | .descriptorSkip q => Sys2Proof.Machine.execDescriptorSkip q s
  | .nop q => Sys2Proof.Machine.execNop q s
  | .matmul e => Sys2Proof.Machine.execMatmul e s
  | .vector q => Sys2Proof.Machine.execVector q s
  | .vectorStepLimit c => Sys2Proof.Machine.execVectorStepLimit c s
  | .dma d => Sys2Proof.Machine.execDma d s
  | .offload d => Sys2Proof.Machine.execOffload d s
  | .prefetch d => Sys2Proof.Machine.execPrefetch d s
  | .wait q => Sys2Proof.Machine.execWait q s
  | .waitTimeout q => Sys2Proof.Machine.execWaitTimeout q s
  | .post q => Sys2Proof.Machine.execPost q s
  | .fence q => Sys2Proof.Machine.execFence q s
  | .solstice e => Sys2Proof.Machine.execSolstice e s
  | .split e => Sys2Proof.Machine.execSplit e s
  | .commit c => Sys2Proof.Machine.execCommit c s
  | .descriptorComplete q seq => Sys2Proof.Machine.execDescriptorComplete q seq s
  | .scAdd n v src => Sys2Proof.Machine.execScAdd n v src s
  | .scSet n v src => Sys2Proof.Machine.execScSet n v src s
  | .scSub n v src => Sys2Proof.Machine.execScSub n v src s
  | .scClearFlags n src => Sys2Proof.Machine.execScClearFlags n src s
  | .scOpUndefined hdr n v => Sys2Proof.Machine.execScOpUndefined hdr n v s
  | .hstWatchArm k v => Sys2Proof.Machine.execHstWatchArm k v s
  | .scaleDerive => Sys2Proof.Machine.execScaleDerive s
  | .jEnd c => Sys2Proof.Machine.execJEnd c s
  | .jJmp c => Sys2Proof.Machine.execJJmp c s
  | .jBz c => Sys2Proof.Machine.execJBz c s
  | .jBnz c => Sys2Proof.Machine.execJBnz c s
  | .jLoop c => Sys2Proof.Machine.execJLoop c s
  | .jNop c => Sys2Proof.Machine.execJNop c s
  | .jSadd c => Sys2Proof.Machine.execJSadd c s
  | .jSsub c => Sys2Proof.Machine.execJSsub c s
  | .jSmul c => Sys2Proof.Machine.execJSmul c s
  | .jSand c => Sys2Proof.Machine.execJSand c s
  | .jSor c => Sys2Proof.Machine.execJSor c s
  | .jSxor c => Sys2Proof.Machine.execJSxor c s
  | .jSshl c => Sys2Proof.Machine.execJSshl c s
  | .jSshr c => Sys2Proof.Machine.execJSshr c s
  | .jSsra c => Sys2Proof.Machine.execJSsra c s
  | .jSlui c => Sys2Proof.Machine.execJSlui c s
  | .jScmplt c => Sys2Proof.Machine.execJScmplt c s
  | .jScmpeq c => Sys2Proof.Machine.execJScmpeq c s
  | .jScmplts c => Sys2Proof.Machine.execJScmplts c s
  | .jSrd c => Sys2Proof.Machine.execJSrd c s
  | .jVadd c => Sys2Proof.Machine.execJVadd c s
  | .jVsub c => Sys2Proof.Machine.execJVsub c s
  | .jVmul c => Sys2Proof.Machine.execJVmul c s
  | .jVfma c => Sys2Proof.Machine.execJVfma c s
  | .jVmin c => Sys2Proof.Machine.execJVmin c s
  | .jVmax c => Sys2Proof.Machine.execJVmax c s
  | .jVabs c => Sys2Proof.Machine.execJVabs c s
  | .jVneg c => Sys2Proof.Machine.execJVneg c s
  | .jVcmplt c => Sys2Proof.Machine.execJVcmplt c s
  | .jVcmple c => Sys2Proof.Machine.execJVcmple c s
  | .jVcmpeq c => Sys2Proof.Machine.execJVcmpeq c s
  | .jVsel c => Sys2Proof.Machine.execJVsel c s
  | .jVbcast c => Sys2Proof.Machine.execJVbcast c s
  | .jVimm c => Sys2Proof.Machine.execJVimm c s
  | .jVrsubi c => Sys2Proof.Machine.execJVrsubi c s
  | .jVmuli c => Sys2Proof.Machine.execJVmuli c s
  | .jVexp2 c => Sys2Proof.Machine.execJVexp2 c s
  | .jVsqrt c => Sys2Proof.Machine.execJVsqrt c s
  | .jVrecip c => Sys2Proof.Machine.execJVrecip c s
  | .jVrsqrt c => Sys2Proof.Machine.execJVrsqrt c s
  | .jVlog2 c => Sys2Proof.Machine.execJVlog2 c s
  | .jVderiv c => Sys2Proof.Machine.execJVderiv c s
  | .jVdcode c => Sys2Proof.Machine.execJVdcode c s
  | .jViadd c => Sys2Proof.Machine.execJViadd c s
  | .jVisub c => Sys2Proof.Machine.execJVisub c s
  | .jVimul c => Sys2Proof.Machine.execJVimul c s
  | .jViand c => Sys2Proof.Machine.execJViand c s
  | .jVior c => Sys2Proof.Machine.execJVior c s
  | .jVixor c => Sys2Proof.Machine.execJVixor c s
  | .jVishl c => Sys2Proof.Machine.execJVishl c s
  | .jVishr c => Sys2Proof.Machine.execJVishr c s
  | .jVisra c => Sys2Proof.Machine.execJVisra c s
  | .jVcvtf c => Sys2Proof.Machine.execJVcvtf c s
  | .jVcvti c => Sys2Proof.Machine.execJVcvti c s
  | .jVlane c => Sys2Proof.Machine.execJVlane c s
  | .jVicmplt c => Sys2Proof.Machine.execJVicmplt c s
  | .jVicmpeq c => Sys2Proof.Machine.execJVicmpeq c s
  | .jVquant c => Sys2Proof.Machine.execJVquant c s
  | .jVefq c => Sys2Proof.Machine.execJVefq c s
  | .jVdq c => Sys2Proof.Machine.execJVdq c s
  | .jVrb16 c => Sys2Proof.Machine.execJVrb16 c s
  | .jVpack c => Sys2Proof.Machine.execJVpack c s
  | .jVunpack c => Sys2Proof.Machine.execJVunpack c s
  | .jVspill c => Sys2Proof.Machine.execJVspill c s
  | .jVsumr c => Sys2Proof.Machine.execJVsumr c s
  | .jVmaxr c => Sys2Proof.Machine.execJVmaxr c s
  | .jVbrd c => Sys2Proof.Machine.execJVbrd c s
  | .jVperm c => Sys2Proof.Machine.execJVperm c s
  | .jVext c => Sys2Proof.Machine.execJVext c s
  | .jVld c => Sys2Proof.Machine.execJVld c s
  | .jVst c => Sys2Proof.Machine.execJVst c s
  | .jVlds c => Sys2Proof.Machine.execJVlds c s
  | .jVsts c => Sys2Proof.Machine.execJVsts c s
  | .jVgath c => Sys2Proof.Machine.execJVgath c s
  | .jVscat c => Sys2Proof.Machine.execJVscat c s
  | .jVld16 c => Sys2Proof.Machine.execJVld16 c s
  | .jVst16 c => Sys2Proof.Machine.execJVst16 c s
  | .jVld8 c => Sys2Proof.Machine.execJVld8 c s
  | .jVst8 c => Sys2Proof.Machine.execJVst8 c s
  | .jSld c => Sys2Proof.Machine.execJSld c s
  | .jSst c => Sys2Proof.Machine.execJSst c s
  | .jTrd c => Sys2Proof.Machine.execJTrd c s
  | .jTwr c => Sys2Proof.Machine.execJTwr c s
  | .jTfdt c => Sys2Proof.Machine.execJTfdt c s
  | .jTwait c => Sys2Proof.Machine.execJTwait c s
  | .streamCopyDone c => Sys2Proof.Machine.execStreamCopyDone c s
  | .jScadd c => Sys2Proof.Machine.execJScadd c s
  | .jScwait c => Sys2Proof.Machine.execJScwait c s
  | .jVhash c => Sys2Proof.Machine.execJVhash c s
  | .patrolScrub slow finds => Sys2Proof.Machine.execPatrolScrub slow finds s
  | .g7TempRead ch temp linkErrs => Sys2Proof.Machine.execG7TempRead ch temp linkErrs s
  | .g7RetrainDone ch ok => Sys2Proof.Machine.execG7RetrainDone ch ok s
  | .thermalReturnStart => Sys2Proof.Machine.execThermalReturnStart s
  | .migrationCopy => Sys2Proof.Machine.execMigrationCopy s
  | .memRelease v => Sys2Proof.Machine.execMemRelease v s
  | .memHoldTimeout => Sys2Proof.Machine.execMemHoldTimeout s
  | .lpTempRead l temp => Sys2Proof.Machine.execLpTempRead l temp s
  | .lp5xRetrainDone l ok => Sys2Proof.Machine.execLp5xRetrainDone l ok s
  | .d2dUnitReceive m toComp badLanes cls data => Sys2Proof.Machine.execD2dUnitReceive m toComp badLanes cls data s
  | .d2dRetrainDone m toComp => Sys2Proof.Machine.execD2dRetrainDone m toComp s
  | .flitData p bytes => Sys2Proof.Machine.execFlitData p bytes s
  | .flitIdle p bytes => Sys2Proof.Machine.execFlitIdle p bytes s
  | .flitNak p bytes => Sys2Proof.Machine.execFlitNak p bytes s
  | .flitMarker p bytes => Sys2Proof.Machine.execFlitMarker p bytes s
  | .flitTrain p peer => Sys2Proof.Machine.execFlitTrain p peer s
  | .flitSend p => Sys2Proof.Machine.execFlitSend p s
  | .laneLossOfLock p lanes => Sys2Proof.Machine.execLaneLossOfLock p lanes s
  | .chdPortRetrain p v => Sys2Proof.Machine.execChdPortRetrain p v s
  | .chordRetrainDone p ok => Sys2Proof.Machine.execChordRetrainDone p ok s
  | .reduceHop st hop blk elems scale late => Sys2Proof.Machine.execReduceHop st hop blk elems scale late s
  | .reduceDeadlineExpiry => Sys2Proof.Machine.execReduceDeadlineExpiry s
  | .wstreamLand w k => Sys2Proof.Machine.execWstreamLand w k s
  | .postMsg m => Sys2Proof.Machine.execPostMsg m s
  | .postApplied m => Sys2Proof.Machine.execPostApplied m s
  | .writeAck m => Sys2Proof.Machine.execWriteAck m s
  | .gradAck m => Sys2Proof.Machine.execGradAck m s
  | .mirrorAck m => Sys2Proof.Machine.execMirrorAck m s
  | .heartbeatPeriod => Sys2Proof.Machine.execHeartbeatPeriod s
  | .heartbeat m => Sys2Proof.Machine.execHeartbeat m s
  | .apexClaimTimer => Sys2Proof.Machine.execApexClaimTimer s
  | .apexClaim m => Sys2Proof.Machine.execApexClaim m s
  | .apexState m => Sys2Proof.Machine.execApexState m s
  | .vote m => Sys2Proof.Machine.execVote m s
  | .voteGraceExpiry => Sys2Proof.Machine.execVoteGraceExpiry s
  | .voteLimitExpiry => Sys2Proof.Machine.execVoteLimitExpiry s
  | .xvoteLimitExpiry g => Sys2Proof.Machine.execXvoteLimitExpiry g s
  | .recoveringPeriod => Sys2Proof.Machine.execRecoveringPeriod s
  | .voteResult m => Sys2Proof.Machine.execVoteResult m s
  | .digest m => Sys2Proof.Machine.execDigest m s
  | .failSelf m => Sys2Proof.Machine.execFailSelf m s
  | .recovery m => Sys2Proof.Machine.execRecovery m s
  | .recoveryPhaseEnd => Sys2Proof.Machine.execRecoveryPhaseEnd s
  | .weightRequest m => Sys2Proof.Machine.execWeightRequest m s
  | .mbCmdFirst m => Sys2Proof.Machine.execMbCmdFirst m s
  | .mbCmdNext m => Sys2Proof.Machine.execMbCmdNext m s
  | .mbCmdDone m => Sys2Proof.Machine.execMbCmdDone m s
  | .barMemoryWrite hdr b off data ep => Sys2Proof.Machine.execBarMemoryWrite hdr b off data ep s
  | .barMemoryRead hdr b off len => Sys2Proof.Machine.execBarMemoryRead hdr b off len s
  | .hstFlushRead => Sys2Proof.Machine.execHstFlushRead s
  | .pcieLinkDown => Sys2Proof.Machine.execPcieLinkDown s
  | .pcieLinkUp gen width => Sys2Proof.Machine.execPcieLinkUp gen width s
  | .linkDownLimitExpiry => Sys2Proof.Machine.execLinkDownLimitExpiry s
  | .hostReset => Sys2Proof.Machine.execHostReset s
  | .functionLevelReset => Sys2Proof.Machine.execFunctionLevelReset s
  | .d3hotEntry => Sys2Proof.Machine.execD3hotEntry s
  | .flushReadIssue => Sys2Proof.Machine.execFlushReadIssue s
  | .flushReadComplete => Sys2Proof.Machine.execFlushReadComplete s
  | .ethFrameReceive k kind rx => Sys2Proof.Machine.execEthFrameReceive k kind rx s
  | .ethPortDown k => Sys2Proof.Machine.execEthPortDown k s
  | .fdtData pkt => Sys2Proof.Machine.execFdtData pkt s
  | .fdtAck pkt => Sys2Proof.Machine.execFdtAck pkt s
  | .fdtNak pkt => Sys2Proof.Machine.execFdtNak pkt s
  | .fdtOpen pkt => Sys2Proof.Machine.execFdtOpen pkt s
  | .fdtOpenAck pkt => Sys2Proof.Machine.execFdtOpenAck pkt s
  | .fdtClose pkt => Sys2Proof.Machine.execFdtClose pkt s
  | .fdtCnp pkt => Sys2Proof.Machine.execFdtCnp pkt s
  | .fdtProbe pkt => Sys2Proof.Machine.execFdtProbe pkt s
  | .fdtRetxTimeout c => Sys2Proof.Machine.execFdtRetxTimeout c s
  | .fdtAckTimer c => Sys2Proof.Machine.execFdtAckTimer c s
  | .fdtProbeTimer c => Sys2Proof.Machine.execFdtProbeTimer c s
  | .fdtRatePeriod c => Sys2Proof.Machine.execFdtRatePeriod c s
  | .almCtrlFlush v => Sys2Proof.Machine.execAlmCtrlFlush v s
  | .almanacFlushEnd => Sys2Proof.Machine.execAlmanacFlushEnd s
  | .almanacSectorErase => Sys2Proof.Machine.execAlmanacSectorErase s
  | .mbxDoorbell hdr n => Sys2Proof.Machine.execMbxDoorbell hdr n s
  | .smbSendByte pecOk => Sys2Proof.Machine.execSmbSendByte pecOk s
  | .smbBadCommandCode code addr => Sys2Proof.Machine.execSmbBadCommandCode code addr s
  | .ethPortUp k => Sys2Proof.Machine.execEthPortUp k s
  | .selftestDone stage => Sys2Proof.Machine.execSelftestDone stage s
  | .mcbWriteDone ok => Sys2Proof.Machine.execMcbWriteDone ok s
  | .cpDebugHalt => Sys2Proof.Machine.execCpDebugHalt s
  | .cpDebugRelease => Sys2Proof.Machine.execCpDebugRelease s
  | .tapInstruction ir => Sys2Proof.Machine.execTapInstruction ir s
  | .configRequest hdr fn op => Sys2Proof.Machine.execConfigRequest hdr fn op s
  | .malformedTlp hdr => Sys2Proof.Machine.execMalformedTlp hdr s
  | .unsupportedRequest hdr k => Sys2Proof.Machine.execUnsupportedRequest hdr k s
  | .unexpectedCompletion hdr => Sys2Proof.Machine.execUnexpectedCompletion hdr s
  | .unassignedOpcode c => Sys2Proof.Machine.execUnassignedOpcode c s
  | .bar0BadSizeRead hdr off size => Sys2Proof.Machine.execBar0BadSizeRead hdr off size s

end Sys2Proof.Machine
end

