-- ==== Sys2Proof/Machine/RegRead.lean ====
section
/-! DEFINITION. What a read of BAR0 finds: every register of the module as its table lays it out (Tables 03-9 to 03-14, 06-15 to
06-17, 08-6, 08-7, 09-9 to 09-11, 11-8, 11-9, 12-8, 12-9, 13-5, 13-6, 14-9, 14-10). Write-only fields and reserved offsets read 0
(R13, R14). A read has no effect but those of MOD_COUNT_LOW_READ and HST_FLUSH_READ, which are commands of their own. -/

namespace Sys2Proof.Machine

/-- A word made of fields (value, lowest bit). -/
def regOf (fs : List (Nat × Nat)) : Word64 := BitVec.ofNat 64 (fs.map fun f => f.1 * 2 ^ f.2).sum

/-! ### Tables 13-5 and 13-6 -/

def mbStateNum : MbState → Nat
  | .idle => 0
  | .posted => 1
  | .running => 2
  | .done => 3

/-- MBX_STATE[n]. -/
def mbxStateReg (m : Mailbox) : Word64 := regOf [(m.lastSeq.toNat, 32), (m.status.toNat, 16), (mbStateNum m.state, 0)]

def State.readIdentity (s : State) (a : Nat) : Word64 :=
  if a = 0 then s.modId
  else if a = 8 then s.flash.serial
  else if a = 0x10 then s.modFw
  else if a = 0x18 then s.modStatusReg
  else if a = 0x20 then s.boot.modCount
  else if a = 0x28 then s.cp.resets
  else if a = 0x30 then s.boot.startupTick
  else if 0x180 ≤ a ∧ a < 0x200 then mbxStateReg (Sparse.get Reset.mailbox s.cp.mbx ((a - 0x180) / 8))
  else 0

/-! ### Table 06-16 -/

def qStateNum : QState → Nat
  | .disabled => 0
  | .idle => 1
  | .run => 2
  | .repoll => 3
  | .stale => 4
  | .stopped => 5
  | .replay => 6

/-- QCTRL[q]. -/
def qctrlReg (u : Queue) : Word64 := regOf [(bit u.enable, 63), (u.log2n, 32), (u.seqStart.toNat, 0)]
/-- QSTATUS[q]. -/
def qstatusReg (u : Queue) : Word64 :=
  regOf [(u.staleCount.toNat, 48), (u.attempts, 36), (qStateNum u.state, 32), (u.head.toNat, 0)]

def State.readStreams (s : State) (a : Nat) : Word64 :=
  let u := s.queue ((a - 0x11000) / 0x20)
  if a < 0x11980 then
    (match a % 0x20 / 8 with
    | 0 => u.base
    | 1 => qctrlReg u
    | 3 => qstatusReg u
    | _ => 0)
  else if a = 0x11980 then s.streams.qerr0
  else if a = 0x11988 then s.streams.qerr1
  else if a = 0x11990 then s.streams.jnlBase
  else if a = 0x11998 then s.streams.jnlSize
  else if a = 0x119A0 then s.streams.jnlUsed
  else if a = 0x119A8 then s.streams.jnlFail
  else if a = 0x119B0 then regOf [(bit s.streams.hostLost, 0)]
  else if a = 0x119B8 then s.streams.dbViolations
  else 0

/-- SC[n] (Table 06-17). -/
def scReg (c : Counter) : Word64 := regOf [(bit c.unf, 33), (bit c.ovf, 32), (c.value.toNat, 0)]

/-! ### Table 12-8 -/

def State.readPower (s : State) (a : Nat) : Word64 :=
  let o := a - 0x200000
  if o < 0x48 then s.pwrRegsAll.getD (o / 8) 0
  else if 0x100 ≤ o ∧ o < 0x150 then s.pwrRail ((o - 0x100) / 8)
  else if 0x200 ≤ o ∧ o < 0x260 then Sparse.get 0 s.pwrRegs.thrTime ((o - 0x200) / 8)
  else if 0x300 ≤ o ∧ o < 0x360 then Sparse.get 0 s.pwrRegs.thrEvents ((o - 0x300) / 8)
  else if 0x400 ≤ o ∧ o < 0x500 then
    let j := (o - 0x400) / 0x20
    let x := Sparse.get Reset.share s.pwrRegs.shares j
    (match o % 0x20 / 8 with
    | 0 => s.pwrShareReg j
    | 1 => x.mask
    | 2 => x.time
    | _ => 0)
  else 0

/-! ### Tables 14-9 and 14-10 -/

/-- ALM_FLASH_STATE.KEPT_FILL: positions of the kept edge that hold records. -/
def State.keptFill (s : State) : Nat :=
  if s.alm.bySeverity then 0 else (s.alm.flash.filter fun p => decide (p.1 < s.alm.keepUnits * 1024)).length

/-- Window slot k: the newest ring record whose SEQ mod 1,024 is k, else zeros (R409). -/
def State.windowSlot (s : State) (k : Nat) : List Byte :=
  match (s.alm.ring.filter fun r => r.seq.toNat % 1024 == k).getLast? with
  | some r => recBytes r false
  | none => List.replicate 32 0

def injReg (x : InjSlot) : Word64 :=
  regOf [(bit x.armed, 63), (bit x.everyN, 62), (x.detector.toNat, 32), (x.kind.toNat, 24), (x.index.toNat, 8), (x.sub.toNat, 0)]

def State.readAlmanac (s : State) (a : Nat) : Word64 :=
  let o := a - 0x210000
  let m := s.alm
  if o = 0 then
    regOf [(m.ring.length, 32), (s.unflushed, 16), (bit m.cfgMismatch, 3), (bit m.flashFull, 2), (bit m.flushing, 1), (bit m.bySeverity, 0)]
  else if o = 8 then regOf [(m.flushLevel, 16)]
  else if o = 0x10 then regOf [(m.nextSeq.toNat, 0)]
  else if o = 0x18 then (match m.flushedSeq with | some q => regOf [(1, 63), (q.toNat, 0)] | none => 0)
  else if o = 0x20 then m.lost
  else if o = 0x28 then m.folded
  else if o = 0x30 then regOf [(m.nextPos, 32), (s.keptFill, 0)]
  else if o = 0x38 then m.smbViol
  else if 0x100 ≤ o ∧ o < 0x200 then
    let x := s.injSlot ((o - 0x100) / 0x10)
    (if o % 0x10 = 0 then injReg x else regOf [(x.n.toNat, 32), (x.fired.toNat, 0)])
  else if 0x8000 ≤ o ∧ o < 0x10000 then BitVec.ofNat 64 (le (s.windowSlot ((o - 0x8000) / 32)) (o % 32) 8)
  else 0

/-! ### Tables 09-9 to 09-11 -/

def State.readChord (s : State) (a : Nat) : Word64 :=
  let o := a - 0x300000
  if 0x20000 ≤ o then (if o < 0x22000 then Sparse.get 0 s.chd.wstream ((o - 0x20000) / 8) else 0)
  else if 0x10000 ≤ o then Sparse.get 0 s.chd.reduce ((o - 0x10000) / 8)
  else if 0x1000 ≤ o ∧ o < 0x1800 then (portRegs (s.port ((o - 0x1000) / 0x100))).getD (o % 0x100 / 8) 0
  else if 0x100 ≤ o ∧ o < 0x140 then s.chdPos ((o - 0x100) / 8)
  else [s.chd.cfg, s.chd.arb, s.chd.deadline, s.chd.slice, s.chd.violLimit, s.chd.frozenDrop, s.chd.lateBlocks, s.chd.dropped].getD (o / 8) 0

/-! ### Tables 08-6 and 08-7 -/

def chStateNum : ChState → Nat
  | .up => 0
  | .retrain => 1
  | .migrating => 2
  | .retiredThermal => 3
  | .dead => 4
  | .returning => 5

def remapReg (r : Remap) : Word64 := regOf [(bit r.valid, 63), (r.kind, 56), (r.step.toNat, 16), (r.ch, 0)]

/-- LP_CH_STATUS: a channel whose attempt failed retrains until an attempt succeeds or it is dead. -/
def lpReg (c : LpChannel) : Word64 := regOf [(c.throttle, 8), (if c.dead then 4 else if c.fails = 0 then 0 else 1, 0)]

def State.readMemory (s : State) (a : Nat) : Word64 :=
  let o := a - 0x400000
  let m := s.mem
  if o < 0x38 then
    [regOf [(m.reserveCh, 16), (reserveNum m.reserve, 8), (bit m.hold, 1), (m.gen, 0)], m.ctrl, remapReg m.remap0, remapReg m.remap1,
      m.migDone, m.jnlCopy, m.scrubPass].getD (o / 8) 0
  else if 0x1000 ≤ o ∧ o < 0x1A00 then
    let c := s.channel ((o - 0x1000) / 0x20)
    [regOf [(c.park, 32), (c.throttle, 8), (chStateNum c.state, 0)], c.ce, c.ue, c.retrains].getD (o % 0x20 / 8) 0
  else if 0x2000 ≤ o ∧ o < 0x20A0 then
    regOf ((List.range 4).map fun k => (twos 16 (s.channel ((o - 0x2000) / 2 + k)).temp, 16 * k))
  else if 0x2100 ≤ o ∧ o < 0x2180 then regOf [(twos 16 (Sparse.get 0 m.lpTemp ((o - 0x2100) / 8)), 0)]
  else if 0x3000 ≤ o ∧ o < 0x3400 then
    let c := s.lp ((o - 0x3000) / 0x10)
    (if o % 0x10 = 0 then lpReg c else regOf [(c.ue.toNat, 32), (c.ce.toNat, 0)])
  else 0

/-! ### Tables 11-8 and 11-9 -/

def linkStateNum : LinkState → Nat
  | .down => 0
  | .l0 => 1
  | .recovery => 2
  | .rewrite => 3

def connStateNum : ConnState → Nat
  | .closed => 0
  | .opening => 1
  | .open_ => 2
  | .lost => 3

/-- HST_LINK: GEN reads 0 while the link is down. -/
def State.hstLinkReg (s : State) : Word64 :=
  let h := s.hst
  regOf [(if h.link = .down then 0 else h.gen, 24), (h.width, 16), (bit h.bme, 3), (bit h.msixEn, 2), (linkStateNum h.link, 0)]

/-- The MSI-X table's bytes: the mask bit is kept complemented (notes/assumptions/8.md). -/
def State.msixWord (s : State) (o : Nat) : Word64 :=
  let w := BitVec.ofNat 64 (leNat (Memory.bytes s.hst.msixTable o 8))
  if o % 16 = 8 then w ^^^ 0x100000000 else w

def connReg (c : Conn) : Word64 :=
  regOf [(c.localId.toNat, 32), (min 1023 (c.rate / 1000), 16), (c.ports, 8), (connStateNum c.state, 0)]

def State.readHost (s : State) (a : Nat) : Word64 :=
  let o := a - 0x500000
  let h := s.hst
  if o < 0x48 then
    [s.hstLinkReg, h.ctrl, s.boot.modCount, h.wlogBase, h.wlogSize, h.linkDowns, h.replayed, h.viol, h.oor].getD (o / 8) 0
  else if 0x2000 ≤ o ∧ o < 0x4000 then Sparse.get 0 h.watch ((o - 0x2000) / 8)
  else if 0x8000 ≤ o ∧ o < 0x10000 then s.msixWord (o - 0x8000)
  else if 0x10000 ≤ o ∧ o < 0x10100 then
    regOf ((h.pba.filter fun v => v / 64 == (o - 0x10000) / 8).map fun v => (1, v % 64))
  else if 0x11000 ≤ o ∧ o < 0x11080 then
    let p := s.ethPort ((o - 0x11000) / 0x40)
    [regOf [(p.state, 0)], p.mac.setWidth 64, p.txFrames, p.rxFrames, p.rxDrop, p.fcsErr, p.fecCorr, p.other].getD (o % 0x40 / 8) 0
  else if 0x12000 ≤ o ∧ o < 0x12800 then
    let c := s.conn ((o - 0x12000) / 0x20)
    [connReg c, c.txBytes, c.retx, c.cnp].getD (o % 0x20 / 8) 0
  else if o = 0x13000 then regOf [(s.eth.retryLimit, 24), (s.eth.dscp, 16), (s.eth.udpPort, 0)]
  else if o = 0x13008 then s.eth.viol
  else if o = 0x13010 then s.eth.dropped
  else 0

/-! ### Tables 03-9 to 03-14 -/

def engStateNum : EngState → Nat
  | .idle => 0
  | .rampUp => 1
  | .run => 2
  | .rampDown => 3
  | .faultStop => 4
  | .retired => 5

/-- ENG_STATUS (Table 03-11). -/
def engStatusReg (r : TileRegs) : Word64 :=
  regOf [(r.rampStep, 32), (engStateNum r.state, 12), (bit r.split, 11), (bit (r.cpScratch || bitOf r.ctrl.toNat 1), 10)]

/-- A register of the window of physical tile p, whose logical engine is e. -/
def State.readTile (s : State) (p : Nat) (o : Nat) : Word64 :=
  let r := (s.tile p).regs
  [regOf [(p / 17, 16), ((s.engineOf p).getD 0, 8), (p, 0)], engStatusReg r, r.ctrl ||| BitVec.ofNat 64 (bit r.pmHalt), 0, r.snapWaves, r.snapHalt, r.snapTick, r.waves,
    r.haltTicks, r.fault, r.poison.setWidth 64, 0, r.abortResult, r.zeroBlocks, r.chainTrunc, r.residueErr,
    BitVec.ofNat 64 (twos 16 (Sparse.get 0 s.pwrDyn.readings p))].getD (o / 8) 0

def tileMapReg (m : TileMapEntry) : Word64 := regOf [(m.subst, 8), (bit m.valid, 7), (m.ptile, 0)]

/-! ### BAR0 -/

/-- The 8 bytes of BAR0 at an aligned offset. -/
def State.bar0Read (s : State) (a : Nat) : Word64 :=
  if a < 0x1000 then s.readIdentity a
  else if a < 0x11000 then BitVec.ofNat 64 (leNat (Memory.bytes (Sparse.get Reset.mailbox s.cp.mbx (a / 0x1000 - 1)).bytes (a % 0x1000) 8))
  else if a < 0x12000 then s.readStreams a
  else if 0x100000 ≤ a ∧ a < 0x120000 then scReg (s.counter ((a - 0x100000) / 8))
  else if 0x200000 ≤ a ∧ a < 0x210000 then s.readPower a
  else if 0x210000 ≤ a ∧ a < 0x220000 then s.readAlmanac a
  else if 0x300000 ≤ a ∧ a < 0x400000 then s.readChord a
  else if 0x400000 ≤ a ∧ a < 0x500000 then s.readMemory a
  else if 0x500000 ≤ a ∧ a < 0x520000 then s.readHost a
  else if 0x1000000 ≤ a ∧ a < 0x1400000 then
    (match s.ptile ((a - 0x1000000) / 0x10000) with
    | some p => s.readTile p (a % 0x10000)
    | none => 0)
  else if 0x2000000 ≤ a ∧ a < 0x2440000 then s.readTile ((a - 0x2000000) / 0x10000) (a % 0x10000)
  else if 0x3000000 ≤ a ∧ a < 0x3000200 then tileMapReg (s.tmap ((a - 0x3000000) / 8))
  else if 0x3000200 ≤ a ∧ a < 0x3000420 then regOf [(healthNum (s.tile ((a - 0x3000200) / 8)).health, 0)]
  else 0

/-- A read of 4 bytes at an aligned offset: one half of its register (R310). The high half of MOD_COUNT reads as the last read of the
low half latched it (R52). -/
def State.bar0Half (s : State) (off : Nat) : Word32 :=
  if off = 0x24 then s.boot.hiLatch.getD (s.boot.modCount.extractLsb' 32 32)
  else (s.bar0Read (off / 8 * 8)).extractLsb' (8 * (off % 8)) 32

end Sys2Proof.Machine
end

