-- ==== Sys2Proof/Safety.lean ====
section
/-! DEFINITION. What counts as a safe run, and the predicates that the statements use: how a context stands before an instruction,
what an instruction or a command leaves changed, and the instructions of one shape in a list with the value each computes. -/

namespace Sys2Proof

/-- k steps from s all answer next states: the module's own faults are records, statuses and bits of its state. -/
def SafeFor (k : Nat) (s : Machine.State) : Prop := ∃ t, Host.Core.run Sys2Proof.core k s = .next t

namespace Machine

/-! ### JVI contexts (R188, R189) -/

/-- Context c runs, has vector steps left (R165), and its next instruction is the word w of opcode op. -/
def State.AtOp (s : State) (c : Ctx) (w : Word64) (op : Nat) : Prop :=
  (s.ctx c).busy = true ∧ (s.ctx c).spent = false ∧ (s.ctx c).code[(s.ctx c).pc]? = some w ∧ jOp w = op
/-- The same, and another instruction follows it. -/
def State.InKernel (s : State) (c : Ctx) (w : Word64) (op : Nat) : Prop :=
  s.AtOp c w op ∧ (s.ctx c).pc + 1 < (s.ctx c).code.length
/-- What refuses an instruction: its VECTOR completes with ST_BAD_OPCODE. -/
def State.refuseVector (s : State) (c : Ctx) : State := s.endVector (s.ctx c).queue (s.ctx c).seq stBadOpcode

/-- Lane i of v[r]. -/
def JviCtx.lane (x : JviCtx) (n r i : Nat) : Word32 := (x.getV n r).getD i 0
/-- Lane i of p[r]. -/
def JviCtx.plane (x : JviCtx) (n r i : Nat) : Bool := (x.getP n r).getD i false
/-- The predicate and its negation let lane i take part (R189). -/
def JviCtx.acts (x : JviCtx) (n : Nat) (w : Word64) (i : Nat) : Bool := x.plane n (jP w) i != jNeg w
/-- Lanes of a context. -/
def State.vlen (s : State) (c : Ctx) : Nat := (s.jenv c).vlen

/-- From s to t the context c ran one vector step: its pc and step count went up by one, s[d] holds v (s0 stays zero), and nothing
else of the module changed. -/
def State.WroteS (s t : State) (c : Ctx) (d : Nat) (v : Word64) : Prop :=
  t = s.setCtx c { (s.ctx c).tick with s := (t.ctx c).s } ∧
    ∀ j, (t.ctx c).getS j = if j = d ∧ d ≠ 0 then v else (s.ctx c).getS j

/-- From s to t the context c ran one vector step: each lane of v[d] that takes part holds its value, every other lane and register
is as it was, and nothing else of the module changed. -/
def State.WroteV (s t : State) (c : Ctx) (w : Word64) (d : Nat) (val : Nat → Word32) : Prop :=
  t = s.setCtx c { (s.ctx c).tick with v := (t.ctx c).v } ∧
    (∀ j, j ≠ d → (t.ctx c).getV (s.vlen c) j = (s.ctx c).getV (s.vlen c) j) ∧
    ∀ i, i < s.vlen c → (t.ctx c).lane (s.vlen c) d i = if (s.ctx c).acts (s.vlen c) w i then val i else (s.ctx c).lane (s.vlen c) d i

/-- The same for p[d]; p0 stays all ones. -/
def State.WroteP (s t : State) (c : Ctx) (w : Word64) (d : Nat) (val : Nat → Bool) : Prop :=
  t = s.setCtx c { (s.ctx c).tick with p := (t.ctx c).p } ∧
    (∀ j, j ≠ d ∨ j = 0 → (t.ctx c).getP (s.vlen c) j = (s.ctx c).getP (s.vlen c) j) ∧
    ∀ i, i < s.vlen c → d ≠ 0 →
      (t.ctx c).plane (s.vlen c) d i = if (s.ctx c).acts (s.vlen c) w i then val i else (s.ctx c).plane (s.vlen c) d i

/-- One lane-wise form: the opcode, the command, and lane i of the result from the environment, the word and the context. -/
structure LaneOp where
  op : Nat
  cmd : Ctx → Instr
  val : JEnv → Word64 → JviCtx → Nat → Word32

def lane1 (op : Nat) (cmd : Ctx → Instr) (f : Word64 → Word32 → Word32) : LaneOp :=
  ⟨op, cmd, fun v w x i => f w (x.lane v.vlen (jA w) i)⟩
def lane2 (op : Nat) (cmd : Ctx → Instr) (f : Word32 → Word32 → Word32) : LaneOp :=
  ⟨op, cmd, fun v w x i => f (x.lane v.vlen (jA w) i) (x.lane v.vlen (jB w) i)⟩

/-- Class 0x2 but the compares (Table 06-18). -/
def fpOps : List LaneOp :=
  [lane2 0x20 .jVadd fadd, lane2 0x21 .jVsub fsub, lane2 0x22 .jVmul fmul,
    ⟨0x23, .jVfma, fun v w x i => ffma (x.lane v.vlen (jA w) i) (x.lane v.vlen (jB w) i) (x.lane v.vlen (jC w) i)⟩,
    lane2 0x24 .jVmin fmin, lane2 0x25 .jVmax fmax, lane1 0x26 .jVabs (fun _ a => a &&& 0x7FFFFFFF),
    lane1 0x27 .jVneg (fun _ a => a ^^^ 0x80000000),
    ⟨0x2B, .jVsel, fun v w x i => if x.plane v.vlen (jC w % 8) i then x.lane v.vlen (jA w) i else x.lane v.vlen (jB w) i⟩,
    ⟨0x2C, .jVbcast, fun _ w x _ => (x.getS (jA w)).setWidth 32⟩, ⟨0x2D, .jVimm, fun _ w _ _ => BitVec.ofNat 32 (jImm w)⟩,
    lane1 0x2E .jVrsubi (fun w a => fsub (BitVec.ofNat 32 (jImm w)) a), lane1 0x2F .jVmuli (fun w a => fmul a (BitVec.ofNat 32 (jImm w)))]

/-- Class 0x3 but DERIV and DCODE, and the lane-wise conversions of class 0x5. -/
def fnOps : List LaneOp :=
  [lane1 0x30 .jVexp2 (fun _ => exp2), lane1 0x31 .jVsqrt (fun _ => fsqrt), lane1 0x32 .jVrecip (fun _ => frecip),
    lane1 0x33 .jVrsqrt (fun _ => frsqrt), lane1 0x34 .jVlog2 (fun _ => flog2), lane1 0x52 .jVdq (fun w => dequant (jImm w % 4)),
    lane1 0x53 .jVrb16 (fun _ a => b16to32 (toB16 (decode32 a)))]

/-- Class 0x4 but the compares: sums and products modulo 2^32, shifts by B mod 32. -/
def intOps : List LaneOp :=
  [lane2 0x40 .jViadd (· + ·), lane2 0x41 .jVisub (· - ·), lane2 0x42 .jVimul (· * ·), lane2 0x43 .jViand (· &&& ·),
    lane2 0x44 .jVior (· ||| ·), lane2 0x45 .jVixor (· ^^^ ·), lane2 0x46 .jVishl (fun a b => a <<< (b.toNat % 32)),
    lane2 0x47 .jVishr (fun a b => a >>> (b.toNat % 32)), lane2 0x48 .jVisra (fun a b => a.sshiftRight (b.toNat % 32)),
    lane1 0x49 .jVcvtf (fun _ => cvtF), lane1 0x4A .jVcvti (fun _ => cvtI), ⟨0x4B, .jVlane, fun _ _ _ i => BitVec.ofNat 32 i⟩]

/-- The group of lanes that a reduction joins with lane i: 32 lanes or all (R190, R204), those that take no part as the unit. -/
def groupOf (v : JEnv) (w : Word64) (x : JviCtx) (unit : Word32) (i : Nat) : List Word32 :=
  let k := if jImm w % 2 = 1 ∨ v.block32 = true then 32 else v.vlen
  (List.range k).map fun j =>
    if x.acts v.vlen w (k * (i / k) + j) then x.lane v.vlen (jA w) (k * (i / k) + j) else unit

/-- Classes 0x6 and 0xA but EXT. -/
def crossOps : List LaneOp :=
  [⟨0x60, .jVsumr, fun v w x i => tree fadd 9 (groupOf v w x 0 i)⟩, ⟨0x61, .jVmaxr, fun v w x i => tree fmax 9 (groupOf v w x 0xFF800000 i)⟩,
    ⟨0x62, .jVbrd, fun v w x _ => x.lane v.vlen (jA w) ((x.getS (jB w)).toNat % v.vlen)⟩,
    ⟨0x63, .jVperm, fun v w x i => x.lane v.vlen (jA w) ((x.lane v.vlen (jB w) i).toNat % v.vlen)⟩,
    ⟨0xA0, .jVhash, fun v w x i => BitVec.ofNat 32 (srHash v.step ((x.getS (jA w)).setWidth 32)
      (x.getS (jC w) + (x.lane v.vlen (jB w) i).setWidth 64) v.k0 v.k1)⟩]

/-- Compares of classes 0x2 and 0x4: the opcode, the command, the test. -/
def cmpOps : List (Nat × (Ctx → Instr) × (Word32 → Word32 → Bool)) :=
  [(0x28, .jVcmplt, flt), (0x29, .jVcmple, fun a b => flt a b || feq a b), (0x2A, .jVcmpeq, feq),
    (0x4C, .jVicmplt, fun a b => decide (a.toInt < b.toInt)), (0x4D, .jVicmpeq, fun a b => a == b)]

/-- Class 0x1 but SRD: the opcode, the command, the result from the immediate, s[A] and s[B]. -/
def scalarOps : List (Nat × (Ctx → Instr) × (Nat → Word64 → Word64 → Word64)) :=
  [(0x10, .jSadd, fun m a b => a + b + BitVec.ofInt 64 (signedOf 32 m)), (0x11, .jSsub, fun _ a b => a - b),
    (0x12, .jSmul, fun _ a b => a * b), (0x13, .jSand, fun _ a b => a &&& b), (0x14, .jSor, fun _ a b => a ||| b),
    (0x15, .jSxor, fun _ a b => a ^^^ b), (0x16, .jSshl, fun m a b => a <<< ((b.toNat + m) % 64)),
    (0x17, .jSshr, fun m a b => a >>> ((b.toNat + m) % 64)), (0x18, .jSsra, fun m a b => a.sshiftRight ((b.toNat + m) % 64)),
    (0x19, .jSlui, fun m a _ => BitVec.ofNat 64 (m * 2 ^ 32) ||| (a &&& 0xFFFFFFFF)),
    (0x1A, .jScmplt, fun _ a b => if a.toNat < b.toNat then 1 else 0), (0x1B, .jScmpeq, fun _ a b => if a = b then 1 else 0),
    (0x1C, .jScmplts, fun _ a b => if a.toInt < b.toInt then 1 else 0)]

/-- Branches but LOOP: the opcode, the command, and whether it is taken from s[A]. -/
def branchOps : List (Nat × (Ctx → Instr) × (Word64 → Bool)) :=
  [(0x01, .jJmp, fun _ => true), (0x02, .jBz, fun a => a == 0), (0x03, .jBnz, fun a => a != 0)]

/-- Where a context stands after a branch from pc: the target pc + 1 + sext(imm) must lie in the kernel (R190). -/
def State.branchTo (s : State) (c : Ctx) (w : Word64) (taken : Bool) (y : JviCtx) : State :=
  let target : Int := if taken then (y.pc : Int) + signedOf 32 (jImm w) else y.pc
  if 0 ≤ target ∧ target < y.code.length then s.setCtx c { y with pc := target.toNat } else s.refuseVector c

/-! ### Formats -/

/-- Lane i of a 32-lane block as a format instruction takes it: a lane that takes no part is +0 (R190). -/
def blockLane (v : JEnv) (w : Word64) (x : JviCtx) (r b k : Nat) : Word32 :=
  if x.acts v.vlen w (32 * b + k) then x.lane v.vlen r (32 * b + k) else 0

/-- Block b of VQUANT: the window and element of the immediate, stochastic rounding where it says so, with the hash of each lane's
index (R107, R110). -/
def vquantBlock (v : JEnv) (w : Word64) (x : JviCtx) (b : Nat) : Quant :=
  let m := jImm w
  quantiseBlock ((List.range 32).map fun k => decode32 (blockLane v w x (jA w) b k)) (bitsOf m 7 7) (bitsOf m 0 7)
    (elemOf (bitsOf m 14 2)) (bitsOf m 16 2 == 2) fun k =>
      srHash v.step ((x.getS (jB w)).setWidth 32) (x.getS (jC w) + BitVec.ofNat 64 (32 * b + k)) v.k0 v.k1

/-- Block b of VEFQ: the values and the residuals, and what the rounding leaves (R112). -/
def vefqBlock (v : JEnv) (w : Word64) (x : JviCtx) (b : Nat) : Quant × List Word16 :=
  let m := jImm w
  efBlock ((List.range 32).map fun k => blockLane v w x (jA w) b k)
    ((List.range 32).map fun k => (blockLane v w x (jB w) b k).setWidth 16) (bitsOf m 7 7) (bitsOf m 0 7) (elemOf (bitsOf m 14 2))

/-- Element k of a quantised block as a lane: its code, the scale byte, the clamp bit. -/
def quantLane (q : Quant) (k : Nat) : Word32 :=
  BitVec.ofNat 32 (q.codes.getD k 0 + q.scale.toNat * 256 + bit (q.clamped.getD k false) * 65536)

/-- The state with the non-finite flag of the step, where a quantiser met one (R116). -/
def State.markNonfinite (s : State) (b : Bool) : State := if b then s.onScales fun z => { z with nonfinite := true } else s

/-! ### Loads and stores of a context -/

/-- The address of lane i (Table 06-18, class 0x7). -/
def lanePlace (v : JEnv) (form : LaneForm) (size : Nat) (w : Word64) (x : JviCtx) (i : Nat) : Nat :=
  laneAddr form size w x (x.getV v.vlen (jB w)) i

/-- Vector loads and stores: the opcode, the command, the form and the bytes of a lane. -/
def loadOps : List (Nat × (Ctx → Instr) × LaneForm × Nat) :=
  [(0x70, .jVld, .unit, 4), (0x72, .jVlds, .stride, 4), (0x74, .jVgath, .index, 4), (0x76, .jVld16, .unit, 2), (0x78, .jVld8, .unit, 1)]
def storeOps : List (Nat × (Ctx → Instr) × LaneForm × Nat) :=
  [(0x71, .jVst, .unit, 4), (0x73, .jVsts, .stride, 4), (0x75, .jVscat, .index, 4), (0x77, .jVst16, .unit, 2), (0x79, .jVst8, .unit, 1)]

/-- The byte at an address of a context's memory. -/
def State.ctxByte (s : State) (c : Ctx) (a : Nat) : Nat := s.ctxLoad c a 1

/-- No codeword of the context's scratchpad is marked bad. -/
def State.padClean (s : State) (c : Ctx) : Prop := ∀ p, s.ctxTile c = some p → (s.tile p).mem.badPad = []

/-- From s to t the context c went on to y and only bytes of its own memory may differ. -/
def State.StoredOnly (s t : State) (c : Ctx) (y : JviCtx) : Prop :=
  t.ctx c = y ∧
  match c with
  | .core k =>
    t = { s with comp := { s.comp with cores := t.comp.cores, local_ := t.comp.local_ } } ∧
      ∀ j : Nat, j ≠ k.val → Sparse.get Reset.jvi t.comp.cores j = Sparse.get Reset.jvi s.comp.cores j ∧ t.localMem j = s.localMem j
  | .engine e =>
    t = { s with tiles := t.tiles } ∧
      ∀ q : Nat, (s.ptile e.val = some q → t.tile q = { s.tile q with
          vec := y, mem := { (s.tile q).mem with pad := (t.tile q).mem.pad, badPad := (t.tile q).mem.badPad } }) ∧
        (s.ptile e.val ≠ some q → t.tile q = s.tile q)

/-! ### The host write log (R314) -/

/-- G7 byte a lies in the ring of the host write log. -/
def State.inLog (s : State) (a : Nat) : Prop :=
  s.hst.wlogBase.toNat ≤ a ∧ a < s.hst.wlogBase.toNat + s.hst.wlogSize.toNat

/-- From s to t the bytes of G7 outside the host write log, and the codewords that lie wholly outside it, are as they were. -/
def State.SameG7 (s t : State) : Prop :=
  (∀ a, ¬s.inLog a → Memory.read t.mem.g7 a = Memory.read s.mem.g7 a) ∧
    ∀ w, (∀ a, a / 32 = w → ¬s.inLog a) → t.g7Health w = s.g7Health w

/-! ### Stavmon commands (R374 to R384) -/

/-- A command of opcode op waits in the mailbox of route r: posted, past checks 1 to 4 of R376, and the CP takes commands. -/
def State.Waits (s : State) (r : Route) (op : Nat) : Prop :=
  (s.mbox r).state = .posted ∧ (s.mbox r).checked = true ∧ mOp (s.mbox r).request = op ∧ s.cpReady = true
/-- The same, and neither standby nor ROM denies it (R376 check 5). -/
def State.Allowed (s : State) (r : Route) (op : Nat) : Prop := s.Waits r op ∧ s.deny r op = none
/-- The payload of the command in the mailbox of route r. -/
def State.payload (s : State) (r : Route) : List Byte := mPayload (s.mbox r).request

/-- From s to t only the answer in the mailbox of route r was written: other mailboxes, and everything but the messages that the
answer sends (an MSI-X message with its place in the write log, a control message, which waits here when this position is its own
destination), are as they were. -/
def State.OnlyAnswers (s t : State) (r : Route) : Prop :=
  t = { s with
    cp := { s.cp with mbx := t.cp.mbx, smb := t.cp.smb }
    hst := { s.hst with
      pba := t.hst.pba, wait := t.hst.wait, wlog := t.hst.wlog, wlogPos := t.hst.wlogPos, handed := t.hst.handed, lastAddr := t.hst.lastAddr }
    mem := { s.mem with g7 := t.mem.g7, badG7 := t.mem.badG7 }
    chd := { s.chd with turn := t.chd.turn, ports := t.chd.ports, ctlIn := t.chd.ctlIn }
    out := t.out } ∧ s.SameG7 t ∧ s.chd.ctlIn <+: t.chd.ctlIn ∧ ∀ q, q ≠ r → t.mbox q = s.mbox q

/-- The command i answers in the mailbox of route r with a status and a response, and its effect is to reach s'. -/
def State.Completes (s : State) (i : Instr) (r : Route) (status : Word16) (resp : List Byte) (s' : State) : Prop :=
  ∃ t, exec i s = .next t ∧ (t.mbox r).state = .done ∧ (t.mbox r).status = status ∧ (t.mbox r).response = resp ∧ s'.OnlyAnswers t r

/-- The command i runs on from s' (R375, RUNNING). -/
def State.RunsOn (s : State) (i : Instr) (r : Route) (s' : State) : Prop :=
  exec i s = .next (s'.setMbox r { s'.mbox r with state := .running, reached := some stOk })

/-- The command i runs on from s' before its commit point (R381): a warm restart answers it ST_FAULTED. -/
def State.RunsBefore (s : State) (i : Instr) (r : Route) (s' : State) : Prop :=
  exec i s = .next (s'.setMbox r { s'.mbox r with state := .running, reached := none })

/-- The STATUS that the response in the mailbox of route r carries (Table 13-7). -/
def State.answered (s : State) (r : Route) : Nat := le (Memory.bytes (s.mbox r).bytes 0 64) 12 2

/-- Every Stavmon command with its opcode (Table 13-9) but UPD_COMMIT, which waits for the conditions of R205. -/
def stavmonOps : List (Nat × (Route → Instr)) :=
  [(0x0101, .modInfo), (0x0102, .modPowerOn), (0x0103, .modPowerOff), (0x0104, .modReset), (0x0105, .modStatus), (0x0201, .cfgMcbRead),
    (0x0202, .cfgMcbWrite), (0x0203, .cfgScaleRead), (0x0204, .cfgScaleWrite), (0x0205, .cfgFdtPort), (0x0206, .cfgFdtOpen),
    (0x0207, .cfgFdtClose), (0x0301, .pwrCap), (0x0302, .pwrEnvelope), (0x0303, .pwrTarget), (0x0304, .pwrShare), (0x0305, .pwrPark),
    (0x0306, .pwrStatus), (0x0401, .memQuota), (0x0402, .memAlloc), (0x0403, .memFree), (0x0404, .memUsage), (0x0501, .chdStatus),
    (0x0601, .jobStart), (0x0602, .jobStop), (0x0603, .jobAbort), (0x0604, .jobStatus), (0x0701, .updLayout), (0x0702, .updGroupWrite),
    (0x0703, .updGroupRead), (0x0704, .updScheduleWrite), (0x0705, .updProgramLoad), (0x0707, .updRestore), (0x0708, .updDigestVerdict),
    (0x0709, .updRepair), (0x070A, .updExportStart), (0x070B, .updExportAbort), (0x0801, .almRead), (0x0802, .almConfig),
    (0x0803, .almFlush), (0x0901, .secIdentity), (0x0902, .secAttest), (0x0903, .secFwWrite), (0x0904, .secFwActivate),
    (0x0905, .secLmsStatus), (0x0A01, .diagInject), (0x0A02, .diagSelftest), (0x0A03, .diagClear), (0x0B01, .grpConfig),
    (0x0B02, .grpPolicy), (0x0B03, .grpStatus), (0x0B04, .grpStats), (0x0B05, .grpSubstitute), (0x0B06, .grpRecover), (0x0B07, .grpReady),
    (0x0B08, .grpReturn), (0x0C01, .hstCorrelate), (0x0C02, .hstFence), (0x0C03, .hstBufRegister), (0x0C04, .hstBufList)]

/-- Commands that only report: the opcode, the command, the response. -/
def reportOps : List (Nat × (Route → Instr) × (State → List Byte → List Byte)) :=
  [(0x0101, .modInfo, fun s _ => leBytes 8 s.modId.toNat ++ leBytes 8 s.flash.serial.toNat ++ leBytes 8 s.modFw.toNat ++ padTo 64 s.flash.header),
    (0x0105, .modStatus, fun s _ => leBytes 8 s.modStatusReg.toNat ++ leBytes 8 s.boot.modCount.toNat ++ leBytes 4 s.cp.smb.lastSeq.toNat ++
      leBytes 1 (match s.cp.smb.state with | .idle => 0 | .posted => 1 | .running => 2 | .done => 3)),
    (0x0201, .cfgMcbRead, fun s _ => Memory.bytes s.flash.bytes 0x10010000 2048),
    (0x0306, .pwrStatus, fun s _ => s.pwrRegsAll.flatMap fun w => leBytes 8 w.toNat),
    (0x0404, .memUsage, fun s _ => (List.range 8).flatMap fun j => leBytes 8 (Sparse.get 0 s.job.quota j) ++
      leBytes 8 ((s.job.grants.filter fun g => g.slot == j).map (·.size)).sum),
    (0x0501, .chdStatus, fun s _ => (List.range 8).flatMap fun p => (portRegs (s.port p)).flatMap fun w => leBytes 8 w.toNat),
    (0x0604, .jobStatus, fun s _ =>
      let j := fld s.chd.slice 0 8
      leBytes 4 (if s.job.slots.any fun k => k.1 == j then j else 0xFF) ++ leBytes 4 s.committedStep ++ leBytes 1 (bit s.streams.hostLost) ++
        leBytes 1 (fld s.chd.slice 16 4 * 16 + fld s.chd.slice 20 4) ++ leBytes 1 (fld s.chd.slice 8 4 * 16 + fld s.chd.slice 12 4)),
    (0x0905, .secLmsStatus, fun s _ => leBytes 4 s.flash.lmsNext ++ leBytes 4 (2 ^ 25 - s.flash.lmsNext)),
    (0x0B03, .grpStatus, fun s _ => leBytes 2 (roleNum s.grp.role) ++ leBytes 2 s.grp.epoch.toNat ++
      leBytes 4 (if s.grp.pos.isSome then s.ownIndex else 0xFF) ++ ((List.range 8).flatMap fun y => leBytes 8 (s.chdPos y).toNat) ++
      leBytes 4 s.grp.phase ++ leBytes 4 s.job.step.toNat),
    (0x0B04, .grpStats, fun s _ =>
      let g := s.grpStats
      ([g.votes] ++ [1, 2, 3].map (fun c => Sparse.get 0 g.skips c) ++
        [g.lateFolded, g.lateDropped, g.lateNonfinite, g.recoveries, g.takeovers]).flatMap fun w => leBytes 8 w.toNat),
    (0x0C04, .hstBufList, fun s b =>
      let l := (s.hst.ranges.drop (le b 0 2)).take 250
      leBytes 2 (le b 0 2) ++ leBytes 2 l.length ++ leBytes 4 0 ++ l.flatMap fun r => leBytes 8 r.1 ++ leBytes 8 r.2)]

/-- The granted ranges of G7 meet nowhere. -/
def disjointGrants (l : List MemGrant) : Prop := l.Pairwise fun a b => a.addr + a.size ≤ b.addr ∨ b.addr + b.size ≤ a.addr

/-! ### Work items -/

/-- The item that queue q takes next, of kind k and in step order; a replayed item ran in its order before (Table 05-7, R160, R186). -/
def State.Takes (s : State) (q : Nat) (i : Item) (k : Kind) : Prop :=
  s.takeable q = some i ∧ dKind i.desc = some k ∧ s.refusesStep q i = false

/-! ### Messages and flits -/

/-- A flit that arrives on a port that runs passes FEC and CRC with a header of the type and nothing reserved in it. -/
def State.GoodFlit (s : State) (p : Nat) (bytes : List Byte) (type : Nat) : Prop :=
  portRuns (s.port p) = true ∧ flitCrc (flitFec (padTo 1024 bytes)).1 = true ∧ (hdrOf (flitFec (padTo 1024 bytes)).1).type = type ∧
    flitOdd (hdrOf (flitFec (padTo 1024 bytes)).1) = false

/-- A control message of kind k that came over chord port p under an epoch not older than the one followed. -/
def State.Fresh (s : State) (m : CtlMsg) (p : Fin 8) (k : Nat) : Prop :=
  m.port = some p ∧ le m.bytes 0 1 = k ∧ s.grp.epoch.toNat ≤ (msgEpoch m.bytes).toNat

/-! ### FDT packets -/

/-- The frame of a packet passes the MAC, its datagram is for FDT, and nothing in it is malformed (R321 to R323, Table 11-7 row 9). -/
def State.TakesPacket (s : State) (pkt : FdtPacket) : Prop :=
  pkt.rx.fcsOk = true ∧ pkt.rx.len ≤ 9216 ∧ pkt.rx.fits = true ∧ pkt.dstPort = s.eth.udpPort ∧ pkt.checkOk = true ∧ fdtMalformed pkt = false

/-! ### Injection -/

/-- No injection slot is set and no injected fault is being handled (R404, R405): detectors fire for real events alone. -/
def State.Quiet (s : State) : Prop := s.alm.slots = [] ∧ s.alm.injKeys = []

end Machine

end Sys2Proof
end

