-- ==== Sys2Proof/Certificates/Slice0/Obligations.lean ====
section
/-! DEFINITION. The statements for the provers. -/

open Sys2Proof Sys2Proof.Machine

/-! ### The queue of commands -/

/-- A step runs the command at the front of the queue on the state with the queue's rest. -/
def Obligations.StepRunsFront : Prop :=
  ∀ (c : Instr) (r : List Instr) (s : State), s.pending = c :: r → step s = exec c { s with pending := r }

/-- The model's choice (notes/assumptions/1.md): on an empty queue the block idles. -/
def Obligations.StepIdles : Prop := ∀ s : State, s.pending = [] → step s = .next s

/-! ### JVI (R189, R190, R191, Table 06-18) -/

/-- The lane-wise FP32 instructions. -/
def Obligations.JviFpLanes : Prop :=
  ∀ (s : State) (c : Ctx) (w : Word64), ∀ o ∈ fpOps, s.InKernel c w o.op →
    ∃ t, exec (o.cmd c) s = .next t ∧ s.WroteV t c w (jD w) (o.val (s.jenv c) w (s.ctx c))

/-- The functions and the lane-wise conversions; DERIV and DCODE: functions 0 to 8 are computed, 9 to 15 end the VECTOR with
ST_BAD_OPCODE (R137). What DCODE writes of an infinite result is the model's (log entry 263). -/
def Obligations.JviFunctionLanes : Prop :=
  ∀ (s : State) (c : Ctx) (w : Word64),
    (∀ o ∈ fnOps, s.InKernel c w o.op → ∃ t, exec (o.cmd c) s = .next t ∧ s.WroteV t c w (jD w) (o.val (s.jenv c) w (s.ctx c))) ∧
    (s.InKernel c w 0x35 →
      (jImm w % 16 < 9 → ∃ t, exec (.jVderiv c) s = .next t ∧
        s.WroteV t c w (jD w) fun i => deriv (jImm w % 16) ((s.ctx c).lane (s.vlen c) (jA w) i)) ∧
      (9 ≤ jImm w % 16 → exec (.jVderiv c) s = .next (s.refuseVector c))) ∧
    (s.InKernel c w 0x36 →
      (jImm w % 16 < 9 → ∃ t, exec (.jVdcode c) s = .next t ∧
        s.WroteV t c w (jD w) fun i => BitVec.ofNat 32 (dcode (jImm w % 16) ((s.ctx c).lane (s.vlen c) (jA w) i))) ∧
      (9 ≤ jImm w % 16 → exec (.jVdcode c) s = .next (s.refuseVector c)))

/-- The lane-wise integer instructions. -/
def Obligations.JviIntegerLanes : Prop :=
  ∀ (s : State) (c : Ctx) (w : Word64), ∀ o ∈ intOps, s.InKernel c w o.op →
    ∃ t, exec (o.cmd c) s = .next t ∧ s.WroteV t c w (jD w) (o.val (s.jenv c) w (s.ctx c))

/-- Reductions, broadcast, permute and hash. That BLOCK32 changes VSUMR and VMAXR alone is inferred (log entry 81). -/
def Obligations.JviCrossLanes : Prop :=
  ∀ (s : State) (c : Ctx) (w : Word64), ∀ o ∈ crossOps, s.InKernel c w o.op →
    ∃ t, exec (o.cmd c) s = .next t ∧ s.WroteV t c w (jD w) (o.val (s.jenv c) w (s.ctx c))

/-- The compares write p[D mod 8]. -/
def Obligations.JviCompares : Prop :=
  ∀ (s : State) (c : Ctx) (w : Word64), ∀ o ∈ cmpOps, s.InKernel c w o.1 →
    ∃ t, exec (o.2.1 c) s = .next t ∧ s.WroteP t c w (jD w % 8) fun i =>
      o.2.2 ((s.ctx c).lane (s.vlen c) (jA w) i) ((s.ctx c).lane (s.vlen c) (jB w) i)

/-- The scalar instructions, SRD and EXT write s[D]. -/
def Obligations.JviScalars : Prop :=
  ∀ (s : State) (c : Ctx) (w : Word64),
    (∀ o ∈ scalarOps, s.InKernel c w o.1 → ∃ t, exec (o.2.1 c) s = .next t ∧
      s.WroteS t c (jD w) (o.2.2 (jImm w) ((s.ctx c).getS (jA w)) ((s.ctx c).getS (jB w)))) ∧
    (s.InKernel c w 0x1F → jImm w < 5 → ∃ t, exec (.jSrd c) s = .next t ∧
      s.WroteS t c (jD w) ([BitVec.ofNat 64 (s.jenv c).vlen, BitVec.ofNat 64 (s.jenv c).core, BitVec.ofNat 64 (s.jenv c).engine,
        (s.ctx c).step.setWidth 64, (s.ctx c).seq.setWidth 64].getD (jImm w) 0)) ∧
    (s.InKernel c w 0x1F → 5 ≤ jImm w → exec (.jSrd c) s = .next (s.refuseVector c)) ∧
    (s.InKernel c w 0x64 → ∃ t, exec (.jVext c) s = .next t ∧
      s.WroteS t c (jD w) (((s.ctx c).lane (s.vlen c) (jA w) (((s.ctx c).getS (jB w)).toNat % s.vlen c)).setWidth 64))

/-- A taken branch goes to pc + 1 + sext(imm), which must lie in the kernel; one not taken goes on. LOOP counts s[A] down. -/
def Obligations.JviBranches : Prop :=
  ∀ (s : State) (c : Ctx) (w : Word64),
    (∀ o ∈ branchOps, s.AtOp c w o.1 →
      exec (o.2.1 c) s = .next (s.branchTo c w (o.2.2 ((s.ctx c).getS (jA w))) (s.ctx c).tick)) ∧
    (s.AtOp c w 0x04 →
      let y := (s.ctx c).tick.setS (jA w) ((s.ctx c).getS (jA w) - 1)
      exec (.jLoop c) s = .next (s.branchTo c w (y.getS (jA w) != 0) y)) ∧
    (s.InKernel c w 0x05 → exec (.jNop c) s = .next (s.setCtx c (s.ctx c).tick))

/-- VQUANT and VEFQ on the immediates that R107 and R112 allow; other immediates end the VECTOR with ST_BAD_OPCODE. How VEFQ takes
lanes that are predicated off and the sign of a NaN is inferred (log entries 82 and 258). -/
def Obligations.JviQuantisers : Prop :=
  ∀ (s : State) (c : Ctx) (w : Word64),
    (s.InKernel c w 0x50 → quantImmOk w = true → bitsOf (jImm w) 16 1 = 0 →
      let nf := (List.range (s.vlen c / 32)).any fun b => (vquantBlock (s.jenv c) w (s.ctx c) b).nonfinite
      ∃ t, exec (.jVquant c) s = .next t ∧ (s.markNonfinite nf).WroteV t c w (jD w) fun i =>
        quantLane (vquantBlock (s.jenv c) w (s.ctx c) (i / 32)) (i % 32)) ∧
    (s.AtOp c w 0x50 → quantImmOk w = false ∨ bitsOf (jImm w) 16 1 = 1 → exec (.jVquant c) s = .next (s.refuseVector c)) ∧
    (s.InKernel c w 0x51 → quantImmOk w = true → bitsOf (jImm w) 16 2 = 0 →
      let d := jD w
      let d' := (d + 1) % 32
      let nf := (List.range (s.vlen c / 32)).any fun b => (vefqBlock (s.jenv c) w (s.ctx c) b).1.nonfinite
      let acts := (s.ctx c).acts (s.vlen c) w
      ∃ t, exec (.jVefq c) s = .next t ∧
        t = (s.markNonfinite nf).setCtx c { (s.ctx c).tick with v := (t.ctx c).v } ∧
        (∀ j, j ≠ d → j ≠ d' → (t.ctx c).getV (s.vlen c) j = (s.ctx c).getV (s.vlen c) j) ∧
        ∀ i, i < s.vlen c →
          (t.ctx c).lane (s.vlen c) d i = (if acts i then quantLane (vefqBlock (s.jenv c) w (s.ctx c) (i / 32)).1 (i % 32)
            else (s.ctx c).lane (s.vlen c) d i) ∧
          (t.ctx c).lane (s.vlen c) d' i = (if acts i then
            (((vefqBlock (s.jenv c) w (s.ctx c) (i / 32)).2.getD (i % 32) 0).setWidth 32) else (s.ctx c).lane (s.vlen c) d' i)) ∧
    (s.AtOp c w 0x51 → quantImmOk w = false ∨ bitsOf (jImm w) 16 2 ≠ 0 → exec (.jVefq c) s = .next (s.refuseVector c))

/-- VPACK, VUNPACK and VSPILL. -/
def Obligations.JviPacking : Prop :=
  ∀ (s : State) (c : Ctx) (w : Word64),
    let n := s.vlen c
    let a (i : Nat) : Nat := ((s.ctx c).lane n (jA w) i).toNat
    (s.InKernel c w 0x54 → jImm w = 0 → ∃ t, exec (.jVpack c) s = .next t ∧ s.WroteV t c w (jD w) fun i =>
      if i < n / 2 then BitVec.ofNat 32 (a (2 * i) % 16 + 16 * (a (2 * i + 1) % 16)) else 0) ∧
    (s.InKernel c w 0x54 → jImm w = 1 → ∃ t, exec (.jVpack c) s = .next t ∧ s.WroteV t c w (jD w) fun i =>
      if i < n / 32 then BitVec.ofNat 32 (bitsOf (a (32 * i)) 8 8) else 0) ∧
    (s.AtOp c w 0x54 → 2 ≤ jImm w → exec (.jVpack c) s = .next (s.refuseVector c)) ∧
    (s.InKernel c w 0x55 → ∃ t, exec (.jVunpack c) s = .next t ∧ s.WroteV t c w (jD w) fun i =>
      BitVec.ofNat 32 (bitsOf (a (i / 2)) (4 * (i % 2)) 4)) ∧
    (s.InKernel c w 0x56 →
      let d := jD w
      let d' := (d + 1) % 32
      let sum (i : Nat) : Wide := spill ⟨(s.ctx c).lane n d i, (s.ctx c).lane n d' i⟩ ((s.ctx c).lane n (jA w) i)
      ∃ t, exec (.jVspill c) s = .next t ∧ t = s.setCtx c { (s.ctx c).tick with v := (t.ctx c).v } ∧
        (∀ j, j ≠ d → j ≠ d' → (t.ctx c).getV n j = (s.ctx c).getV n j) ∧
        ∀ i, i < n →
          (t.ctx c).lane n d i = (if (s.ctx c).acts n w i then (sum i).hi else (s.ctx c).lane n d i) ∧
          (t.ctx c).lane n d' i = (if (s.ctx c).acts n w i then (sum i).lo else (s.ctx c).lane n d' i))

/-- Vector loads and SLD: the bytes at each lane's address, zero-extended; an address outside the memory is refused. That an address
is an offset in the context's own memory is inferred (log entry 80). -/
def Obligations.JviLoads : Prop :=
  ∀ (s : State) (c : Ctx) (w : Word64),
    (∀ o ∈ loadOps, s.InKernel c w o.1 →
      let x := s.ctx c
      let pl := lanePlace (s.jenv c) o.2.2.1 o.2.2.2 w x
      ((∀ i, i < s.vlen c → x.acts (s.vlen c) w i = true → pl i + o.2.2.2 ≤ ctxRoom c) →
        s.ctxLook c ((laneAddrs o.2.2.1 o.2.2.2 (s.vlen c) w x).map (·.2)) o.2.2.2 = (false, s) →
        ∃ t, exec (o.2.1 c) s = .next t ∧ s.WroteV t c w (jD w) fun i => BitVec.ofNat 32 (s.ctxLoad c (pl i) o.2.2.2)) ∧
      ((∃ i, i < s.vlen c ∧ x.acts (s.vlen c) w i = true ∧ ctxRoom c < pl i + o.2.2.2) →
        exec (o.2.1 c) s = .next (s.refuseVector c))) ∧
    (s.InKernel c w 0x7A →
      let a := ((s.ctx c).getS (jA w) + BitVec.ofInt 64 (signedOf 32 (jImm w))).toNat
      (a + 8 ≤ ctxRoom c → s.ctxLook c [a] 8 = (false, s) →
        ∃ t, exec (.jSld c) s = .next t ∧ s.WroteS t c (jD w) (BitVec.ofNat 64 (s.ctxLoad c a 8))) ∧
      (ctxRoom c < a + 8 → exec (.jSld c) s = .next (s.refuseVector c)))

/-- Vector stores and SST: each byte of the context's memory holds what the highest lane that covers it stores, else what it held;
nothing else changes but the context's pc and step count. Addresses are as in the loads (log entry 80). -/
def Obligations.JviStores : Prop :=
  ∀ (s : State) (c : Ctx) (w : Word64), s.padClean c →
    (∀ o ∈ storeOps, s.InKernel c w o.1 →
      let x := s.ctx c
      let z := o.2.2.2
      let pl := lanePlace (s.jenv c) o.2.2.1 z w x
      ((∀ i, i < s.vlen c → x.acts (s.vlen c) w i = true → pl i + z ≤ ctxRoom c) →
        ∃ t, exec (o.2.1 c) s = .next t ∧ s.StoredOnly t c x.tick ∧
          ∀ a, t.ctxByte c a =
            match (List.range (s.vlen c)).reverse.find? fun i => x.acts (s.vlen c) w i && decide (pl i ≤ a) && decide (a < pl i + z) with
            | some i => (x.lane (s.vlen c) (jD w) i).toNat / 256 ^ (a - pl i) % 256
            | none => s.ctxByte c a) ∧
      ((∃ i, i < s.vlen c ∧ x.acts (s.vlen c) w i = true ∧ ctxRoom c < pl i + z) → exec (o.2.1 c) s = .next (s.refuseVector c))) ∧
    (s.InKernel c w 0x7B →
      let a := ((s.ctx c).getS (jA w) + BitVec.ofInt 64 (signedOf 32 (jImm w))).toNat
      (a + 8 ≤ ctxRoom c → ∃ t, exec (.jSst c) s = .next t ∧ s.StoredOnly t c (s.ctx c).tick ∧
        ∀ b, t.ctxByte c b =
          if a ≤ b ∧ b < a + 8 then ((s.ctx c).getS (jD w)).toNat / 256 ^ (b - a) % 256 else s.ctxByte c b) ∧
      (ctxRoom c < a + 8 → exec (.jSst c) s = .next (s.refuseVector c)))

/-- SCADD adds to the counter (s[A] + imm) mod 16,384; SCWAIT goes on once it has reached s[B]; the stream instructions start copies,
which an engine refuses; TWAIT goes on once no copy is left (R161, R189 to R192). STREAM_COPY_DONE: a TRD moves slow-tier bytes to the
core's local memory, a TWR the other way. The model's choices in it: a length that is no multiple of 32 is ST_BAD_OPCODE (log entry 83),
a copy reads its data at its STREAM_COPY_DONE, TFDT at the instruction (log entry 87), and a TWR leaves the layout directory as it is
(log entry 349). -/
def Obligations.JviSyncAndStreams : Prop :=
  (∀ (s : State) (c : Ctx) (w : Word64),
    let x := s.ctx c
    let n := ((x.getS (jA w)).toNat + jImm w) % 16384
    (s.InKernel c w 0x90 → exec (.jScadd c) s =
      .next ((s.scOp n .add ((x.getS (jB w)).setWidth 32) (ctxSource c)).setCtx c x.tick)) ∧
    (s.InKernel c w 0x91 → exec (.jScwait c) s =
      .next (if (x.getS (jB w)).toNat % 2 ^ 32 ≤ (s.counter n).value.toNat then s.setCtx c x.tick else s)) ∧
    (∀ e, c = .engine e → ∀ o ∈ [(0x80, Instr.jTrd c), (0x81, Instr.jTwr c), (0x82, Instr.jTfdt c), (0x83, Instr.jTwait c)],
      s.AtOp c w o.1 → exec o.2 s = .next (s.refuseVector c)) ∧
    (∀ k, c = .core k →
      let len := (x.getS (jC w)).toNat
      let loc := (x.getS (jB w)).toNat
      let far := (x.getS (jA w)).toNat % 2 ^ 40
      (len % 32 = 0 → (locRange (x.getS (jA w)).toNat len Loc.isSlow).isSome = true → loc + len ≤ localSize →
        (s.InKernel c w 0x80 → exec (.jTrd c) s = .next (s.setCtx c { x.tick with copies := x.copies ++ [.trd far loc len] })) ∧
        (s.InKernel c w 0x81 → exec (.jTwr c) s = .next (s.setCtx c { x.tick with copies := x.copies ++ [.twr far loc len x.queue x.seq] }))) ∧
      (len % 32 ≠ 0 ∨ localSize < loc + len →
        (s.AtOp c w 0x80 → exec (.jTrd c) s = .next (s.refuseVector c)) ∧
        (s.AtOp c w 0x81 → exec (.jTwr c) s = .next (s.refuseVector c))) ∧
      (s.InKernel c w 0x82 → len ≠ 0 → loc + len ≤ localSize → (s.conn (jImm w % 64)).state = .open_ →
        s.readLocal k.val loc len = (Memory.bytes (s.localMem k.val) loc len, false, s) →
        ∃ t, exec (.jTfdt c) s = .next t ∧ (t.ctx c).pc = x.pc + 1 ∧
          (t.ctx c).copies.getLast? = some (.tfdt (jImm w % 64) (s.conn (jImm w % 64)).nextMsg .open_)) ∧
      (s.InKernel c w 0x83 → x.copies = [] → exec (.jTwait c) s = .next (s.setCtx c x.tick)))) ∧
  ∀ (s u : State) (k : Fin 32) (a l n : Nat) (q : Nat) (seq : Word32) (rest : List StreamCopy) (d : List Byte),
    let x := s.ctx (.core k)
    let s1 := s.setCtx (.core k) { x with copies := rest }
    (x.copies = .trd a l n :: rest → s1.readSlow a n = (d, false, u) → exec (.streamCopyDone k) s = .next (u.writeLocal k.val l d)) ∧
    (x.copies = .twr a l n q seq :: rest → s1.readLocal k.val l n = (d, false, u) → exec (.streamCopyDone k) s = .next (u.storeSlow a d))

/-- END ends its context, and the VECTOR when it was the last; STEP_LIMIT ends it with ST_TIMEOUT (R165); an unassigned opcode, and an
instruction that runs past the kernel's last one, with ST_BAD_OPCODE (R190). That END does not wait for the TWR copies of its context,
which the item's completion waits for, is inferred (log entry 84). -/
def Obligations.JviEnds : Prop :=
  (∀ (s : State) (c : Ctx) (w : Word64),
    let x := s.ctx c
    let s1 := s.setCtx c { Reset.jvi with copies := x.copies }
    (s.AtOp c w 0x00 →
      ((∀ k : Fin 32, (s1.ctx (.core k)).busy = true →
        ¬((s1.ctx (.core k)).queue = x.queue ∧ (s1.ctx (.core k)).seq = x.seq)) →
        exec (.jEnd c) s = .next (s1.finish x.queue x.seq stOk 0 0)) ∧
      ((∃ k : Fin 32, (s1.ctx (.core k)).busy = true ∧ (s1.ctx (.core k)).queue = x.queue ∧ (s1.ctx (.core k)).seq = x.seq) →
        exec (.jEnd c) s = .next s1)) ∧
    (x.busy = true → x.limit ≠ 0 → x.limit ≤ x.steps →
      exec (.vectorStepLimit c) s = .next (s.endVector x.queue x.seq stTimeout)) ∧
    (∀ op, s.AtOp c w op → jviAssigned op = false → exec (.unassignedOpcode c) s = .next (s.refuseVector c))) ∧
  ∀ (s : State) (c : Ctx) (w : Word64), (s.ctx c).pc + 1 = (s.ctx c).code.length →
    (∀ o ∈ fpOps ++ fnOps ++ intOps ++ crossOps, s.AtOp c w o.op → exec (o.cmd c) s = .next (s.refuseVector c)) ∧
    (∀ o ∈ cmpOps, s.AtOp c w o.1 → exec (o.2.1 c) s = .next (s.refuseVector c)) ∧
    (∀ o ∈ scalarOps, s.AtOp c w o.1 → exec (o.2.1 c) s = .next (s.refuseVector c))

/-! ### Stavmon commands (Table 13-9) -/

/-- A command that standby alone or the ROM does not take is answered ST_DENIED_REGIME and has no effect (R33, R363, R376).
With the main domain down, the CFG commands on records and FDT and the MEM, CHD, JOB, UPD, DIAG, GRP and most HST commands are
denied; HST_CORRELATE is taken on the management bus alone (Table 13-9). One that is allowed is carried out: it is answered, or it
runs on (R375); a SEC command waits for the flash where a flush or an MCB write holds it (R35). -/
def Obligations.StavmonDenied : Prop :=
  (∀ (s : State) (r : Route) (st : Word16), ∀ o ∈ stavmonOps, s.Waits r o.1 → s.deny r o.1 = some st →
    s.Completes (o.2 r) r st [] s) ∧
  (∀ (s : State) (r : Route), ∀ o ∈ stavmonOps, s.Allowed r o.1 → (o.1 / 256 = 9 → s.flashBusy = false) →
    ∃ t, exec (o.2 r) s = .next t ∧ ((t.mbox r).state = .done ∨ (t.mbox r).state = .running)) ∧
  ∀ (s : State) (r : Route) (op : Nat), s.boot.romOnly = false → s.boot.mainOn = false →
    (s.deny r op = some stDeniedRegime ↔
      ¬(op / 256 = 1 ∨ op = 0x0201 ∨ op = 0x0202 ∨ op / 256 = 3 ∨ op / 256 = 8 ∨ op / 256 = 9 ∨ (op = 0x0C01 ∧ r = .smb)))

/-- The commands that report answer what they report and have no other effect. The layouts of the responses of HST_BUF_LIST, JOB_STATUS
and the GRP reports are the model's (log entry 204), and so is that CFG_MCB_READ returns the block in flash (log entry 35). -/
def Obligations.StavmonReports : Prop :=
  ∀ (s : State) (r : Route), ∀ o ∈ reportOps, s.Allowed r o.1 →
    s.Completes (o.2.1 r) r stOk (o.2.2 s (s.payload r)) s

/-- CFG_SCALE_READ, UPD_GROUP_READ, SEC_IDENTITY and ALM_READ report on the payloads they take; ALM_READ over the management bus
releases SMB_ALERT# (log entry 239). The response of UPD_GROUP_READ is the descriptor alone (log entry 161), and where the identity
region keeps the certificate and the addresses is the model's (log entry 15). -/
def Obligations.StavmonReads : Prop :=
  ∀ (s : State) (r : Route),
    let b := s.payload r
    (s.Allowed r 0x0203 →
      let i := le b 0 2
      let n := le b 2 2
      (1 ≤ n → n ≤ 125 → i + n ≤ 8192 → s.Completes (.cfgScaleRead r) r stOk
        (leBytes 2 i ++ leBytes 2 n ++ leBytes 4 0 ++ (List.range n).flatMap fun k => recToBytes (s.scaleRec (i + k))) s) ∧
      (n = 0 ∨ 125 < n ∨ 8192 < i + n → s.Completes (.cfgScaleRead r) r stBadOpcode [] s)) ∧
    (s.Allowed r 0x0703 →
      (le b 0 2 < 4096 → s.laidOut = true → s.Completes (.updGroupRead r) r stOk (s.pgBytes (le b 0 2)) s) ∧
      (4096 ≤ le b 0 2 ∨ s.laidOut = false → s.Completes (.updGroupRead r) r stBadOpcode [] s)) ∧
    (s.Allowed r 0x0901 →
      (s.boot.identityOk = true → s.Completes (.secIdentity r) r stOk (((s.certificate.drop (le b 0 4)).take 4000) ++ s.factoryMacs) s) ∧
      (s.boot.identityOk = false → s.Completes (.secIdentity r) r stFaulted [] s)) ∧
    (s.Allowed r 0x0801 →
      let s' := if r = .smb then s.onBoot fun t => { t with smbAlert := false } else s
      let rs := ((s.alm.ring.filter fun x => decide (le b 0 4 ≤ x.seq.toNat)).take (le b 5 1))
      (le b 4 1 = 0 → 1 ≤ le b 5 1 → le b 5 1 ≤ 125 → s.Completes (.almRead r) r stOk
        (leBytes 4 (match rs.getLast? with | some x => x.seq.toNat + 1 | none => le b 0 4) ++ leBytes 4 rs.length ++
          rs.flatMap fun x => recBytes x false) s') ∧
      (1 < le b 4 1 ∨ le b 5 1 = 0 ∨ 125 < le b 5 1 → s.Completes (.almRead r) r stBadOpcode [] s'))

/-- The PWR commands (R333, R336, R341, R346, R347). A cap below 150 W is kept (log entry 28). On standby alone a cap, a target and a mask are held. A partition with a nonzero
share gets its registers; one whose present power lies above its share is answered ST_OVER_QUOTA. The present power of a partition with
the same engines is the last period's estimate; with other engines it is a free value (notes/assumptions/327.md). -/
def Obligations.PowerCommands : Prop :=
  ∀ (s : State) (r : Route),
    let b := s.payload r
    let w := min (le b 0 2) 1200
    let capped := ((s.lowerLimit s.pwr.cap w).onPwr fun p => { p with cap := w, heldCap := if s.boot.mainOn then p.heldCap else some w })
    (s.Allowed r 0x0301 → 150 ≤ w → s.Completes (.pwrCap r) r stOk [] capped.powerSettle) ∧
    (s.Allowed r 0x0301 → w < 150 → s.Completes (.pwrCap r) r stCapBelowFloor [] (capped.belowFloor w).powerSettle) ∧
    (s.Allowed r 0x0303 →
      let v := le b 0 2
      (450 ≤ v → v ≤ 680 → v % 5 = 0 → ∃ s', s.Completes (.pwrTarget r) r stOk [] s' ∧ s'.pwr.target = v ∧
        (s.boot.mainOn = false → s'.pwr.heldTarget = some v)) ∧
      (v < 450 ∨ 680 < v ∨ v % 5 ≠ 0 → s.Completes (.pwrTarget r) r stBadOpcode [] s)) ∧
    (s.Allowed r 0x0305 →
      (le b 0 1 < 16 → s.boot.mainOn = true → ∃ s', s.Completes (.pwrPark r) r stOk [] s' ∧ s'.pwr.parkedCmd = BitVec.ofNat 4 (le b 0 1)) ∧
      (le b 0 1 < 16 → s.boot.mainOn = false → s.Completes (.pwrPark r) r stOk []
        (s.onPwr fun p => { p with heldPark := some (BitVec.ofNat 4 (le b 0 1)) })) ∧
      (16 ≤ le b 0 1 → s.Completes (.pwrPark r) r stBadOpcode [] s)) ∧
    (s.Allowed r 0x0304 →
      let j := le b 0 1
      (7 < j → s.Completes (.pwrShare r) r stBadOpcode [] s) ∧
      (j ≤ 7 → le b 16 2 = 0 → s.Completes (.pwrShare r) r stOk []
        (s.onPwrRegs fun x => { x with shares := Sparse.put Reset.share x.shares j Reset.share }).powerSettle) ∧
      (j ≤ 7 → le b 16 2 ≠ 0 → (∃ k ∈ s.pwrRegs.shares, k.1 ≠ j ∧ k.2.valid = true ∧ k.2.mask &&& BitVec.ofNat 64 (le b 8 8) ≠ 0) →
        s.Completes (.pwrShare r) r stBadOpcode [] s) ∧
      (j ≤ 7 → le b 16 2 ≠ 0 → (∀ k ∈ s.pwrRegs.shares, k.1 ≠ j → k.2.valid = true → k.2.mask &&& BitVec.ofNat 64 (le b 8 8) = 0) →
        let x := Sparse.get Reset.share s.pwrRegs.shares j
        let present := if x.valid = true ∧ x.mask = BitVec.ofNat 64 (le b 8 8) then x.est else s.draw.1.toNat % 65536
        ∃ s', s.Completes (.pwrShare r) r (if le b 16 2 < present then stOverQuota else stOk) [] s' ∧
          let y := Sparse.get Reset.share s'.pwrRegs.shares j
          y.valid = true ∧ y.mask = BitVec.ofNat 64 (le b 8 8) ∧ y.watts = le b 16 2 ∧ y.est = present ∧
          (x.duty ≤ 1024 → (s'.pwrShareReg j).extractLsb' 63 1 = 1 ∧ ((s'.pwrShareReg j).extractLsb' 32 16).toNat = le b 16 2) ∧
          ∀ k, k ≠ j → Sparse.get Reset.share s'.pwrRegs.shares k = Sparse.get Reset.share s.pwrRegs.shares k))

/-- PWR_ENVELOPE, whose layout is the model's (notes/assumptions/12.md): the fields are stored; DELAY and LEASE count from the receipt
of the command; a ceiling whose delay is over is in force at once, another one at its tick; one below 150 W is answered
ST_CAP_BELOW_FLOOR and kept (log entry 28). -/
def Obligations.EnvelopeCommand : Prop :=
  ∀ (s : State) (r : Route), s.Allowed r 0x0302 →
    let b := s.payload r
    let c := le b 0 2
    let up := le b 8 2
    let start := (s.mbox r).receipt.toNat
    c ≤ 1200 → (up = 0 ∨ (10 ≤ up ∧ up ≤ 10000)) → 150 ≤ le b 16 2 → le b 16 2 ≤ 1200 → le b 18 1 ≤ 1 →
    ∃ s', s.Completes (.pwrEnvelope r) r (if c < 150 then stCapBelowFloor else stOk) [] s' ∧
      s'.pwr.rampUp = up ∧ s'.pwr.lease = le b 12 4 ∧ s'.pwr.safe = le b 16 2 ∧ s'.pwr.ballast = (le b 18 1 == 1) ∧
      s'.pwr.leaseFrom = start ∧ (start + le b 4 4 ≤ s.now → s'.pwr.envelope = c ∧ s'.pwr.pending = none) ∧
      (s.now < start + le b 4 4 → s'.pwr.envelope = s.pwr.envelope ∧ s'.pwr.pending = some ⟨c, start + le b 4 4⟩)

/-- The MEM commands (R385). A quota of 0 is none (log entry 98), and a grant lies at the lowest address that fits (log entry 99). -/
def Obligations.MemoryCommands : Prop :=
  ∀ (s : State) (r : Route),
    let b := s.payload r
    let j := le b 0 1
    let use (s : State) : Nat := ((s.job.grants.filter fun g => g.slot == j).map (·.size)).sum
    let quota (s : State) : Nat := Sparse.get 0 s.job.quota j
    (s.Allowed r 0x0401 →
      let s' := s.onJob fun t => { t with quota := Sparse.put 0 t.quota j (le b 8 8) }
      (j ≤ 7 → le b 8 8 = 0 ∨ use s ≤ le b 8 8 → s.Completes (.memQuota r) r stOk [] s') ∧
      (j ≤ 7 → le b 8 8 ≠ 0 → le b 8 8 < use s → s.Completes (.memQuota r) r stOverQuota [] s') ∧
      (7 < j → s.Completes (.memQuota r) r stBadOpcode [] s)) ∧
    (s.Allowed r 0x0402 → j ≤ 7 → 0 < le b 8 8 → (∃ k, 12 ≤ k ∧ k < 64 ∧ le b 16 8 = 2 ^ k) →
      let a := fitFrom s.job.grants (le b 8 8) (le b 16 8) (s.job.grants.length + 1) 0
      (quota s = 0 ∨ use s + le b 8 8 ≤ quota s → a + le b 8 8 ≤ g7Size → s.Completes (.memAlloc r) r stOk (leBytes 8 a)
        (s.onJob fun t => { t with grants := t.grants ++ [⟨j, a, le b 8 8⟩] })) ∧
      (quota s ≠ 0 ∧ quota s < use s + le b 8 8 → s.Completes (.memAlloc r) r stOverQuota [] s)) ∧
    (s.Allowed r 0x0403 →
      ((∃ g ∈ s.job.grants, g.slot = j ∧ g.addr = le b 8 8) → s.Completes (.memFree r) r stOk []
        (s.onJob fun t => { t with grants := t.grants.filter fun g => !(g.slot == j && g.addr == le b 8 8) })) ∧
      ((∀ g ∈ s.job.grants, ¬(g.slot = j ∧ g.addr = le b 8 8)) → s.Completes (.memFree r) r stBadOpcode [] s))

/-- A range that MEM_ALLOC grants meets no range granted before (R385); whatever step runs, the granted ranges stay disjoint, as they
are after reset. -/
def Obligations.MemoryGrantsDisjoint : Prop :=
  (∀ (grants : List MemGrant) (size align : Nat), 0 < size → 0 < align →
    let a := fitFrom grants size align (grants.length + 1) 0
    a % align = 0 ∧ ∀ g ∈ grants, a + size ≤ g.addr ∨ g.addr + g.size ≤ a) ∧
  (∀ s t : State, disjointGrants s.job.grants → step s = .next t → disjointGrants t.job.grants) ∧
  disjointGrants State.reset.job.grants

/-- The JOB commands (R90, R386). What JOB_START clears beyond the rule, and ENG_ABORT_RESULT after JOB_ABORT, are the model's (log
entries 211 and 212); what waited for a boundary takes effect when the last job stops (log entries 210 and 291). -/
def Obligations.JobCommands : Prop :=
  ∀ (s : State) (r : Route),
    let b := s.payload r
    let j := le b 0 1
    (s.Allowed r 0x0601 →
      let x0 := le b 24 1 % 16
      let x1 := le b 24 1 / 16
      let y0 := le b 25 1 % 16
      let y1 := le b 25 1 / 16
      (j ≤ 7 → x0 ≤ x1 → x1 ≤ 7 → y0 ≤ y1 → y1 ≤ 7 → (∀ k ∈ s.job.slots, k.1 ≠ j) →
        ∃ s', s.Completes (.jobStart r) r stOk [] s' ∧ (s'.job.slots.any fun k => k.1 == j) = true ∧
          s'.job.step = BitVec.ofNat 32 (le b 4 4) ∧ s'.job.committed = 0 ∧ fld s'.chd.slice 0 8 = j ∧ fld s'.chd.slice 20 4 = x0 ∧
          fld s'.chd.slice 16 4 = x1 ∧ fld s'.chd.slice 12 4 = y0 ∧ fld s'.chd.slice 8 4 = y1 ∧ s'.sync.sc = s.sync.sc ∧ s'.sync.ext = []) ∧
      (j ≤ 7 → x0 ≤ x1 → x1 ≤ 7 → y0 ≤ y1 → y1 ≤ 7 → (∃ k ∈ s.job.slots, k.1 = j) → s.Completes (.jobStart r) r stBusy [] s) ∧
      (7 < j ∨ x1 < x0 ∨ 7 < x1 ∨ y1 < y0 ∨ 7 < y1 → s.Completes (.jobStart r) r stBadOpcode [] s)) ∧
    (s.Allowed r 0x0602 →
      ((∀ k ∈ s.job.slots, k.1 ≠ j) → s.Completes (.jobStop r) r stAlreadyDone [] s) ∧
      ((∃ k ∈ s.job.slots, k.1 = j) → (s.comp.commit.isSome = true ∧ fld s.chd.slice 0 8 = j) →
        s.Completes (.jobStop r) r stBusy [] s) ∧
      ((∃ k ∈ s.job.slots, k.1 = j) → ¬(s.comp.commit.isSome = true ∧ fld s.chd.slice 0 8 = j) →
        s.Completes (.jobStop r) r stOk [] (s.onJob fun t => { t with slots := Sparse.del j t.slots }).idleNow)) ∧
    (s.Allowed r 0x0603 →
      let a := s.abortItem j (BitVec.ofNat 32 (le b 4 4))
      (j ≤ 63 → s.Completes (.jobAbort r) r a.1 [] (match a.2.ptile j with
        | some p => a.2.onTileRegs p fun x => { x with
            abortResult := BitVec.ofNat 64 (2 ^ 63 + le b 4 4 % 2 ^ 32 * 2 ^ 16 + a.1.toNat) }
        | none => a.2)) ∧
      (63 < j → s.Completes (.jobAbort r) r stBadOpcode [] s))

/-- MOD_POWER_ON, MOD_POWER_OFF and MOD_RESET (R372, R373). One that runs on ends when what it waits for ends (log entry 33). -/
def Obligations.ModuleCommands : Prop :=
  ∀ (s : State) (r : Route),
    let kind := le (s.payload r) 0 1
    let asked (s : State) : State := s.onBoot fun x => { x with springHeld := false, holdCause := 0, waiter := some r }
    (s.Allowed r 0x0102 →
      (s.boot.main = false → s.Completes (.modPowerOn r) r stDeniedRegime [] s) ∧
      (s.boot.main = true → s.boot.mainOn = true → s.Completes (.modPowerOn r) r stAlreadyDone [] s) ∧
      (s.boot.main = true → s.boot.mainOn = false → s.hot85 = true → s.Completes (.modPowerOn r) r stBusy [] s) ∧
      (s.boot.main = true → s.boot.mainOn = false → s.hot85 = false → s.boot.waiter = none →
        s.RunsOn (.modPowerOn r) r (s.onBoot fun b => { b with powerOn := true, autoInhibit := false, waiter := some r }).tryPhase4)) ∧
    (s.Allowed r 0x0103 →
      (s.boot.mainOn = false → s.Completes (.modPowerOff r) r stAlreadyDone [] s) ∧
      (s.boot.mainOn = true → s.jobRuns = true → s.Completes (.modPowerOff r) r stBusy [] s) ∧
      (s.boot.mainOn = true → s.jobRuns = false → s.boot.waiter = none → s.boot.shutdown = none →
        s.RunsOn (.modPowerOff r) r ((s.onBoot fun b => { b with waiter := some r }).beginShutdown .powerOff))) ∧
    (s.Allowed r 0x0104 →
      (2 < kind → s.Completes (.modReset r) r stBadOpcode [] s) ∧
      (kind ≤ 2 → s.jobRuns = true → s.Completes (.modReset r) r stBusy [] s) ∧
      (kind = 0 → s.jobRuns = false → s.boot.waiter = none → s.boot.shutdown = none →
        s.RunsOn (.modReset r) r (((asked s).coldLoad.onCp fun c => { c with halted := false }).onBoot fun x => { x with
          phase := 0, ready := false, resume := if s.boot.phase < 4 then none else some s.boot.phase })) ∧
      (kind = 1 ∨ kind = 2 → s.jobRuns = false → s.boot.waiter = none → s.boot.shutdown = none → s.boot.mainOn = true →
        s.RunsOn (.modReset r) r ((asked s).beginShutdown (.reset kind))) ∧
      (kind = 1 ∨ kind = 2 → s.jobRuns = false → s.boot.waiter = none → s.boot.shutdown = none → s.boot.mainOn = false →
        let x := (asked s).onBoot fun x => { x with phase := if kind = 1 then 2 else 0, resume := none }
        s.RunsOn (.modReset r) r (if kind = 1 then x else x.coldLoad)))

/-- The CFG commands that write: the MCB, scale records, FDT ports and connections (R118, R325, R371). The payloads of CFG_FDT_PORT and
CFG_FDT_OPEN, and the answers for a slot open or closed already, are the model's (log entries 66, 67, 92, 95 and 279); an MCB write waits for
a flush (log entry 287). -/
def Obligations.ConfigurationCommands : Prop :=
  ∀ (s : State) (r : Route),
    let b := s.payload r
    (s.Allowed r 0x0202 →
      (b.length ≠ 2048 ∨ mcbCrc b ≠ le b 8 4 → s.Completes (.cfgMcbWrite r) r stBadCheck [] s) ∧
      (b.length = 2048 → mcbCrc b = le b 8 4 → s.flash.mcbWrite.isSome = true ∨ s.flash.mcbNext.isSome = true →
        s.Completes (.cfgMcbWrite r) r stBusy [] s) ∧
      (b.length = 2048 → mcbCrc b = le b 8 4 → s.flash.mcbWrite = none → s.flash.mcbNext = none →
        (s.alm.flushing = false →
          s.RunsBefore (.cfgMcbWrite r) r (s.onFlash fun f => { f with mcbWrite := some ⟨b, some r, s.now⟩ })) ∧
        (s.alm.flushing = true →
          s.RunsBefore (.cfgMcbWrite r) r (s.onFlash fun f => { f with mcbNext := some ⟨b, some r, s.now⟩ })))) ∧
    (s.Allowed r 0x0204 → scaleRange b = false ∨ b.length < 8 + 32 * le b 2 2 → s.Completes (.cfgScaleWrite r) r stBadOpcode [] s) ∧
    (s.Allowed r 0x0204 → scaleRange b = true → 8 + 32 * le b 2 2 ≤ b.length →
      let ws := (List.range (le b 2 2)).map fun k => (le b 0 2 + k, recOf (slice b (8 + 32 * k) 32))
      (s.jobRuns = true → s.Completes (.cfgScaleWrite r) r stOk []
        (s.onScales fun c => { c with waiting := c.waiting ++ ws })) ∧
      (s.jobRuns = false → s.Completes (.cfgScaleWrite r) r stOk []
        (s.onScales fun c => { c with waiting := c.waiting ++ ws }).applyScaleWrites)) ∧
    (s.Allowed r 0x0205 → le b 0 1 ≤ 1 → le b 34 1 ≤ 63 → 1 ≤ le b 38 1 → le b 38 1 ≤ 8 → 1000 ≤ le b 40 4 → le b 40 4 ≤ 100000 →
      500 ≤ le b 44 4 → le b 44 4 ≤ 20000 →
      s.Completes (.cfgFdtPort r) r stOk []
        ((s.onEthPort (le b 0 1) fun e => { e with mac := BitVec.ofNat 48 (le b 8 6), config := slice b 16 18, pfc := bitOf (le b 48 1) 0 }).onEth fun e => { e with
          dscp := le b 34 1, udpPort := le b 36 2, gShift := le b 38 1, periodT := le b 40 4, stepA := le b 44 4 })) ∧
    (s.Allowed r 0x0206 → le b 0 1 < 64 → 1500 ≤ le b 34 2 → 1 ≤ le b 32 1 → le b 32 1 ≤ 3 →
      ((s.conn (le b 0 1)).state = .open_ ∨ (s.conn (le b 0 1)).state = .opening → s.Completes (.cfgFdtOpen r) r stBusy [] s) ∧
      ((s.conn (le b 0 1)).state = .closed ∨ (s.conn (le b 0 1)).state = .lost →
        ((∃ i, i < 2 ∧ bitOf (le b 32 1) i = true ∧ (s.ethPort i).state = 1) → ∃ t, exec (.cfgFdtOpen r) s = .next t ∧
          (t.mbox r).state = .running ∧ (t.conn (le b 0 1)).state = .opening ∧ (t.conn (le b 0 1)).remote = le b 16 16 ∧
          (t.conn (le b 0 1)).ports = le b 32 1 ∧ (t.conn (le b 0 1)).openRoute = some r ∧ t.eth.ids.length = s.eth.ids.length + 1) ∧
        ((∀ i, i < 2 → bitOf (le b 32 1) i = true → (s.ethPort i).state ≠ 1) → ∃ s', s.Completes (.cfgFdtOpen r) r stTimeout [] s' ∧
          (s'.conn (le b 0 1)).state = .closed))) ∧
    (s.Allowed r 0x0207 →
      (64 ≤ le b 0 1 → s.Completes (.cfgFdtClose r) r stBadOpcode [] s) ∧
      (le b 0 1 < 64 → (s.conn (le b 0 1)).state = .closed → s.Completes (.cfgFdtClose r) r stAlreadyDone [] s) ∧
      (le b 0 1 < 64 → (s.conn (le b 0 1)).state = .open_ ∨ (s.conn (le b 0 1)).state = .opening →
        s.Completes (.cfgFdtClose r) r stOk [] ((s.fdtSend (le b 0 1) ftClose 0 0 0 0 [] []).connStop (le b 0 1) .closed)) ∧
      (le b 0 1 < 64 → (s.conn (le b 0 1)).state = .lost → s.Completes (.cfgFdtClose r) r stOk [] (s.connStop (le b 0 1) .closed)))

/-- The UPD commands but UPD_COMMIT (R197, R198, R203, R215, R219 to R221). The model's choices in it: payload widths (log entry 159), sizes
and places of the regions (log entries 160 and 324), commands on groups before UPD_LAYOUT (log entry 168), a SCHEDULE longer than a mailbox
(log entry 181) and export commands in the wrong state (log entry 183). -/
def Obligations.UpdateCommands : Prop :=
  ∀ (s : State) (r : Route),
    let b := s.payload r
    (s.Allowed r 0x0701 → s.jobRuns = true → s.Completes (.updLayout r) r stBusy [] s) ∧
    (s.Allowed r 0x0701 → s.jobRuns = false →
      (placeRegions 4096 (((regionNeeds (le b 0 8) (le b 8 8)).zipIdx).map fun z => max z.1.2 (le b (24 + 8 * z.2) 8))).2 ≤ slowSize →
      ∃ s', s.Completes (.updLayout r) r stOk [] s' ∧ (s.Quiet → s.mem.badSlow = [] → s'.laidOut = true ∧ s'.dirAt 0x08 = le b 0 8)) ∧
    (s.Allowed r 0x0702 → le b 0 2 < 4096 → s.laidOut = true → 56 ≤ b.length →
      (s.jobRuns = false ∨ pgFixed (slice b 8 64) = pgFixed (s.pgBytes (le b 0 2)) → s.namedByCommit (le b 0 2) = false →
        s.Completes (.updGroupWrite r) r stOk [] (s.atBoundary (.pgd (le b 0 2) (slice b 8 64)))) ∧
      (s.jobRuns = true ∧ pgFixed (slice b 8 64) ≠ pgFixed (s.pgBytes (le b 0 2)) ∨ s.namedByCommit (le b 0 2) = true →
        s.Completes (.updGroupWrite r) r stBusy [] s)) ∧
    (s.Allowed r 0x0704 → le b 0 2 < 256 → s.laidOut = true →
      (scheduleOk (padTo 4160 (b.drop 8)) = true →
        s.Completes (.updScheduleWrite r) r stOk [] (s.atBoundary (.schedule (le b 0 2) (padTo 4160 (b.drop 8))))) ∧
      (scheduleOk (padTo 4160 (b.drop 8)) = false → s.Completes (.updScheduleWrite r) r stBadOpcode [] s)) ∧
    (s.Allowed r 0x0705 →
      (imageCheck (b.drop 8) false ≠ stOk → s.Completes (.updProgramLoad r) r (imageCheck (b.drop 8) false) [] s) ∧
      (imageCheck (b.drop 8) false = stOk → le b 0 2 < 64 → s.laidOut = true → (b.drop 8).length ≤ 4096 →
        programOk (imageCode (b.drop 8)) = true → s.Completes (.updProgramLoad r) r stOk []
          (s.writeSlow (s.region dProg (le b 0 2) 4096) (padTo 4096 (b.drop 8)))) ∧
      (imageCheck (b.drop 8) false = stOk → 64 ≤ le b 0 2 ∨ s.laidOut = false ∨ 4096 < (b.drop 8).length ∨
        programOk (imageCode (b.drop 8)) = false → s.Completes (.updProgramLoad r) r stBadOpcode [] s)) ∧
    (s.Allowed r 0x0707 → s.laidOut = false ∨ s.nscaleOf ≠ le b 0 4 → s.Completes (.updRestore r) r stFaulted [] s) ∧
    (s.Allowed r 0x0707 → s.laidOut = true → s.nscaleOf = le b 0 4 → (∀ x ∈ s.nBlocks, s.mirrorHolds (le b 0 4) x.2 = true) →
      ∃ s', s.Completes (.updRestore r) r stOk [] s') ∧
    (s.Allowed r 0x0708 → le b 4 1 ≤ 2 →
      (s.comp.verdictDue ≠ some (BitVec.ofNat 32 (le b 0 4)) → s.Completes (.updDigestVerdict r) r stBadSeq [] s) ∧
      (s.comp.verdictDue = some (BitVec.ofNat 32 (le b 0 4)) → le b 4 1 = 0 → s.Completes (.updDigestVerdict r) r stOk []
        (s.onComp fun t => { t with verdictDue := none, verdict := some (0, BitVec.ofNat 32 (le b 0 4)) })) ∧
      (s.comp.verdictDue = some (BitVec.ofNat 32 (le b 0 4)) → 1 ≤ le b 4 1 →
        ∃ s', s.Completes (.updDigestVerdict r) r stOk [] s' ∧ s'.comp.verdict = some (le b 4 1, BitVec.ofNat 32 (le b 0 4)) ∧
          s'.comp.verdictDue = none)) ∧
    (s.Allowed r 0x0709 →
      (le b 0 1 < 64 → (s.conn (le b 0 1)).state = .open_ → s.comp.repair.isSome = true → s.Completes (.updRepair r) r stBusy [] s) ∧
      (le b 0 1 < 64 → (s.conn (le b 0 1)).state = .open_ → s.comp.repair = none → s.laidOut = true → s.comp.commit = none →
        s.RunsOn (.updRepair r) r (s.onComp fun t => { t with
          repair := some ⟨le b 0 1, some r, BitVec.ofNat 32 (le b 4 4), 0, s.segments, 0⟩ })) ∧
      ((s.conn (le b 0 1)).state ≠ .open_ → s.Completes (.updRepair r) r stTimeout [] s)) ∧
    (s.Allowed r 0x070A → s.comp.commit = none → s.comp.export_ = none → s.exportOpen = false →
      (le b 0 1 < 64 → (s.conn (le b 0 1)).state = .open_ → s.segments ≠ 0 → s.laidOut = true →
        s.RunsOn (.updExportStart r) r (s.onComp fun t => { t with
          export_ := some ⟨le b 0 1, some r, BitVec.ofNat 32 s.committedStep, 0, s.segments, 0⟩ }).noteExport.exportNext) ∧
      ((s.conn (le b 0 1)).state ≠ .open_ → s.Completes (.updExportStart r) r stTimeout [] s)) ∧
    (s.Allowed r 0x070B → s.comp.export_ = none → s.Completes (.updExportAbort r) r stOk [] s.closeExport)

/-- ALM_CONFIG, ALM_FLUSH and the DIAG commands (R395, R400, R405, R407). ALM_CONFIG with CLEAR is one step up to its write of the
configuration block (log entry 49). -/
def Obligations.AlmanacCommands : Prop :=
  ∀ (s : State) (r : Route),
    let b := s.payload r
    (s.Allowed r 0x0802 → le b 0 1 ≤ 1 → bitOf (le b 4 1) 0 = false →
      (le b 0 1 = bit s.alm.bySeverity → le b 0 1 = 0 → le b 2 2 = s.alm.keepUnits →
        s.Completes (.almConfig r) r stOk [] (s.onAlm fun a => { a with flushLevel := min 2048 (le b 8 2) })) ∧
      (le b 0 1 ≠ bit s.alm.bySeverity → s.Completes (.almConfig r) r stBadOpcode [] s)) ∧
    (s.Allowed r 0x0802 → le b 0 1 = 1 → bitOf (le b 4 1) 0 = true →
      (s.jobRuns = true → s.Completes (.almConfig r) r stBusy [] s) ∧
      (s.jobRuns = false → s.flash.mcbWrite = none → s.flash.mcbNext = none → ∃ s', s.RunsBefore (.almConfig r) r s' ∧ s'.alm.flash = [] ∧ s'.alm.head = 0 ∧
        s'.alm.bySeverity = true ∧ s'.flash.mcbWrite = some ⟨s.almMcb 1 (le b 2 2), some r, s.now⟩)) ∧
    (s.Allowed r 0x0803 →
      ((∀ x ∈ s.alm.ring, x.flushed = true) → s.Completes (.almFlush r) r stOk [] s) ∧
      ((∃ x ∈ s.alm.ring, x.flushed = false) → s.RunsOn (.almFlush r) r s.startFlush)) ∧
    (s.Allowed r 0x0A01 →
      let det := le b 0 2
      let kind := le b 3 1
      let n := le b 8 4
      (∀ ok, detectorTakes det = some ok → ok kind (le b 4 2) (le b 6 1) = true → le b 2 1 ≤ 1 → (le b 2 1 = 1 → n ≠ 0) →
        ∀ k, (List.range 16).find? (fun k => !(s.injSlot k).armed) = some k →
        let s' := s.setSlot k ⟨true, le b 2 1 == 1, BitVec.ofNat 16 det, BitVec.ofNat 8 kind, BitVec.ofNat 16 (le b 4 2),
          BitVec.ofNat 8 (le b 6 1), BitVec.ofNat 32 n, BitVec.ofNat 32 (le b 12 4), 0, 0, (s.ptile (le b 4 2)).getD 68⟩
        s.Completes (.diagInject r) r stOk (leBytes 1 k) (s'.report 0x0E03 .info kind (le b 4 2) (leBytes 2 det ++ leBytes 1 (le b 2 1) ++
          leBytes 1 k ++ leBytes 4 n ++ leBytes 1 kind ++ leBytes 2 (le b 4 2) ++ leBytes 1 (le b 6 1)))) ∧
      (detectorTakes det = none → s.Completes (.diagInject r) r stBadOpcode [] s)) ∧
    (s.Allowed r 0x0A02 →
      (le b 0 1 = 0 → le b 1 1 ≤ 67 → s.testable (le b 1 1) = true → s.cp.selftest = none →
        s.RunsOn (.diagSelftest r) r (s.onCp fun c => { c with selftest := some (le b 1 1, some r) })) ∧
      (le b 0 1 = 0 → le b 1 1 ≤ 67 → s.testable (le b 1 1) = false → s.Completes (.diagSelftest r) r stBusy [] s) ∧
      (le b 0 1 ≠ 0 ∨ 67 < le b 1 1 → s.Completes (.diagSelftest r) r stBadOpcode [] s)) ∧
    (s.Allowed r 0x0A03 → ∃ s', s.Completes (.diagClear r) r stOk [] s' ∧
      ∀ k, k < 16 → (bitOf (le b 0 2) k = true → (s'.injSlot k).armed = false ∧ (s'.injSlot k).fired = 0) ∧
        (bitOf (le b 0 2) k = false → s'.injSlot k = s.injSlot k))

/-- The SEC commands (R364, R365, R368, R369). One that has to program the flash waits while a flush or an MCB write holds it (R35, log
entry 287). SEC_FW_WRITE writes the slot that does not run (log entry 37); SHA-384 and the signatures are constants that no rule defines
(log entry 7). -/
def Obligations.SecurityCommands : Prop :=
  ∀ (s : State) (r : Route),
    let b := s.payload r
    (s.Allowed r 0x0902 →
      (s.flash.seed = none → s.Completes (.secAttest r) r stFaulted [] s) ∧
      (∀ seed, s.flash.seed = some seed → s.flash.lastAttest = none → s.flash.lmsNext < 2 ^ 25 →
        s.flashBusy = true → s.flash.lmsClaimed ≤ s.flash.lmsNext → exec (.secAttest r) s = .next s) ∧
      (∀ seed, s.flash.seed = some seed → s.flash.lastAttest = none → s.flash.lmsNext < 2 ^ 25 →
        s.flashBusy = false ∨ s.flash.lmsNext < s.flash.lmsClaimed →
        ∃ s' resp, s.Completes (.secAttest r) r stOk resp s' ∧ s'.flash.lmsNext = s.flash.lmsNext + 1 ∧
          s'.flash.lmsNext ≤ s'.flash.lmsClaimed ∧ s'.flash.lastAttest = some s.now ∧
          resp = s.reserveLms.attestHead (slice b 0 32) ++
            padTo 96 (Config.ecdsaSign seed (Config.sha384 (s.reserveLms.attestHead (slice b 0 32)))) ++
            padTo 3124 (Config.hssSign seed s.flash.lmsNext (Config.sha384 (s.reserveLms.attestHead (slice b 0 32))))) ∧
      (∀ seed t, s.flash.seed = some seed → s.flash.lastAttest = some t → s.now < t + 1000000000 →
        s.Completes (.secAttest r) r stBusy [] s)) ∧
    (s.Allowed r 0x0903 → le b 0 8 + (b.drop 8).length ≤ 0x8000000 →
      (s.flashBusy = false → s.Completes (.secFwWrite r) r stOk []
        (s.writeFlash (imageBase (1 - s.boot.image) + le b 0 8) (b.drop 8))) ∧
      (s.flashBusy = true → exec (.secFwWrite r) s = .next s)) ∧
    (s.Allowed r 0x0904 → s.imageFails (1 - s.boot.image) = none → s.flashBusy = true → exec (.secFwActivate r) s = .next s) ∧
    (s.Allowed r 0x0904 → s.flashBusy = false →
      (∃ t, exec (.secFwActivate r) s = .next t ∧ (t.mbox r).state = .done ∧
        ((t.mbox r).status = stOk ↔ s.imageFails (1 - s.boot.image) = none)) ∧
      (s.imageFails (1 - s.boot.image) = none → ∃ s', s.Completes (.secFwActivate r) r stOk [] s' ∧
        le s'.flash.header 0 4 = 0x4A4B4648 ∧ le s'.flash.header 6 1 = (1 - s.boot.image) % 256) ∧
      ((s.imageFails (1 - s.boot.image)).isSome = true → s.Completes (.secFwActivate r) r stBadCheck [] s))

/-- The GRP commands that write (R305, Table 10-9). Payload widths (log entry 159), GRP_CONFIG values of 0 (log entry 226), GRP_SUBSTITUTE
and GRP_RECOVER by another route or while another waits (log entry 232), and when GRP_RETURN is denied and takes effect (log entries 233
and 311) are the model's. -/
def Obligations.GroupCommands : Prop :=
  ∀ (s : State) (r : Route),
    let b := s.payload r
    (s.Allowed r 0x0B01 →
      (s.jobRuns = true → s.Completes (.grpConfig r) r stBusy [] s) ∧
      (s.jobRuns = false → s.Completes (.grpConfig r) r stOk [] (s.onGrp fun g => { g with
        cfg := grpCfgOf b g.cfg, slots := List.range (min 28 (le b 4 1)), lost := false }).roleWatch)) ∧
    (s.Allowed r 0x0B02 →
      (le b 0 1 ≤ 2 → 64 ≤ le b 1 1 → s.Completes (.grpPolicy r) r stOk [] (s.atBoundary (.policy (le b 0 1) (le b 1 1)))) ∧
      (2 < le b 0 1 ∨ le b 1 1 < 64 → s.Completes (.grpPolicy r) r stBadOpcode [] s)) ∧
    (r ≠ .chord →
      (s.Allowed r 0x0B05 → s.Completes (.grpSubstitute r) r stDeniedRegime [] s) ∧
      (s.Allowed r 0x0B06 → s.Completes (.grpRecover r) r stDeniedRegime [] s)) ∧
    (s.Allowed .chord 0x0B05 → r = .chord →
      let v := (List.range 8).map fun y => BitVec.ofNat 64 (le b (8 + 8 * y) 4)
      (le b 0 2 < s.grp.epoch.toNat → s.Completes (.grpSubstitute .chord) .chord stBadSeq [] s) ∧
      (s.grp.epoch.toNat ≤ le b 0 2 → s.grp.newPos = none → s.jobRuns = true → s.Completes (.grpSubstitute .chord) .chord stOk []
        ((s.calledUp v).onGrp fun g => { g with newPos := some v }))) ∧
    (s.Allowed .chord 0x0B06 → r = .chord → s.grp.epoch.toNat ≤ le b 0 2 → s.pwr.regime ≠ .none_ → s.pwr.regime ≠ .spring → le b 2 1 ≤ 5 →
      s.Completes (.grpRecover .chord) .chord stOk [] (s.enterPhase (le b 2 1) (le b 12 1) (BitVec.ofNat 32 (le b 4 4))
        (BitVec.ofNat 32 (le b 8 4)) s.grp.failed)) ∧
    (s.Allowed r 0x0B07 →
      (s.grp.substitute = true → s.Completes (.grpReady r) r stOk []
        (s.onGrp fun g => { g with readyStep := some (BitVec.ofNat 32 (le b 4 4)) })) ∧
      (s.grp.substitute = false → s.Completes (.grpReady r) r stDeniedRegime [] s)) ∧
    (s.Allowed r 0x0B08 →
      (7 < le b 0 1 ∨ 7 < le b 1 1 → s.Completes (.grpReturn r) r stBadOpcode [] s) ∧
      (le b 0 1 ≤ 7 → le b 1 1 ≤ 7 →
        (s.grp.returning.isSome = true ∨ s.grp.newPos.isSome = true ∨ s.grp.phase < 5 → s.Completes (.grpReturn r) r stBusy [] s) ∧
        (s.grp.returning = none → s.grp.newPos = none → 5 ≤ s.grp.phase →
          (s.isApex = false → s.Completes (.grpReturn r) r stDeniedRegime [] s) ∧
          (s.isApex = true → s.jobRuns = true → ∀ x, (List.range 8).find? (fun x => s.col x (le b 1 1) == 8) = some x →
            s.Completes (.grpReturn r) r stOk [] ((s.onGrp fun g => { g with
              returning := some (le b 0 1, le b 1 1), failed := g.failed.filter (· != 9 * le b 1 1 + le b 0 1) }).writePos
                ((List.range 8).map fun k => if k = le b 1 1 then setFld (s.chdPos k) (4 * x) 4 (le b 0 1) else s.chdPos k)).sendApexState))))

/-- The HST commands that write (R56, R57, R175, R179, R387). The 100,000 ticks between two HST_CORRELATE run from receipt to receipt
(log entry 253). -/
def Obligations.HostCommands : Prop :=
  ∀ (s : State) (r : Route),
    let b := s.payload r
    (s.Allowed r 0x0C01 →
      (s.cp.lastCorrelate = none → ∃ s', s.Completes (.hstCorrelate r) r stOk (leBytes 8 (s.mbox r).receipt.toNat) s' ∧
        s'.boot.modCount = s.boot.modCount ∧ s'.cp.lastCorrelate = some (s.mbox r).receipt.toNat) ∧
      (∀ l, s.cp.lastCorrelate = some l → (s.mbox r).receipt.toNat < l + 100000 → s.Completes (.hstCorrelate r) r stBusy [] s)) ∧
    (s.Allowed r 0x0C02 → (∀ q, q < 76 → (s.queue q).state ≠ .stale) → s.Completes (.hstFence r) r stOk [] s) ∧
    (s.Allowed r 0x0C03 →
      let n := le b 0 2
      let new := (List.range n).map fun i => (le b (8 + 16 * i) 8, le b (16 + 16 * i) 8)
      let all := (if s.hst.replaceList then [] else s.hst.ranges) ++ new
      (1 ≤ n → n ≤ 250 → 8 + 16 * n ≤ b.length → all.length ≤ 4096 → s.jobRuns = true → bitOf (le b 2 1) 0 = false →
        s.Completes (.hstBufRegister r) r stOk [] (s.onHst fun h => { h with ranges := all, replaceList := false })) ∧
      (1 ≤ n → n ≤ 250 → 8 + 16 * n ≤ b.length → 4096 < all.length → s.Completes (.hstBufRegister r) r stOverQuota [] s) ∧
      (n = 0 ∨ 250 < n ∨ b.length < 8 + 16 * n → s.Completes (.hstBufRegister r) r stBadOpcode [] s))

/-! ### Mailboxes and the management bus -/

/-- MBX_DOORBELL[n] posts MB[n] when it is idle or done; a doorbell of MB[15] or of a mailbox not done is a violation (R377). A
posted mailbox is POSTED with its receipt stamped while the CP takes no command (R56). -/
def Obligations.MailboxDoorbell : Prop :=
  ∀ (s : State) (hdr : Word64) (n : Fin 15), s.Quiet → s.linkUp = true →
    let m := s.mbox (.pcie n)
    (m.state = .idle ∨ m.state = .done → exec (.mbxDoorbell hdr n.castSucc) s = .next (s.post (.pcie n)) ∧
      (s.cpReady = false → ((s.post (.pcie n)).mbox (.pcie n)).state = .posted ∧
        ((s.post (.pcie n)).mbox (.pcie n)).receipt = s.boot.modCount ∧ ∀ q, q ≠ .pcie n → (s.post (.pcie n)).mbox q = s.mbox q)) ∧
    (m.state = .posted ∨ m.state = .running → exec (.mbxDoorbell hdr n.castSucc) s = .next (s.hostViol 7 hdr)) ∧
    exec (.mbxDoorbell hdr 15) s = .next (s.hostViol 7 hdr)

/-- Checks 1 to 4 of R376 in their order on a posted command. One that fails the check of its CRC or SEQ is answered and changes neither
LAST_SEQ nor what is kept of the last command accepted; a repeat of that command's SEQ is answered with its original status and
response. A bit of FLAGS that is reserved, an opcode that is not listed and one that MB[15] does not take are ST_BAD_OPCODE; MB[15] takes
commands of the Apex under its present EPOCH alone (R379). RESYNC in check 2 is read as log entry 40 has it, and the sender of MB[15]'s
pieces as log entry 313 has it. -/
def Obligations.MailboxChecks : Prop :=
  ∀ (s : State) (r : Route),
    let m := s.mbox r
    let q := m.request
    let resync := bitOf (mFlags q) 0
    let t := s.checkPosted r
    let kept := (t.mbox r).state = .done ∧ (t.mbox r).lastSeq = m.lastSeq ∧ (t.mbox r).status = m.status ∧ (t.mbox r).response = m.response
    let refused (st : Word16) := (t.mbox r).state = .done ∧ (t.mbox r).status = st ∧ t.answered r = st.toNat
    (4032 < mLen q ∨ requestCrc q ≠ le q 16 4 → kept ∧ t.answered r = stBadCheck.toNat) ∧
    (mLen q ≤ 4032 → requestCrc q = le q 16 4 → resync = false → mSeq q = m.lastSeq →
      kept ∧ t.answered r = m.status.toNat ∧ Memory.bytes (t.mbox r).bytes 64 m.response.length = m.response) ∧
    (mLen q ≤ 4032 → requestCrc q = le q 16 4 → resync = false → mSeq q ≠ m.lastSeq → mSeq q ≠ m.lastSeq + 1 →
      kept ∧ t.answered r = stBadSeq.toNat) ∧
    (mLen q ≤ 4032 → requestCrc q = le q 16 4 → resync = true ∨ mSeq q = m.lastSeq + 1 →
      (t.mbox r).lastSeq = mSeq q ∧
      (opcodeListed (mOp q) = false ∨ mFlags q / 2 ≠ 0 → refused stBadOpcode) ∧
      (r = .chord → mb15Allows (mOp q) = false → refused stBadOpcode) ∧
      (r = .chord → opcodeListed (mOp q) = true → mFlags q / 2 = 0 → mb15Allows (mOp q) = true →
        (mEpoch q ≠ s.grp.epoch.toNat ∨ s.cp.mb15From ≠ some s.apexPos → refused stBadSeq) ∧
        (mEpoch q = s.grp.epoch.toNat → s.cp.mb15From = some s.apexPos → m.state = .posted →
          (t.mbox r).state = .posted ∧ (t.mbox r).checked = true)) ∧
      (opcodeListed (mOp q) = true → mFlags q / 2 = 0 → r ≠ .chord → m.state = .posted →
        (t.mbox r).state = .posted ∧ (t.mbox r).checked = true)) ∧
    s.OnlyAnswers t r

/-- The management bus (R378, R408): writes land in its mailbox, reads answer from it, code 0x21 posts it; a bad PEC and a command
code that R378 does not name are violations. -/
def Obligations.ManagementBus : Prop :=
  ∀ (s : State) (off : Nat) (d : List Byte) (code addr : Byte), s.boot.standby = true →
    (d.length ≤ 253 → off + d.length ≤ 4096 → ∃ t, exec (.smbBlockWrite true off d) s = .next t ∧
      t = { s with cp := { s.cp with smb := { s.cp.smb with bytes := t.cp.smb.bytes } } } ∧
      ∀ a, Memory.read t.cp.smb.bytes a = if off ≤ a ∧ a < off + d.length ∧ mboxReserved a = false then d.getD (a - off) 0
        else Memory.read s.cp.smb.bytes a) ∧
    (d.length ≤ 253 → exec (.smbBlockWrite false off d) s = .next (s.smbViol 1 0x20 s.smbAddr)) ∧
    (d.length ≤ 253 → 4096 < off + d.length → exec (.smbBlockWrite true off d) s = .next (s.smbViol 3 0x20 s.smbAddr)) ∧
    exec (.smbBlockRead true off) s = .next { s with out := .smb (Memory.bytes s.cp.smb.bytes off (min 255 (4096 - off))) :: s.out } ∧
    exec (.smbBlockRead false off) s = .next (s.smbViol 1 0x22 s.smbAddr) ∧
    (s.cp.smb.state = .idle ∨ s.cp.smb.state = .done → exec (.smbSendByte true) s = .next (s.post .smb)) ∧
    (s.cp.smb.state = .posted ∨ s.cp.smb.state = .running → exec (.smbSendByte true) s = .next (s.smbViol 4 0x21 s.smbAddr)) ∧
    exec (.smbSendByte false) s = .next (s.smbViol 1 0x21 s.smbAddr) ∧
    (code ≠ 0x20 → code ≠ 0x21 → code ≠ 0x22 → exec (.smbBadCommandCode code addr) s =
      .next (({ s with out := .smb [] :: s.out } : State).smbViol 2 code.toNat addr.toNat)) ∧
    (s.smbViol 2 code.toNat addr.toNat).alm.smbViol = s.alm.smbViol + 1

/-- MB_CMD_FIRST, MB_CMD_NEXT and MB_CMD_DONE (R379): a first piece starts the command afresh, a next one is added; the Apex keeps
what MB_CMD_DONE reports of the sender. Bytes 1 to 3 are not read (log entry 50), and a next piece counts from the sender of the first
alone (log entry 313). -/
def Obligations.ChordMailbox : Prop :=
  ∀ (s : State) (m : CtlMsg), s.boot.mainOn = true →
    (le m.bytes 0 1 = 0x20 → exec (.mbCmdFirst m) s = .next ((s.takeCtl m).mb15Piece m.srcX m.srcY [] (slice m.bytes 4 28))) ∧
    (le m.bytes 0 1 = 0x21 → s.cp.mb15 ≠ [] → s.cp.mb15From = some (m.srcX, m.srcY) → exec (.mbCmdNext m) s =
      .next ((s.takeCtl m).mb15Piece m.srcX m.srcY s.cp.mb15 (slice m.bytes 4 28))) ∧
    (le m.bytes 0 1 = 0x22 → s.grp.restoring = [] → ∃ t, exec (.mbCmdDone m) s = .next t ∧
      t = { s with cp := { s.cp with mbDone := t.cp.mbDone }, chd := { s.chd with ctlIn := s.chd.ctlIn.erase m } } ∧
      ∀ k, Sparse.get [] t.cp.mbDone k = if k = 8 * m.srcY + m.srcX then slice m.bytes 4 26 else Sparse.get [] s.cp.mbDone k)

/-! ### Supplies, start-up and shutdown -/

/-- Above its absolute maximum a supply destroys the module (Table 15-3, R414), the model's only faults (log entry 10); inside its range
it is applied. That memory contents stay is the model's choice (log entry 14). -/
def Obligations.Supplies : Prop :=
  ∀ (s : State) (mv : Nat),
    (13800 < mv → exec (.standbyApply mv) s = .fault .supplyBeyondAbsolute) ∧
    (60000 < mv → exec (.mainInputApply mv) s = .fault .supplyBeyondAbsolute) ∧
    (11400 ≤ mv → mv ≤ 12600 → s.boot.standby = false → s.boot.fallback = false → ∃ t, exec (.standbyApply mv) s = .next t ∧
      t.boot.standby = true ∧ t.boot.modCount = 0 ∧ t.boot.phase = 0 ∧ t.boot.main = s.boot.main ∧ t.boot.mainOn = false ∧
      t.flash.bytes = s.flash.bytes ∧ t.alm.flash = s.alm.flash ∧ t.alm.ring = [] ∧ t.mem.g7 = s.mem.g7 ∧ t.pending = s.pending) ∧
    (40000 ≤ mv → mv ≤ 58000 → s.boot.main = false → ∃ t, exec (.mainInputApply mv) s = .next t ∧ t.boot.main = true ∧
      t = { s with boot := { s.boot with main := true, phase := t.boot.phase } })

/-- Losses (R415 to R417, R419): a loss of main input and EMERG_OFF# begin the ordered shutdown and a flush, the flush also while the
main domain is off (R395); standby lost with main present begins it on the fallback converter; without main, when main follows it
within 1 ms, and when both go, the always-on domain falls, and what a running flush has programmed stays (a free number of records,
notes/assumptions/336.md). That memories keep their contents is the model's choice (log entry 14). The rails are off, and stay off for the off interval, once the flush and any MCB write have ended. -/
def Obligations.PowerLoss : Prop :=
  ∀ (s : State),
    (s.boot.main = true → s.boot.fallback = false ∨ s.boot.standbyLost = none →
      ∀ i ∈ [Instr.mainInputLoss, Instr.emergOff], ∃ t, exec i s = .next t ∧ t.boot.main = false ∧
        (s.boot.shutdown = none → t.alm.flushing = true ∨ t.alm.flushDue = true) ∧
        (s.boot.mainOn = true → s.boot.shutdown = none → t.boot.shutdown = some .mainLoss ∧ t.pwr.closed = true ∧ t.streams.held = true)) ∧
    (∀ k, s.boot.main = true → s.boot.fallback = true → s.boot.standbyLost = some k → s.now ≤ k + 100000 →
      exec .mainInputLoss s = exec .dualInputLoss s) ∧
    (s.boot.standby = true → s.boot.main = true → s.boot.shutdown = none → ∃ t, exec .standbyLoss s = .next t ∧
      t.boot.standby = false ∧ t.boot.fallback = true ∧ t.boot.shutdown = some .standbyLoss) ∧
    (s.boot.standby = true → s.boot.main = false → exec .standbyLoss s = .next s.fall) ∧
    (∃ t, exec .dualInputLoss s = .next t ∧ t.boot.standby = false ∧ t.boot.main = false ∧ t.alm.ring = [] ∧
      t.flash.bytes = s.flash.bytes ∧ t.flash.lmsNext = s.flash.lmsClaimed) ∧
    (s.alm.flushing = false → exec .dualInputLoss s = .next ({ s with boot := { s.boot with main := false } } : State).fall) ∧
    (∀ c, s.boot.shutdown = some c → c = .mainLoss ∨ c = .thermal → s.boot.mainOn = true → 3 ≤ s.boot.phase → s.flash.mcbWrite = none → s.flash.mcbNext = none →
      s.alm.flushing = false → s.alm.flushDue = false → ∃ t, exec .mainRailsOff s = .next t ∧ t.boot.mainOn = false ∧
        t.boot.shutdown = none ∧ t.boot.phase = 3 ∧ t.boot.offUntil = some (s.now + 10000000) ∧ t.pwr.regime = .none_ ∧
        t.sync.sc = [] ∧ t.mem.g7 = s.mem.g7 ∧ t.mem.slow = s.mem.slow) ∧
    (∀ k, s.boot.offUntil = some k → exec .mainOffIntervalExpiry s =
      .next ((s.passTo k).onBoot fun b => { b with offUntil := none }).tryPhase4)

/-- Start-up's phases 0 to 3 (Table 13-1, R362 to R370). Where the identity region keeps the helper data and the seed's hash is the model's
(log entry 15), and SHA-384, the signatures and the reconstruction are constants that no rule defines (log entry 7). -/
def Obligations.StartupStandby : Prop :=
  ∀ (s : State) (pattern : List Byte),
    (s.boot.standby = true → s.boot.phase = 0 → s.cp.up = false → s.boot.romOnly = false →
      let first := match s.headerCopy with | some h => if le h.2 6 1 = 1 then 1 else 0 | none => 0
      (s.imageFails first = none → ∃ t, exec .startupRom s = .next t ∧ t.boot.phase = 1 ∧ t.boot.image = first ∧
        t.boot.imageFallback = false ∧ t.cp.up = true ∧ t.flash.codeLocked = true ∧
        t.flash.codeMem = s.flashBytes (imageBase first + 4096) (le (s.flashBytes (imageBase first) 4096) 16 8)) ∧
      (∀ c, s.imageFails first = some c → s.imageFails (1 - first) = none → ∃ t, exec .startupRom s = .next t ∧
        t.boot.phase = 1 ∧ t.boot.image = 1 - first ∧ t.boot.imageFallback = true ∧ t.cp.up = true) ∧
      (∀ c d, s.imageFails first = some c → s.imageFails (1 - first) = some d → ∃ t, exec .startupRom s = .next t ∧
        t.boot.romOnly = true ∧ t.cp.up = false) ∧
      ∃ t, exec .startupRom s = .next t ∧ (t.boot.phase = 1 ∧ t.cp.up = true ∨ t.boot.romOnly = true)) ∧
    (s.cp.up = true → s.boot.phase = 1 → ∃ t, exec (.startupIdentity pattern) s = .next t ∧ t.boot.phase = 2 ∧
      t.flash.lmsNext = s.flash.lmsClaimed ∧
      ∀ seed n, Config.reconstructSeed pattern (s.flashBytes (identityBase + 0x80030) 0x10000) = some (seed, n) →
        Config.sha384 seed = s.flashBytes (identityBase + 0x80000) 48 → t.boot.identityOk = true ∧ t.flash.seed = some seed) ∧
    (s.Quiet → s.cp.up = true → s.boot.phase = 2 → s.boot.resume = none → s.boot.main = false →
      let m := s.flashBytes mcbBase 2048
      let ok := le m 0 4 = 0x4A4B4D43 ∧ le m 4 2 = 1 ∧ le m 6 2 = 2048 ∧ mcbCrc m = le m 8 4
      ∃ t, exec .startupConfig s = .next t ∧ t.boot.phase = 3 ∧ (ok → t.flash.mcb = m ∧ t.boot.cfgDefaulted = false) ∧
        (¬ok → t.flash.mcb = mcbDefault ∧ t.boot.cfgDefaulted = true))

/-- Start-up's phases 4 to 8 (Table 13-1, R361, R372, R413, R418): each phase that succeeds starts the next; one that fails holds. The
model's own choices in it: a miscabled port that phase 8 finds holds start-up with cause 2 of phase 7, as R248 forbids leaving Spring
(notes/assumptions/332.md), a PHYS_X of 9 to 14 is read as none (notes/assumptions/331.md), a port with a cable that hears nothing stays
TRAINING (log entry 129), whether a cable is present is a constant (log entry 340), and every completion of start-up writes STARTUP_DONE
(log entry 34). -/
def Obligations.StartupMain : Prop :=
  ∀ (s : State) (gen width : Nat) (peers : List (Fin 8 × PeerId)) (failing : List (Fin 68 × Nat)),
    s.Quiet → s.boot.springHeld = false →
    (s.boot.phase = 4 → s.boot.offUntil = none → s.pwr.regime = .none_ → ∃ t, exec (.startupRails none gen width) s = .next t ∧
      t.boot.phase = 5 ∧ t.boot.mainOn = true ∧ t.pwr.regime = .spring ∧ t.pwr.setpoint = 550 ∧ t.hst.link = .l0) ∧
    (∀ k, s.boot.phase = 4 → s.boot.offUntil = none → ∃ t, exec (.startupRails (some k) gen width) s = .next t ∧
      t.boot.springHeld = true ∧ t.boot.phase = 4 ∧ t.boot.offUntil = some (s.now + 10000000)) ∧
    (s.boot.phase = 5 → (∀ q, q < 4 → (failing.filter fun f => f.1.val / 17 == q).length ≤ 1) → ∃ t, exec (.startupTiles failing) s = .next t ∧
      t.boot.phase = 6 ∧ (failing = [] → ∀ e, e < 64 → t.tmap e = ⟨true, 17 * (e / 16) + e % 16, 0⟩)) ∧
    (s.boot.phase = 6 → (∃ t, exec (.startupMemory true true) s = .next t ∧ t.boot.phase = 7) ∧
      exec (.startupMemory false true) s = .next (s.hold 4) ∧ exec (.startupMemory true false) s = .next (s.hold 5)) ∧
    (s.boot.phase = 7 → 9 ≤ le s.flash.mcb 16 1 % 16 → ∃ t, exec (.startupLinks peers true true) s = .next t ∧
      t.boot.holdCause = 3 ∧ t.boot.springHeld = true) ∧
    (s.boot.phase = 7 → le s.flash.mcb 16 1 % 16 < 9 → ∃ t, exec (.startupLinks [] true true) s = .next t ∧ t.boot.phase = 8 ∧
      t.boot.phase8Tick = s.now ∧ (t.ethPort 0).state = 1 ∧ (t.ethPort 1).state = 1 ∧
      ∀ p, p < 8 → match portDir t.split p with
        | none => (t.port p).state = .unassigned
        | some d => (t.port p).dir = d ∧ (t.port p).state = if Config.cablePresent p = true then .training else .down) ∧
    (s.boot.phase = 8 → s.boot.mainOn = true → s.comp.commit = none →
      exec (.startupRecover false) s = .next (s.hold 6) ∧
      (s.openSlot = none → (∃ p, p < 8 ∧ (s.port p).state = .miscabled) → exec (.startupRecover true) s = .next (s.hold 2)) ∧
      (s.openSlot = none → (∀ p, p < 8 → (s.port p).state ≠ .miscabled) → ∃ t, exec (.startupRecover true) s = .next t ∧
        t.boot.phase = 15 ∧ t.boot.ready = true ∧ t.boot.startupTick = s.boot.modCount ∧ t.pwr.regime ≠ .spring)) ∧
    ∀ cause, (s.hold cause).boot.springHeld = true ∧ (s.hold cause).boot.holdCause = cause ∧ (s.hold cause).boot.phase = s.boot.phase

/-- MCB_WRITE_DONE (R371): the block is in flash and its command answered; nothing else of flash changes. After a failed write the CHECK
field is free (log entry 36). -/
def Obligations.McbWritten : Prop :=
  ∀ (s : State) (w : McbWrite), s.flash.mcbWrite = some w → w.image.length = 2048 →
    (∃ t, exec (.mcbWriteDone true) s = .next t ∧ t.flash.mcbWrite = none ∧
      (∀ a, Memory.read t.flash.bytes a =
        if 0x10010000 ≤ a ∧ a < 0x10010000 + 2048 then w.image.getD (a - 0x10010000) 0 else Memory.read s.flash.bytes a) ∧
      ∀ r, w.route = some r → (s.mbox r).state = .running → (t.mbox r).state = .done ∧ (t.mbox r).status = stOk) ∧
    (∃ t, exec (.mcbWriteDone false) s = .next t ∧ t.flash.mcbWrite = none ∧
      (∀ a, a < 0x10010008 ∨ 0x1001000C ≤ a → Memory.read t.flash.bytes a =
        if 0x10010000 ≤ a ∧ a < 0x10010000 + 2048 then w.image.getD (a - 0x10010000) 0 else Memory.read s.flash.bytes a) ∧
      ∀ r, w.route = some r → (s.mbox r).state = .running → (t.mbox r).status = stFaulted)

/-! ### Time and the control processor -/

/-- MOD_COUNT_WRAP, and a read of MOD_COUNT's low half (R51, R52, R55). How time passes between commands is log entry 9. -/
def Obligations.ModuleTime : Prop :=
  ∀ (s : State),
    (s.boot.standby = true → ∃ t, exec .modCountWrap s = .next t ∧ t.boot.modCount.toNat % 2 ^ 48 = 0 ∧
      (s.now + 2 ^ 48 < 2 ^ 64 → t.boot.modCount.toNat / 2 ^ 48 = s.now / 2 ^ 48 + 1)) ∧
    (s.aoUp = true → exec .modCountLowRead s = .next { s with boot := { s.boot with hiLatch := some (s.boot.modCount.extractLsb' 32 32) } }) ∧
    (∀ n, s.boot.standby = false → s.boot.fallback = false → s.pass n = s) ∧
    ∀ n, s.boot.standby = true → (s.pass n).boot.modCount = s.boot.modCount + BitVec.ofNat 64 n

/-- The CP's restarts (R358 to R360, R382) and its debug port and TAP (R412). A command that a warm restart interrupts is answered with
the status of its commit point, else ST_FAULTED (R381); so is the one whose stored command the error of data memory lost, a free one
(notes/assumptions/334.md). An MCB write whose command has no commit point yet is dropped. EXTEST, INTEST and CLAMP act as BYPASS while
MAIN_ON is 1. -/
def Obligations.ControlProcessor : Prop :=
  ∀ (s : State) (pc : BitVec 48) (page word ticks : Nat), s.Quiet →
    (s.cp.up = true → s.cp.restarting = false → s.cp.halted = false →
      (∃ t, exec (.cpWatchdogExpiry pc) s = .next t ∧ t.cp.restarting = true ∧
        t.cp.expiry = some (pc, (s.passTo (s.cp.watchdog + 100000)).now)) ∧
      exec (.cpMemUe true page word) s =
        .next (s.onCp fun c => { c with restarting := true, expiry := none, reload := some (page, word), lostCmd := none }) ∧
      ∃ t, exec (.cpMemUe false page word) s = .next t ∧ (∀ k, t.cp.lostCmd = some k → k < 17) ∧
        t = s.draw.2.onCp fun c => { c with restarting := true, expiry := none, reload := none, lostCmd := t.cp.lostCmd }) ∧
    (s.cp.restarting = true → ∃ t, exec (.cpWarmRestartDone ticks) s = .next t ∧ t.cp.restarting = false ∧
      t.cp.resets = s.cp.resets + 1 ∧
      (∀ r, (s.mbox r).state = .running → (t.mbox r).state = .done ∧
        (t.mbox r).status = if (s.cp.lostCmd.bind fun k => allRoutes[k]?) = some r then stFaulted else (s.mbox r).reached.getD stFaulted) ∧
      (∀ r, (s.mbox r).state = .posted → (s.mbox r).checked = true → (t.mbox r).state = .done ∧ (t.mbox r).status = stFaulted) ∧
      ∀ w r, s.flash.mcbWrite = some w → w.route = some r → (s.mbox r).state = .running → (s.mbox r).reached = none →
        t.flash.mcbWrite = none) ∧
    (s.aoUp = true → exec .cpDebugHalt s = .next (s.onCp fun c => { c with halted := true })) ∧
    (s.aoUp = true → s.cp.halted = true → exec .cpDebugRelease s =
      .next (s.onCp fun c => { c with halted := false, watchdog := s.now }).checkAllPosted) ∧
    (s.aoUp = true → exec (.tapInstruction .idcode) s =
      .next { s with boot := { s.boot with tap := .idcode }, out := .tap (some idcode) :: s.out }) ∧
    (s.aoUp = true → exec (.tapInstruction .bypass) s = .next { s with boot := { s.boot with tap := .bypass }, out := .tap none :: s.out }) ∧
    ∀ ir ∈ [TapIr.extest, .intest, .clamp], s.aoUp = true → exec (.tapInstruction ir) s =
      .next (if s.boot.mainOn then { s with boot := { s.boot with tap := ir }, out := .tap none :: s.out }
        else { s with boot := { s.boot with tap := ir } })

/-! ### The 288/256 code, counters, watches -/

/-- R222: 32 data bytes and 4 check bytes; the codeword polynomial, byte i the coefficient of x^(35 − i), vanishes at α^0 to α^3 in
GF(2^8) with the field polynomial x^8 + x^4 + x^3 + x^2 + 1 and α = 2; a codeword covers the aligned 32 bytes that an address lies
in; any one byte in error is corrected and any two are detected. -/
def Obligations.CodewordCorrects : Prop :=
  ∀ data : List Byte, data.length = 32 →
    (codeword data).length = 36 ∧ (codeword data).take 32 = data ∧ (∀ i, i < 4 → rsSyndrome (codeword data) i = 0) ∧
    gfExp 1 = 2 ∧ (∀ a, a < 256 → gfDouble a = if a < 128 then 2 * a else 2 * a ^^^ 0x11D) ∧
    (∀ off, cwSpan (32 * (off / 32)) 32 = [off / 32]) ∧
    decodeWord (codeword data) = (data, .good) ∧
    (∀ i e, i < 36 → e ≠ 0 →
      decodeWord ((codeword data).set i ((codeword data).getD i 0 ^^^ e)) = (data, .correctable)) ∧
    ∀ i j e f, i < 36 → j < 36 → i ≠ j → e ≠ 0 → f ≠ 0 →
      (decodeWord (((codeword data).set i ((codeword data).getD i 0 ^^^ e)).set j ((codeword data).getD j 0 ^^^ f))).2.isBad = true

/-- R180: the operations of a counter by a source whose command arrives, the read of its register, and zero when the main domain
comes up; the vote that VOTE_SC posts (R286) apart. SC_OP_UNDEFINED is a violation and changes no counter (R194). -/
def Obligations.CounterOperations : Prop :=
  ∀ (s : State) (n : Fin 16384) (v : Word32) (src : ScSource) (hdr x : Word64), s.Quiet →
    (src = .pcie ∧ s.linkUp = true ∨ src ≠ .pcie ∧ s.boot.mainOn = true) → (s.jobRuns = false ∨ n.val ≠ s.grp.cfg.voteSc) →
    let c := s.counter n
    (∃ t, exec (.scAdd n v src) s = .next t ∧ (∀ m : Nat, m ≠ n → t.counter m = s.counter m) ∧
      t.counter n = if 0xFFFFFFFF < c.value.toNat + v.toNat then { c with value := 0xFFFFFFFF, ovf := true } else { c with value := c.value + v }) ∧
    (∃ t, exec (.scSub n v src) s = .next t ∧ (∀ m : Nat, m ≠ n → t.counter m = s.counter m) ∧
      t.counter n = if c.value.toNat < v.toNat then { c with value := 0, unf := true } else { c with value := c.value - v }) ∧
    (∃ t, exec (.scSet n v src) s = .next t ∧ (∀ m : Nat, m ≠ n → t.counter m = s.counter m) ∧ t.counter n = ⟨v, false, false⟩) ∧
    (∃ t, exec (.scClearFlags n src) s = .next t ∧ (∀ m : Nat, m ≠ n → t.counter m = s.counter m) ∧
      t.counter n = { c with ovf := false, unf := false }) ∧
    (s.bar0Read (0x100000 + 8 * n.val)).toNat = c.value.toNat + 2 ^ 32 * bit c.ovf + 2 ^ 33 * bit c.unf ∧
    (∀ gen width, s.boot.phase = 4 → s.boot.springHeld = false → s.boot.offUntil = none → ∃ t,
      exec (.startupRails none gen width) s = .next t ∧ t.boot.mainOn = true ∧ ∀ m, t.counter m = ⟨0, false, false⟩) ∧
    (∃ t, exec .functionLevelReset s = .next t ∧ ∀ m, t.counter m = s.counter m) ∧
    (s.linkUp = true → 3 < fld x 60 4 → exec (.scOpUndefined hdr n x) s = .next (s.hostViol 8 hdr) ∧ (s.hostViol 8 hdr).sync = s.sync)

/-- R317: a watch compares when ARMED is written and after each operation on its counter; the first time the counter is at or above
THRESHOLD it is disarmed and vector 1,024 + k is sent; a masked vector is kept pending. -/
def Obligations.Watches : Prop :=
  ∀ (s : State) (k : Fin 1024) (v : Word64) (n : Fin 16384) (a : Word32) (src : ScSource), s.Quiet →
    let w := v &&& 0x80003FFFFFFFFFFF
    let put (x : Word64) : State := s.onHst fun h => { h with watch := Sparse.put 0 h.watch k x }
    (s.linkUp = true → fld v 63 1 = 1 → fld v 0 32 ≤ s.sc (fld v 32 14) → ∃ t, exec (.hstWatchArm k v) s = .next t ∧
      Sparse.get 0 t.hst.watch k = setFld w 63 1 0 ∧ (s.hst.msixEn = true → s.masked (1024 + k) = true → 1024 + k.val ∈ t.hst.pba) ∧
      (s.hst.msixEn = true → s.masked (1024 + k) = false → s.hostOpen = true → s.hst.wait = [] →
        s.logRoom (.msix (1024 + k)) = true → t.out = .msix (1024 + k) :: s.out)) ∧
    (s.linkUp = true → fld v 63 1 = 0 ∨ s.sc (fld v 32 14) < fld v 0 32 → exec (.hstWatchArm k v) s = .next (put w)) ∧
    (let x := Sparse.get 0 s.hst.watch k
     fld x 63 1 = 1 → fld x 32 14 = n → (s.jobRuns = false ∨ n.val ≠ s.grp.cfg.voteSc) →
      (src = .pcie ∧ s.linkUp = true ∨ src ≠ .pcie ∧ s.boot.mainOn = true) →
      ∀ c ∈ [Instr.scAdd n a src, .scSub n a src, .scSet n a src, .scClearFlags n src], ∃ t, exec c s = .next t ∧
        (fld x 0 32 ≤ t.sc n → Sparse.get 0 t.hst.watch k = setFld x 63 1 0 ∧
          (s.hst.msixEn = true → s.masked (1024 + k) = true → 1024 + k.val ∈ t.hst.pba) ∧
          (s.hst.msixEn = true → s.masked (1024 + k) = false → s.hostOpen = true → s.hst.wait = [] → s.hst.wlogSize = 0 →
            .msix (1024 + k) ∈ t.out)) ∧
        (t.sc n < fld x 0 32 → Sparse.get 0 t.hst.watch k = x))

/-- No key of the LMS tree is used twice (R368): the next index stays at or below the number claimed in flash, and never falls. -/
def Obligations.LmsKeysNeverReused : Prop :=
  ∀ s t : State, s.flash.lmsNext ≤ s.flash.lmsClaimed → step s = .next t →
    t.flash.lmsNext ≤ t.flash.lmsClaimed ∧ s.flash.lmsNext ≤ t.flash.lmsNext

/-- Reset values that the spec gives, in the State before standby is applied (log entry 3) (R180, R293, Tables 03-10, 04-7, 06-16, 08-7, 09-10, 10-9, 11-9, 12-9, 13-6). -/
def Obligations.ResetValues : Prop :=
  State.reset.flash.lmsNext ≤ State.reset.flash.lmsClaimed ∧
    (∀ n, State.reset.counter n = ⟨0, false, false⟩) ∧ (∀ p, (State.reset.tile p).regs.ctrl = 0x640000) ∧
    (∀ i, State.reset.scaleRec i = ⟨0x00000000FFFF0000, 0x010000000003FB08, 0, 0⟩) ∧
    (∀ q, (State.reset.queue q).enable = false ∧ (State.reset.queue q).log2n = 6) ∧
    State.reset.mem.ctrl = 0x0000100000320003 ∧ State.reset.chd.arb = 0x42040401 ∧ State.reset.chd.slice = 0x070700 ∧ (∀ y, State.reset.chdPos y = 0x76543210) ∧
    State.reset.grp.cfg.hbMiss = 5 ∧ State.reset.grp.cfg.voteLimit = 10000000 ∧ State.reset.grp.cfg.xvoteLimit = 20000000 ∧
    State.reset.hst.ctrl = 0x640064 ∧ State.reset.eth.retryLimit = 12 ∧ State.reset.eth.udpPort = 47207 ∧
    State.reset.pwr.target = 620 ∧ State.reset.pwr.cap = 1200 ∧ State.reset.pwr.envelope = 1200 ∧
    (∀ r, (State.reset.mbox r).lastSeq = 0xFFFFFFFF) ∧ State.reset.pending = []

/-! ### The power manager in time -/

/-- GOVERNOR_PERIOD (R340, R343, R344): the module power p, and the setpoint it leads to under the limit l with the ceiling c; in
Spring the setpoint stays. CALIBRATION_WINDOW (R345): the gains, from a reading whose estimates carry the gains in force at the window's start, and 100 windows of
disagreement before the higher value is followed. The arithmetic of a gain (log entry 29) and that the setpoint is not raised while a quarter
is parked (log entry 25) are inferred; the pattern of a gate that the governor drives is log entry 26. -/
def Obligations.GovernorAndCalibration : Prop :=
  ∀ (s : State) (rd : PowerReading) (cal : CalReading), s.Quiet → s.boot.mainOn = true →
    let p0 := rd.arrEst * s.pwrDyn.gainArr / 0x4000 + rd.engEst * s.pwrDyn.gainEng / 0x4000 +
      (((List.range 10).drop 2).map fun r => rd.railPower[r]?.getD 0).sum + rd.loss
    let p := if s.pwrDyn.followHigh then max p0 rd.input else p0
    let l := 1000 * max 150 (min s.pwr.cap (min s.pwr.envelope 1200))
    let c := min s.pwr.target (min s.pwrDyn.coreCeil (min s.pwr.target (s.pwrDyn.currCeil + 5)))
    let v := s.setpointGoal
    (∃ t, exec (.governorPeriod rd) s = .next t ∧ t.pwrRegs.input = rd.input ∧ t.pwrRegs.est = p ∧
      t.pwrRegs.energy = s.pwrRegs.energy + rd.input ∧ (s.pwr.regime = .spring → t.setpointGoal = v) ∧
      (s.pwr.regime ≠ .spring → s.pwr.rampUp = 0 → s.pwrDyn.episode = false → 150 ≤ s.pwr.cap → 150 ≤ s.pwr.envelope →
        s.pwr.parkedLimit = 0 → s.pwr.parkedTemp = 0 →
        (l < p → 450 < v → t.setpointGoal = min c (max 450 (v - if 11 * l < 10 * p then 20 else 10))) ∧
        (100 * p < 97 * l → v < c → t.setpointGoal = min c (v + 5)) ∧
        (p ≤ l → 97 * l ≤ 100 * p ∨ c ≤ v → t.setpointGoal = min c v))) ∧
    (∃ t, exec (.calibrationWindow cal) s = .next t ∧
      t.pwrDyn.gainArr = newGain s.pwrDyn.gainArr cal.arrMeas cal.arrEst ∧
      t.pwrDyn.gainEng = newGain s.pwrDyn.gainEng cal.engMeas cal.engEst ∧
      let off (e m : Nat) : Prop := 8 * m < 100 * (max e m - min e m)
      (off cal.arrEst cal.arrMeas ∨ off cal.engEst cal.engMeas →
        t.pwrDyn.windows = s.pwrDyn.windows + 1 ∧ t.pwrDyn.agree = 0 ∧ (99 ≤ s.pwrDyn.windows → t.pwrDyn.followHigh = true)) ∧
      (¬off cal.arrEst cal.arrMeas → ¬off cal.engEst cal.engMeas → t.pwrDyn.windows = 0 ∧ t.pwrDyn.agree = s.pwrDyn.agree + 1 ∧
        (99 ≤ s.pwrDyn.agree → t.pwrDyn.followHigh = false)))

/-- Events of the power manager (R337, R338, R341, R348 to R354). A second limit while a shutdown runs writes no FAULT (log entry 241), and
which phase PWR_SOLSTICE shows of several is not stated here (log entry 243). -/
def Obligations.PowerEvents : Prop :=
  ∀ s : State, s.Quiet →
    (∀ e, s.pwr.pending = some e → ∃ t, exec .envelopeEffective s = .next t ∧ t.pwr.envelope = e.ceiling ∧ t.pwr.pending = none) ∧
    (s.pwr.lease ≠ 0 → s.pwr.leased = false → ∃ t, exec .envelopeLeaseExpiry s = .next t ∧ t.pwr.envelope = s.pwr.safe ∧
      t.pwr.leased = true ∧ t.pwr.pending = none) ∧
    (∀ (q : Fin 4) (depth : Nat), s.boot.mainOn = true → 40 < depth → Sparse.get 0 s.pwrDyn.droop q = 0 → ∃ t,
      exec (.droopTrip q depth) s = .next t ∧ t.pwrDyn.droopGate = true ∧ t.pwrDyn.droopActive = true ∧
        t.pwr.setpoint = s.setpointNow ∧ Sparse.get 0 t.pwrDyn.droop q = depth + 1) ∧
    (∀ q : Fin 4, ∃ t, exec (.droopRelease q) s = .next t ∧
      ∀ k : Nat, Sparse.get 0 t.pwrDyn.droop k = if k = q then 0 else Sparse.get 0 s.pwrDyn.droop k) ∧
    (∀ ns waves, s.pwrDyn.droopGate = true → 2 ≤ waves → waves ≤ 20 → s.pwrDyn.droop = [] ∨ waves = 20 → ∃ t,
      exec (.droopGateEnd ns waves) s = .next t ∧ t.pwrDyn.droopGate = false) ∧
    (∀ ns, s.pwrDyn.droop = [] → s.pwrDyn.droopGate = false → s.pwrDyn.droopActive = true → ∃ t,
      exec (.droopClear ns) s = .next t ∧ t.pwrDyn.droopActive = false) ∧
    (∀ ns a b k, s.pwrDyn.slew = some (a, b, k) → s.pwrDyn.droopActive = false → ∃ t, exec (.slewDone ns) s = .next t ∧
      t.pwr.setpoint = b ∧ (s.pwr.parkedLimit = 0 → s.pwr.parkedTemp = 0 → t.pwrDyn.slew = none)) ∧
    (∀ peak, s.boot.mainOn = true → s.boot.shutdown = none → ∃ t, exec (.overcurrentDetect peak) s = .next t ∧
      (2100000 ≤ peak → t.boot.shutdown = some .overcurrent) ∧
      (1900000 < peak → peak < 2100000 → t.pwrDyn.episode = true ∧ t.pwrDyn.currCeil = max 450 (min s.pwrDyn.currCeil s.pwr.target - 10)) ∧
      (peak < 1850000 → t.pwrDyn.episode = false ∧ t.pwrDyn.currCeil = s.pwrDyn.currCeil)) ∧
    (∀ p r, s.boot.mainOn = true → s.boot.shutdown = none → (1760 : Int) ≤ r → ∃ t, exec (.dieTempStep [(.tile p, r)]) s = .next t ∧
      t.boot.shutdown = some .thermal) ∧
    (s.boot.mainOn = true → (∀ k ∈ s.pwrDyn.readings ++ s.pwrDyn.edgeReadings ++ s.pwrDyn.compReadings, k.2 < 93 * 16) →
      s.pwrDyn.lastRaise = none → s.pwrDyn.coreCeil < s.pwr.target → ∃ t, exec (.dieTempStep []) s = .next t ∧
        t.pwrDyn.coreCeil = min s.pwr.target (s.pwrDyn.coreCeil + 5)) ∧
    (s.boot.mainOn = true → (∀ k ∈ s.pwrDyn.readings ++ s.pwrDyn.edgeReadings ++ s.pwrDyn.compReadings, k.2 < 1760) →
      (∃ k ∈ s.pwrDyn.readings, 95 * 16 ≤ k.2) → s.pwrDyn.lastLower = none → ∃ t, exec (.dieTempStep []) s = .next t ∧
        t.pwrDyn.coreCeil = max 450 (min s.pwrDyn.coreCeil s.pwr.target - 5)) ∧
    (∀ q : Fin 4, s.pwr.parking.getLsbD q = true → s.quarterQuiet q = true → ∃ t, exec (.quarterParkDone q) s = .next t ∧
      t.pwr.parking.getLsbD q = false) ∧
    (∀ q : Fin 4, s.pwr.unparking.getLsbD q = true →
      (∀ i, i < 16 → ∀ p, s.ptile (16 * q + i) = some p → (s.tile p).health ≠ .failedSelftest) → ∃ t,
      exec (.quarterUnparkDone q) s = .next t ∧ t.pwr.unparking.getLsbD q = false ∧
        ∀ i, i < 16 → ∀ p, s.ptile (16 * q + i) = some p → (t.tile p).regs.pmHalt = false) ∧
    (∀ x, s.pwrRegs.phases = [x] → x.begun = false → x.granted = true → s.pwr.regime ≠ .spring → s.pwr.parkedLimit = 0 →
      s.pwr.parkedTemp = 0 → ∃ t, exec .solsticePhaseStart s = .next t ∧ t.setpointGoal = s.ceilMv ∧ (t.pwrRegs.phases.map (·.begun)) = [true]) ∧
    (∀ x, s.pwrRegs.phases = [x] → x.begun = true → x.waves0 + x.duration * 2 ^ 20 ≤ x.before + s.wavesOf x.queue → ∃ t,
      exec .solsticePhaseEnd s = .next t ∧ t.pwrRegs.phases = [])

/-! ### Queues -/

/-- The kinds of work item whose effect ends at once, and copies (R159, R160, R166 to R172, R353): what each finishes with. An item out
of step order ends with ST_BAD_SEQ whatever its kind. A finished item keeps its descriptor, and no other item changes. The model's choices
in it: OP 3 of a POST target (log entry 45), what FENCE waits for (log entry 46), a DMA to a reduce stream out of range and one of no bytes
(log entries 140 and 145), a copy that needs the host or a retraining channel (log entries 146 and 289). -/
def Obligations.WorkItems : Prop :=
  ∀ (s : State) (q : Fin 76) (e : Fin 64) (d : Fin 8) (i : Item),
    let u := s.take q i
    let ue := s.take e i
    (s.Takes q i .nop → exec (.nop q) s = .next (u.finish q i.seq stOk 0 0)) ∧
    (s.takeable q = some i → dKind i.desc = some .nop → i.replay = false → s.stepBad q (dStep i.desc) = true →
      exec (.nop q) s = .next (u.finish q i.seq stBadSeq 0 0)) ∧
    (s.Takes q i .wait → bitOf (le i.desc 40 1) 0 = false → exec (.wait q) s = .next (u.finish q i.seq stOk 0 0)) ∧
    (s.Takes q i .wait → bitOf (le i.desc 40 1) 0 = true → exec (.wait q) s =
      .next ((u.scOp (dTsc i.desc 0) .sub (BitVec.ofNat 32 (dThreshold i.desc 0)) (queueSource q)).finish q i.seq stOk 0 0)) ∧
    (s.Takes q i .post →
      let ts := [40, 47, 54].map fun off => postTarget (slice i.desc off 7)
      ((∃ t ∈ ts, t.op = 3) → exec (.post q) s = .next (u.finish q i.seq stBadOpcode 0 0)) ∧
      (∀ a, (∀ t ∈ ts, t.op ≠ 3 ∧ (t.op = 0 ∨ t.remote = false)) → u.streams.posts = [] →
        a = ts.foldl (fun (s : State) t => if t.op = 0 then s else
          s.scOp t.sc (if t.op = 1 then .add else .set) (BitVec.ofNat 32 t.value) (queueSource q)) u → a.streams.posts = [] →
        exec (.post q) s = .next (a.finish q i.seq stOk 0 0))) ∧
    (s.Takes q i .fence → ((s.queue q).window.find? fun j => j.run != .complete) = some i →
      (bitOf (le i.desc 40 1) 0 = true → s.hostSettled q = true) → (bitOf (le i.desc 40 1) 1 = true → s.remoteAcked = true) →
      exec (.fence q) s = .next (u.finish q i.seq stOk 0 0)) ∧
    (s.Takes e i .solstice → 7 ≤ le i.desc 40 1 → exec (.solstice e) s = .next (ue.finish e i.seq stBadOpcode 0 0)) ∧
    (s.Takes e i .solstice → le i.desc 40 1 = 0 → ∃ t, exec (.solstice e) s = .next t ∧
      (∀ x ∈ t.pwrRegs.phases, x.phase ≠ le i.desc 42 2)) ∧
    (s.Takes e i .solstice → 1 ≤ le i.desc 40 1 → le i.desc 40 1 ≤ 6 → s.pwrRegs.phases = [] → ∃ t,
      exec (.solstice e) s = .next t ∧ t.pwrRegs.phases.map (fun x => (x.phase, x.cls, x.granted)) =
        [(le i.desc 42 2, le i.desc 40 1, decide (classWatts (le i.desc 40 1) ≤ min s.pwr.cap s.pwr.envelope))]) ∧
    (s.Takes e i .split → (∀ j ∈ (s.queue e).window, j.running = false ∧ j.finished = false) →
      (1 < le i.desc 40 1 → exec (.split e) s = .next (ue.finish e i.seq stBadOpcode 0 0)) ∧
      (∀ p, le i.desc 40 1 ≤ 1 → s.ptile e = some p → ∃ t, exec (.split e) s = .next t ∧
        (t.tile p).regs.split = (le i.desc 40 1 == 1))) ∧
    ((∀ x ∈ (s.queue (64 + d)).window, x.running = false) →
      let ud := s.take (64 + d) i
      (s.Takes (64 + d) i .dma → ud.dmaCopy i.desc = none → exec (.dma d) s = .next (ud.finish (64 + d) i.seq stBadOpcode 0 0)) ∧
      (s.Takes (64 + d) i .dma → ∀ c, ud.dmaCopy i.desc = some c → c.src = none → (c.needsHost = true → s.hostOpen = true) →
        ud.copyParked c = false → exec (.dma d) s = .next ((ud.copyTo (dStep i.desc) c.dst (List.replicate c.len 0)).finish (64 + d) i.seq stOk 0 0)) ∧
      (s.Takes (64 + d) i .dma → ∀ c l r v, ud.dmaCopy i.desc = some c → c.src = some l → (c.needsHost = true → s.hostOpen = true) →
        ud.copyParked c = false → ud.readLoc l c.len = (r, false, v) → exec (.dma d) s = .next ((v.copyTo (dStep i.desc) c.dst r).finish (64 + d) i.seq stOk 0 0)) ∧
      (s.Takes (64 + d) i .offload → ∀ c l r v, ud.offloadCopy i.desc = some c → c.src = some l → s.hostOpen = true →
        ud.copyParked c = false → ud.readLoc l c.len = (r, false, v) → exec (.offload d) s = .next ((v.copyTo (dStep i.desc) c.dst r).finish (64 + d) i.seq stOk 0 0)) ∧
      (s.Takes (64 + d) i .prefetch → ∀ c l r v, ud.prefetchCopy i.desc = some c → c.src = some l → s.hostOpen = true →
        ud.copyParked c = false → ud.readLoc l c.len = (r, false, v) → exec (.prefetch d) s = .next ((v.copyTo (dStep i.desc) c.dst r).finish (64 + d) i.seq stOk 0 0))) ∧
    (s.queueTaking q = true → s.firstSkip [] ((s.queue q).window.take 32) = some i → s.refusesStep q i = false →
      exec (.descriptorSkip q) s = .next (u.finish q i.seq stOk 3 0)) ∧
    (∀ st o r, (s.queue q).window.map (·.seq) |>.Nodup → i ∈ (s.queue q).window →
      (s.finish q i.seq st o r).item q i.seq = some { i with run := .finished st o r } ∧
      ∀ p seq, p ≠ q.val ∨ seq ≠ i.seq → (s.finish q i.seq st o r).item p seq = s.item p seq)

/-- VECTOR, COMMIT, UPD_COMMIT and completion (R157, R165, R173, R205): a kernel that checks starts its contexts at its first
instruction with the argument block in s1 to s16; one that does not ends with the status of its check. When a commit counts as taken (log
entry 162), what it does without a program (log entry 172), SEQ under UPD_COMMIT (log entry 326) and when a VECTOR with writes outstanding
completes (log entry 84) are the model's. -/
def Obligations.KernelsAndCommits : Prop :=
  ∀ (s : State) (q : Fin 76) (c : Fin 4) (r : Route) (i : Item),
    (s.Takes q i .vector → i.block.length = 128 →
      let f := (s.take q i).fetchImage q (dAddr i.desc 40)
      (f.1 ≠ stOk → exec (.vector q) s = .next (f.2.2.finish q i.seq f.1 0 0)) ∧
      (f.1 = stOk → ∃ t, exec (.vector q) s = .next t ∧ ∀ x ∈ vectorCtxs q i.desc,
        (∀ e : Fin 64, x = .engine e → (s.ptile e).isSome = true) →
        (t.ctx x).busy = true ∧ (t.ctx x).pc = 0 ∧ (t.ctx x).code = f.2.1 ∧ (t.ctx x).seq = i.seq ∧
          ∀ k, k < 16 → (t.ctx x).getS (k + 1) = BitVec.ofNat 64 (le i.block (8 * k) 8))) ∧
    (s.Takes (72 + c) i .commit →
      let p := s.commitPlan (commitReq (72 + c) i.desc)
      ∀ st o, p = .ends st o none → s.votedFor (commitReq (72 + c) i.desc) = true →
        exec (.commit c) s = .next (((((s.take (72 + c) i).payEnded s (commitReq (72 + c) i.desc).queue).finish (72 + c) i.seq st o 0).noteCommitted
          (commitReq (72 + c) i.desc).step).settleStep)) ∧
    (s.Takes (72 + c) i .commit → ∀ x, s.commitPlan (commitReq (72 + c) i.desc) = .begins x →
      s.planMay (commitReq (72 + c) i.desc) (.begins x) = true → ((s.take (72 + c) i).beginCommit x).1 = none →
      exec (.commit c) s = .next ((s.take (72 + c) i).beginCommit x).2) ∧
    (s.Waits r 0x0706 → s.deny r 0x0706 = none →
      let rq := updCommitReq r (s.payload r)
      ∀ st o, s.commitPlan rq = .ends st o none → s.votedFor rq = true → ∃ t, exec (.updCommit r) s = .next t.settleStep ∧
        (((s.setMbox r { s.mbox r with checked := false }).payEnded s none).noteCommitted rq.step).OnlyAnswers t r ∧ (t.mbox r).status = st ∧ (t.mbox r).state = .done) ∧
    (s.Waits r 0x0706 → s.deny r 0x0706 = none →
      let rq := updCommitReq r (s.payload r)
      let u := s.setMbox r { s.mbox r with checked := false }
      ∀ x, s.commitPlan rq = .begins x → s.planMay rq (.begins x) = true → (u.beginCommit x).1 = none →
        (u.beginCommit x).2.comp.commit.isSome = true → s.RunsOn (.updCommit r) r (u.beginCommit x).2) ∧
    (∀ st o rows, s.item q i.seq = some i → i.run = .finished st o rows → s.writesOut q i.seq = false →
      (q.val < 72 ∨ s.d2dClear .control 1 = true) → (s.completeItem q i st o rows).job.faultReplay = false →
      exec (.descriptorComplete q i.seq) s = .next (s.completeItem q i st o rows)) ∧
    (∀ (seq : Word32) (st : Word16) (o rows : Nat),
      let b := s.complBytes seq st o rows
      b.length = 16 ∧ le b 0 4 = seq.toNat ∧ le b 4 2 = st.toNat ∧ le b 6 1 = o % 256 ∧ le b 8 2 = rows % 65536 ∧
        le b 10 6 = s.now % 2 ^ 48)

/-- QCTRL, doorbells, polling and WAIT_TIMEOUT (R153, R154, R168, R174 to R176). A doorbell in range that allows a slot fetches it: a
descriptor that checks joins the window, a stale slot is polled again. A doorbell of a disabled queue is not stated here (log entry 42);
which state shows when a WAIT times out is log entry 322. -/
def Obligations.QueueControl : Prop :=
  ∀ (s : State) (q : Fin 76) (v : Word64) (d : Word32), s.Quiet → s.linkUp = true →
    let u := s.queue q
    (fld v 63 1 = 1 → u.enable = false → u.base.toNat % 4096 = 0 →
      let n := if 6 ≤ fld v 32 5 ∧ fld v 32 5 ≤ 16 then fld v 32 5 else 6
      (locRange u.base.toNat (80 * 2 ^ n) Loc.isG7OrHost).isSome = true → ∃ t, exec (.queueEnable q v) s = .next t ∧
        (t.queue q).enable = true ∧ (t.queue q).expect = BitVec.ofNat 32 (fld v 0 32) ∧ (t.queue q).head = BitVec.ofNat 32 (fld v 0 32) ∧
        (t.queue q).log2n = fld v 32 5 ∧ (t.queue q).state = .idle ∧ (t.queue q).window = [] ∧
        ∀ p : Nat, p ≠ q → t.queue p = s.queue p) ∧
    (fld v 63 1 = 1 → u.enable = false → u.base.toNat % 4096 ≠ 0 → ∃ t, exec (.queueEnable q v) s = .next t ∧
      (t.queue q).enable = false) ∧
    (fld v 63 1 = 0 → u.enable = true → (∀ i ∈ u.window, i.run = .waiting ∨ i.run = .complete) → ∃ t,
      exec (.queueDisable q v) s = .next t ∧ (t.queue q).enable = false ∧ (t.queue q).state = .disabled ∧ (t.queue q).window = []) ∧
    (fld v 63 1 = 1 → fld v 40 1 = 1 → u.state = .stopped → u.enable = true → u.bell = none → ∃ t,
      exec (.queueResume q v) s = .next t ∧ (t.queue q).state ≠ .stopped ∧ (t.queue q).enable = true) ∧
    (u.enable = true → bellOut u d = true → ∃ t, exec (.qdoorbell q d) s = .next t ∧
      t.streams.dbViolations = s.streams.dbViolations + 1 ∧ t.streams.queues = s.streams.queues) ∧
    (u.enable = true → bellOut u d = false → u.disabling = false → u.state = .idle → u.expect = d → u.window = [] → ∃ t,
      exec (.qdoorbell q d) s = .next t ∧ (t.queue q).bell = some d ∧ (t.queue q).state = .idle) ∧
    (u.enable = true → bellOut u d = false → u.disabling = false → u.state = .idle → u.window = [] → u.head = u.expect →
      u.expect + 1 = d → u.bell ≠ some d → s.mayRead q = true →
      let s1 := s.onQueue q fun x => { x with bell := some d }
      (∀ desc block x, s1.fetchSlot q = (.ok desc block, x) → x.queue q = s1.queue q → x.jnlRoom block = true → x.alm.injKeys = [] → ∃ t,
        exec (.qdoorbell q d) s = .next t ∧ (t.queue q).window = [⟨dSeq desc, desc, block, firstRun q desc, false, none⟩] ∧
          (t.queue q).expect = d ∧ (t.queue q).head = u.head ∧ (t.queue q).state = .run) ∧
      (∀ cause found x, s1.fetchSlot q = (.stale cause found, x) → x.queue q = s1.queue q → ∃ t, exec (.qdoorbell q d) s = .next t ∧
        (t.queue q).window = [] ∧ (t.queue q).expect = u.expect ∧ (t.queue q).state = .repoll ∧ (t.queue q).attempts = 0)) ∧
    (u.state = .repoll → s.mayRead q = true → ∀ cause found x, (s.pass (pollWait (u.attempts + 1))).poll q = (.stale cause found, x) →
      (u.attempts < 63 → exec (.descriptorRepoll q) s = .next (x.onQueue q fun u' => { u' with attempts := u.attempts + 1 })) ∧
      (63 ≤ u.attempts → ∃ t, exec (.descriptorRepoll q) s = .next t ∧ (t.queue q).state = .stale)) ∧
    (∀ i k, u.window.head? = some i → u.waitSince = some k → u.state ≠ .stopped → u.disabling = false → le i.desc 44 4 ≠ 0 → i.waiting = true → dKind i.desc = some .wait →
      (i.replay = true ∨ s.replays = false) →
      (s.passTo (k + le i.desc 44 4)).ticketsMet i.desc = false → ∃ t, exec (.waitTimeout q) s = .next t ∧
        (t.queue q).state = .stopped ∧ ∃ j ∈ (t.queue q).window, j.seq = i.seq ∧ j.run = .finished stTimeout 0 0)

/-! ### Engines -/

/-- The arrays (R37, R42, R59, R65, R76, R86, R87, R90, R91, R93, R162 to R164): an item enters them, rows enter the feeders, weights
load, waves add chains to the accumulators, rows drain; the ramp; a tile that hangs. A wave-time that the gate takes brings no wave
(R342; which wave-times it takes is the model's choice, notes/assumptions/26.md), and ballast ramps the arrays up (R354;
notes/assumptions/330.md). The model's choices in it: how many items share the arrays and how they follow each other (log entries 51 and
265), ENG_WAVES of a wave with a fault (log entry 61), TILE_HANG (log entries 69 and 275), TILE_MAP without a spare (log entry 68), a spare's
test (log entry 64). -/
def Obligations.EngineWork : Prop :=
  ∀ (s : State) (e : Fin 64) (p : Nat), s.Quiet → s.ptile e = some p →
    let t0 := s.tile p
    (∀ i, s.Takes e i .matmul → i.block.length = 128 →
      let u := s.take e i
      (∀ st, u.matmulRefusal t0.takeRegs i.block = some (st, false) → exec (.matmul e) s = .next (u.finish e i.seq st 0 0)) ∧
      (u.matmulRefusal t0.takeRegs i.block = none → obKb i.block ≠ 0 → ∃ t, exec (.matmul e) s = .next t ∧
        u.newRun i (scratchOn t0.regs) ∈ (t.tile p).work.runs)) ∧
    (t0.regs.state = .run → s.pwr.closed = false → s.pwrDyn.droopGate = false → halfReady t0.work .u = true →
      s.halfStopped e t0.work .u = false → (s.gateStep e p).1 = true → exec (.wave e none) s = .next (s.gateStep e p).2) ∧
    (t0.regs.state = .run → s.pwr.closed = false → s.pwrDyn.droopGate = false → 1024 ≤ s.waveDuty e → ∀ r f, t0.work.runU = some r → t0.work.feedU.head? = some f →
      r.waves = true → halfReady t0.work .u = true → halfReady t0.work .l = false → s.halfStopped e t0.work .u = false → ∃ t,
        exec (.wave e none) s = .next t ∧ (t.tile p).regs.waves = t0.regs.waves + 1 ∧
        (r.sub + 1 < subWaves r.aFmt r.bFmt → t.runOf p .u = some { r with sub := r.sub + 1 }) ∧
        (r.sub + 1 = subWaves r.aFmt r.bFmt → r.scratch = false → spillsNow r = false → quiet r.block = false → obAccRow r.block + r.row < 512 →
          (r.kb = 0 → obInitAdd r.block = true → rowPoisoned t0.regs (obAccRow r.block + r.row) = false) → ∀ a, a < 4 →
            let cols := match ((if r.row = 0 ∧ r.sub = 0 then t0.work.shadowU else t0.work.activeU).find? fun x => x.1 == a) with
              | some x => x.2.cols | none => []
            let old := if readsAcc r then (s.readAccRow p false r.block a (obAccRow r.block + r.row)).1 else List.replicate 128 0
            let new := (chainRow r f cols old).1
            ∀ c, c < new.length → c < 128 →
              Sparse.get 0 (t.tile p).mem.acc (a * 65536 + (obAccRow r.block + r.row) * 128 + c) = new.getD c 0)) ∧
    (∀ h,
      let k := halfOf t0.regs.split h
      (∀ r, t0.work.reads k = some r → (t0.work.feed k).length < 32 → s.halfStopped e t0.work k = false →
        let len := kbLen r.aFmt r.bFmt t0.regs.split
        let v := s.readVec p (streamed r.block r.aFmt) r.feedRow (r.feedKb * len) (readLen len (redLen r.block len) (r.feedKb * len)) len
        v.2.2.1 = false → ∃ t, exec (.feederWrite e h) s = .next t ∧
          (t.tile p).work.feed k = t0.work.feed k ++ [⟨r.seq, r.feedKb, r.feedRow, v.1, v.2.1⟩]) ∧
      (∀ r (a : Fin 4) i, nextLoad t0.work k a = some (r, i) →
        (obBStream r.block = true → obLandBase r.block + i < s.sc (obLandSc r.block) ∧
          (s.jobRuns = false ∨ obRelSc r.block ≠ s.grp.cfg.voteSc)) →
        let len := kbLen r.aFmt r.bFmt t0.regs.split
        let v := s.readCols p (stationary r.block r.bFmt (s.slotShift r.block i)) a (if obBStream r.block then 0 else i * len)
          (readLen len (redLen r.block len) (i * len)) len
        v.2.1 = false → ∃ t, exec (.weightLoadDone e h a) s = .next t ∧
          ((((t.tile p).work.shadow k).find? fun x => x.1 == a.val).map (·.2)) = some ⟨r.seq, i, v.1⟩) ∧
      (∀ r, t0.work.drains k = some r → quiet r.block = false → r.drained < r.ready → r.drained + 1 < obM r.block →
        rowPoisoned t0.regs (obAccRow r.block + r.drained) = false → (s.drainRow e p t0.regs.split r r.drained).1 = false → ∃ t,
          exec (.outputRowDrain e h none) s = .next t ∧ { r with drained := r.drained + 1 } ∈ (t.tile p).work.runs)) ∧
    (s.pwr.closed = false → s.pwrDyn.droopGate = false → 1024 ≤ s.waveDuty e → s.ballastRuns = true → t0.regs.state = .idle → ∃ t,
      exec (.rampWave e) s = .next t ∧ (t.tile p).regs.state = .rampUp) ∧
    (s.pwr.closed = false → s.pwrDyn.droopGate = false → 1024 ≤ s.waveDuty e → s.ballastRuns = false →
      (t0.regs.state = .idle → s.matmulWants e p = true → ∃ t, exec (.rampWave e) s = .next t ∧ (t.tile p).regs.state = .rampUp ∧
        (t.tile p).regs.rampStep = 1 ∧ (t.tile p).regs.rampWaves = 1) ∧
      (t0.regs.state = .rampUp → ∃ t, exec (.rampWave e) s = .next t ∧
        (t.tile p).regs.state = (if 47 ≤ t0.regs.rampWaves then .run else .rampUp) ∧
        (t.tile p).regs.rampStep = min 8 (t0.regs.rampWaves / 6 + 1)) ∧
      (t0.regs.state = .rampDown → s.matmulWants e p = false → ∃ t, exec (.rampWave e) s = .next t ∧
        (t.tile p).regs.state = (if 47 ≤ t0.regs.rampWaves then .idle else .rampDown) ∧
        (t.tile p).regs.rampStep = 8 - (t0.regs.rampWaves + 1) / 6)) ∧
    (t0.regs.state = .run → s.matmulWants e p = false → ∃ t, exec (.rampDownStart e) s = .next t ∧
      (t.tile p).regs.state = .rampDown) ∧
    (s.mustWave e p = true → s.spares (p / 17) = [] → ∃ t, exec (.tileHang e 0) s = .next t ∧ t.ptile e = none ∧
      (t.tile p).health = .retiredRun ∧ (t.tile p).regs.state = .retired) ∧
    (s.linkUp = true → ∃ t, exec (.engSnap (.logical e)) s = .next t ∧ (t.tile p).regs.snapWaves = t0.regs.waves ∧
      (t.tile p).regs.snapHalt = t0.regs.haltTicks ∧ (t.tile p).regs.snapTick = s.boot.modCount) ∧
    (∀ seq i, s.linkUp = true → s.engineOf p = some e.val → s.item e seq = some i → i.run = .waiting → ∃ t,
      exec (.engAbort (.logical e) seq) s = .next t ∧
        (t.tile p).regs.abortResult = BitVec.ofNat 64 (2 ^ 63 + seq.toNat * 2 ^ 16 + stOk.toNat)) ∧
    (∀ n k, s.cp.selftest = some (n, k) → ∃ t, exec (.selftestDone 0) s = .next t ∧ t.cp.selftest = none ∧
      (t.tile n).health = if (s.tile n).health = .active then .active else .spareReady)

/-! ### Memory and the die-to-die link -/

/-- The memory controllers and the die-to-die link (R26 to R31, R225, R231 to R243): scrubbing, retraining, temperature, the
reserve, HOLD, lane repair. The model's choices in it: LP_CH_STATUS (log entry 113), a unit with a bad lane and the order after a retrain
(log entries 114 and 288), half width for each direction (log entry 115), uncorrectable codewords under migration (log entry 110). -/
def Obligations.MemoryAndLink : Prop :=
  ∀ (s : State), s.Quiet → s.boot.mainOn = true →
    (∀ finds, fld s.mem.ctrl 1 1 = 1 → s.mem.scrubG7 + 1 < g7Granules → ∃ t, exec (.patrolScrub false finds) s = .next t ∧
      t.mem.scrubG7 = s.mem.scrubG7 + 1 ∧ (∀ a, ¬s.inLog a → Memory.read t.mem.g7 a = Memory.read s.mem.g7 a) ∧
      ∀ j, j < 16 → t.g7Health (16 * s.mem.scrubG7 + j) ≠ .correctable) ∧
    (∀ (c : Fin 80) temp, ∃ t, exec (.g7TempRead c temp 0) s = .next t ∧ (t.channel c).temp = temp ∧
      ((s.channel c).state ≠ .dead → (s.channel c).state ≠ .retiredThermal → (t.channel c).throttle = throttleLevel (s.channel c).throttle temp)) ∧
    (∀ c : Fin 80, (s.channel c).state = .retrain → (∃ t, exec (.g7RetrainDone c true) s = .next t ∧
        (t.channel c).state = (s.channel c).under ∧ (t.channel c).fails = 0 ∧ (t.channel c).trainTemp = (s.channel c).temp) ∧
      ((s.channel c).fails < 2 → ∃ t, exec (.g7RetrainDone c false) s = .next t ∧ (t.channel c).state = .retrain ∧
        (t.channel c).fails = (s.channel c).fails + 1) ∧
      (2 ≤ (s.channel c).fails → ∃ t, exec (.g7RetrainDone c false) s = .next t ∧ (t.channel c).state = .dead)) ∧
    (∀ k, s.mem.coolSince = some k → s.mem.reserve = .thermal → ∃ t, exec .thermalReturnStart s = .next t ∧
      t.mem.reserve = .returning ∧ t.mem.migDone = 0) ∧
    (s.mem.switchDue = false → s.mem.reserve = .migrating ∨ s.mem.reserve = .returning → (s.channel s.mem.reserveCh).state ≠ .retrain →
      s.mem.migDone.toNat + 1 < dataSlots → ∃ t, exec .migrationCopy s = .next t ∧ t.mem.migDone = s.mem.migDone + 1 ∧
      ∀ a, ¬s.inLog a → Memory.read t.mem.g7 a = Memory.read s.mem.g7 a) ∧
    (∀ v, s.linkUp = true → s.mem.hold = true → fld v 2 1 = 1 → ∃ t, exec (.memRelease v) s = .next t ∧ t.mem.hold = false) ∧
    (s.mem.hold = true → s.boot.faulted = false → (∀ x ∈ s.alm.ring, x.code ≠ 0x080A) → ∃ t, exec .memHoldTimeout s = .next t ∧
      t.boot.faulted = true) ∧
    (∀ (l : Fin 16) temp, ∃ t, exec (.lpTempRead l temp) s = .next t ∧ ∀ k, k < 4 →
      (t.lp (4 * l + k)).throttle = throttleLevel (s.lp (4 * l)).throttle temp) ∧
    (∀ l : Fin 64, (s.lp l).dead = false → (∃ t, exec (.lp5xRetrainDone l true) s = .next t ∧ (t.lp l).fails = 0 ∧ (t.lp l).dead = false) ∧
      (∃ t, exec (.lp5xRetrainDone l false) s = .next t ∧ (t.lp l).fails = (s.lp l).fails + 1 ∧
        (t.lp l).dead = decide (2 ≤ (s.lp l).fails))) ∧
    (∀ (m : Fin 8) (toComp : Bool) (cls : D2dClass) (data : List Byte) (bad : List (Fin 68)),
      let l := s.d2dLink m (d2dDir toComp)
      l.failed = false → d2dRuns cls toComp = true → cls ≠ .workingCopy →
      (s.d2dHeld m = true → ∃ t, exec (.d2dUnitReceive m toComp bad cls data) s = .next t ∧
        t.d2d.waiting = s.d2d.waiting ++ [.unit cls (d2dDir toComp) data] ∧ t.out = s.out) ∧
      (s.d2dHeld m = false → s.d2d.waiting = [] → (∀ k ∈ l.lanes, ∀ b ∈ bad, b.val ≠ k) → ∃ t,
        exec (.d2dUnitReceive m toComp bad cls data) s = .next t ∧ t.out = .d2d cls (d2dDir toComp) data :: s.out ∧
          (t.d2dLink m (d2dDir toComp)).lanes = l.lanes) ∧
      (s.d2dHeld m = false → ∀ k ∈ l.lanes, ∀ b ∈ bad, b.val = k → Sparse.get 0 l.fails k < 15 → l.lanes = [k] → ∃ t,
        exec (.d2dUnitReceive m toComp bad cls data) s = .next t ∧ t.out = s.out ∧
          Sparse.get 0 (t.d2dLink m (d2dDir toComp)).fails k = Sparse.get 0 l.fails k + 1)) ∧
    (∀ (m : Fin 8) (toComp : Bool) k since, (s.d2dLink m (d2dDir toComp)).retrain = some (k, since) → ∃ t,
      exec (.d2dRetrainDone m toComp) s = .next t ∧ (t.d2dLink m (d2dDir toComp)).lanes = repairLanes (s.d2dLink m (d2dDir toComp)) k ∧
        (t.d2dLink m (d2dDir toComp)).spares = (s.d2dLink m (d2dDir toComp)).spares - 1)

/-! ### Chords -/

/-- Flits (R250 to R258, R260, R275): acknowledgement and retransmission, order, delivery of control codewords, training, lanes. The model's
choices in it: the pool of a returned credit (log entry 116), credits after a retrain (log entries 117 and 296), resent flits in TX (log
entry 118), when a MARKER is sent (log entry 125), how many lanes a chord can lose (log entry 127), the identity in a TRAIN flit and in a
retrain (log entries 292 and 293), the queue of control codewords (log entry 131), the way to the destination (log entry 130). -/
def Obligations.ChordLinks : Prop :=
  ∀ (s : State) (p : Fin 8) (bytes : List Byte), s.Quiet → s.boot.mainOn = true →
    let o := s.port p
    let h := hdrOf (flitFec (padTo 1024 bytes)).1
    let n := (h.ack - o.acked).toNat
    (portRuns o = true → flitCrc (flitFec (padTo 1024 bytes)).1 = false →
      ∀ i ∈ [Instr.flitIdle p bytes, .flitNak p bytes, .flitMarker p bytes, .flitData p bytes], ∃ t, exec i s = .next t ∧
        (t.port p).crcErr = o.crcErr + 1 ∧ (t.port p).nakOut = true ∧ (t.port p).rxSeq = o.rxSeq) ∧
    (s.GoodFlit p bytes 0 → n ≤ o.replay.length → ∃ t, exec (.flitIdle p bytes) s = .next t ∧ (t.port p).replay = o.replay.drop n ∧
      (t.port p).acked = h.ack) ∧
    (s.GoodFlit p bytes 2 → n ≤ o.replay.length → ∃ t, exec (.flitNak p bytes) s = .next t ∧ (t.port p).replay = o.replay.drop n ∧
      (t.port p).resend = o.replay.drop n) ∧
    (s.GoodFlit p bytes 3 → n ≤ o.replay.length → h.crCount ≤ s.creditsOut p h.crVc → (flitFec (padTo 1024 bytes)).2 = [] → o.laneErrs = [] →
      o.state = .swap → o.swapLane < 8 → ∃ t, exec (.flitMarker p bytes) s = .next t ∧ (t.port p).state = .up ∧
        (t.port p).spareFor = o.swapLane) ∧
    (s.GoodFlit p bytes 1 → s.creditGranted p h.vc = true →
      (h.seq ≠ o.rxSeq + 1 → ∃ t, exec (.flitData p bytes) s = .next t ∧ (t.port p).rxSeq = o.rxSeq ∧ (t.port p).nakOut = true) ∧
      (h.seq = o.rxSeq + 1 → h.dx ≤ 8 → s.dirTo (some (oppDir o.dir)) (h.sx, h.sy) h.dx h.dy = none → h.vc = 0 → h.ncw = 1 →
        ∀ d, decodeWord (flitCw (flitFec (padTo 1024 bytes)).1 0) = (d, .good) → controlKnown (le d 0 1) = true → ∃ t,
          exec (.flitData p bytes) s = .next t ∧ (t.port p).rxSeq = h.seq ∧ t.chd.ctlIn = s.chd.ctlIn ++ [⟨some p, h.sx, h.sy, d⟩])) ∧
    (∀ peer, o.state = .training → ∃ t, exec (.flitTrain p peer) s = .next t ∧
      (t.port p).state = (if s.trainOk p peer = true then .up else .miscabled)) ∧
    (∀ peer, o.state = .retrain → ∃ t, exec (.flitTrain p peer) s = .next t ∧
      (t.port p).state = (if s.trainOk p peer = true then .retrain else .miscabled)) ∧
    (∀ peer, portRuns o = true → ∃ t, exec (.flitTrain p peer) s = .next t ∧ (t.port p).viol = o.viol + 1) ∧
    (∀ f, o.state = .up → o.sinceMarker < 99 → o.resend = [] → o.replay.length < 512 → o.sendQ = [f] → f.vc = 0 → 0 < o.credits.getD 0 0 → ∃ t,
      exec (.flitSend p) s = .next t ∧ (t.port p).replay = o.replay ++ [(o.txSeq, f)] ∧ (t.port p).sendQ = [] ∧
        (t.port p).txSeq = o.txSeq + 1 ∧ (t.port p).tx = o.tx + 1 ∧ (t.port p).credits.getD 0 0 = o.credits.getD 0 0 - 1) ∧
    (∀ (l : Fin 9) k, o.state = .up → o.lanes = 8 → o.spareFor = 15 → k < 8 → o.laneMap.getD k 9 = l →
      (∀ j, j < 8 → j ≠ k → o.laneMap.getD j 9 ≠ l) → ∃ t, exec (.laneLossOfLock p [l]) s = .next t ∧ (t.port p).state = .swap ∧
        (t.port p).swapLane = k) ∧
    (∀ v, s.linkUp = true → fld v 0 1 = 1 → o.state = .up → ∃ t, exec (.chdPortRetrain p v) s = .next t ∧ (t.port p).state = .retrain ∧
      (t.port p).retrains = min 255 (o.retrains + 1)) ∧
    (o.state = .retrain →
      (∃ t, exec (.chordRetrainDone p true) s = .next t ∧ (t.port p).state = .up ∧ (t.port p).resend = o.replay ∧
        (t.port p).credits = [2, 2, 2, 2, s.transitCredits] ∧ (t.port p).transitCr = s.transitCredits) ∧
      (o.failsInRow = 2 → ∃ t, exec (.chordRetrainDone p false) s = .next t ∧ (t.port p).state = .failed) ∧
      (o.failsInRow ≠ 2 → ∃ t, exec (.chordRetrainDone p false) s = .next t ∧ (t.port p).state = .retrain ∧
        (t.port p).failsInRow = o.failsInRow + 1))

/-- Reduce streams, their deadline and landing (R267, R270, R271, R274). The model's choices in it: a block that has arrived is kept for its
REDUCE_HOP (log entry 132), the ring runs over the slice (log entry 134), how a partial of the other phase is told (log entry 300), STEP of
the stochastic rounding (log entry 301). -/
def Obligations.Streams : Prop :=
  ∀ (s : State), s.Quiet → s.boot.mainOn = true →
    (∀ (st : Fin 1024) hop blk elems scale late path, rValid s st = true → rFrozen s st = false → blk < s.rBlocks st →
      s.redPath st blk = some path → hop ≠ 0 →
      let f := rElem s st
      let key (phase : Nat) : Nat := rKey (1024 * phase + st) blk
      let held (phase : Nat) : Option (List Byte × Byte) := blockFrom s.chd.rin (1024 * phase + st) blk
      let inc (phase : Nat) : List Byte × Byte := (held phase).getD (padTo 32 elems, scale)
      let took (phase : Nat) (x : State) : State := x.onChd fun c => { c with
        rin := if (held phase).isSome then Sparse.put [] c.rin (key phase) [] else c.rin, rinLate := c.rinLate.filter (· != key phase) }
      (hop < path.n1 → path.i1 = hop →
        (∀ b, blockFrom s.chd.own st blk = some b → s.chd.fold.contains (rKey st blk) = false →
          let r := s.spanBegin.redSum st blk hop (List.zipWith fadd (blockF32 f (inc 1)) (blockF32 f b))
          exec (.reduceHop st hop blk elems scale late) s = .next ((took 1 (r.2.onGrp fun g => { g with lastOwn := s.now })).redOut st blk hop
            path r.1 (late || s.chd.rinLate.contains (key 1)))) ∧
        (blockFrom s.chd.own st blk = none → s.grp.expired = true → exec (.reduceHop st hop blk elems scale late) s =
          .next ((took 1 (s.spanBegin.onChd fun c => { c with
            lateBlocks := c.lateBlocks + 1
            late := if c.late.contains (rKey st blk) then c.late else rKey st blk :: c.late })).redOut st blk hop path (inc 1) true)) ∧
        (blockFrom s.chd.own st blk = none → s.grp.expired = false →
          exec (.reduceHop st hop blk elems scale late) s = .next s.spanBegin)) ∧
      (path.n1 ≤ hop → path.line2 = true → path.i2 + (path.n1 - 1) = hop → Sparse.get [] s.chd.partials (rKey st blk) ≠ [] →
        let own := Sparse.get [] s.chd.partials (rKey st blk)
        let r := s.spanBegin.redSum st blk hop (List.zipWith fadd (blockF32 f (inc 2)) (blockF32 f (own.take 32, own.getD 32 0)))
        exec (.reduceHop st hop blk elems scale late) s = .next ((took 2 (r.2.onChd fun c => { c with
          partials := Sparse.put [] c.partials (rKey st blk) [], partLate := c.partLate.filter (· != rKey st blk) })).redOut st blk hop path
            r.1 (late || s.chd.rinLate.contains (key 2) || s.chd.partLate.contains (rKey st blk))))) ∧
    (∀ k, s.grp.spanStart = some k → s.chd.deadline ≠ 0 → s.grp.expired = false → s.grp.voteHeld = none → ∃ t, exec .reduceDeadlineExpiry s = .next t ∧
      t.grp.expired = true) ∧
    (∀ (w : Fin 256) i x v, i < fld (s.wword w 1) 32 32 → w.val ∉ s.chd.stopped → i ∉ Sparse.get [] s.chd.landed w →
      s.landEntry w i = (some x, v) →
      let slots := fld (s.wword w 2) 32 8
      let size := fld (s.wword w 2) 40 24
      let place := fld (s.wword w 2) 0 32 + i % slots * size
      (slots = 0 ∨ size < 32 * x.count → ∃ t, exec (.wstreamLand w i) s = .next t ∧ w.val ∈ t.chd.stopped) ∧
      (i < slots → 32 * x.count ≤ size → place + 32 * x.count ≤ padSize → place % 32 = 0 →
        (∀ j, j < x.count → Sparse.get [] v.chd.wrecv (wKey w (x.start + j)) ≠ []) → ∃ t, exec (.wstreamLand w i) s = .next t ∧
          i ∈ Sparse.get [] t.chd.landed w))

/-! ### Messages of the group -/

/-- Control messages of Tables 09-6 and 10-4, and the timers of the group (R169, R213, R214, R263, R279 to R282, R286 to R301). The model's
choices in it: messages to the module itself (log entry 88) and their queue (log entry 131), what GRAD_ACK ends (log entry 123), votes of
another step (log entries 158 and 216), when a vote is a straggler's (log entry 214), silent members (log entry 218), the phases of a recovery
(log entries 219 to 222), a lost group (log entries 225, 306 and 307), the type of RECOVERING (log entry 19), digests (log entry 228), a new
Apex (log entries 229 and 230), idle spares (log entries 224 and 235). -/
def Obligations.GroupEvents : Prop :=
  ∀ (s : State) (m : CtlMsg) (p : Fin 8), s.Quiet → s.boot.mainOn = true →
    (m.port = some p → le m.bytes 0 1 = 1 → (postTarget (slice m.bytes 1 7)).op = 1 → exec (.postMsg m) s =
      .next (((s.takeCtl m).scOp (postTarget (slice m.bytes 1 7)).sc .add (BitVec.ofNat 32 (postTarget (slice m.bytes 1 7)).value) (.chord p)).sendControl
        m.srcX m.srcY (leBytes 8 2 ++ slice m.bytes 8 4))) ∧
    (∀ q seq i, le m.bytes 0 1 = 2 → s.streams.posts = [(q, seq)] → q = le m.bytes 8 1 → seq.toNat % 2 ^ 24 = le m.bytes 9 3 →
      s.item q seq = some i → i.running = true → ∃ t, exec (.postApplied m) s = .next t ∧ t.streams.posts = [] ∧
        t.item q seq = some { i with run := .finished stOk 0 0 }) ∧
    (le m.bytes 0 1 = 3 → ∃ t, exec (.writeAck m) s = .next t ∧ Sparse.get 0 t.streams.wrAcked (posKey m.srcX m.srcY) = le m.bytes 4 8) ∧
    (∀ c, le m.bytes 0 1 = 4 → le m.bytes 12 1 = 0 → s.comp.commit = some c → le m.bytes 4 8 = c.step.toNat →
      exec (.gradAck m) s = .next ((s.takeCtl m).finishCommit c)) ∧
    (le m.bytes 0 1 = 4 → le m.bytes 12 1 = 1 → (Sparse.get CwHealth.good s.mem.badSlow 1).isBad = false → ∃ t,
      exec (.mirrorAck m) s = .next t ∧ t.mirrorAcked = le m.bytes 4 8) ∧
    (s.cpReady = true → ∃ t, exec .heartbeatPeriod s = .next t ∧ t.grp.heard = []) ∧
    (s.Fresh m p 0x13 → ∃ t, exec (.heartbeat m) s = .next t ∧ placeKey m.srcX m.srcY ∈ t.grp.heard) ∧
    (∀ k, s.grp.claimDue = some k → s.boot.faulted = false → s.cpReady = true → ∃ t, exec .apexClaimTimer s = .next t ∧
      t.grp.epoch = s.grp.epoch + 1) ∧
    (s.Fresh m p 0x15 → msgEpoch m.bytes ≠ s.grp.epoch ∨ le m.bytes 4 1 < s.grp.apexEntry → ∃ t, exec (.apexClaim m) s = .next t ∧
      t.grp.epoch = msgEpoch m.bytes ∧ t.grp.apexEntry = le m.bytes 4 1) ∧
    (s.Fresh m p 0x19 → ∃ t, exec (.apexState m) s = .next t ∧ t.grp.apexState = some (padTo 32 m.bytes)) ∧
    (∀ x, s.Fresh m p 0x10 → s.grp.role = .vertex → s.grp.pos = some (x, m.srcY) → m.srcX < 8 → m.srcY < 8 →
      let v := voteOf m.bytes
      let l := Sparse.ins m.srcX v (Sparse.del m.srcX s.grp.rowVotes)
      s.stepNo ≤ v.step.toNat → v.epoch = s.grp.epoch → combined l v.step = none → ∃ t, exec (.vote m) s = .next t ∧ t.grp.rowVotes = l) ∧
    (∀ k, s.grp.spanStart = some k → s.grp.expired = true → s.grp.voted = false → s.jobRuns = true → s.grp.pos.isSome = true → ∃ t,
      exec .voteGraceExpiry s = .next t ∧ (s.ringOpen = false → t.grp.voted = true) ∧
        (s.ringOpen = true → t.grp.voted = false ∧ t.grp.voteHeld = some true)) ∧
    (∀ k x y, s.grp.voteStart = some k → s.isApex = true → 5 ≤ s.grp.phase → s.job.verdict = 0 → s.grp.groupVotes = [] →
      s.grp.pos.map (·.2) = some y → x < 8 → y < 8 →
      let has (l : Sparse Vote) (j : Nat) : Bool := l.any fun v => v.1 == j && v.2.step == s.job.step
      (∀ j, j < 8 → (has s.grp.colVotes j = true ↔ j ≠ y)) → (∀ j, j < 8 → (has s.grp.rowVotes j = true ↔ j ≠ x)) →
      s.grp.newPos = none → s.job.waiting = [] → ∃ t, exec .voteLimitExpiry s = .next t ∧ s.phys (x, y) ∈ t.grp.failed) ∧
    (∀ g : Fin 28, s.isLead = true → g.val < s.groups → g.val ≠ s.groupNo → s.grp.groupVotes = [] → ∃ t, exec (.xvoteLimitExpiry g) s = .next t ∧
      t.grp.cfg.groups = s.grp.cfg.groups.eraseIdx g ∧ t.grp.slots = ((List.range s.groups).map s.groupSlot).eraseIdx g ∧
      t.grp.groupVotes = []) ∧
    (s.grp.role = .apex → s.grp.phase < 5 → s.grp.lost = false → exec .recoveringPeriod s =
      .next (s.fdtControl (s.groupSlot 0) (leBytes 2 0x18 ++ leBytes 2 s.grp.epoch.toNat ++ leBytes 4 s.stepNo))) ∧
    (s.Fresh m p 0x11 → le m.bytes 4 4 = s.stepNo → s.job.verdict = 0 → s.jobRuns = true → ∃ t, exec (.voteResult m) s = .next t ∧
      t.chd.deadline = BitVec.ofNat 64 (le m.bytes 16 8)) ∧
    (s.Fresh m p 0x12 → s.grp.role = .apex → m.srcX < 8 → m.srcY < 8 →
      let l := Sparse.ins (64 * s.groupNo + 8 * m.srcY + m.srcX) (padTo 32 m.bytes) (Sparse.del (64 * s.groupNo + 8 * m.srcY + m.srcX) s.grp.digests)
      ((s.onGrp fun g => { g with digests := l }).digestsOf s.groupNo (le m.bytes 4 4)).length < 64 → ∃ t, exec (.digest m) s = .next t ∧
        t.grp.digests = l) ∧
    (s.Fresh m p 0x14 → s.isApex = true → s.grp.newPos = none → s.job.waiting = [] → ∃ t, exec (.failSelf m) s = .next t ∧ s.phys (m.srcX, m.srcY) ∈ t.grp.failed) ∧
    (s.Fresh m p 0x16 → le m.bytes 1 1 < 5 ∨ le m.bytes 1 1 = 5 ∧ s.grp.newPos = none → ∃ t, exec (.recovery m) s = .next t ∧ t.grp.phase = le m.bytes 1 1 ∧
      t.grp.recCase = le m.bytes 8 1 ∧ t.grp.recStep = BitVec.ofNat 32 (le m.bytes 4 4)) ∧
    (s.isApex = true → s.grp.lost = false →
      (s.grp.phase = 1 → ∃ t, exec .recoveryPhaseEnd s = .next t ∧ t.grp.phase = 2 ∧ t.grp.newPos = some s.substituted) ∧
      (s.grp.phase = 2 → ∃ t, exec .recoveryPhaseEnd s = .next t ∧ t.grp.phase = 4 ∧ t.grp.newPos = none) ∧
      (s.grp.phase = 4 → s.restored = true → s.grp.newPos = none → ∃ t, exec .recoveryPhaseEnd s = .next t ∧ t.grp.phase = 5)) ∧
    (∀ x y b, s.grp.pos = some (x, y) → (s.sendControl x y b).chd.ctlIn = s.chd.ctlIn ++ [⟨some 0, x, y, padTo 32 b⟩]) ∧
    (s.Fresh m p 0x17 → le m.bytes 4 4 = s.stepNo → le m.bytes 8 2 < 256 → le m.bytes 10 1 < 64 → exec (.weightRequest m) s =
      .next ((s.takeCtl m).weightTo (le m.bytes 8 2) (le m.bytes 10 1 % 8, le m.bytes 10 1 / 8)))

/-! ### The host's accesses and the PCIe link -/

/-- REGISTER_WRITE and the memory windows (R13, R309, R310, R312, Table 11-7): a write of BAR0 of an accepted size does what its
register's row says, here MB[n]'s bytes and CHD_ARB; BAR2 reaches the G7 memory, where a write of a part of a codeword is merged, or
leaves the poison word when the codeword is uncorrectable (R224), and a write received with EP leaves the poison word in every
codeword it touches; BAR4 reaches the slow tier, whose layout directory it leaves as it is (R197 has UPD_LAYOUT alone write it), and
the scratchpads; an access outside the contents is counted. A write of 4 bytes of a 64-bit register merges its half (log entry 205); what a
store to the directory does is the model's choice (log entry 349). -/
def Obligations.HostAccesses : Prop :=
  ∀ (s : State) (hdr v : Word64) (off size len : Nat) (b : Bar) (data : List Byte), s.Quiet → s.linkUp = true →
    (bar0Ok off size = true → exec (.registerWrite hdr off size v) s = .next (s.bar0Write hdr off size v)) ∧
    (∀ (n : Fin 15) k, k % 8 = 0 → k + 8 ≤ 4096 → ∃ t, exec (.registerWrite hdr (0x1000 * (n + 1) + k) 8 v) s = .next t ∧
      ∀ a, Memory.read (t.mbox (.pcie n)).bytes a =
        if k ≤ a ∧ a < k + 8 ∧ mboxReserved a = false then BitVec.ofNat 8 (v.toNat / 256 ^ (a - k)) else Memory.read (s.mbox (.pcie n)).bytes a) ∧
    (∃ t, exec (.registerWrite hdr 0x300008 8 v) s = .next t ∧ t.chd.arb = v &&& 0xFFFFFFFF) ∧
    (∀ k, data.length = 32 → 32 * k + 32 ≤ g7Size → ∃ t, exec (.barMemoryWrite hdr .bar2 (32 * k) data false) s = .next t ∧
      ∀ a, Memory.read t.mem.g7 a = if 32 * k ≤ a ∧ a < 32 * k + 32 then data.getD (a - 32 * k) 0 else Memory.read s.mem.g7 a) ∧
    (∀ k j, 0 < data.length → data.length < 32 → j + data.length ≤ 32 → 32 * k + 32 ≤ g7Size → ∃ t,
      exec (.barMemoryWrite hdr .bar2 (32 * k + j) data false) s = .next t ∧ ∀ a,
      ((s.g7Health k).isBad = false → t.g7Health k = .good ∧ Memory.read t.mem.g7 a =
        if 32 * k + j ≤ a ∧ a < 32 * k + j + data.length then data.getD (a - (32 * k + j)) 0 else Memory.read s.mem.g7 a) ∧
      ((s.g7Health k).isBad = true → t.g7Health k = .poison ∧ (¬s.inLog a → Memory.read t.mem.g7 a =
        if 32 * k ≤ a ∧ a < 32 * k + 32 then 0 else Memory.read s.mem.g7 a))) ∧
    (off + data.length ≤ g7Size → ∃ t, exec (.barMemoryWrite hdr .bar2 off data true) s = .next t ∧ t.hst.viol = s.hst.viol + 1 ∧
      (∀ k ∈ cwSpan off data.length, t.g7Health k = .poison ∧ ∀ a, 32 * k ≤ a → a < 32 * k + 32 → Memory.read t.mem.g7 a = 0) ∧
      ∀ a, ¬s.inLog a → a / 32 ∉ cwSpan off data.length → Memory.read t.mem.g7 a = Memory.read s.mem.g7 a) ∧
    (∀ k, data.length = 32 → 4096 ≤ 32 * k → 32 * k + 32 ≤ slowSize → ∃ t,
      exec (.barMemoryWrite hdr .bar4 (32 * k) data false) s = .next t ∧ t.mem.g7 = s.mem.g7 ∧ ∀ a,
      Memory.read t.mem.slow a = if 32 * k ≤ a ∧ a < 32 * k + 32 then data.getD (a - 32 * k) 0 else Memory.read s.mem.slow a) ∧
    (off + data.length ≤ 4096 → ∃ t, exec (.barMemoryWrite hdr .bar4 off data false) s = .next t ∧ t.mem.slow = s.mem.slow) ∧
    (∀ e p k, e < 64 → s.ptile e = some p → data.length = 32 → 32 * k + 32 ≤ padSize → ∃ t,
      exec (.barMemoryWrite hdr .bar4 (0x10000000000 + 0x800000 * e + 32 * k) data false) s = .next t ∧ t.mem = s.mem ∧ ∀ a,
      Memory.read (t.tile p).mem.pad a =
        if 32 * k ≤ a ∧ a < 32 * k + 32 then data.getD (a - 32 * k) 0 else Memory.read (s.tile p).mem.pad a) ∧
    (s.barPlace b off data.length = none → ∃ t, exec (.barMemoryWrite hdr b off data false) s = .next t ∧
      t.hst.oor = s.hst.oor + 1 ∧ t.hst.viol = s.hst.viol + 1 ∧ s.SameG7 t ∧ t.mem.slow = s.mem.slow) ∧
    (∀ l, s.barPlace b off len = some l → exec (.barMemoryRead hdr b off len) s =
      .next ((s.readLoc l len).2.2.emit (.completion (s.readLoc l len).2.1 (s.readLoc l len).1))) ∧
    (s.barPlace b off len = none → ∃ t, exec (.barMemoryRead hdr b off len) s = .next t ∧
      t.hst.oor = s.hst.oor + 1 ∧ t.out.head? = some (.completion false (List.replicate len 0))) ∧
    (∃ t, exec .hstFlushRead s = .next t ∧ t.out = .completion false (leBytes 8 s.now) :: s.out) ∧
    ∀ k, (bar0Ok off size = false → ∀ i ∈ [Instr.registerWrite hdr off size v, .bar0BadSizeRead hdr off size], ∃ t, exec i s = .next t ∧
        t.hst.viol = s.hst.viol + 1 ∧ t.cp.mbx = s.cp.mbx) ∧
      ∀ i ∈ [Instr.malformedTlp hdr, .unsupportedRequest hdr k, .unexpectedCompletion hdr], ∃ t, exec i s = .next t ∧
        t.hst.viol = s.hst.viol + 1 ∧ t.hst.oor = s.hst.oor

/-- The link, the resets, the power states and the flush reads (R314, R315, R318 to R320), and the derivation of the scales once it
is due (R121 to R123): the record of each tensor that counted in the step moves by the row of Table 04-8 that applies, and what the next
step has counted stays. The model's choices in it: configuration after a reset and over a link down (log entries 194, 199 and 201), REWRITE
(log entry 197), what a flush read covers and where it goes (log entries 198 and 277), HOST_LOST without a job (log entry 203), uncounted
records (log entries 73 and 259). -/
def Obligations.HostEvents : Prop :=
  ∀ (s : State) (hdr : Word64), s.Quiet →
    (s.linkUp = true →
      (∃ t, exec .pcieLinkDown s = .next t ∧ t.hst.link = .down ∧ t.hst.linkDowns = s.hst.linkDowns + 1) ∧
      (∃ t, exec .functionLevelReset s = .next t ∧ t.hst.bme = false ∧ t.hst.msixEn = false ∧ t.hst.d3hot = false ∧
        t.hst.pba = [] ∧ t.hst.wlog = s.hst.wlog ∧ t.streams = s.streams) ∧
      (∃ t, exec .d3hotEntry s = .next t ∧ t.hst.d3hot = true ∧ t.hst.bme = false ∧ t.streams = s.streams) ∧
      (∃ t, exec (.configRequest hdr 0 (.busMaster true)) s = .next t ∧ t.hst.bme = true) ∧
      (∀ on, ∃ t, exec (.configRequest hdr 0 (.msixEnable on)) s = .next t ∧ t.hst.msixEn = on) ∧
      (∃ t, exec (.configRequest hdr 0 (.power true)) s = .next t ∧ t.hst.d3hot = true) ∧
      (∀ n, exec (.configRequest hdr 0 (.read n)) s = .next (s.emit (.completion false (leBytes 4 (s.configDword n).toNat)))) ∧
      (∀ fn op, fn ≠ 0 → ∃ t, exec (.configRequest hdr fn op) s = .next t ∧ t.hst.viol = s.hst.viol + 1 ∧ t.hst.bme = s.hst.bme)) ∧
    (∀ gen width, s.boot.mainOn = true → s.hst.link = .down → 4 ≤ gen → gen ≤ 6 → width = 4 ∨ width = 8 ∨ width = 16 → ∃ t,
      exec (.pcieLinkUp gen width) s = .next t ∧ t.hst.gen = gen ∧ t.hst.width = width ∧
      (s.hst.downSince = 0 → t.hst.link = .l0) ∧ (s.hst.downSince ≠ 0 → s.hst.bme = false → t.hst.link = .rewrite) ∧
      (s.hst.downSince ≠ 0 → s.hst.bme = true → t.hst.link = .l0 ∧ t.hst.downSince = 0 ∧
        t.hst.replayed = s.hst.replayed + BitVec.ofNat 64 s.hst.wlog.length)) ∧
    (s.hst.link = .down → s.hst.downSince ≠ 0 → ∃ t, exec .linkDownLimitExpiry s = .next t ∧ t.streams.hostLost = true) ∧
    (s.boot.mainOn = true → ∃ t, exec .hostReset s = .next t ∧ t.streams.hostLost = true ∧ t.hst.link = .down ∧ t.hst.bme = false) ∧
    (∀ a, s.hst.lastAddr = some a → s.hst.flushOut = false → s.hostOpen = true → ∃ t, exec .flushReadIssue s = .next t ∧
      t.hst.flushOut = true ∧ t.out.head? = some (.hostRead a 4) ∧ ∀ w ∈ t.hst.wlog, w.covered = true) ∧
    (s.hst.flushOut = true → s.boot.mainOn = true → s.hst.link = .l0 → s.hst.wait = [] → ∃ t, exec .flushReadComplete s = .next t ∧
      t.hst.flushOut = false ∧ t.hst.wlog = s.hst.wlog.filter fun w => !w.covered) ∧
    (∀ n, s.scales.due = some n → s.cpReady = true → ∃ t, exec .scaleDerive s = .next t ∧ t.scales.due = none ∧ t.scales.ended = [] ∧
      ∀ k e, s.scales.ended = [(k, e)] → s.scales.applying = [] → t.scaleRec k =
        let r := s.endedRec k
        { deriveTop r (transition (rowFor s.boundary k r) r).1 with w2 := (s.scaleRec k).w2, w3 := (s.scaleRec k).w3 })

/-! ### Ethernet and FDT -/

/-- Ports and connections (R321 to R328): what each packet that passes the checks does to its connection, an OPEN that is no FDT
packet or fails a checksum (it opens none), and the timers. The model's choices in it: rates and alpha (log entry 18), what an inbound OPEN
gives its connection (log entry 71), a repeated OPEN (log entry 94), a full FIFO (log entry 190), the answer to PROBE (log entry 191), what a
timeout sends (log entry 192), PFC (log entries 279 and 280), dropped frames (log entry 281). -/
def Obligations.EthernetAndFdt : Prop :=
  ∀ (s : State), s.Quiet →
    (∀ (i : Fin 2) kind (rx : EthRx), (s.ethPort i).state = 1 → ∃ t, exec (.ethFrameReceive i kind rx) s = .next t ∧
      let e := s.ethPort i
      let e' := t.ethPort i
      e'.fecCorr = e.fecCorr + BitVec.ofNat 64 rx.fecCorr ∧
      (rx.fcsOk = false → e'.fcsErr = e.fcsErr + 1 ∧ e'.rxFrames = e.rxFrames ∧ t.out = s.out) ∧
      (rx.fcsOk = true → 9216 < rx.len → e'.rxFrames = e.rxFrames ∧ t.out = s.out) ∧
      (rx.fcsOk = true → rx.len ≤ 9216 → e'.rxFrames = e.rxFrames + 1 ∧
        (rx.fits = false → e'.rxDrop = e.rxDrop + 1 ∧ t.out = s.out) ∧
        (rx.fits = true → s.ownAddr i kind = true → e'.txFrames = e.txFrames + 1 ∧ t.out = .ethReply i kind :: s.out) ∧
        (rx.fits = true → s.ownAddr i kind = false → (∀ n, kind ≠ .pfcPause n) ∨ e.pfc = false → e'.other = e.other + 1 ∧ t.out = s.out) ∧
        (∀ n, rx.fits = true → kind = .pfcPause n → e.pfc = true → 0 < n →
          e'.pausedTo = s.now + (128 * n + 999) / 1000 ∧ t.out = s.out))) ∧
    (∀ i : Fin 2, (s.ethPort i).state = 1 → ∃ t, exec (.ethPortDown i) s = .next t ∧ (t.ethPort i).state = 0) ∧
    (∀ i : Fin 2, s.boot.mainOn = true → (s.ethPort i).state ≠ 1 → ∃ t, exec (.ethPortUp i) s = .next t ∧ (t.ethPort i).state = 1) ∧
    (∀ (pkt : FdtPacket) (k : Nat), (s.ethPort pkt.port).state = 1 → s.TakesPacket pkt →
      let b := pkt.bytes
      let c := s.conn k
      let type := be b 0 1 % 16
      let slot (ok : ConnState → Bool) : Option Nat := s.fdtSlot (BitVec.ofNat 32 (be b 4 4)) ok
      let ack : Word32 := BitVec.ofNat 32 (be b 16 4)
      let n := (ack - c.base).toNat
      let live (x : ConnState) : Bool := x == .opening || x == .open_
      (slot isOpen = some k →
        (type = 1 → pkt.ce = false → be b 12 4 = c.rxPsn.toNat → c.rxAhead = [] → bitOf (be b 1 1) 7 = false → s.chd.ringIn = [] →
          ∀ m, c.msgs = [m] → m.id = BitVec.ofNat 32 (be b 24 4) → m.id ≠ c.doneMsg + 1 → m.kind = 1 →
            let d := slice b 32 (be b 2 2)
            ∃ t, exec (.fdtData pkt) s = .next t ∧ (t.conn k).rxPsn = c.rxPsn + 1 ∧ (t.conn k).rxAhead = [] ∧
              (t.conn k).msgs = [{ m with
                placed := (be b 28 4, d.length) :: m.placed
                data := if be b 28 4 + d.length ≤ m.len then Memory.write m.data (be b 28 4) d else m.data }]) ∧
        (type = 2 → ackBeyond c ack (be b 20 2) = false → 0 < n → n ≤ c.unacked.length → c.pending = [] → c.sendQ = [] → ∃ t,
          exec (.fdtAck pkt) s = .next t ∧ (t.conn k).unacked = c.unacked.drop n ∧ (t.conn k).window = be b 22 2) ∧
        (type = 3 → n = 0 → be b 20 2 = 0 → c.pending = [] → c.sendQ = [] → ∃ t, exec (.fdtNak pkt) s = .next t ∧
          (t.conn k).unacked.length = c.unacked.length ∧ ∀ u ∈ (t.conn k).unacked, u.retx = true) ∧
        (type = 7 → ∃ t, exec (.fdtCnp pkt) s = .next t ∧ (t.conn k).target = c.rate ∧ (t.conn k).cnp = c.cnp + 1 ∧
          (t.conn k).rate = max 1000 (min (c.rate - c.rate * c.alpha / 131072) (s.lineRate c.ports))) ∧
        (type = 8 → ∃ t, exec (.fdtProbe pkt) s = .next t ∧ (t.conn k).unackedRx = 0)) ∧
      (slot live = some k →
        (type = 5 → c.state = .opening → ∃ t, exec (.fdtOpenAck pkt) s = .next t ∧ (t.conn k).state = .open_ ∧
          (t.conn k).remoteId = BitVec.ofNat 32 (be b 8 4)) ∧
        (type = 6 → ∃ t, exec (.fdtClose pkt) s = .next t ∧ (t.conn k).state = .closed ∧ (t.conn k).unacked = [])) ∧
      (type = 4 → k < 64 → c.state = .closed ∨ c.state = .lost → (∀ j, j < 64 → live (s.conn j).state = true → (s.conn j).remote ≠ pkt.src) →
        (∀ j, j < k → (s.conn j).state ≠ .closed ∧ (s.conn j).state ≠ .lost) → ∃ t, exec (.fdtOpen pkt) s = .next t ∧
          (t.conn k).state = .open_ ∧ (t.conn k).remote = pkt.src ∧ (t.conn k).remoteId = BitVec.ofNat 32 (be b 8 4))) ∧
    (∀ pkt : FdtPacket, (s.ethPort pkt.port).state = 1 → be pkt.bytes 0 1 % 16 = 4 → s.fdtTaken pkt = false → ∃ t,
      exec (.fdtOpen pkt) s = .next t ∧ t.eth.conns = s.eth.conns) ∧
    ∀ k : Fin 64,
      let c := s.conn k
      (∀ x, c.timer = some x → c.state = .open_ → ∃ t, exec (.fdtRetxTimeout k) s = .next t ∧
        (c.expiries + 1 < s.eth.retryLimit → (t.conn k).expiries = c.expiries + 1 ∧ (t.conn k).rto = min 6400000 (2 * c.rto) ∧
          (t.conn k).unacked.length = c.unacked.length ∧ ∀ u ∈ (t.conn k).unacked, u.retx = true) ∧
        (s.eth.retryLimit ≤ c.expiries + 1 → (t.conn k).state = .lost ∧ (t.conn k).unacked = [])) ∧
      (c.state = .open_ →
        (c.unackedRx ≠ 0 → ∃ t, exec (.fdtAckTimer k) s = .next t ∧ (t.conn k).unackedRx = 0) ∧
        ((s.pickPort c).isSome = true → ∃ t, exec (.fdtProbeTimer k) s = .next t ∧ (t.conn k).lastHeard = t.now) ∧
        (∃ t, exec (.fdtRatePeriod k) s = .next t ∧ (t.conn k).sinceCut = c.sinceCut + 1 ∧
          (t.conn k).alpha = c.alpha - c.alpha / 2 ^ s.eth.gShift))

/-! ### The Almanac -/

/-- One event at the Almanac writer (R391, R392): it folds into the most recent record or is appended with the next SEQ; and
the flush, its end and the erase ahead of it (R395 to R398). Which sector a record goes to in a full area is inferred (log entry 47). -/
def Obligations.AlmanacRecords : Prop :=
  ∀ (s : State), s.Quiet →
    (∀ code sev kind index payload,
      let r : AlmRec := ⟨BitVec.ofNat 16 code, false, sev, BitVec.ofNat 8 kind, BitVec.ofNat 16 index, s.boot.modCount.setWidth 48, 0, 0,
        padTo 12 payload, false, false⟩
      let t := s.report code sev kind index payload
      (∀ last, s.alm.ring.getLast? = some last → foldsInto last r = true → t.alm.nextSeq = s.alm.nextSeq ∧
        t.alm.folded = s.alm.folded + 1 ∧ t.alm.ring = s.alm.ring.dropLast ++ [{ last with rep := min (last.rep + 1) 0xFFFF }]) ∧
      ((∀ last, s.alm.ring.getLast? = some last → foldsInto last r = false) → s.alm.ring.length < 2048 → s.alm.lostRing = 0 →
        s.alm.lostFlash = 0 → s.alm.flushLevel = 0 → t.alm.nextSeq = s.alm.nextSeq + 1 ∧
        (t.alm.ring.getLast?.map (·.seq)) = some s.alm.nextSeq ∧ t.alm.ring.length = s.alm.ring.length + 1 ∧
        (sev ≠ .fault → t.alm.ring = s.alm.ring ++ [{ r with seq := s.alm.nextSeq, frozen := s.alm.flushing }]) ∧
        (sev = .fault → t.boot.faulted = true ∨ code % 2 ^ 16 = 0x0A09))) ∧
    (∀ v, s.linkUp = true → ∃ t, exec (.almCtrlFlush v) s = .next t ∧ t.alm.flushLevel = fld v 16 12 ∧
      (fld v 0 1 = 1 → s.flash.mcbWrite = none → t.alm.flushing = true ∧ (s.alm.flushing = false →
        ∀ r ∈ t.alm.ring, r.flushed = true ∨ r.frozen = true)) ∧
      (fld v 0 1 = 0 → t.alm.flushing = s.alm.flushing ∧ t.alm.ring = s.alm.ring)) ∧
    (s.alm.flushing = true → s.flash.mcbWrite = none → ∃ t, exec .almanacFlushEnd s = .next t ∧ t.alm.flushing = false ∧
      (∀ w, s.flash.mcbNext = some w → t.flash.mcbWrite = some w ∧ t.flash.mcbNext = none) ∧ ∀ r ∈ t.alm.ring, r.flushed = true) ∧
    (s.alm.bySeverity = false → s.alm.flushing = false → s.flash.mcbWrite = none → s.aoUp = true →
      let h := s.alm.head / 2048
      let next (k : Nat) : Nat := if k + 1 < 128 then k + 1 else s.alm.keepUnits / 2
      -- a head at a sector's start has that sector as the first of the two
      let a := if s.alm.head % 2048 = 0 then h else next h
      let can (k : Nat) : Prop := k ∉ s.alm.erased ∧ (k ≠ h ∨ s.alm.head % 2048 = 0)
      ∀ k, can a ∧ k = a ∨ ¬can a ∧ can (next a) ∧ k = next a → ∃ t, exec .almanacSectorErase s = .next t ∧ k ∈ t.alm.erased ∧
        (∀ p ∈ t.alm.flash, inSector k p = false) ∧ ∀ p ∈ s.alm.flash, inSector k p = false → p ∈ t.alm.flash)
end

