-- ==== Sys2Proof/Laws/Assoc.lean ====
section
/-! SUPPORT. Laws of sparse arrays and memories: a read after a write, and the canonical form that every write keeps. -/

namespace Sys2Proof.Laws

open Sys2Proof.Machine

variable {α : Type}

theorem get_del_same (d : α) (l : Sparse α) (i : Nat) : Sparse.get d (Sparse.del i l) i = d := by
  induction l with
  | nil => rfl
  | cons p r ih =>
    obtain ⟨k, w⟩ := p
    by_cases h : k = i
    · simpa [Sparse.del, h] using ih
    · simpa [Sparse.del, h, Sparse.get] using ih

theorem get_del_other (d : α) (l : Sparse α) {i j : Nat} (h : i ≠ j) : Sparse.get d (Sparse.del i l) j = Sparse.get d l j := by
  induction l with
  | nil => rfl
  | cons p r ih =>
    obtain ⟨k, w⟩ := p
    by_cases hk : k = i
    · subst hk
      simp [Sparse.del, Sparse.get, h, ih]
    · by_cases hj : k = j
      · subst hj
        simp [Sparse.del, Sparse.get, hk]
      · simp [Sparse.del, Sparse.get, hk, hj, ih]

theorem get_ins_same (d : α) (l : Sparse α) (i : Nat) (v : α) (hl : ∀ p ∈ l, p.1 ≠ i) :
    Sparse.get d (Sparse.ins i v l) i = v := by
  induction l with
  | nil => simp [Sparse.ins, Sparse.get]
  | cons p r ih =>
    obtain ⟨k, w⟩ := p
    have hk : k ≠ i := hl (k, w) (by simp)
    by_cases h : i < k
    · simp [Sparse.ins, h, Sparse.get]
    · simp [Sparse.ins, h, Sparse.get, hk, ih fun q hq => hl q (by simp [hq])]

theorem get_ins_other (d : α) (l : Sparse α) {i j : Nat} (v : α) (h : i ≠ j) :
    Sparse.get d (Sparse.ins i v l) j = Sparse.get d l j := by
  induction l with
  | nil => simp [Sparse.ins, Sparse.get, h]
  | cons p r ih =>
    obtain ⟨k, w⟩ := p
    by_cases hk : i < k
    · simp [Sparse.ins, hk, Sparse.get, h]
    · by_cases hj : k = j
      · subst hj
        simp [Sparse.ins, hk, Sparse.get]
      · simp [Sparse.ins, hk, Sparse.get, hj, ih]

theorem not_mem_del (l : Sparse α) (i : Nat) : ∀ p ∈ Sparse.del i l, p.1 ≠ i := by
  induction l with
  | nil => simp [Sparse.del]
  | cons p r ih =>
    obtain ⟨k, w⟩ := p
    by_cases h : k = i
    · simpa [Sparse.del, h] using ih
    · intro q hq
      simp only [Sparse.del, h, if_false, List.mem_cons] at hq
      rcases hq with rfl | hq
      · exact h
      · exact ih q hq

theorem mem_del (l : Sparse α) (i : Nat) (p : Nat × α) : p ∈ Sparse.del i l → p ∈ l := by
  induction l with
  | nil => simp [Sparse.del]
  | cons q r ih =>
    obtain ⟨k, w⟩ := q
    by_cases h : k = i
    · simp only [Sparse.del, h, if_true, List.mem_cons]; exact fun hp => Or.inr (ih hp)
    · simp only [Sparse.del, h, if_false, List.mem_cons]
      exact Or.imp_right ih

variable [DecidableEq α]

/-- A read of the index written gives the value written. -/
@[simp] theorem get_put_same (d : α) (l : Sparse α) (i : Nat) (v : α) : Sparse.get d (Sparse.put d l i v) i = v := by
  unfold Sparse.put
  split
  · rename_i h
    rw [get_del_same, h]
  · exact get_ins_same d _ i v (not_mem_del l i)

/-- A read of any other index gives what it gave before. -/
theorem get_put_other (d : α) (l : Sparse α) {i j : Nat} (v : α) (h : i ≠ j) :
    Sparse.get d (Sparse.put d l i v) j = Sparse.get d l j := by
  unfold Sparse.put
  split
  · exact get_del_other d l h
  · rw [get_ins_other d _ v h, get_del_other d l h]

/-- The same read against another default. -/
theorem get_put_other_default (d e : α) (l : Sparse α) {i j : Nat} (v : α) (h : i ≠ j) :
    Sparse.get e (Sparse.put d l i v) j = Sparse.get e l j := by
  unfold Sparse.put
  split
  · exact get_del_other e l h
  · rw [get_ins_other e _ v h, get_del_other e l h]

/-- The canonical form as one proposition: rising indices, no default. -/
def Canon (d : α) (l : Sparse α) : Prop := (∀ p ∈ l, p.2 ≠ d) ∧ l.Pairwise fun p q => p.1 < q.1

theorem wf_iff (d : α) (l : Sparse α) : Sparse.wf d l = true ↔ Canon d l := by
  induction l with
  | nil => simp [Sparse.wf, Canon]
  | cons p r ih =>
    obtain ⟨k, v⟩ := p
    cases r with
    | nil => simp [Sparse.wf, Canon]
    | cons q r =>
      obtain ⟨j, w⟩ := q
      simp only [Sparse.wf, Bool.and_eq_true, decide_eq_true_eq, ih, Canon, List.mem_cons, List.pairwise_cons]
      constructor
      · rintro ⟨⟨hv, hk⟩, hm, hp⟩
        refine ⟨?_, ?_, hp⟩
        · rintro q (rfl | hq)
          · exact hv
          · exact hm q hq
        · rintro q (rfl | hq)
          · exact hk
          · exact Nat.lt_trans hk (hp.1 q hq)
      · rintro ⟨hm, hk, hp⟩
        exact ⟨⟨hm (k, v) (Or.inl rfl), hk (j, w) (Or.inl rfl)⟩, fun q hq => hm q (Or.inr hq), hp⟩

theorem mem_ins (l : Sparse α) (i : Nat) (v : α) (p : Nat × α) : p ∈ Sparse.ins i v l ↔ p = (i, v) ∨ p ∈ l := by
  induction l with
  | nil => simp [Sparse.ins]
  | cons q r ih =>
    obtain ⟨k, w⟩ := q
    by_cases h : i < k
    · simp [Sparse.ins, h]
    · simp only [Sparse.ins, h, if_false, List.mem_cons, ih]; tauto

omit [DecidableEq α] in
theorem canon_del {d : α} {l : Sparse α} (i : Nat) (h : Canon d l) : Canon d (Sparse.del i l) := by
  refine ⟨fun p hp => h.1 p (mem_del l i p hp), ?_⟩
  induction l with
  | nil => simp [Sparse.del]
  | cons q r ih =>
    obtain ⟨k, w⟩ := q
    have hr : Canon d r := ⟨fun p hp => h.1 p (by simp [hp]), (List.pairwise_cons.mp h.2).2⟩
    by_cases hk : k = i
    · simpa [Sparse.del, hk] using ih hr
    · simp only [Sparse.del, hk, if_false, List.pairwise_cons]
      exact ⟨fun p hp => (List.pairwise_cons.mp h.2).1 p (mem_del r i p hp), ih hr⟩

theorem canon_ins {d : α} {l : Sparse α} {i : Nat} {v : α} (hv : v ≠ d) (hi : ∀ p ∈ l, p.1 ≠ i) (h : Canon d l) :
    Canon d (Sparse.ins i v l) := by
  refine ⟨fun p hp => ?_, ?_⟩
  · rcases (mem_ins l i v p).mp hp with rfl | hp
    · exact hv
    · exact h.1 p hp
  · induction l with
    | nil => simp [Sparse.ins]
    | cons q r ih =>
      obtain ⟨k, w⟩ := q
      have hc := List.pairwise_cons.mp h.2
      have hr : Canon d r := ⟨fun p hp => h.1 p (by simp [hp]), hc.2⟩
      have hki : k ≠ i := hi (k, w) (by simp)
      by_cases hk : i < k
      · simp only [Sparse.ins, hk, if_true, List.pairwise_cons]
        refine ⟨fun p hp => ?_, hc.1, hc.2⟩
        rcases List.mem_cons.mp hp with rfl | hp
        · exact hk
        · exact Nat.lt_trans hk (hc.1 p hp)
      · simp only [Sparse.ins, hk, if_false, List.pairwise_cons]
        refine ⟨fun p hp => ?_, ih (fun p hp => hi p (by simp [hp])) hr⟩
        rcases (mem_ins r i v p).mp hp with rfl | hp
        · simp only; omega
        · exact hc.1 p hp

/-- A write keeps the canonical form. -/
theorem wf_put {d : α} {l : Sparse α} (i : Nat) (v : α) (h : Sparse.wf d l = true) : Sparse.wf d (Sparse.put d l i v) = true := by
  rw [wf_iff] at h ⊢
  unfold Sparse.put
  split
  · exact canon_del i h
  · rename_i hv
    exact canon_ins hv (not_mem_del l i) (canon_del i h)

/-- A store of bytes keeps a memory's canonical form. -/
theorem memory_wf_write (bs : List Byte) : ∀ {m : List Host.Cell} (a : Nat), Memory.wf m = true → Memory.wf (Memory.write m a bs) = true := by
  induction bs with
  | nil => exact fun _ h => h
  | cons b bs ih => exact fun a h => ih (a + 1) (wf_put a b h)

/-- A store leaves every address outside its bytes as it was. -/
theorem read_write_other (bs : List Byte) : ∀ (m : List Host.Cell) (a j : Nat), j < a ∨ a + bs.length ≤ j →
    Memory.read (Memory.write m a bs) j = Memory.read m j := by
  induction bs with
  | nil => exact fun _ _ _ _ => rfl
  | cons b bs ih =>
    intro m a j h
    simp only [Memory.write, List.length_cons] at *
    rw [ih _ _ _ (by omega)]
    exact get_put_other 0 m b (by omega)

/-- A store's bytes read back. -/
theorem read_write_same (bs : List Byte) : ∀ (m : List Host.Cell) (a i : Nat) (h : i < bs.length),
    Memory.read (Memory.write m a bs) (a + i) = bs[i] := by
  induction bs with
  | nil => exact fun _ _ _ h => absurd h (Nat.not_lt_zero _)
  | cons b bs ih =>
    intro m a i h
    cases i with
    | zero =>
      simp only [Memory.write, Nat.add_zero, List.getElem_cons_zero]
      rw [read_write_other bs _ _ _ (by omega)]
      exact get_put_same 0 m a b
    | succ i =>
      have := ih (Sparse.put 0 m a b) (a + 1) i (by simpa using h)
      simpa [Memory.write, Nat.add_assoc, Nat.add_comm 1 i] using this

end Sys2Proof.Laws
end

