-- ==== Sys2Proof/Laws/Crc.lean ====
section
/-! SUPPORT. CRC-32C and the fields that hold it: a sum fits 32 bits, a field reads as it was written, an MCB with its CHECK formed
passes its check (R370). -/

namespace Sys2Proof.Laws

open Sys2Proof.Machine

theorem crcStepR_lt {p : Nat} (hp : p < 2 ^ 32) : ∀ (n c : Nat), c < 2 ^ 32 → crcStepR p c n < 2 ^ 32
  | 0, _, h => h
  | n + 1, c, h => by
    unfold crcStepR
    refine crcStepR_lt hp n _ ?_
    split
    · exact Nat.xor_lt_two_pow (by omega) hp
    · omega

theorem crc32c_lt (bs : List Byte) : crc32c bs < 2 ^ 32 := by
  have key : ∀ (l : List Byte) (c : Nat), c < 2 ^ 32 →
      l.foldl (fun c b => crcStepR 0x82F63B78 (c ^^^ b.toNat) 8) c < 2 ^ 32 := by
    intro l
    induction l with
    | nil => exact fun _ h => h
    | cons b l ih =>
      exact fun c h => ih _ (crcStepR_lt (by decide) _ _ (Nat.xor_lt_two_pow h (by have := b.isLt; omega)))
  exact Nat.xor_lt_two_pow (key bs _ (by decide)) (by decide)

theorem length_leBytes : ∀ (n v : Nat), (leBytes n v).length = n
  | 0, _ => rfl
  | n + 1, v => by simp [leBytes, length_leBytes n]

theorem leNat_leBytes : ∀ (n v : Nat), leNat (leBytes n v) = v % 256 ^ n
  | 0, v => by simp [leBytes, leNat, Nat.mod_one]
  | n + 1, v => by
    have : 256 ^ (n + 1) = 256 * 256 ^ n := by rw [Nat.pow_succ, Nat.mul_comm]
    rw [leBytes, leNat, leNat_leBytes n, BitVec.toNat_ofNat, this, Nat.mod_mul]

/-- A field of n bytes written inside a block reads as written. -/
theorem le_patch {m : List Byte} {off : Nat} (n v : Nat) (h : off + n ≤ m.length) : le (patch m off (leBytes n v)) off n = v % 256 ^ n := by
  have hl : (m.take off).length = off := by simp; omega
  have ht : (patch m off (leBytes n v)).drop off = leBytes n v ++ m.drop (off + (leBytes n v).length) := by
    rw [patch, List.append_assoc, List.drop_append_of_le_length (by omega), List.drop_of_length_le (by omega), List.nil_append]
  have hs : slice (patch m off (leBytes n v)) off n = leBytes n v := by
    have hk : (leBytes n v ++ m.drop (off + (leBytes n v).length)).take n = leBytes n v := by
      rw [List.take_append_of_le_length (by rw [length_leBytes]), List.take_of_length_le (by rw [length_leBytes])]
    unfold slice
    dsimp only
    rw [ht, hk]
    simp [length_leBytes]
  rw [le, hs, leNat_leBytes]

/-- A field written twice holds what was written last. -/
theorem patch_patch {m a b : List Byte} {off : Nat} (hab : a.length = b.length) (h : off ≤ m.length) :
    patch (patch m off a) off b = patch m off b := by
  have hl : (m.take off).length = off := by simp; omega
  unfold patch
  congr 1
  · rw [List.append_assoc, List.take_append_of_le_length (by omega), List.take_of_length_le (by omega)]
  · rw [← hab, List.append_assoc, List.drop_append, List.drop_of_length_le (by omega), List.nil_append, hl, Nat.add_sub_cancel_left,
      List.drop_append, List.drop_of_length_le (Nat.le_refl _), List.nil_append, Nat.sub_self, List.drop_zero]

theorem mcbSeal_check {m : List Byte} (h : 12 ≤ m.length) : mcbCrc (mcbSeal m) = le (mcbSeal m) 8 4 := by
  rw [mcbSeal, le_patch 4 _ (by omega), mcbCrc, patch_patch (by rw [length_leBytes]; rfl) (by omega)]
  exact (Nat.mod_eq_of_lt (crc32c_lt _)).symm

theorem length_slice (m : List Byte) (off n : Nat) : (slice m off n).length = n := by
  unfold slice
  simp

theorem length_mcbDefault : mcbDefault.length = 2048 := by
  simp only [mcbDefault, mcbSeal, patch, padTo, List.length_append, List.length_take, List.length_drop, length_slice, length_leBytes]
  rfl

theorem mcbDefault_check : mcbCrc mcbDefault = le mcbDefault 8 4 := by
  unfold mcbDefault
  exact mcbSeal_check (by rw [padTo, length_slice]; decide)

/-- The last n bytes of a block. -/
theorem slice_append_right {a b : List Byte} {off : Nat} (h : a.length = off) : slice (a ++ b) off b.length = b := by
  unfold slice
  dsimp only
  rw [List.drop_append, List.drop_of_length_le (by omega), h, Nat.sub_self, List.drop_zero, List.nil_append, List.take_length]
  simp

/-! ### Sums over long blocks

The accumulator is a numeral at each step, so that the kernel evaluates a sum over a thousand bytes without nesting. -/

def strictFold (f : Nat → Byte → Nat) : List Byte → Nat → Nat
  | [], s => s
  | b :: l, 0 => strictFold f l (f 0 b)
  | b :: l, s + 1 => strictFold f l (f (s + 1) b)

theorem strictFold_eq (f : Nat → Byte → Nat) : ∀ (l : List Byte) (s : Nat), strictFold f l s = l.foldl f s
  | [], 0 => rfl
  | [], _ + 1 => rfl
  | _ :: l, 0 => strictFold_eq f l _
  | _ :: l, _ + 1 => strictFold_eq f l _

theorem crc32c_strict (b : List Byte) :
    crc32c b = strictFold (fun c b => crcStepR 0x82F63B78 (c ^^^ b.toNat) 8) b 0xFFFFFFFF ^^^ 0xFFFFFFFF := by
  rw [crc32c, strictFold_eq]

/-- A word whose four sums are zero is clean. -/
theorem rsDecode_clean {w : List Byte} (t : Nat)
    (h : ∀ i, i < 4 → strictFold (fun s b => gfMul s (gfExp i) ^^^ b.toNat) w 0 = 0) : rsDecode w t = .clean := by
  have k (i : Nat) (hi : i < 4) : rsSyndrome w i = 0 := by rw [rsSyndrome, ← strictFold_eq]; exact h i hi
  simp [rsDecode, k 0, k 1, k 2, k 3]

theorem flitFec_clean {b : List Byte} (h : ∀ k, k < 8 → rsDecode ((interleave k).map fun i => b.getD i 0) 2 = .clean) :
    flitFec b = (b, []) := by
  have : List.range 8 = [0, 1, 2, 3, 4, 5, 6, 7] := by decide
  simp only [flitFec, this, List.foldl_cons, List.foldl_nil, h 0 (by decide), h 1 (by decide), h 2 (by decide), h 3 (by decide),
    h 4 (by decide), h 5 (by decide), h 6 (by decide), h 7 (by decide)]

/-- A block with zeros in the middle, and the byte at a place of it. -/
def frame (h : List Byte) (n : Nat) (t : List Byte) : List Byte := h ++ List.replicate n 0 ++ t
def frameAt (h : List Byte) (n : Nat) (t : List Byte) (i : Nat) : Byte :=
  if i < h.length then h.getD i 0 else if i < h.length + n then 0 else t.getD (i - (h.length + n)) 0

theorem frame_getD (h : List Byte) (n : Nat) (t : List Byte) (i : Nat) : (frame h n t).getD i 0 = frameAt h n t i := by
  unfold frame frameAt
  split
  · rw [List.append_assoc, List.getD_append _ _ _ _ (by omega)]
  · split
    · rw [List.append_assoc, List.getD_append_right _ _ _ _ (by omega), List.getD_append _ _ _ _ (by simp; omega)]
      simp
    · rw [List.getD_append_right _ _ _ _ (by simp; omega)]
      simp

/-- A frame of 1,024 bytes whose interleaves are clean is the flit that the FEC leaves; its CRC is that of its front. -/
theorem frame_fec {h t : List Byte} {n : Nat} (hl : h.length + n = 988) (ht : t.length = 36)
    (hc : ∀ k, k < 8 → ∀ i, i < 4 →
      strictFold (fun s b => gfMul s (gfExp i) ^^^ b.toNat) ((interleave k).map (frameAt h n t)) 0 = 0) :
    flitFec (padTo 1024 (frame h n t)) = (frame h n t, []) := by
  have hp : padTo 1024 (frame h n t) = frame h n t := by
    have : (frame h n t).length = 1024 := by simp [frame]; omega
    rw [padTo, slice]
    simp [this, List.take_of_length_le (Nat.le_of_eq this)]
  rw [hp]
  refine flitFec_clean fun k hk => rsDecode_clean 2 ?_
  simpa only [frame_getD] using hc k hk

theorem frame_crc {h t : List Byte} {n : Nat} (hl : h.length + n = 988) :
    flitCrc (frame h n t) = (crc32c (h ++ List.replicate n 0) == le t 0 4) := by
  have h1 : (frame h n t).take 988 = h ++ List.replicate n 0 := by
    rw [frame, List.take_append_of_le_length (by simp; omega), List.take_of_length_le (by simp; omega)]
  have h2 : le (frame h n t) 988 4 = le t 0 4 := by
    rw [le, le, slice, slice, frame, List.drop_append, List.drop_of_length_le (by simp; omega)]
    simp [hl]
  rw [flitCrc, h1, h2]

/-- The codewords and the header of a frame lie in its front. -/
theorem frame_slice {h t : List Byte} {n off k : Nat} (hk : off + k ≤ h.length) : slice (frame h n t) off k = slice h off k := by
  have h1 : ((frame h n t).drop off).take k = (h.drop off).take k := by
    rw [frame, List.append_assoc, List.drop_append_of_le_length (by omega), List.take_append_of_le_length (by simp; omega)]
  unfold slice
  dsimp only
  rw [h1]

end Sys2Proof.Laws
end

