-- ==== Sys2Proof/Laws/HostLog.lean ====
section
/-! SUPPORT. The host write log (R314) and messages: what a logged write and an MSI-X message leave as it was. -/

namespace Sys2Proof.Laws

open Sys2Proof.Machine

theorem sameG7_refl (s : State) : s.SameG7 s := ⟨fun _ _ => rfl, fun _ _ => rfl⟩

theorem sameG7_trans {s t u : State} (h : s.SameG7 t) (k : t.SameG7 u) (hb : t.hst.wlogBase = s.hst.wlogBase)
    (hs : t.hst.wlogSize = s.hst.wlogSize) : s.SameG7 u := by
  have e : ∀ a, t.inLog a ↔ s.inLog a := fun a => by unfold State.inLog; rw [hb, hs]
  exact ⟨fun a ha => (k.1 a (mt (e a).1 ha)).trans (h.1 a ha),
    fun w hw => (k.2 w fun a ha => mt (e a).1 (hw a ha)).trans (h.2 w hw)⟩

/-- Codewords spanned by bytes each hold one of them. -/
theorem mem_cwSpan {off n w : Nat} (h : w ∈ cwSpan off n) : ∃ a, off ≤ a ∧ a < off + n ∧ a / 32 = w := by
  unfold cwSpan at h
  split at h
  · cases h
  · obtain ⟨i, hi, rfl⟩ := List.mem_map.1 h
    rw [List.mem_range] at hi
    by_cases h0 : i = 0
    · exact ⟨off, by omega, by omega, by omega⟩
    · exact ⟨32 * (off / 32 + i), by omega, by omega, by omega⟩

/-- Marking codewords good changes the list of bad ones only, and no codeword outside the marked. -/
theorem markGood_frame (l : List Nat) : ∀ s : State, ∃ b, l.foldl (fun s cw => s.setG7Health cw .good) s =
    { s with mem := { s.mem with badG7 := b } } ∧ ∀ w, w ∉ l → ∀ d, Sparse.get d b w = Sparse.get d s.mem.badG7 w := by
  induction l with
  | nil => exact fun s => ⟨s.mem.badG7, rfl, fun _ _ _ => rfl⟩
  | cons c l ih =>
    intro s
    obtain ⟨b, hb, hw⟩ := ih (s.setG7Health c .good)
    refine ⟨b, hb, fun w h d => ?_⟩
    rw [hw w (fun k => h (List.mem_cons_of_mem _ k)) d]
    have : c ≠ w := fun e => h (by rw [e]; exact List.mem_cons_self)
    exact get_put_other_default _ d _ _ this

/-- What changes G7 and the log position alone. -/
theorem storeG7_frame (s : State) (off : Nat) (d : List Byte) : ∃ b, s.storeG7 off d =
    { s with mem := { s.mem with g7 := Memory.write s.mem.g7 off d, badG7 := b } } ∧
      ∀ w, (∀ a, off ≤ a → a < off + d.length → a / 32 ≠ w) → ∀ e, Sparse.get e b w = Sparse.get e s.mem.badG7 w := by
  obtain ⟨b, hb, hw⟩ := markGood_frame (cwSpan off d.length) s
  refine ⟨b, by unfold State.storeG7; rw [hb]; rfl, fun w h e => hw w (fun k => ?_) e⟩
  obtain ⟨a, h1, h2, h3⟩ := mem_cwSpan k
  exact h a h1 h2 h3

/-- A store inside the log leaves the rest of G7. -/
theorem storeG7_same {s : State} {off : Nat} {d : List Byte} (h : ∀ a, off ≤ a → a < off + d.length → s.inLog a) :
    ∃ g b, s.storeG7 off d = { s with mem := { s.mem with g7 := g, badG7 := b } } ∧ s.SameG7 (s.storeG7 off d) := by
  obtain ⟨b, hb, hw⟩ := storeG7_frame s off d
  refine ⟨_, b, hb, fun a ha => ?_, fun w hq => ?_⟩
  · rw [hb]
    refine read_write_other d s.mem.g7 off a ?_
    by_cases h1 : a < off
    · exact .inl h1
    · exact .inr (Nat.le_of_not_lt fun h2 => ha (h a (Nat.le_of_not_lt h1) h2))
  · rw [hb]
    exact hw w (fun a h1 h2 h3 => hq a h3 (h a h1 h2)) _

theorem length_logEntry (w : HostWrite) : (logEntry w).length = logSize w.data.length := by
  simp [logEntry, padTo, slice]

/-- A logged write leaves G7 outside the log, and everything but G7 and the log, as they were. -/
theorem logWrite_frame {s : State} {w : HostWrite} (h : s.hst.wlogSize = 0 ∨ logSize w.data.length ≤ s.hst.wlogSize.toNat) :
    ∃ g b p, s.logWrite w = { s with
      hst := { s.hst with wlogPos := p, wlog := s.hst.wlog ++ [w] }, mem := { s.mem with g7 := g, badG7 := b } } ∧
      s.SameG7 (s.logWrite w) := by
  unfold State.logWrite State.logStore
  dsimp only
  split
  · exact ⟨s.mem.g7, s.mem.badG7, s.hst.wlogPos, rfl, sameG7_refl _⟩
  · rename_i hz
    obtain ⟨hz1, hz2⟩ := not_or.1 hz
    have hl : logSize w.data.length ≤ s.hst.wlogSize.toNat := h.resolve_left fun e => hz1 (by rw [e]; rfl)
    have hm := Nat.mod_lt s.hst.wlogPos (Nat.pos_of_ne_zero hz1)
    generalize hpos : s.hst.wlogPos % s.hst.wlogSize.toNat = pos at hm ⊢
    have hle := length_logEntry w
    obtain ⟨g1, b1, e1, f1⟩ := storeG7_same (s := s) (off := s.hst.wlogBase.toNat + pos)
      (d := (logEntry w).take (s.hst.wlogSize.toNat - pos)) (by
        intro a h1 h2
        simp only [List.length_take] at h2
        exact ⟨by omega, by omega⟩)
    generalize hu : s.storeG7 (s.hst.wlogBase.toNat + pos) ((logEntry w).take (s.hst.wlogSize.toNat - pos)) = u at e1 f1 ⊢
    obtain ⟨g2, b2, e2, f2⟩ := storeG7_same (s := u) (off := s.hst.wlogBase.toNat)
      (d := (logEntry w).drop (s.hst.wlogSize.toNat - pos)) (by
        intro a h1 h2
        simp only [List.length_drop] at h2
        rw [e1]
        exact ⟨by show s.hst.wlogBase.toNat ≤ a; omega, by show a < s.hst.wlogBase.toNat + s.hst.wlogSize.toNat; omega⟩)
    refine ⟨g2, b2, (pos + (logEntry w).length) % s.hst.wlogSize.toNat, ?_, ?_⟩
    · rw [e2, e1]; rfl
    · exact sameG7_trans f1 f2 (by rw [e1]) (by rw [e1])

/-- A message touches the pending bits, the requests that wait, the write log and its ring in G7, and the output only. -/
theorem msix_frame (s : State) (v : Nat) : s.msix v =
    { s with
      hst := { s.hst with
        pba := (s.msix v).hst.pba, wait := (s.msix v).hst.wait, wlog := (s.msix v).hst.wlog, wlogPos := (s.msix v).hst.wlogPos,
        handed := (s.msix v).hst.handed, lastAddr := (s.msix v).hst.lastAddr }
      mem := { s.mem with g7 := (s.msix v).mem.g7, badG7 := (s.msix v).mem.badG7 }
      out := (s.msix v).out } ∧ s.SameG7 (s.msix v) := by
  unfold State.msix
  split
  · exact ⟨rfl, sameG7_refl _⟩
  · split
    · split
      · exact ⟨rfl, sameG7_refl _⟩
      · exact ⟨rfl, sameG7_refl _⟩
    · unfold State.hostBound
      rw [if_pos (show (Out.msix v).isWrite = true from rfl)]
      generalize hs : (s.onHst fun h => { h with handed := h.handed + 1 }) = u
      have k0 : s.SameG7 u := by rw [← hs]; exact sameG7_refl _
      dsimp only
      split
      · rename_i hc
        simp only [Bool.and_eq_true, State.logRoom, Out.isWrite, Bool.not_true, Bool.false_or, Bool.or_eq_true, beq_iff_eq,
          Out.dataLen] at hc
        obtain ⟨g, b, p, e, f⟩ := logWrite_frame (s := u) (w := u.msixWrite v) (hc.2.imp id fun h => by
          have : (u.msixWrite v).data.length = 4 := by simp [State.msixWrite, Memory.bytes]
          rw [this]; exact le_trans (Nat.le_add_left _ _) (of_decide_eq_true h))
        unfold State.issueHost
        dsimp only
        generalize (u.msixWrite v).addr = w at *
        generalize u.logWrite (u.msixWrite v) = x at e f ⊢
        refine ⟨?_, sameG7_trans k0 (t := u) ⟨f.1, f.2⟩ (by rw [← hs]; rfl) (by rw [← hs]; rfl)⟩
        rw [e, ← hs]
        rfl
      · exact ⟨by rw [← hs]; rfl, k0⟩

end Sys2Proof.Laws
end

