-- ==== Sys2Proof/Laws/State.lean ====
section
/-! SUPPORT. One lemma per field per update of the state, true by rfl, and the reads after writes of the register arrays. -/

namespace Sys2Proof.Laws

open Sys2Proof.Machine

variable (s : State)

@[simp] theorem onBoot_boot (f : Boot → Boot) : (s.onBoot f).boot = f s.boot := rfl
@[simp] theorem onBoot_flash (f : Boot → Boot) : (s.onBoot f).flash = s.flash := rfl
@[simp] theorem onBoot_cp (f : Boot → Boot) : (s.onBoot f).cp = s.cp := rfl
@[simp] theorem onBoot_tileMap (f : Boot → Boot) : (s.onBoot f).tileMap = s.tileMap := rfl
@[simp] theorem onBoot_tiles (f : Boot → Boot) : (s.onBoot f).tiles = s.tiles := rfl
@[simp] theorem onBoot_streams (f : Boot → Boot) : (s.onBoot f).streams = s.streams := rfl
@[simp] theorem onBoot_sync (f : Boot → Boot) : (s.onBoot f).sync = s.sync := rfl
@[simp] theorem onBoot_scales (f : Boot → Boot) : (s.onBoot f).scales = s.scales := rfl
@[simp] theorem onBoot_job (f : Boot → Boot) : (s.onBoot f).job = s.job := rfl
@[simp] theorem onBoot_grp (f : Boot → Boot) : (s.onBoot f).grp = s.grp := rfl
@[simp] theorem onBoot_grpStats (f : Boot → Boot) : (s.onBoot f).grpStats = s.grpStats := rfl
@[simp] theorem onBoot_comp (f : Boot → Boot) : (s.onBoot f).comp = s.comp := rfl
@[simp] theorem onBoot_mem (f : Boot → Boot) : (s.onBoot f).mem = s.mem := rfl
@[simp] theorem onBoot_d2d (f : Boot → Boot) : (s.onBoot f).d2d = s.d2d := rfl
@[simp] theorem onBoot_chd (f : Boot → Boot) : (s.onBoot f).chd = s.chd := rfl
@[simp] theorem onBoot_hst (f : Boot → Boot) : (s.onBoot f).hst = s.hst := rfl
@[simp] theorem onBoot_eth (f : Boot → Boot) : (s.onBoot f).eth = s.eth := rfl
@[simp] theorem onBoot_pwr (f : Boot → Boot) : (s.onBoot f).pwr = s.pwr := rfl
@[simp] theorem onBoot_pwrDyn (f : Boot → Boot) : (s.onBoot f).pwrDyn = s.pwrDyn := rfl
@[simp] theorem onBoot_pwrRegs (f : Boot → Boot) : (s.onBoot f).pwrRegs = s.pwrRegs := rfl
@[simp] theorem onBoot_alm (f : Boot → Boot) : (s.onBoot f).alm = s.alm := rfl
@[simp] theorem onBoot_out (f : Boot → Boot) : (s.onBoot f).out = s.out := rfl
@[simp] theorem onBoot_free (f : Boot → Boot) : (s.onBoot f).free = s.free := rfl
@[simp] theorem onBoot_pending (f : Boot → Boot) : (s.onBoot f).pending = s.pending := rfl
@[simp] theorem onFlash_boot (f : Flash → Flash) : (s.onFlash f).boot = s.boot := rfl
@[simp] theorem onFlash_flash (f : Flash → Flash) : (s.onFlash f).flash = f s.flash := rfl
@[simp] theorem onFlash_cp (f : Flash → Flash) : (s.onFlash f).cp = s.cp := rfl
@[simp] theorem onFlash_tileMap (f : Flash → Flash) : (s.onFlash f).tileMap = s.tileMap := rfl
@[simp] theorem onFlash_tiles (f : Flash → Flash) : (s.onFlash f).tiles = s.tiles := rfl
@[simp] theorem onFlash_streams (f : Flash → Flash) : (s.onFlash f).streams = s.streams := rfl
@[simp] theorem onFlash_sync (f : Flash → Flash) : (s.onFlash f).sync = s.sync := rfl
@[simp] theorem onFlash_scales (f : Flash → Flash) : (s.onFlash f).scales = s.scales := rfl
@[simp] theorem onFlash_job (f : Flash → Flash) : (s.onFlash f).job = s.job := rfl
@[simp] theorem onFlash_grp (f : Flash → Flash) : (s.onFlash f).grp = s.grp := rfl
@[simp] theorem onFlash_grpStats (f : Flash → Flash) : (s.onFlash f).grpStats = s.grpStats := rfl
@[simp] theorem onFlash_comp (f : Flash → Flash) : (s.onFlash f).comp = s.comp := rfl
@[simp] theorem onFlash_mem (f : Flash → Flash) : (s.onFlash f).mem = s.mem := rfl
@[simp] theorem onFlash_d2d (f : Flash → Flash) : (s.onFlash f).d2d = s.d2d := rfl
@[simp] theorem onFlash_chd (f : Flash → Flash) : (s.onFlash f).chd = s.chd := rfl
@[simp] theorem onFlash_hst (f : Flash → Flash) : (s.onFlash f).hst = s.hst := rfl
@[simp] theorem onFlash_eth (f : Flash → Flash) : (s.onFlash f).eth = s.eth := rfl
@[simp] theorem onFlash_pwr (f : Flash → Flash) : (s.onFlash f).pwr = s.pwr := rfl
@[simp] theorem onFlash_pwrDyn (f : Flash → Flash) : (s.onFlash f).pwrDyn = s.pwrDyn := rfl
@[simp] theorem onFlash_pwrRegs (f : Flash → Flash) : (s.onFlash f).pwrRegs = s.pwrRegs := rfl
@[simp] theorem onFlash_alm (f : Flash → Flash) : (s.onFlash f).alm = s.alm := rfl
@[simp] theorem onFlash_out (f : Flash → Flash) : (s.onFlash f).out = s.out := rfl
@[simp] theorem onFlash_free (f : Flash → Flash) : (s.onFlash f).free = s.free := rfl
@[simp] theorem onFlash_pending (f : Flash → Flash) : (s.onFlash f).pending = s.pending := rfl
@[simp] theorem onCp_boot (f : Cp → Cp) : (s.onCp f).boot = s.boot := rfl
@[simp] theorem onCp_flash (f : Cp → Cp) : (s.onCp f).flash = s.flash := rfl
@[simp] theorem onCp_cp (f : Cp → Cp) : (s.onCp f).cp = f s.cp := rfl
@[simp] theorem onCp_tileMap (f : Cp → Cp) : (s.onCp f).tileMap = s.tileMap := rfl
@[simp] theorem onCp_tiles (f : Cp → Cp) : (s.onCp f).tiles = s.tiles := rfl
@[simp] theorem onCp_streams (f : Cp → Cp) : (s.onCp f).streams = s.streams := rfl
@[simp] theorem onCp_sync (f : Cp → Cp) : (s.onCp f).sync = s.sync := rfl
@[simp] theorem onCp_scales (f : Cp → Cp) : (s.onCp f).scales = s.scales := rfl
@[simp] theorem onCp_job (f : Cp → Cp) : (s.onCp f).job = s.job := rfl
@[simp] theorem onCp_grp (f : Cp → Cp) : (s.onCp f).grp = s.grp := rfl
@[simp] theorem onCp_grpStats (f : Cp → Cp) : (s.onCp f).grpStats = s.grpStats := rfl
@[simp] theorem onCp_comp (f : Cp → Cp) : (s.onCp f).comp = s.comp := rfl
@[simp] theorem onCp_mem (f : Cp → Cp) : (s.onCp f).mem = s.mem := rfl
@[simp] theorem onCp_d2d (f : Cp → Cp) : (s.onCp f).d2d = s.d2d := rfl
@[simp] theorem onCp_chd (f : Cp → Cp) : (s.onCp f).chd = s.chd := rfl
@[simp] theorem onCp_hst (f : Cp → Cp) : (s.onCp f).hst = s.hst := rfl
@[simp] theorem onCp_eth (f : Cp → Cp) : (s.onCp f).eth = s.eth := rfl
@[simp] theorem onCp_pwr (f : Cp → Cp) : (s.onCp f).pwr = s.pwr := rfl
@[simp] theorem onCp_pwrDyn (f : Cp → Cp) : (s.onCp f).pwrDyn = s.pwrDyn := rfl
@[simp] theorem onCp_pwrRegs (f : Cp → Cp) : (s.onCp f).pwrRegs = s.pwrRegs := rfl
@[simp] theorem onCp_alm (f : Cp → Cp) : (s.onCp f).alm = s.alm := rfl
@[simp] theorem onCp_out (f : Cp → Cp) : (s.onCp f).out = s.out := rfl
@[simp] theorem onCp_free (f : Cp → Cp) : (s.onCp f).free = s.free := rfl
@[simp] theorem onCp_pending (f : Cp → Cp) : (s.onCp f).pending = s.pending := rfl
@[simp] theorem onStreams_boot (f : Streams → Streams) : (s.onStreams f).boot = s.boot := rfl
@[simp] theorem onStreams_flash (f : Streams → Streams) : (s.onStreams f).flash = s.flash := rfl
@[simp] theorem onStreams_cp (f : Streams → Streams) : (s.onStreams f).cp = s.cp := rfl
@[simp] theorem onStreams_tileMap (f : Streams → Streams) : (s.onStreams f).tileMap = s.tileMap := rfl
@[simp] theorem onStreams_tiles (f : Streams → Streams) : (s.onStreams f).tiles = s.tiles := rfl
@[simp] theorem onStreams_streams (f : Streams → Streams) : (s.onStreams f).streams = f s.streams := rfl
@[simp] theorem onStreams_sync (f : Streams → Streams) : (s.onStreams f).sync = s.sync := rfl
@[simp] theorem onStreams_scales (f : Streams → Streams) : (s.onStreams f).scales = s.scales := rfl
@[simp] theorem onStreams_job (f : Streams → Streams) : (s.onStreams f).job = s.job := rfl
@[simp] theorem onStreams_grp (f : Streams → Streams) : (s.onStreams f).grp = s.grp := rfl
@[simp] theorem onStreams_grpStats (f : Streams → Streams) : (s.onStreams f).grpStats = s.grpStats := rfl
@[simp] theorem onStreams_comp (f : Streams → Streams) : (s.onStreams f).comp = s.comp := rfl
@[simp] theorem onStreams_mem (f : Streams → Streams) : (s.onStreams f).mem = s.mem := rfl
@[simp] theorem onStreams_d2d (f : Streams → Streams) : (s.onStreams f).d2d = s.d2d := rfl
@[simp] theorem onStreams_chd (f : Streams → Streams) : (s.onStreams f).chd = s.chd := rfl
@[simp] theorem onStreams_hst (f : Streams → Streams) : (s.onStreams f).hst = s.hst := rfl
@[simp] theorem onStreams_eth (f : Streams → Streams) : (s.onStreams f).eth = s.eth := rfl
@[simp] theorem onStreams_pwr (f : Streams → Streams) : (s.onStreams f).pwr = s.pwr := rfl
@[simp] theorem onStreams_pwrDyn (f : Streams → Streams) : (s.onStreams f).pwrDyn = s.pwrDyn := rfl
@[simp] theorem onStreams_pwrRegs (f : Streams → Streams) : (s.onStreams f).pwrRegs = s.pwrRegs := rfl
@[simp] theorem onStreams_alm (f : Streams → Streams) : (s.onStreams f).alm = s.alm := rfl
@[simp] theorem onStreams_out (f : Streams → Streams) : (s.onStreams f).out = s.out := rfl
@[simp] theorem onStreams_free (f : Streams → Streams) : (s.onStreams f).free = s.free := rfl
@[simp] theorem onStreams_pending (f : Streams → Streams) : (s.onStreams f).pending = s.pending := rfl
@[simp] theorem onSync_boot (f : Sync → Sync) : (s.onSync f).boot = s.boot := rfl
@[simp] theorem onSync_flash (f : Sync → Sync) : (s.onSync f).flash = s.flash := rfl
@[simp] theorem onSync_cp (f : Sync → Sync) : (s.onSync f).cp = s.cp := rfl
@[simp] theorem onSync_tileMap (f : Sync → Sync) : (s.onSync f).tileMap = s.tileMap := rfl
@[simp] theorem onSync_tiles (f : Sync → Sync) : (s.onSync f).tiles = s.tiles := rfl
@[simp] theorem onSync_streams (f : Sync → Sync) : (s.onSync f).streams = s.streams := rfl
@[simp] theorem onSync_sync (f : Sync → Sync) : (s.onSync f).sync = f s.sync := rfl
@[simp] theorem onSync_scales (f : Sync → Sync) : (s.onSync f).scales = s.scales := rfl
@[simp] theorem onSync_job (f : Sync → Sync) : (s.onSync f).job = s.job := rfl
@[simp] theorem onSync_grp (f : Sync → Sync) : (s.onSync f).grp = s.grp := rfl
@[simp] theorem onSync_grpStats (f : Sync → Sync) : (s.onSync f).grpStats = s.grpStats := rfl
@[simp] theorem onSync_comp (f : Sync → Sync) : (s.onSync f).comp = s.comp := rfl
@[simp] theorem onSync_mem (f : Sync → Sync) : (s.onSync f).mem = s.mem := rfl
@[simp] theorem onSync_d2d (f : Sync → Sync) : (s.onSync f).d2d = s.d2d := rfl
@[simp] theorem onSync_chd (f : Sync → Sync) : (s.onSync f).chd = s.chd := rfl
@[simp] theorem onSync_hst (f : Sync → Sync) : (s.onSync f).hst = s.hst := rfl
@[simp] theorem onSync_eth (f : Sync → Sync) : (s.onSync f).eth = s.eth := rfl
@[simp] theorem onSync_pwr (f : Sync → Sync) : (s.onSync f).pwr = s.pwr := rfl
@[simp] theorem onSync_pwrDyn (f : Sync → Sync) : (s.onSync f).pwrDyn = s.pwrDyn := rfl
@[simp] theorem onSync_pwrRegs (f : Sync → Sync) : (s.onSync f).pwrRegs = s.pwrRegs := rfl
@[simp] theorem onSync_alm (f : Sync → Sync) : (s.onSync f).alm = s.alm := rfl
@[simp] theorem onSync_out (f : Sync → Sync) : (s.onSync f).out = s.out := rfl
@[simp] theorem onSync_free (f : Sync → Sync) : (s.onSync f).free = s.free := rfl
@[simp] theorem onSync_pending (f : Sync → Sync) : (s.onSync f).pending = s.pending := rfl
@[simp] theorem onScales_boot (f : Scales → Scales) : (s.onScales f).boot = s.boot := rfl
@[simp] theorem onScales_flash (f : Scales → Scales) : (s.onScales f).flash = s.flash := rfl
@[simp] theorem onScales_cp (f : Scales → Scales) : (s.onScales f).cp = s.cp := rfl
@[simp] theorem onScales_tileMap (f : Scales → Scales) : (s.onScales f).tileMap = s.tileMap := rfl
@[simp] theorem onScales_tiles (f : Scales → Scales) : (s.onScales f).tiles = s.tiles := rfl
@[simp] theorem onScales_streams (f : Scales → Scales) : (s.onScales f).streams = s.streams := rfl
@[simp] theorem onScales_sync (f : Scales → Scales) : (s.onScales f).sync = s.sync := rfl
@[simp] theorem onScales_scales (f : Scales → Scales) : (s.onScales f).scales = f s.scales := rfl
@[simp] theorem onScales_job (f : Scales → Scales) : (s.onScales f).job = s.job := rfl
@[simp] theorem onScales_grp (f : Scales → Scales) : (s.onScales f).grp = s.grp := rfl
@[simp] theorem onScales_grpStats (f : Scales → Scales) : (s.onScales f).grpStats = s.grpStats := rfl
@[simp] theorem onScales_comp (f : Scales → Scales) : (s.onScales f).comp = s.comp := rfl
@[simp] theorem onScales_mem (f : Scales → Scales) : (s.onScales f).mem = s.mem := rfl
@[simp] theorem onScales_d2d (f : Scales → Scales) : (s.onScales f).d2d = s.d2d := rfl
@[simp] theorem onScales_chd (f : Scales → Scales) : (s.onScales f).chd = s.chd := rfl
@[simp] theorem onScales_hst (f : Scales → Scales) : (s.onScales f).hst = s.hst := rfl
@[simp] theorem onScales_eth (f : Scales → Scales) : (s.onScales f).eth = s.eth := rfl
@[simp] theorem onScales_pwr (f : Scales → Scales) : (s.onScales f).pwr = s.pwr := rfl
@[simp] theorem onScales_pwrDyn (f : Scales → Scales) : (s.onScales f).pwrDyn = s.pwrDyn := rfl
@[simp] theorem onScales_pwrRegs (f : Scales → Scales) : (s.onScales f).pwrRegs = s.pwrRegs := rfl
@[simp] theorem onScales_alm (f : Scales → Scales) : (s.onScales f).alm = s.alm := rfl
@[simp] theorem onScales_out (f : Scales → Scales) : (s.onScales f).out = s.out := rfl
@[simp] theorem onScales_free (f : Scales → Scales) : (s.onScales f).free = s.free := rfl
@[simp] theorem onScales_pending (f : Scales → Scales) : (s.onScales f).pending = s.pending := rfl
@[simp] theorem onJob_boot (f : Job → Job) : (s.onJob f).boot = s.boot := rfl
@[simp] theorem onJob_flash (f : Job → Job) : (s.onJob f).flash = s.flash := rfl
@[simp] theorem onJob_cp (f : Job → Job) : (s.onJob f).cp = s.cp := rfl
@[simp] theorem onJob_tileMap (f : Job → Job) : (s.onJob f).tileMap = s.tileMap := rfl
@[simp] theorem onJob_tiles (f : Job → Job) : (s.onJob f).tiles = s.tiles := rfl
@[simp] theorem onJob_streams (f : Job → Job) : (s.onJob f).streams = s.streams := rfl
@[simp] theorem onJob_sync (f : Job → Job) : (s.onJob f).sync = s.sync := rfl
@[simp] theorem onJob_scales (f : Job → Job) : (s.onJob f).scales = s.scales := rfl
@[simp] theorem onJob_job (f : Job → Job) : (s.onJob f).job = f s.job := rfl
@[simp] theorem onJob_grp (f : Job → Job) : (s.onJob f).grp = s.grp := rfl
@[simp] theorem onJob_grpStats (f : Job → Job) : (s.onJob f).grpStats = s.grpStats := rfl
@[simp] theorem onJob_comp (f : Job → Job) : (s.onJob f).comp = s.comp := rfl
@[simp] theorem onJob_mem (f : Job → Job) : (s.onJob f).mem = s.mem := rfl
@[simp] theorem onJob_d2d (f : Job → Job) : (s.onJob f).d2d = s.d2d := rfl
@[simp] theorem onJob_chd (f : Job → Job) : (s.onJob f).chd = s.chd := rfl
@[simp] theorem onJob_hst (f : Job → Job) : (s.onJob f).hst = s.hst := rfl
@[simp] theorem onJob_eth (f : Job → Job) : (s.onJob f).eth = s.eth := rfl
@[simp] theorem onJob_pwr (f : Job → Job) : (s.onJob f).pwr = s.pwr := rfl
@[simp] theorem onJob_pwrDyn (f : Job → Job) : (s.onJob f).pwrDyn = s.pwrDyn := rfl
@[simp] theorem onJob_pwrRegs (f : Job → Job) : (s.onJob f).pwrRegs = s.pwrRegs := rfl
@[simp] theorem onJob_alm (f : Job → Job) : (s.onJob f).alm = s.alm := rfl
@[simp] theorem onJob_out (f : Job → Job) : (s.onJob f).out = s.out := rfl
@[simp] theorem onJob_free (f : Job → Job) : (s.onJob f).free = s.free := rfl
@[simp] theorem onJob_pending (f : Job → Job) : (s.onJob f).pending = s.pending := rfl
@[simp] theorem onGrp_boot (f : Grp → Grp) : (s.onGrp f).boot = s.boot := rfl
@[simp] theorem onGrp_flash (f : Grp → Grp) : (s.onGrp f).flash = s.flash := rfl
@[simp] theorem onGrp_cp (f : Grp → Grp) : (s.onGrp f).cp = s.cp := rfl
@[simp] theorem onGrp_tileMap (f : Grp → Grp) : (s.onGrp f).tileMap = s.tileMap := rfl
@[simp] theorem onGrp_tiles (f : Grp → Grp) : (s.onGrp f).tiles = s.tiles := rfl
@[simp] theorem onGrp_streams (f : Grp → Grp) : (s.onGrp f).streams = s.streams := rfl
@[simp] theorem onGrp_sync (f : Grp → Grp) : (s.onGrp f).sync = s.sync := rfl
@[simp] theorem onGrp_scales (f : Grp → Grp) : (s.onGrp f).scales = s.scales := rfl
@[simp] theorem onGrp_job (f : Grp → Grp) : (s.onGrp f).job = s.job := rfl
@[simp] theorem onGrp_grp (f : Grp → Grp) : (s.onGrp f).grp = f s.grp := rfl
@[simp] theorem onGrp_grpStats (f : Grp → Grp) : (s.onGrp f).grpStats = s.grpStats := rfl
@[simp] theorem onGrp_comp (f : Grp → Grp) : (s.onGrp f).comp = s.comp := rfl
@[simp] theorem onGrp_mem (f : Grp → Grp) : (s.onGrp f).mem = s.mem := rfl
@[simp] theorem onGrp_d2d (f : Grp → Grp) : (s.onGrp f).d2d = s.d2d := rfl
@[simp] theorem onGrp_chd (f : Grp → Grp) : (s.onGrp f).chd = s.chd := rfl
@[simp] theorem onGrp_hst (f : Grp → Grp) : (s.onGrp f).hst = s.hst := rfl
@[simp] theorem onGrp_eth (f : Grp → Grp) : (s.onGrp f).eth = s.eth := rfl
@[simp] theorem onGrp_pwr (f : Grp → Grp) : (s.onGrp f).pwr = s.pwr := rfl
@[simp] theorem onGrp_pwrDyn (f : Grp → Grp) : (s.onGrp f).pwrDyn = s.pwrDyn := rfl
@[simp] theorem onGrp_pwrRegs (f : Grp → Grp) : (s.onGrp f).pwrRegs = s.pwrRegs := rfl
@[simp] theorem onGrp_alm (f : Grp → Grp) : (s.onGrp f).alm = s.alm := rfl
@[simp] theorem onGrp_out (f : Grp → Grp) : (s.onGrp f).out = s.out := rfl
@[simp] theorem onGrp_free (f : Grp → Grp) : (s.onGrp f).free = s.free := rfl
@[simp] theorem onGrp_pending (f : Grp → Grp) : (s.onGrp f).pending = s.pending := rfl
@[simp] theorem onGrpStats_boot (f : GrpStats → GrpStats) : (s.onGrpStats f).boot = s.boot := rfl
@[simp] theorem onGrpStats_flash (f : GrpStats → GrpStats) : (s.onGrpStats f).flash = s.flash := rfl
@[simp] theorem onGrpStats_cp (f : GrpStats → GrpStats) : (s.onGrpStats f).cp = s.cp := rfl
@[simp] theorem onGrpStats_tileMap (f : GrpStats → GrpStats) : (s.onGrpStats f).tileMap = s.tileMap := rfl
@[simp] theorem onGrpStats_tiles (f : GrpStats → GrpStats) : (s.onGrpStats f).tiles = s.tiles := rfl
@[simp] theorem onGrpStats_streams (f : GrpStats → GrpStats) : (s.onGrpStats f).streams = s.streams := rfl
@[simp] theorem onGrpStats_sync (f : GrpStats → GrpStats) : (s.onGrpStats f).sync = s.sync := rfl
@[simp] theorem onGrpStats_scales (f : GrpStats → GrpStats) : (s.onGrpStats f).scales = s.scales := rfl
@[simp] theorem onGrpStats_job (f : GrpStats → GrpStats) : (s.onGrpStats f).job = s.job := rfl
@[simp] theorem onGrpStats_grp (f : GrpStats → GrpStats) : (s.onGrpStats f).grp = s.grp := rfl
@[simp] theorem onGrpStats_grpStats (f : GrpStats → GrpStats) : (s.onGrpStats f).grpStats = f s.grpStats := rfl
@[simp] theorem onGrpStats_comp (f : GrpStats → GrpStats) : (s.onGrpStats f).comp = s.comp := rfl
@[simp] theorem onGrpStats_mem (f : GrpStats → GrpStats) : (s.onGrpStats f).mem = s.mem := rfl
@[simp] theorem onGrpStats_d2d (f : GrpStats → GrpStats) : (s.onGrpStats f).d2d = s.d2d := rfl
@[simp] theorem onGrpStats_chd (f : GrpStats → GrpStats) : (s.onGrpStats f).chd = s.chd := rfl
@[simp] theorem onGrpStats_hst (f : GrpStats → GrpStats) : (s.onGrpStats f).hst = s.hst := rfl
@[simp] theorem onGrpStats_eth (f : GrpStats → GrpStats) : (s.onGrpStats f).eth = s.eth := rfl
@[simp] theorem onGrpStats_pwr (f : GrpStats → GrpStats) : (s.onGrpStats f).pwr = s.pwr := rfl
@[simp] theorem onGrpStats_pwrDyn (f : GrpStats → GrpStats) : (s.onGrpStats f).pwrDyn = s.pwrDyn := rfl
@[simp] theorem onGrpStats_pwrRegs (f : GrpStats → GrpStats) : (s.onGrpStats f).pwrRegs = s.pwrRegs := rfl
@[simp] theorem onGrpStats_alm (f : GrpStats → GrpStats) : (s.onGrpStats f).alm = s.alm := rfl
@[simp] theorem onGrpStats_out (f : GrpStats → GrpStats) : (s.onGrpStats f).out = s.out := rfl
@[simp] theorem onGrpStats_free (f : GrpStats → GrpStats) : (s.onGrpStats f).free = s.free := rfl
@[simp] theorem onGrpStats_pending (f : GrpStats → GrpStats) : (s.onGrpStats f).pending = s.pending := rfl
@[simp] theorem onComp_boot (f : Comp → Comp) : (s.onComp f).boot = s.boot := rfl
@[simp] theorem onComp_flash (f : Comp → Comp) : (s.onComp f).flash = s.flash := rfl
@[simp] theorem onComp_cp (f : Comp → Comp) : (s.onComp f).cp = s.cp := rfl
@[simp] theorem onComp_tileMap (f : Comp → Comp) : (s.onComp f).tileMap = s.tileMap := rfl
@[simp] theorem onComp_tiles (f : Comp → Comp) : (s.onComp f).tiles = s.tiles := rfl
@[simp] theorem onComp_streams (f : Comp → Comp) : (s.onComp f).streams = s.streams := rfl
@[simp] theorem onComp_sync (f : Comp → Comp) : (s.onComp f).sync = s.sync := rfl
@[simp] theorem onComp_scales (f : Comp → Comp) : (s.onComp f).scales = s.scales := rfl
@[simp] theorem onComp_job (f : Comp → Comp) : (s.onComp f).job = s.job := rfl
@[simp] theorem onComp_grp (f : Comp → Comp) : (s.onComp f).grp = s.grp := rfl
@[simp] theorem onComp_grpStats (f : Comp → Comp) : (s.onComp f).grpStats = s.grpStats := rfl
@[simp] theorem onComp_comp (f : Comp → Comp) : (s.onComp f).comp = f s.comp := rfl
@[simp] theorem onComp_mem (f : Comp → Comp) : (s.onComp f).mem = s.mem := rfl
@[simp] theorem onComp_d2d (f : Comp → Comp) : (s.onComp f).d2d = s.d2d := rfl
@[simp] theorem onComp_chd (f : Comp → Comp) : (s.onComp f).chd = s.chd := rfl
@[simp] theorem onComp_hst (f : Comp → Comp) : (s.onComp f).hst = s.hst := rfl
@[simp] theorem onComp_eth (f : Comp → Comp) : (s.onComp f).eth = s.eth := rfl
@[simp] theorem onComp_pwr (f : Comp → Comp) : (s.onComp f).pwr = s.pwr := rfl
@[simp] theorem onComp_pwrDyn (f : Comp → Comp) : (s.onComp f).pwrDyn = s.pwrDyn := rfl
@[simp] theorem onComp_pwrRegs (f : Comp → Comp) : (s.onComp f).pwrRegs = s.pwrRegs := rfl
@[simp] theorem onComp_alm (f : Comp → Comp) : (s.onComp f).alm = s.alm := rfl
@[simp] theorem onComp_out (f : Comp → Comp) : (s.onComp f).out = s.out := rfl
@[simp] theorem onComp_free (f : Comp → Comp) : (s.onComp f).free = s.free := rfl
@[simp] theorem onComp_pending (f : Comp → Comp) : (s.onComp f).pending = s.pending := rfl
@[simp] theorem onMem_boot (f : Mem → Mem) : (s.onMem f).boot = s.boot := rfl
@[simp] theorem onMem_flash (f : Mem → Mem) : (s.onMem f).flash = s.flash := rfl
@[simp] theorem onMem_cp (f : Mem → Mem) : (s.onMem f).cp = s.cp := rfl
@[simp] theorem onMem_tileMap (f : Mem → Mem) : (s.onMem f).tileMap = s.tileMap := rfl
@[simp] theorem onMem_tiles (f : Mem → Mem) : (s.onMem f).tiles = s.tiles := rfl
@[simp] theorem onMem_streams (f : Mem → Mem) : (s.onMem f).streams = s.streams := rfl
@[simp] theorem onMem_sync (f : Mem → Mem) : (s.onMem f).sync = s.sync := rfl
@[simp] theorem onMem_scales (f : Mem → Mem) : (s.onMem f).scales = s.scales := rfl
@[simp] theorem onMem_job (f : Mem → Mem) : (s.onMem f).job = s.job := rfl
@[simp] theorem onMem_grp (f : Mem → Mem) : (s.onMem f).grp = s.grp := rfl
@[simp] theorem onMem_grpStats (f : Mem → Mem) : (s.onMem f).grpStats = s.grpStats := rfl
@[simp] theorem onMem_comp (f : Mem → Mem) : (s.onMem f).comp = s.comp := rfl
@[simp] theorem onMem_mem (f : Mem → Mem) : (s.onMem f).mem = f s.mem := rfl
@[simp] theorem onMem_d2d (f : Mem → Mem) : (s.onMem f).d2d = s.d2d := rfl
@[simp] theorem onMem_chd (f : Mem → Mem) : (s.onMem f).chd = s.chd := rfl
@[simp] theorem onMem_hst (f : Mem → Mem) : (s.onMem f).hst = s.hst := rfl
@[simp] theorem onMem_eth (f : Mem → Mem) : (s.onMem f).eth = s.eth := rfl
@[simp] theorem onMem_pwr (f : Mem → Mem) : (s.onMem f).pwr = s.pwr := rfl
@[simp] theorem onMem_pwrDyn (f : Mem → Mem) : (s.onMem f).pwrDyn = s.pwrDyn := rfl
@[simp] theorem onMem_pwrRegs (f : Mem → Mem) : (s.onMem f).pwrRegs = s.pwrRegs := rfl
@[simp] theorem onMem_alm (f : Mem → Mem) : (s.onMem f).alm = s.alm := rfl
@[simp] theorem onMem_out (f : Mem → Mem) : (s.onMem f).out = s.out := rfl
@[simp] theorem onMem_free (f : Mem → Mem) : (s.onMem f).free = s.free := rfl
@[simp] theorem onMem_pending (f : Mem → Mem) : (s.onMem f).pending = s.pending := rfl
@[simp] theorem onD2d_boot (f : D2d → D2d) : (s.onD2d f).boot = s.boot := rfl
@[simp] theorem onD2d_flash (f : D2d → D2d) : (s.onD2d f).flash = s.flash := rfl
@[simp] theorem onD2d_cp (f : D2d → D2d) : (s.onD2d f).cp = s.cp := rfl
@[simp] theorem onD2d_tileMap (f : D2d → D2d) : (s.onD2d f).tileMap = s.tileMap := rfl
@[simp] theorem onD2d_tiles (f : D2d → D2d) : (s.onD2d f).tiles = s.tiles := rfl
@[simp] theorem onD2d_streams (f : D2d → D2d) : (s.onD2d f).streams = s.streams := rfl
@[simp] theorem onD2d_sync (f : D2d → D2d) : (s.onD2d f).sync = s.sync := rfl
@[simp] theorem onD2d_scales (f : D2d → D2d) : (s.onD2d f).scales = s.scales := rfl
@[simp] theorem onD2d_job (f : D2d → D2d) : (s.onD2d f).job = s.job := rfl
@[simp] theorem onD2d_grp (f : D2d → D2d) : (s.onD2d f).grp = s.grp := rfl
@[simp] theorem onD2d_grpStats (f : D2d → D2d) : (s.onD2d f).grpStats = s.grpStats := rfl
@[simp] theorem onD2d_comp (f : D2d → D2d) : (s.onD2d f).comp = s.comp := rfl
@[simp] theorem onD2d_mem (f : D2d → D2d) : (s.onD2d f).mem = s.mem := rfl
@[simp] theorem onD2d_d2d (f : D2d → D2d) : (s.onD2d f).d2d = f s.d2d := rfl
@[simp] theorem onD2d_chd (f : D2d → D2d) : (s.onD2d f).chd = s.chd := rfl
@[simp] theorem onD2d_hst (f : D2d → D2d) : (s.onD2d f).hst = s.hst := rfl
@[simp] theorem onD2d_eth (f : D2d → D2d) : (s.onD2d f).eth = s.eth := rfl
@[simp] theorem onD2d_pwr (f : D2d → D2d) : (s.onD2d f).pwr = s.pwr := rfl
@[simp] theorem onD2d_pwrDyn (f : D2d → D2d) : (s.onD2d f).pwrDyn = s.pwrDyn := rfl
@[simp] theorem onD2d_pwrRegs (f : D2d → D2d) : (s.onD2d f).pwrRegs = s.pwrRegs := rfl
@[simp] theorem onD2d_alm (f : D2d → D2d) : (s.onD2d f).alm = s.alm := rfl
@[simp] theorem onD2d_out (f : D2d → D2d) : (s.onD2d f).out = s.out := rfl
@[simp] theorem onD2d_free (f : D2d → D2d) : (s.onD2d f).free = s.free := rfl
@[simp] theorem onD2d_pending (f : D2d → D2d) : (s.onD2d f).pending = s.pending := rfl
@[simp] theorem onChd_boot (f : Chd → Chd) : (s.onChd f).boot = s.boot := rfl
@[simp] theorem onChd_flash (f : Chd → Chd) : (s.onChd f).flash = s.flash := rfl
@[simp] theorem onChd_cp (f : Chd → Chd) : (s.onChd f).cp = s.cp := rfl
@[simp] theorem onChd_tileMap (f : Chd → Chd) : (s.onChd f).tileMap = s.tileMap := rfl
@[simp] theorem onChd_tiles (f : Chd → Chd) : (s.onChd f).tiles = s.tiles := rfl
@[simp] theorem onChd_streams (f : Chd → Chd) : (s.onChd f).streams = s.streams := rfl
@[simp] theorem onChd_sync (f : Chd → Chd) : (s.onChd f).sync = s.sync := rfl
@[simp] theorem onChd_scales (f : Chd → Chd) : (s.onChd f).scales = s.scales := rfl
@[simp] theorem onChd_job (f : Chd → Chd) : (s.onChd f).job = s.job := rfl
@[simp] theorem onChd_grp (f : Chd → Chd) : (s.onChd f).grp = s.grp := rfl
@[simp] theorem onChd_grpStats (f : Chd → Chd) : (s.onChd f).grpStats = s.grpStats := rfl
@[simp] theorem onChd_comp (f : Chd → Chd) : (s.onChd f).comp = s.comp := rfl
@[simp] theorem onChd_mem (f : Chd → Chd) : (s.onChd f).mem = s.mem := rfl
@[simp] theorem onChd_d2d (f : Chd → Chd) : (s.onChd f).d2d = s.d2d := rfl
@[simp] theorem onChd_chd (f : Chd → Chd) : (s.onChd f).chd = f s.chd := rfl
@[simp] theorem onChd_hst (f : Chd → Chd) : (s.onChd f).hst = s.hst := rfl
@[simp] theorem onChd_eth (f : Chd → Chd) : (s.onChd f).eth = s.eth := rfl
@[simp] theorem onChd_pwr (f : Chd → Chd) : (s.onChd f).pwr = s.pwr := rfl
@[simp] theorem onChd_pwrDyn (f : Chd → Chd) : (s.onChd f).pwrDyn = s.pwrDyn := rfl
@[simp] theorem onChd_pwrRegs (f : Chd → Chd) : (s.onChd f).pwrRegs = s.pwrRegs := rfl
@[simp] theorem onChd_alm (f : Chd → Chd) : (s.onChd f).alm = s.alm := rfl
@[simp] theorem onChd_out (f : Chd → Chd) : (s.onChd f).out = s.out := rfl
@[simp] theorem onChd_free (f : Chd → Chd) : (s.onChd f).free = s.free := rfl
@[simp] theorem onChd_pending (f : Chd → Chd) : (s.onChd f).pending = s.pending := rfl
@[simp] theorem onHst_boot (f : Hst → Hst) : (s.onHst f).boot = s.boot := rfl
@[simp] theorem onHst_flash (f : Hst → Hst) : (s.onHst f).flash = s.flash := rfl
@[simp] theorem onHst_cp (f : Hst → Hst) : (s.onHst f).cp = s.cp := rfl
@[simp] theorem onHst_tileMap (f : Hst → Hst) : (s.onHst f).tileMap = s.tileMap := rfl
@[simp] theorem onHst_tiles (f : Hst → Hst) : (s.onHst f).tiles = s.tiles := rfl
@[simp] theorem onHst_streams (f : Hst → Hst) : (s.onHst f).streams = s.streams := rfl
@[simp] theorem onHst_sync (f : Hst → Hst) : (s.onHst f).sync = s.sync := rfl
@[simp] theorem onHst_scales (f : Hst → Hst) : (s.onHst f).scales = s.scales := rfl
@[simp] theorem onHst_job (f : Hst → Hst) : (s.onHst f).job = s.job := rfl
@[simp] theorem onHst_grp (f : Hst → Hst) : (s.onHst f).grp = s.grp := rfl
@[simp] theorem onHst_grpStats (f : Hst → Hst) : (s.onHst f).grpStats = s.grpStats := rfl
@[simp] theorem onHst_comp (f : Hst → Hst) : (s.onHst f).comp = s.comp := rfl
@[simp] theorem onHst_mem (f : Hst → Hst) : (s.onHst f).mem = s.mem := rfl
@[simp] theorem onHst_d2d (f : Hst → Hst) : (s.onHst f).d2d = s.d2d := rfl
@[simp] theorem onHst_chd (f : Hst → Hst) : (s.onHst f).chd = s.chd := rfl
@[simp] theorem onHst_hst (f : Hst → Hst) : (s.onHst f).hst = f s.hst := rfl
@[simp] theorem onHst_eth (f : Hst → Hst) : (s.onHst f).eth = s.eth := rfl
@[simp] theorem onHst_pwr (f : Hst → Hst) : (s.onHst f).pwr = s.pwr := rfl
@[simp] theorem onHst_pwrDyn (f : Hst → Hst) : (s.onHst f).pwrDyn = s.pwrDyn := rfl
@[simp] theorem onHst_pwrRegs (f : Hst → Hst) : (s.onHst f).pwrRegs = s.pwrRegs := rfl
@[simp] theorem onHst_alm (f : Hst → Hst) : (s.onHst f).alm = s.alm := rfl
@[simp] theorem onHst_out (f : Hst → Hst) : (s.onHst f).out = s.out := rfl
@[simp] theorem onHst_free (f : Hst → Hst) : (s.onHst f).free = s.free := rfl
@[simp] theorem onHst_pending (f : Hst → Hst) : (s.onHst f).pending = s.pending := rfl
@[simp] theorem onEth_boot (f : Eth → Eth) : (s.onEth f).boot = s.boot := rfl
@[simp] theorem onEth_flash (f : Eth → Eth) : (s.onEth f).flash = s.flash := rfl
@[simp] theorem onEth_cp (f : Eth → Eth) : (s.onEth f).cp = s.cp := rfl
@[simp] theorem onEth_tileMap (f : Eth → Eth) : (s.onEth f).tileMap = s.tileMap := rfl
@[simp] theorem onEth_tiles (f : Eth → Eth) : (s.onEth f).tiles = s.tiles := rfl
@[simp] theorem onEth_streams (f : Eth → Eth) : (s.onEth f).streams = s.streams := rfl
@[simp] theorem onEth_sync (f : Eth → Eth) : (s.onEth f).sync = s.sync := rfl
@[simp] theorem onEth_scales (f : Eth → Eth) : (s.onEth f).scales = s.scales := rfl
@[simp] theorem onEth_job (f : Eth → Eth) : (s.onEth f).job = s.job := rfl
@[simp] theorem onEth_grp (f : Eth → Eth) : (s.onEth f).grp = s.grp := rfl
@[simp] theorem onEth_grpStats (f : Eth → Eth) : (s.onEth f).grpStats = s.grpStats := rfl
@[simp] theorem onEth_comp (f : Eth → Eth) : (s.onEth f).comp = s.comp := rfl
@[simp] theorem onEth_mem (f : Eth → Eth) : (s.onEth f).mem = s.mem := rfl
@[simp] theorem onEth_d2d (f : Eth → Eth) : (s.onEth f).d2d = s.d2d := rfl
@[simp] theorem onEth_chd (f : Eth → Eth) : (s.onEth f).chd = s.chd := rfl
@[simp] theorem onEth_hst (f : Eth → Eth) : (s.onEth f).hst = s.hst := rfl
@[simp] theorem onEth_eth (f : Eth → Eth) : (s.onEth f).eth = f s.eth := rfl
@[simp] theorem onEth_pwr (f : Eth → Eth) : (s.onEth f).pwr = s.pwr := rfl
@[simp] theorem onEth_pwrDyn (f : Eth → Eth) : (s.onEth f).pwrDyn = s.pwrDyn := rfl
@[simp] theorem onEth_pwrRegs (f : Eth → Eth) : (s.onEth f).pwrRegs = s.pwrRegs := rfl
@[simp] theorem onEth_alm (f : Eth → Eth) : (s.onEth f).alm = s.alm := rfl
@[simp] theorem onEth_out (f : Eth → Eth) : (s.onEth f).out = s.out := rfl
@[simp] theorem onEth_free (f : Eth → Eth) : (s.onEth f).free = s.free := rfl
@[simp] theorem onEth_pending (f : Eth → Eth) : (s.onEth f).pending = s.pending := rfl
@[simp] theorem onPwr_boot (f : Pwr → Pwr) : (s.onPwr f).boot = s.boot := rfl
@[simp] theorem onPwr_flash (f : Pwr → Pwr) : (s.onPwr f).flash = s.flash := rfl
@[simp] theorem onPwr_cp (f : Pwr → Pwr) : (s.onPwr f).cp = s.cp := rfl
@[simp] theorem onPwr_tileMap (f : Pwr → Pwr) : (s.onPwr f).tileMap = s.tileMap := rfl
@[simp] theorem onPwr_tiles (f : Pwr → Pwr) : (s.onPwr f).tiles = s.tiles := rfl
@[simp] theorem onPwr_streams (f : Pwr → Pwr) : (s.onPwr f).streams = s.streams := rfl
@[simp] theorem onPwr_sync (f : Pwr → Pwr) : (s.onPwr f).sync = s.sync := rfl
@[simp] theorem onPwr_scales (f : Pwr → Pwr) : (s.onPwr f).scales = s.scales := rfl
@[simp] theorem onPwr_job (f : Pwr → Pwr) : (s.onPwr f).job = s.job := rfl
@[simp] theorem onPwr_grp (f : Pwr → Pwr) : (s.onPwr f).grp = s.grp := rfl
@[simp] theorem onPwr_grpStats (f : Pwr → Pwr) : (s.onPwr f).grpStats = s.grpStats := rfl
@[simp] theorem onPwr_comp (f : Pwr → Pwr) : (s.onPwr f).comp = s.comp := rfl
@[simp] theorem onPwr_mem (f : Pwr → Pwr) : (s.onPwr f).mem = s.mem := rfl
@[simp] theorem onPwr_d2d (f : Pwr → Pwr) : (s.onPwr f).d2d = s.d2d := rfl
@[simp] theorem onPwr_chd (f : Pwr → Pwr) : (s.onPwr f).chd = s.chd := rfl
@[simp] theorem onPwr_hst (f : Pwr → Pwr) : (s.onPwr f).hst = s.hst := rfl
@[simp] theorem onPwr_eth (f : Pwr → Pwr) : (s.onPwr f).eth = s.eth := rfl
@[simp] theorem onPwr_pwr (f : Pwr → Pwr) : (s.onPwr f).pwr = f s.pwr := rfl
@[simp] theorem onPwr_pwrDyn (f : Pwr → Pwr) : (s.onPwr f).pwrDyn = s.pwrDyn := rfl
@[simp] theorem onPwr_pwrRegs (f : Pwr → Pwr) : (s.onPwr f).pwrRegs = s.pwrRegs := rfl
@[simp] theorem onPwr_alm (f : Pwr → Pwr) : (s.onPwr f).alm = s.alm := rfl
@[simp] theorem onPwr_out (f : Pwr → Pwr) : (s.onPwr f).out = s.out := rfl
@[simp] theorem onPwr_free (f : Pwr → Pwr) : (s.onPwr f).free = s.free := rfl
@[simp] theorem onPwr_pending (f : Pwr → Pwr) : (s.onPwr f).pending = s.pending := rfl
@[simp] theorem onPwrDyn_boot (f : PwrDyn → PwrDyn) : (s.onPwrDyn f).boot = s.boot := rfl
@[simp] theorem onPwrDyn_flash (f : PwrDyn → PwrDyn) : (s.onPwrDyn f).flash = s.flash := rfl
@[simp] theorem onPwrDyn_cp (f : PwrDyn → PwrDyn) : (s.onPwrDyn f).cp = s.cp := rfl
@[simp] theorem onPwrDyn_tileMap (f : PwrDyn → PwrDyn) : (s.onPwrDyn f).tileMap = s.tileMap := rfl
@[simp] theorem onPwrDyn_tiles (f : PwrDyn → PwrDyn) : (s.onPwrDyn f).tiles = s.tiles := rfl
@[simp] theorem onPwrDyn_streams (f : PwrDyn → PwrDyn) : (s.onPwrDyn f).streams = s.streams := rfl
@[simp] theorem onPwrDyn_sync (f : PwrDyn → PwrDyn) : (s.onPwrDyn f).sync = s.sync := rfl
@[simp] theorem onPwrDyn_scales (f : PwrDyn → PwrDyn) : (s.onPwrDyn f).scales = s.scales := rfl
@[simp] theorem onPwrDyn_job (f : PwrDyn → PwrDyn) : (s.onPwrDyn f).job = s.job := rfl
@[simp] theorem onPwrDyn_grp (f : PwrDyn → PwrDyn) : (s.onPwrDyn f).grp = s.grp := rfl
@[simp] theorem onPwrDyn_grpStats (f : PwrDyn → PwrDyn) : (s.onPwrDyn f).grpStats = s.grpStats := rfl
@[simp] theorem onPwrDyn_comp (f : PwrDyn → PwrDyn) : (s.onPwrDyn f).comp = s.comp := rfl
@[simp] theorem onPwrDyn_mem (f : PwrDyn → PwrDyn) : (s.onPwrDyn f).mem = s.mem := rfl
@[simp] theorem onPwrDyn_d2d (f : PwrDyn → PwrDyn) : (s.onPwrDyn f).d2d = s.d2d := rfl
@[simp] theorem onPwrDyn_chd (f : PwrDyn → PwrDyn) : (s.onPwrDyn f).chd = s.chd := rfl
@[simp] theorem onPwrDyn_hst (f : PwrDyn → PwrDyn) : (s.onPwrDyn f).hst = s.hst := rfl
@[simp] theorem onPwrDyn_eth (f : PwrDyn → PwrDyn) : (s.onPwrDyn f).eth = s.eth := rfl
@[simp] theorem onPwrDyn_pwr (f : PwrDyn → PwrDyn) : (s.onPwrDyn f).pwr = s.pwr := rfl
@[simp] theorem onPwrDyn_pwrDyn (f : PwrDyn → PwrDyn) : (s.onPwrDyn f).pwrDyn = f s.pwrDyn := rfl
@[simp] theorem onPwrDyn_pwrRegs (f : PwrDyn → PwrDyn) : (s.onPwrDyn f).pwrRegs = s.pwrRegs := rfl
@[simp] theorem onPwrDyn_alm (f : PwrDyn → PwrDyn) : (s.onPwrDyn f).alm = s.alm := rfl
@[simp] theorem onPwrDyn_out (f : PwrDyn → PwrDyn) : (s.onPwrDyn f).out = s.out := rfl
@[simp] theorem onPwrDyn_free (f : PwrDyn → PwrDyn) : (s.onPwrDyn f).free = s.free := rfl
@[simp] theorem onPwrDyn_pending (f : PwrDyn → PwrDyn) : (s.onPwrDyn f).pending = s.pending := rfl
@[simp] theorem onPwrRegs_boot (f : PwrRegs → PwrRegs) : (s.onPwrRegs f).boot = s.boot := rfl
@[simp] theorem onPwrRegs_flash (f : PwrRegs → PwrRegs) : (s.onPwrRegs f).flash = s.flash := rfl
@[simp] theorem onPwrRegs_cp (f : PwrRegs → PwrRegs) : (s.onPwrRegs f).cp = s.cp := rfl
@[simp] theorem onPwrRegs_tileMap (f : PwrRegs → PwrRegs) : (s.onPwrRegs f).tileMap = s.tileMap := rfl
@[simp] theorem onPwrRegs_tiles (f : PwrRegs → PwrRegs) : (s.onPwrRegs f).tiles = s.tiles := rfl
@[simp] theorem onPwrRegs_streams (f : PwrRegs → PwrRegs) : (s.onPwrRegs f).streams = s.streams := rfl
@[simp] theorem onPwrRegs_sync (f : PwrRegs → PwrRegs) : (s.onPwrRegs f).sync = s.sync := rfl
@[simp] theorem onPwrRegs_scales (f : PwrRegs → PwrRegs) : (s.onPwrRegs f).scales = s.scales := rfl
@[simp] theorem onPwrRegs_job (f : PwrRegs → PwrRegs) : (s.onPwrRegs f).job = s.job := rfl
@[simp] theorem onPwrRegs_grp (f : PwrRegs → PwrRegs) : (s.onPwrRegs f).grp = s.grp := rfl
@[simp] theorem onPwrRegs_grpStats (f : PwrRegs → PwrRegs) : (s.onPwrRegs f).grpStats = s.grpStats := rfl
@[simp] theorem onPwrRegs_comp (f : PwrRegs → PwrRegs) : (s.onPwrRegs f).comp = s.comp := rfl
@[simp] theorem onPwrRegs_mem (f : PwrRegs → PwrRegs) : (s.onPwrRegs f).mem = s.mem := rfl
@[simp] theorem onPwrRegs_d2d (f : PwrRegs → PwrRegs) : (s.onPwrRegs f).d2d = s.d2d := rfl
@[simp] theorem onPwrRegs_chd (f : PwrRegs → PwrRegs) : (s.onPwrRegs f).chd = s.chd := rfl
@[simp] theorem onPwrRegs_hst (f : PwrRegs → PwrRegs) : (s.onPwrRegs f).hst = s.hst := rfl
@[simp] theorem onPwrRegs_eth (f : PwrRegs → PwrRegs) : (s.onPwrRegs f).eth = s.eth := rfl
@[simp] theorem onPwrRegs_pwr (f : PwrRegs → PwrRegs) : (s.onPwrRegs f).pwr = s.pwr := rfl
@[simp] theorem onPwrRegs_pwrDyn (f : PwrRegs → PwrRegs) : (s.onPwrRegs f).pwrDyn = s.pwrDyn := rfl
@[simp] theorem onPwrRegs_pwrRegs (f : PwrRegs → PwrRegs) : (s.onPwrRegs f).pwrRegs = f s.pwrRegs := rfl
@[simp] theorem onPwrRegs_alm (f : PwrRegs → PwrRegs) : (s.onPwrRegs f).alm = s.alm := rfl
@[simp] theorem onPwrRegs_out (f : PwrRegs → PwrRegs) : (s.onPwrRegs f).out = s.out := rfl
@[simp] theorem onPwrRegs_free (f : PwrRegs → PwrRegs) : (s.onPwrRegs f).free = s.free := rfl
@[simp] theorem onPwrRegs_pending (f : PwrRegs → PwrRegs) : (s.onPwrRegs f).pending = s.pending := rfl
@[simp] theorem onAlm_boot (f : Alm → Alm) : (s.onAlm f).boot = s.boot := rfl
@[simp] theorem onAlm_flash (f : Alm → Alm) : (s.onAlm f).flash = s.flash := rfl
@[simp] theorem onAlm_cp (f : Alm → Alm) : (s.onAlm f).cp = s.cp := rfl
@[simp] theorem onAlm_tileMap (f : Alm → Alm) : (s.onAlm f).tileMap = s.tileMap := rfl
@[simp] theorem onAlm_tiles (f : Alm → Alm) : (s.onAlm f).tiles = s.tiles := rfl
@[simp] theorem onAlm_streams (f : Alm → Alm) : (s.onAlm f).streams = s.streams := rfl
@[simp] theorem onAlm_sync (f : Alm → Alm) : (s.onAlm f).sync = s.sync := rfl
@[simp] theorem onAlm_scales (f : Alm → Alm) : (s.onAlm f).scales = s.scales := rfl
@[simp] theorem onAlm_job (f : Alm → Alm) : (s.onAlm f).job = s.job := rfl
@[simp] theorem onAlm_grp (f : Alm → Alm) : (s.onAlm f).grp = s.grp := rfl
@[simp] theorem onAlm_grpStats (f : Alm → Alm) : (s.onAlm f).grpStats = s.grpStats := rfl
@[simp] theorem onAlm_comp (f : Alm → Alm) : (s.onAlm f).comp = s.comp := rfl
@[simp] theorem onAlm_mem (f : Alm → Alm) : (s.onAlm f).mem = s.mem := rfl
@[simp] theorem onAlm_d2d (f : Alm → Alm) : (s.onAlm f).d2d = s.d2d := rfl
@[simp] theorem onAlm_chd (f : Alm → Alm) : (s.onAlm f).chd = s.chd := rfl
@[simp] theorem onAlm_hst (f : Alm → Alm) : (s.onAlm f).hst = s.hst := rfl
@[simp] theorem onAlm_eth (f : Alm → Alm) : (s.onAlm f).eth = s.eth := rfl
@[simp] theorem onAlm_pwr (f : Alm → Alm) : (s.onAlm f).pwr = s.pwr := rfl
@[simp] theorem onAlm_pwrDyn (f : Alm → Alm) : (s.onAlm f).pwrDyn = s.pwrDyn := rfl
@[simp] theorem onAlm_pwrRegs (f : Alm → Alm) : (s.onAlm f).pwrRegs = s.pwrRegs := rfl
@[simp] theorem onAlm_alm (f : Alm → Alm) : (s.onAlm f).alm = f s.alm := rfl
@[simp] theorem onAlm_out (f : Alm → Alm) : (s.onAlm f).out = s.out := rfl
@[simp] theorem onAlm_free (f : Alm → Alm) : (s.onAlm f).free = s.free := rfl
@[simp] theorem onAlm_pending (f : Alm → Alm) : (s.onAlm f).pending = s.pending := rfl
@[simp] theorem emit_boot (o : Out) : (s.emit o).boot = s.boot := rfl
@[simp] theorem emit_flash (o : Out) : (s.emit o).flash = s.flash := rfl
@[simp] theorem emit_cp (o : Out) : (s.emit o).cp = s.cp := rfl
@[simp] theorem emit_tileMap (o : Out) : (s.emit o).tileMap = s.tileMap := rfl
@[simp] theorem emit_tiles (o : Out) : (s.emit o).tiles = s.tiles := rfl
@[simp] theorem emit_streams (o : Out) : (s.emit o).streams = s.streams := rfl
@[simp] theorem emit_sync (o : Out) : (s.emit o).sync = s.sync := rfl
@[simp] theorem emit_scales (o : Out) : (s.emit o).scales = s.scales := rfl
@[simp] theorem emit_job (o : Out) : (s.emit o).job = s.job := rfl
@[simp] theorem emit_grp (o : Out) : (s.emit o).grp = s.grp := rfl
@[simp] theorem emit_grpStats (o : Out) : (s.emit o).grpStats = s.grpStats := rfl
@[simp] theorem emit_comp (o : Out) : (s.emit o).comp = s.comp := rfl
@[simp] theorem emit_mem (o : Out) : (s.emit o).mem = s.mem := rfl
@[simp] theorem emit_d2d (o : Out) : (s.emit o).d2d = s.d2d := rfl
@[simp] theorem emit_chd (o : Out) : (s.emit o).chd = s.chd := rfl
@[simp] theorem emit_hst (o : Out) : (s.emit o).hst = s.hst := rfl
@[simp] theorem emit_eth (o : Out) : (s.emit o).eth = s.eth := rfl
@[simp] theorem emit_pwr (o : Out) : (s.emit o).pwr = s.pwr := rfl
@[simp] theorem emit_pwrDyn (o : Out) : (s.emit o).pwrDyn = s.pwrDyn := rfl
@[simp] theorem emit_pwrRegs (o : Out) : (s.emit o).pwrRegs = s.pwrRegs := rfl
@[simp] theorem emit_alm (o : Out) : (s.emit o).alm = s.alm := rfl
@[simp] theorem emit_out (o : Out) : (s.emit o).out = o :: s.out := rfl
@[simp] theorem emit_free (o : Out) : (s.emit o).free = s.free := rfl
@[simp] theorem emit_pending (o : Out) : (s.emit o).pending = s.pending := rfl
@[simp] theorem onTile_boot (p : Nat) (f : Tile → Tile) : (s.onTile p f).boot = s.boot := rfl
@[simp] theorem onTile_flash (p : Nat) (f : Tile → Tile) : (s.onTile p f).flash = s.flash := rfl
@[simp] theorem onTile_cp (p : Nat) (f : Tile → Tile) : (s.onTile p f).cp = s.cp := rfl
@[simp] theorem onTile_tileMap (p : Nat) (f : Tile → Tile) : (s.onTile p f).tileMap = s.tileMap := rfl
@[simp] theorem onTile_streams (p : Nat) (f : Tile → Tile) : (s.onTile p f).streams = s.streams := rfl
@[simp] theorem onTile_sync (p : Nat) (f : Tile → Tile) : (s.onTile p f).sync = s.sync := rfl
@[simp] theorem onTile_scales (p : Nat) (f : Tile → Tile) : (s.onTile p f).scales = s.scales := rfl
@[simp] theorem onTile_job (p : Nat) (f : Tile → Tile) : (s.onTile p f).job = s.job := rfl
@[simp] theorem onTile_grp (p : Nat) (f : Tile → Tile) : (s.onTile p f).grp = s.grp := rfl
@[simp] theorem onTile_grpStats (p : Nat) (f : Tile → Tile) : (s.onTile p f).grpStats = s.grpStats := rfl
@[simp] theorem onTile_comp (p : Nat) (f : Tile → Tile) : (s.onTile p f).comp = s.comp := rfl
@[simp] theorem onTile_mem (p : Nat) (f : Tile → Tile) : (s.onTile p f).mem = s.mem := rfl
@[simp] theorem onTile_d2d (p : Nat) (f : Tile → Tile) : (s.onTile p f).d2d = s.d2d := rfl
@[simp] theorem onTile_chd (p : Nat) (f : Tile → Tile) : (s.onTile p f).chd = s.chd := rfl
@[simp] theorem onTile_hst (p : Nat) (f : Tile → Tile) : (s.onTile p f).hst = s.hst := rfl
@[simp] theorem onTile_eth (p : Nat) (f : Tile → Tile) : (s.onTile p f).eth = s.eth := rfl
@[simp] theorem onTile_pwr (p : Nat) (f : Tile → Tile) : (s.onTile p f).pwr = s.pwr := rfl
@[simp] theorem onTile_pwrDyn (p : Nat) (f : Tile → Tile) : (s.onTile p f).pwrDyn = s.pwrDyn := rfl
@[simp] theorem onTile_pwrRegs (p : Nat) (f : Tile → Tile) : (s.onTile p f).pwrRegs = s.pwrRegs := rfl
@[simp] theorem onTile_alm (p : Nat) (f : Tile → Tile) : (s.onTile p f).alm = s.alm := rfl
@[simp] theorem onTile_out (p : Nat) (f : Tile → Tile) : (s.onTile p f).out = s.out := rfl
@[simp] theorem onTile_free (p : Nat) (f : Tile → Tile) : (s.onTile p f).free = s.free := rfl
@[simp] theorem onTile_pending (p : Nat) (f : Tile → Tile) : (s.onTile p f).pending = s.pending := rfl
@[simp] theorem setTmap_boot (e : Nat) (m : TileMapEntry) : (s.setTmap e m).boot = s.boot := rfl
@[simp] theorem setTmap_flash (e : Nat) (m : TileMapEntry) : (s.setTmap e m).flash = s.flash := rfl
@[simp] theorem setTmap_cp (e : Nat) (m : TileMapEntry) : (s.setTmap e m).cp = s.cp := rfl
@[simp] theorem setTmap_tiles (e : Nat) (m : TileMapEntry) : (s.setTmap e m).tiles = s.tiles := rfl
@[simp] theorem setTmap_streams (e : Nat) (m : TileMapEntry) : (s.setTmap e m).streams = s.streams := rfl
@[simp] theorem setTmap_sync (e : Nat) (m : TileMapEntry) : (s.setTmap e m).sync = s.sync := rfl
@[simp] theorem setTmap_scales (e : Nat) (m : TileMapEntry) : (s.setTmap e m).scales = s.scales := rfl
@[simp] theorem setTmap_job (e : Nat) (m : TileMapEntry) : (s.setTmap e m).job = s.job := rfl
@[simp] theorem setTmap_grp (e : Nat) (m : TileMapEntry) : (s.setTmap e m).grp = s.grp := rfl
@[simp] theorem setTmap_grpStats (e : Nat) (m : TileMapEntry) : (s.setTmap e m).grpStats = s.grpStats := rfl
@[simp] theorem setTmap_comp (e : Nat) (m : TileMapEntry) : (s.setTmap e m).comp = s.comp := rfl
@[simp] theorem setTmap_mem (e : Nat) (m : TileMapEntry) : (s.setTmap e m).mem = s.mem := rfl
@[simp] theorem setTmap_d2d (e : Nat) (m : TileMapEntry) : (s.setTmap e m).d2d = s.d2d := rfl
@[simp] theorem setTmap_chd (e : Nat) (m : TileMapEntry) : (s.setTmap e m).chd = s.chd := rfl
@[simp] theorem setTmap_hst (e : Nat) (m : TileMapEntry) : (s.setTmap e m).hst = s.hst := rfl
@[simp] theorem setTmap_eth (e : Nat) (m : TileMapEntry) : (s.setTmap e m).eth = s.eth := rfl
@[simp] theorem setTmap_pwr (e : Nat) (m : TileMapEntry) : (s.setTmap e m).pwr = s.pwr := rfl
@[simp] theorem setTmap_pwrDyn (e : Nat) (m : TileMapEntry) : (s.setTmap e m).pwrDyn = s.pwrDyn := rfl
@[simp] theorem setTmap_pwrRegs (e : Nat) (m : TileMapEntry) : (s.setTmap e m).pwrRegs = s.pwrRegs := rfl
@[simp] theorem setTmap_alm (e : Nat) (m : TileMapEntry) : (s.setTmap e m).alm = s.alm := rfl
@[simp] theorem setTmap_out (e : Nat) (m : TileMapEntry) : (s.setTmap e m).out = s.out := rfl
@[simp] theorem setTmap_free (e : Nat) (m : TileMapEntry) : (s.setTmap e m).free = s.free := rfl
@[simp] theorem setTmap_pending (e : Nat) (m : TileMapEntry) : (s.setTmap e m).pending = s.pending := rfl

@[simp] theorem tile_onTile_same (i : Nat) (f : Tile → Tile) : (s.onTile i f).tile i = f (s.tile i) := get_put_same _ _ _ _
theorem tile_onTile_other {i j : Nat} (f : Tile → Tile) (h : i ≠ j) : (s.onTile i f).tile j = s.tile j := get_put_other _ _ _ h

@[simp] theorem queue_onQueue_same (i : Nat) (f : Queue → Queue) : (s.onQueue i f).queue i = f (s.queue i) := get_put_same _ _ _ _
theorem queue_onQueue_other {i j : Nat} (f : Queue → Queue) (h : i ≠ j) : (s.onQueue i f).queue j = s.queue j := get_put_other _ _ _ h

@[simp] theorem port_onPort_same (i : Nat) (f : Port → Port) : (s.onPort i f).port i = f (s.port i) := get_put_same _ _ _ _
theorem port_onPort_other {i j : Nat} (f : Port → Port) (h : i ≠ j) : (s.onPort i f).port j = s.port j := get_put_other _ _ _ h

@[simp] theorem conn_onConn_same (i : Nat) (f : Conn → Conn) : (s.onConn i f).conn i = f (s.conn i) := get_put_same _ _ _ _
theorem conn_onConn_other {i j : Nat} (f : Conn → Conn) (h : i ≠ j) : (s.onConn i f).conn j = s.conn j := get_put_other _ _ _ h

@[simp] theorem ethPort_onEthPort_same (i : Nat) (f : EthPort → EthPort) : (s.onEthPort i f).ethPort i = f (s.ethPort i) := get_put_same _ _ _ _
theorem ethPort_onEthPort_other {i j : Nat} (f : EthPort → EthPort) (h : i ≠ j) : (s.onEthPort i f).ethPort j = s.ethPort j := get_put_other _ _ _ h

@[simp] theorem channel_onChannel_same (i : Nat) (f : Channel → Channel) : (s.onChannel i f).channel i = f (s.channel i) := get_put_same _ _ _ _
theorem channel_onChannel_other {i j : Nat} (f : Channel → Channel) (h : i ≠ j) : (s.onChannel i f).channel j = s.channel j := get_put_other _ _ _ h

@[simp] theorem lp_onLp_same (i : Nat) (f : LpChannel → LpChannel) : (s.onLp i f).lp i = f (s.lp i) := get_put_same _ _ _ _
theorem lp_onLp_other {i j : Nat} (f : LpChannel → LpChannel) (h : i ≠ j) : (s.onLp i f).lp j = s.lp j := get_put_other _ _ _ h

@[simp] theorem scaleRec_setScaleRec_same (i : Nat) (r : ScaleRec) : (s.setScaleRec i r).scaleRec i = r := get_put_same _ _ _ _
theorem scaleRec_setScaleRec_other {i j : Nat} (r : ScaleRec) (h : i ≠ j) : (s.setScaleRec i r).scaleRec j = s.scaleRec j :=
  get_put_other _ _ _ h
@[simp] theorem tmap_setTmap_same (e : Nat) (m : TileMapEntry) : (s.setTmap e m).tmap e = m := get_put_same _ _ _ _
theorem tmap_setTmap_other {i j : Nat} (m : TileMapEntry) (h : i ≠ j) : (s.setTmap i m).tmap j = s.tmap j := get_put_other _ _ _ h
@[simp] theorem injSlot_setSlot_same (k : Nat) (x : InjSlot) : (s.setSlot k x).injSlot k = x := get_put_same _ _ _ _
theorem injSlot_setSlot_other {i j : Nat} (x : InjSlot) (h : i ≠ j) : (s.setSlot i x).injSlot j = s.injSlot j :=
  get_put_other _ _ _ h

end Sys2Proof.Laws
end

