-- ==== Sys2Proof/Laws/Jvi.lean ====
section
/-! SUPPORT. The register file of a JVI context (R188, R189) and the step of a context: what each can do, once. -/

namespace Sys2Proof.Laws

open Sys2Proof.Machine

/-- A write of a context is read back by that context, where the context has a tile. -/
theorem ctx_setCtx {s : State} {c : Ctx} (x : JviCtx) (h : (s.ctx c).busy = true) : (s.setCtx c x).ctx c = x := by
  cases c with
  | core k => exact get_put_same _ _ _ _
  | engine e =>
    simp only [State.ctx, State.setCtx] at h ⊢
    cases hp : s.ptile e.val with
    | none => simp [hp, Reset.jvi] at h
    | some p =>
      have : (s.onTile p fun t => { t with vec := x }).ptile e.val = some p := hp
      rw [this]
      exact congrArg Tile.vec (tile_onTile_same s p _)

theorem length_lanesOf {α : Type} (d : α) (n : Nat) (l : List α) : (lanesOf d n l).length = n := by
  simp [lanesOf]; omega

theorem lanesOf_of_length {α : Type} (d : α) {n : Nat} {l : List α} (h : l.length = n) : lanesOf d n l = l := by
  simp [lanesOf, ← h]

theorem lanesOf_nil {α : Type} (d : α) (n : Nat) : lanesOf d n [] = List.replicate n d := by simp [lanesOf]

theorem length_getV (x : JviCtx) (n i : Nat) : (x.getV n i).length = n := length_lanesOf _ _ _
theorem length_getP (x : JviCtx) (n i : Nat) : (x.getP n i).length = n := by
  unfold JviCtx.getP; split <;> simp [length_lanesOf]
theorem length_act (x : JviCtx) (n : Nat) (w : Word64) : (x.act n w).length = n := by simp [JviCtx.act, length_getP]

theorem length_merge {α : Type} {n : Nat} {a : List Bool} {o l : List α} (ha : a.length = n) (ho : o.length = n) (hl : l.length = n) :
    (merge a o l).length = n := by simp [merge, ha, ho, hl]

theorem eq_replicate_of_all {α : Type} [BEq α] [LawfulBEq α] {d : α} {l : List α} (h : l.all (· == d) = true) :
    l = List.replicate l.length d := by
  rw [List.eq_replicate_iff]
  exact ⟨rfl, fun b hb => by simpa using (List.all_eq_true.1 h) b hb⟩

theorem getV_setV_same {x : JviCtx} {n i : Nat} {l : List Word32} (h : l.length = n) : (x.setV i l).getV n i = l := by
  unfold JviCtx.getV JviCtx.setV
  simp only [get_put_same]
  split
  · rename_i h0
    rw [lanesOf_nil, eq_replicate_of_all h0, h]
  · exact lanesOf_of_length _ h

theorem getV_setV_other (x : JviCtx) (n : Nat) {i j : Nat} (l : List Word32) (h : j ≠ i) : (x.setV i l).getV n j = x.getV n j := by
  simp [JviCtx.getV, JviCtx.setV, get_put_other _ _ _ (Ne.symm h)]

theorem getP_setP_same {x : JviCtx} {n i : Nat} {l : List Bool} (hi : i ≠ 0) (h : l.length = n) : (x.setP i l).getP n i = l := by
  unfold JviCtx.getP JviCtx.setP
  simp only [hi, if_false, get_put_same]
  split
  · rename_i h0
    have h1 : l.all (· == false) = true := by simpa using h0
    rw [lanesOf_nil, eq_replicate_of_all h1, h]
  · exact lanesOf_of_length _ h

theorem getP_setP_other (x : JviCtx) (n : Nat) {i j : Nat} (l : List Bool) (h : j ≠ i ∨ j = 0) : (x.setP i l).getP n j = x.getP n j := by
  unfold JviCtx.getP JviCtx.setP
  by_cases hj : j = 0
  · simp [hj]
  · have hne : i ≠ j := fun e => by rcases h with h | h; exact h e.symm; exact hj h
    by_cases hi : i = 0 <;> simp [hi, hj, get_put_other _ _ _ hne]

theorem getS_setS (x : JviCtx) (i j : Nat) (v : Word64) : (x.setS i v).getS j = if j = i ∧ i ≠ 0 then v else x.getS j := by
  unfold JviCtx.getS JviCtx.setS
  by_cases hi : i = 0
  · simp [hi]
  · by_cases hj : j = i
    · subst hj; simp [hi, get_put_same]
    · by_cases h0 : j = 0
      · simp [h0, hi, Ne.symm hi]
      · simp [h0, hi, hj, get_put_other _ _ _ (Ne.symm hj)]

/-- Lane i of a list merged under a predicate. -/
theorem getD_merge {α : Type} {n : Nat} {a : List Bool} {o l : List α} (ha : a.length = n) (ho : o.length = n) (hl : l.length = n)
    {i : Nat} (hi : i < n) (d : α) : (merge a o l).getD i d = if a.getD i false then l.getD i d else o.getD i d := by
  simp [merge, List.getD_eq_getElem?_getD, ha, ho, hl, hi]

theorem getD_act (x : JviCtx) {n : Nat} (w : Word64) {i : Nat} (hi : i < n) : (x.act n w).getD i false = x.acts n w i := by
  simp [JviCtx.act, JviCtx.acts, JviCtx.plane, List.getD_eq_getElem?_getD, length_getP, hi]

/-- The fetch of the word that a context stands at. -/
theorem jfetch_of_atOp {s : State} {c : Ctx} {w : Word64} {op : Nat} (h : s.AtOp c w op) : s.jfetch c op = some w := by
  obtain ⟨h1, h2, h3, h4⟩ := h
  simp [State.jfetch, h1, h2, h3, h4]

/-- One step of a register instruction, its result in hand. -/
theorem jvi_next {s : State} {c : Ctx} {w : Word64} {op : Nat} {f : JEnv → Word64 → JviCtx → JRes} {y : JviCtx} (h : s.AtOp c w op)
    (hf : f (s.jenv c) w (s.ctx c).tick = .next y false) : s.jvi c op f = .next (s.jput c y) := by
  simp [State.jvi, jfetch_of_atOp h, hf]

theorem jvi_bad {s : State} {c : Ctx} {w : Word64} {op : Nat} {f : JEnv → Word64 → JviCtx → JRes} (h : s.AtOp c w op)
    (hf : f (s.jenv c) w (s.ctx c).tick = .bad) : s.jvi c op f = .next (s.refuseVector c) := by
  simp [State.jvi, jfetch_of_atOp h, hf, State.refuseVector]

/-- A write of the active lanes of v[d] is what WroteV says. -/
theorem wroteV_putV {s : State} {c : Ctx} {w : Word64} {d : Nat} {new : List Word32} {val : Nat → Word32}
    (hb : (s.ctx c).busy = true) (hp : (s.ctx c).pc + 1 < (s.ctx c).code.length) (hl : new.length = s.vlen c)
    (hv : ∀ i, i < s.vlen c → new.getD i 0 = val i) :
    s.WroteV (s.jput c ((s.ctx c).tick.putV (s.vlen c) w d new)) c w d val := by
  have hj : s.jput c ((s.ctx c).tick.putV (s.vlen c) w d new) = s.setCtx c ((s.ctx c).tick.putV (s.vlen c) w d new) := if_pos hp
  rw [hj]
  refine ⟨?_, ?_, ?_⟩
  · rw [ctx_setCtx _ hb]; rfl
  · intro j hj; rw [ctx_setCtx _ hb]; exact getV_setV_other _ _ _ hj
  · intro i hi
    rw [ctx_setCtx _ hb]
    have h1 : (((s.ctx c).tick.putV (s.vlen c) w d new).getV (s.vlen c) d) =
        merge ((s.ctx c).act (s.vlen c) w) ((s.ctx c).getV (s.vlen c) d) new :=
      getV_setV_same (length_merge (length_act _ _ _) (length_getV _ _ _) hl)
    unfold JviCtx.lane
    rw [h1, getD_merge (length_act _ _ _) (length_getV _ _ _) hl hi, getD_act _ _ hi, hv i hi]

theorem wroteP_putP {s : State} {c : Ctx} {w : Word64} {new : List Bool} {val : Nat → Bool}
    (hb : (s.ctx c).busy = true) (hp : (s.ctx c).pc + 1 < (s.ctx c).code.length) (hl : new.length = s.vlen c)
    (hv : ∀ i, i < s.vlen c → new.getD i false = val i) :
    s.WroteP (s.jput c ((s.ctx c).tick.putP (s.vlen c) w new)) c w (jD w % 8) val := by
  have hq : ((s.ctx c).tick.putP (s.vlen c) w new).pc = (s.ctx c).pc + 1 ∧
      ((s.ctx c).tick.putP (s.vlen c) w new).code = (s.ctx c).code := by
    unfold JviCtx.putP JviCtx.setP; split <;> exact ⟨rfl, rfl⟩
  have hj : s.jput c ((s.ctx c).tick.putP (s.vlen c) w new) = s.setCtx c ((s.ctx c).tick.putP (s.vlen c) w new) := by
    unfold State.jput; rw [hq.1, hq.2]; exact if_pos hp
  rw [hj]
  refine ⟨?_, ?_, ?_⟩
  · rw [ctx_setCtx _ hb]; unfold JviCtx.putP JviCtx.setP; split <;> rfl
  · intro j hj; rw [ctx_setCtx _ hb]; exact getP_setP_other _ _ _ hj
  · intro i hi hd
    rw [ctx_setCtx _ hb]
    have h1 : (((s.ctx c).tick.putP (s.vlen c) w new).getP (s.vlen c) (jD w % 8)) =
        merge ((s.ctx c).act (s.vlen c) w) ((s.ctx c).getP (s.vlen c) (jD w % 8)) new :=
      getP_setP_same hd (length_merge (length_act _ _ _) (length_getP _ _ _) hl)
    unfold JviCtx.plane
    rw [h1, getD_merge (length_act _ _ _) (length_getP _ _ _) hl hi, getD_act _ _ hi, hv i hi]

theorem wroteS_setS {s : State} {c : Ctx} {d : Nat} {v : Word64} (hb : (s.ctx c).busy = true)
    (hp : (s.ctx c).pc + 1 < (s.ctx c).code.length) : s.WroteS (s.jput c ((s.ctx c).tick.setS d v)) c d v := by
  have hq : ((s.ctx c).tick.setS d v).pc = (s.ctx c).pc + 1 ∧ ((s.ctx c).tick.setS d v).code = (s.ctx c).code := by
    unfold JviCtx.setS; split <;> exact ⟨rfl, rfl⟩
  have hj : s.jput c ((s.ctx c).tick.setS d v) = s.setCtx c ((s.ctx c).tick.setS d v) := by
    unfold State.jput; rw [hq.1, hq.2]; exact if_pos hp
  rw [hj]
  refine ⟨?_, ?_⟩
  · rw [ctx_setCtx _ hb]; unfold JviCtx.setS; split <;> rfl
  · intro j; rw [ctx_setCtx _ hb, getS_setS]; rfl

end Sys2Proof.Laws
end

