-- ==== Sys2Proof/Laws/Mailbox.lean ====
section
/-! SUPPORT. Mailboxes and answers (R374 to R384): the frames of a message, and what a command that answers or runs on does. -/

namespace Sys2Proof.Laws

open Sys2Proof.Machine

theorem mbox_setMbox_same (s : State) (r : Route) (m : Mailbox) : (s.setMbox r m).mbox r = m := by
  cases r <;> simp [State.mbox, State.setMbox, State.onCp]

theorem mbox_setMbox_other (s : State) {r q : Route} (m : Mailbox) (h : q ≠ r) : (s.setMbox r m).mbox q = s.mbox q := by
  cases r with
  | pcie n => cases q with
    | pcie k =>
      have : n.val ≠ k.val := fun e => h (by rw [Fin.ext e])
      simp [State.mbox, State.setMbox, State.onCp, get_put_other _ _ _ this]
    | chord =>
      have : n.val ≠ 15 := by omega
      simp [State.mbox, State.setMbox, State.onCp, get_put_other _ _ _ this]
    | smb => rfl
  | chord => cases q with
    | pcie k =>
      have : 15 ≠ k.val := by omega
      simp [State.mbox, State.setMbox, State.onCp, get_put_other _ _ _ this]
    | chord => exact absurd rfl h
    | smb => rfl
  | smb => cases q with
    | smb => exact absurd rfl h
    | _ => rfl

/-- A flit handed to a direction touches the turns and the ports only. -/
theorem onPorts_frame (l : List Nat) (f : Port → Port) : ∀ s : State, l.foldl (fun (s : State) q => s.onPort q f) s =
    { s with chd := { s.chd with ports := (l.foldl (fun (s : State) q => s.onPort q f) s).chd.ports } } := by
  induction l with
  | nil => exact fun _ => rfl
  | cons q l ih => exact fun s => (ih (s.onPort q f)).trans rfl

theorem gatherControl_frame (s : State) (d p : Nat) : s.gatherControl d p =
    { s with chd := { s.chd with ports := (s.gatherControl d p).chd.ports } } := by
  unfold State.gatherControl
  dsimp only
  split
  · rfl
  · have h := onPorts_frame ((splitPorts s.split d).filter (· != p)) (fun o => { o with sendQ := o.sendQ.filter (!·.isControl) }) s
    generalize List.foldl (fun (s : State) q => s.onPort q fun o => { o with sendQ := o.sendQ.filter (!·.isControl) }) s _ = u at h ⊢
    rw [h]; rfl

theorem sendDir_frame (s : State) (d : Nat) (f : FlitOut) : s.sendDir d f =
    { s with chd := { s.chd with turn := (s.sendDir d f).chd.turn, ports := (s.sendDir d f).chd.ports } } := by
  unfold State.sendDir
  dsimp only
  generalize (if f.isControl = true then _ else _ : Option Nat) = pick
  cases pick with
  | none => rfl
  | some p =>
    dsimp only
    by_cases hc : f.isControl = true
    · simp only [hc, if_true]
      have h := gatherControl_frame s d p
      generalize s.gatherControl d p = u at h ⊢
      rw [h]; rfl
    · simp only [hc]
      rfl

theorem route_frame (s : State) (vc st o : Nat) (d : Nat × Nat) (l : Bool) (b : List Byte) : s.route vc st o d l b =
    { s with chd := { s.chd with turn := (s.route vc st o d l b).chd.turn, ports := (s.route vc st o d l b).chd.ports } } := by
  unfold State.route State.routeBy
  generalize s.dirTo none s.ownPos d.1 d.2 = o
  cases o with
  | none => rfl
  | some _ => exact sendDir_frame s _ _

theorem sendControl_frame (s : State) (x y : Nat) (b : List Byte) : s.sendControl x y b =
    { s with
      chd := { s.chd with
        turn := (s.sendControl x y b).chd.turn, ports := (s.sendControl x y b).chd.ports, ctlIn := (s.sendControl x y b).chd.ctlIn }
      out := (s.sendControl x y b).out } ∧ s.chd.ctlIn <+: (s.sendControl x y b).chd.ctlIn := by
  unfold State.sendControl
  dsimp only
  generalize hs : s.emit (.control x y (padTo 32 b)) = u
  have hu : u = { s with out := u.out } := by rw [← hs]; rfl
  split
  · exact ⟨by rw [hu]; rfl, by rw [hu]; exact List.prefix_append _ _⟩
  · have h := route_frame u 0 0 0 (x, y) false (codeword (padTo 32 b))
    generalize u.route 0 0 0 (x, y) false (codeword (padTo 32 b)) = w at h ⊢
    have h1 : w.out = u.out := by rw [h]
    exact ⟨by rw [h, hu], by rw [h, hu]⟩

theorem msix_cp (s : State) (v : Nat) : (s.msix v).cp = s.cp := by rw [(msix_frame s v).1]
theorem sendControl_cp (s : State) (x y : Nat) (b : List Byte) : (s.sendControl x y b).cp = s.cp := by rw [(sendControl_frame s x y b).1]

theorem onlyAnswers_setMbox (s : State) (r : Route) (m : Mailbox) : s.OnlyAnswers (s.setMbox r m) r :=
  ⟨by cases r <;> rfl, by cases r <;> exact sameG7_refl s, by cases r <;> exact List.prefix_refl _, fun _ h => mbox_setMbox_other s m h⟩

theorem onlyAnswers_msix (s : State) (v : Nat) (r : Route) : s.OnlyAnswers (s.msix v) r := by
  have h := (msix_frame s v).1
  have hc : (s.msix v).cp = s.cp := by rw [h]
  have hd : (s.msix v).chd = s.chd := by rw [h]
  refine ⟨?_, (msix_frame s v).2, by rw [hd], fun q _ => by cases q <;> simp only [State.mbox, hc]⟩
  rw [hc]
  rw [hd]; exact h

theorem onlyAnswers_sendControl (s : State) (x y : Nat) (b : List Byte) (r : Route) : s.OnlyAnswers (s.sendControl x y b) r := by
  obtain ⟨h, hp⟩ := sendControl_frame s x y b
  have hc : (s.sendControl x y b).cp = s.cp := by rw [h]
  refine ⟨?_, by rw [h]; exact sameG7_refl s, hp, fun q _ => by cases q <;> simp only [State.mbox, hc]⟩
  rw [hc]
  have hd : (s.sendControl x y b).hst = s.hst := by rw [h]
  have hm : (s.sendControl x y b).mem = s.mem := by rw [h]
  rw [hd, hm]; exact h

theorem onlyAnswers_trans {s u t : State} {r : Route} (h : s.OnlyAnswers u r) (k : u.OnlyAnswers t r) : s.OnlyAnswers t r := by
  have h1 := h.1
  refine ⟨?_, sameG7_trans h.2.1 k.2.1 (by rw [h1]) (by rw [h1]), h.2.2.1.trans k.2.2.1,
    fun q hq => (k.2.2.2 q hq).trans (h.2.2.2 q hq)⟩
  have ecp : ∀ a b, { u.cp with mbx := a, smb := b } = { s.cp with mbx := a, smb := b } := by rw [h1]; intros; rfl
  have eh : ∀ a b c d e f, { u.hst with pba := a, wait := b, wlog := c, wlogPos := d, handed := e, lastAddr := f } =
      { s.hst with pba := a, wait := b, wlog := c, wlogPos := d, handed := e, lastAddr := f } := by rw [h1]; intros; rfl
  have em : ∀ a b, { u.mem with g7 := a, badG7 := b } = { s.mem with g7 := a, badG7 := b } := by rw [h1]; intros; rfl
  have ec : ∀ a b c, { u.chd with turn := a, ports := b, ctlIn := c } = { s.chd with turn := a, ports := b, ctlIn := c } := by rw [h1]; intros; rfl
  have eu : ∀ c h m d o, { u with cp := c, hst := h, mem := m, chd := d, out := o } =
      { s with cp := c, hst := h, mem := m, chd := d, out := o } := by rw [h1]; intros; rfl
  rw [← ecp, ← eh, ← em, ← ec, ← eu]
  exact k.1

/-- Writing a response touches the mailbox and the messages only; the status and response kept for a repeat stay. -/
theorem writeResponse_answers (s : State) (r : Route) (st : Word16) (resp : List Byte) :
    s.OnlyAnswers (s.writeResponse r st resp) r ∧ ((s.writeResponse r st resp).mbox r).state = .done ∧
      ((s.writeResponse r st resp).mbox r).status = (s.mbox r).status ∧
      ((s.writeResponse r st resp).mbox r).response = (s.mbox r).response := by
  unfold State.writeResponse
  dsimp only
  generalize hm : ({ s.mbox r with bytes := _, state := .done, doneTick := _, checked := false, reached := none } : Mailbox) = m
  have hms : m.state = .done ∧ m.status = (s.mbox r).status ∧ m.response = (s.mbox r).response := by rw [← hm]; exact ⟨rfl, rfl, rfl⟩
  have h0 := onlyAnswers_setMbox s r m
  have m0 := mbox_setMbox_same s r m
  generalize s.setMbox r m = u at h0 m0
  have key : ∀ t : State, u.OnlyAnswers t r → t.cp = u.cp →
      s.OnlyAnswers t r ∧ (t.mbox r).state = .done ∧ (t.mbox r).status = (s.mbox r).status ∧ (t.mbox r).response = (s.mbox r).response := by
    intro t ht hc
    have : t.mbox r = m := by rw [← m0]; cases r <;> simp only [State.mbox, hc]
    rw [this]
    exact ⟨onlyAnswers_trans h0 ht, hms⟩
  cases r with
  | pcie n => exact key _ (onlyAnswers_msix _ _ _) (msix_cp _ _)
  | smb => exact key _ ⟨rfl, sameG7_refl _, List.prefix_refl _, fun _ _ => rfl⟩ rfl
  | chord =>
    exact key _ (onlyAnswers_trans (onlyAnswers_msix _ 271 _) (onlyAnswers_sendControl _ _ _ _ _))
      ((sendControl_cp _ _ _ _).trans (msix_cp _ _))

/-- A command's answer: the mailbox is DONE with the status and the response. -/
theorem respond_answers (s : State) (r : Route) (st : Word16) (resp : List Byte) :
    s.OnlyAnswers (s.respond r st resp) r ∧ ((s.respond r st resp).mbox r).state = .done ∧
      ((s.respond r st resp).mbox r).status = st ∧ ((s.respond r st resp).mbox r).response = resp := by
  have h := writeResponse_answers (s.setMbox r { s.mbox r with status := st, response := resp }) r st resp
  rw [mbox_setMbox_same] at h
  exact ⟨onlyAnswers_trans (onlyAnswers_setMbox _ _ _) h.1, h.2⟩

/-- A command that its effect answers. -/
theorem completes_of_done {s s' : State} {i : Instr} {r : Route} {op : Nat} {f : List Byte → State → CmdResult} {st : Word16}
    {resp : List Byte} (h : s.Allowed r op) (hi : exec i s = .next (s.command r op f)) (hf : f (s.payload r) s = .done st resp s') :
    s.Completes i r st resp s' := by
  have hr := respond_answers s' r st resp
  refine ⟨s'.respond r st resp, ?_, hr.2.1, hr.2.2.1, hr.2.2.2, hr.1⟩
  obtain ⟨⟨h1, h2, h3, h4⟩, h5⟩ := h
  rw [hi]
  unfold State.command
  dsimp only
  rw [if_pos ⟨h1, h2, h3, h4⟩, h5]
  dsimp only
  rw [show mPayload (s.mbox r).request = s.payload r from rfl, hf]

/-- A command that is denied. -/
theorem completes_of_denied {s : State} {i : Instr} {r : Route} {op : Nat} {f : List Byte → State → CmdResult} {st : Word16}
    (h : s.Waits r op) (hd : s.deny r op = some st) (hi : exec i s = .next (s.command r op f)) : s.Completes i r st [] s := by
  have hr := respond_answers s r st []
  refine ⟨s.respond r st [], ?_, hr.2.1, hr.2.2.1, hr.2.2.2, hr.1⟩
  obtain ⟨h1, h2, h3, h4⟩ := h
  rw [hi]
  unfold State.command
  dsimp only
  rw [if_pos ⟨h1, h2, h3, h4⟩, hd]

/-- A command that runs on. -/
theorem runsOn_of_running {s s' : State} {i : Instr} {r : Route} {op : Nat} {f : List Byte → State → CmdResult}
    (h : s.Allowed r op) (hi : exec i s = .next (s.command r op f)) (hf : f (s.payload r) s = .running s') : s.RunsOn i r s' := by
  obtain ⟨⟨h1, h2, h3, h4⟩, h5⟩ := h
  unfold State.RunsOn
  rw [hi]
  unfold State.command
  dsimp only
  rw [if_pos ⟨h1, h2, h3, h4⟩, h5]
  dsimp only
  rw [show mPayload (s.mbox r).request = s.payload r from rfl, hf]

/-- A command that runs on before its commit point. -/
theorem runsBefore_of_pending {s s' : State} {i : Instr} {r : Route} {op : Nat} {f : List Byte → State → CmdResult}
    (h : s.Allowed r op) (hi : exec i s = .next (s.command r op f)) (hf : f (s.payload r) s = .pending s') : s.RunsBefore i r s' := by
  obtain ⟨⟨h1, h2, h3, h4⟩, h5⟩ := h
  unfold State.RunsBefore
  rw [hi]
  unfold State.command
  dsimp only
  rw [if_pos ⟨h1, h2, h3, h4⟩, h5]
  dsimp only
  rw [show mPayload (s.mbox r).request = s.payload r from rfl, hf]

end Sys2Proof.Laws
end

