-- ==== Sys2Proof/WellFormed.lean ====
section
/-! DEFINITION. Well-formed commands: operands whose type is wider than what the spec lets the outside bring. Every command has
a meaning on every operand; these checks say which operands an outside party can present at all. -/

namespace Sys2Proof

/-- Why a command is ill-formed. -/
inductive IllFormed where
  /-- A link rate or width outside 16, 32 and 64 GT/s and x4, x8 and x16 (Table 11-1). -/
  | linkRate
  /-- The SRAM key array is 64 KiB (R367). -/
  | keyPattern
  /-- A self-test stage outside 1 to 9 (Table 03-7). -/
  | stage
  /-- A position outside the 8 × 8 positions and the nine columns, a port or direction that does not exist (R245, R248). -/
  | position
  /-- A control codeword is 32 bytes (Table 09-6). -/
  | controlBytes
  /-- A flit is 1,024 bytes (Table 09-2). -/
  | flitBytes
  /-- A management-bus transaction longer than the bus carries (R378). -/
  | busLength
  /-- A write of more than 512 bytes or a read of more than 4,096 (Table 11-1). -/
  | accessSize
  /-- A block of partials is 32 elements (R269). -/
  | blockBytes
  /-- A reading does not name each of the ten rails of Table 01-6. -/
  | rails
deriving DecidableEq, Repr

/-- The check of a control message. -/
def CtlMsg.check (m : CtlMsg) : Option IllFormed :=
  if m.bytes.length ≠ 32 then some .controlBytes else if 8 < m.srcX ∨ 7 < m.srcY then some .position else none

/-- The check of what a TRAIN flit carries. -/
def PeerId.check (p : PeerId) : Option IllFormed :=
  if 8 < p.x ∨ 7 < p.y ∨ 7 < p.port ∨ 3 < p.dir ∨ 3 < p.split then some .position else none

/-- The check of a link's rate and width. -/
def linkCheck (gen width : Nat) : Option IllFormed :=
  if gen ∈ [4, 5, 6] ∧ width ∈ [4, 8, 16] then none else some .linkRate

/-- The check of a flit's bytes. -/
def flitCheck (bytes : List Byte) : Option IllFormed := if bytes.length = 1024 then none else some .flitBytes

/-- The first check that a command fails, if any. -/
def Instr.check : Instr → Option IllFormed
  | .startupIdentity pattern => if pattern.length = 65536 then none else some .keyPattern
  | .startupRails _ gen width => linkCheck gen width
  | .pcieLinkUp gen width => linkCheck gen width
  | .startupTiles failing => if failing.all fun f => decide (1 ≤ f.2 ∧ f.2 ≤ 9) then none else some .stage
  | .tileHang _ stage => if stage ≤ 9 then none else some .stage
  | .selftestDone stage => if stage ≤ 9 then none else some .stage
  | .startupLinks peers _ _ => peers.findSome? fun p => p.2.check
  | .flitTrain _ peer => peer.check
  | .governorPeriod rd => if rd.railPower.length = 10 ∧ rd.railCurrent.length = 10 then none else some .rails
  | .smbBlockWrite _ _ data => if data.length ≤ 253 then none else some .busLength
  | .barMemoryWrite _ _ _ data _ => if 1 ≤ data.length ∧ data.length ≤ 512 then none else some .accessSize
  | .barMemoryRead _ _ _ len => if 1 ≤ len ∧ len ≤ 4096 then none else some .accessSize
  | .flitData _ bytes => flitCheck bytes
  | .flitIdle _ bytes => flitCheck bytes
  | .flitNak _ bytes => flitCheck bytes
  | .flitMarker _ bytes => flitCheck bytes
  | .reduceHop _ _ _ elems _ _ => if elems.length = 32 then none else some .blockBytes
  | .postMsg m => m.check
  | .postApplied m => m.check
  | .writeAck m => m.check
  | .gradAck m => m.check
  | .mirrorAck m => m.check
  | .heartbeat m => m.check
  | .apexClaim m => m.check
  | .apexState m => m.check
  | .vote m => m.check
  | .voteResult m => m.check
  | .digest m => m.check
  | .failSelf m => m.check
  | .recovery m => m.check
  | .weightRequest m => m.check
  | .mbCmdFirst m => m.check
  | .mbCmdNext m => m.check
  | .mbCmdDone m => m.check
  | _ => none

/-- A well-formed command. -/
def Instr.wf (c : Instr) : Prop := c.check = none

end Sys2Proof
end

