-- ==== Sys2Proof/Tests/Slice0.lean ====
section
/-! SUPPORT. The model's own tests: each ill-formed command is refused by its check, the hypotheses of the statements are met by a
state and operands, and single steps whose expected results are worked by hand from the spec. -/

namespace Sys2Proof.Tests

-- one theorem at a time: a thread for each of the tests exceeds the memory that a check has
set_option Elab.async false

open Sys2Proof.Machine

/-! ### Ill-formed commands -/

/-- Table 11-1: x3 is no width of the link. -/
theorem test_bad_link : Instr.check (.pcieLinkUp 5 3) = some .linkRate := by decide
/-- R367: the key array is 64 KiB. -/
theorem test_bad_key_pattern : Instr.check (.startupIdentity []) = some .keyPattern := by decide
/-- Table 03-7: the last stage of the self-test is 9. -/
theorem test_bad_stage : Instr.check (.selftestDone 10) = some .stage := by decide
/-- R245: rows 0 to 7. -/
theorem test_bad_position : Instr.check (.postMsg ⟨some 0, 0, 8, List.replicate 32 0⟩) = some .position := by decide
/-- Table 09-6: a control codeword is 32 bytes. -/
theorem test_bad_control : Instr.check (.heartbeat ⟨some 0, 0, 0, [0x13]⟩) = some .controlBytes := by decide
/-- Table 09-2: a flit is 1,024 bytes. -/
theorem test_bad_flit : Instr.check (.flitIdle 0 []) = some .flitBytes := by decide
/-- R378: a block write carries at most 255 bytes, two of them the offset. -/
theorem test_bad_bus : Instr.check (.smbBlockWrite true 0 (List.replicate 254 0)) = some .busLength := by decide +kernel
/-- Table 11-1: a read of at most 4,096 bytes. -/
theorem test_bad_access : Instr.check (.barMemoryRead 0 .bar2 0 4097) = some .accessSize := by decide
/-- R269: 32 elements a block. -/
theorem test_bad_block : Instr.check (.reduceHop 0 1 0 [] 0 false) = some .blockBytes := by decide
/-- Table 01-6: ten rails. -/
theorem test_bad_rails : Instr.check (.governorPeriod ⟨0, 0, [], [], 0, 0, [], 0⟩) = some .rails := by decide

/-! ### States -/

/-- A module that has started up, with its link in L0. -/
def up : State := { State.reset with
  boot := { Reset.boot with standby := true, main := true, mainOn := true, phase := 15, ready := true }
  cp := { Reset.cp with up := true }
  hst := { Reset.hst with link := .l0, bme := true }
  pwr := { Reset.pwr with regime := .summer } }
/-- A module with standby alone, its CP running. -/
def standby : State := { State.reset with boot := { Reset.boot with standby := true, phase := 3 }, cp := { Reset.cp with up := true } }
/-- A command waits in MB[0], past checks 1 to 4. -/
def withCmd (s : State) (op : Nat) (b : List Byte) : State := s.setMbox (.pcie 0) { Reset.mailbox with
  state := .posted, checked := true
  request := leBytes 2 op ++ leBytes 2 0 ++ leBytes 4 0 ++ leBytes 2 b.length ++ List.replicate 54 0 ++ b }
theorem payload_withCmd (s : State) (op : Nat) (b : List Byte) (h : b.length < 65536) : (withCmd s op b).payload (.pcie 0) = b := by
  rw [withCmd, State.payload, Laws.mbox_setMbox_same]
  have hl : mLen (leBytes 2 op ++ leBytes 2 0 ++ leBytes 4 0 ++ leBytes 2 b.length ++ List.replicate 54 0 ++ b) = b.length := by
    rw [mLen, le, show slice _ 8 2 = leBytes 2 b.length from rfl, Laws.leNat_leBytes]
    exact Nat.mod_eq_of_lt h
  simp only [mPayload, hl]
  exact Laws.slice_append_right (by simp [Laws.length_leBytes])
theorem allowed_withCmd (s : State) (op : Nat) (b : List Byte) (ho : op < 65536) (hr : s.cpReady = true)
    (hd : s.deny (.pcie 0) op = none) : (withCmd s op b).Allowed (.pcie 0) op := by
  refine ⟨⟨?_, ?_, ?_, hr⟩, hd⟩ <;> rw [withCmd, Laws.mbox_setMbox_same]
  rw [mOp, le, show slice _ 0 2 = leBytes 2 op from rfl, Laws.leNat_leBytes]
  exact Nat.mod_eq_of_lt ho
/-- The same in MB[15]. -/
def withMb15 (s : State) (op : Nat) (b : List Byte) : State := s.setMbox .chord { Reset.mailbox with
  state := .posted, checked := true
  request := leBytes 2 op ++ leBytes 2 0 ++ leBytes 4 0 ++ leBytes 2 b.length ++ List.replicate 54 0 ++ b }
/-- Core 0 stands at an instruction of an opcode, another follows. -/
def jw (op : Nat) : Word64 := BitVec.ofNat 64 (op * 2 ^ 56)
def inK (w : Word64) : State := up.setCtx (.core 0) { Reset.jvi with busy := true, code := [w, 0] }
/-- Engine 0 is served by tile 0. -/
def served : State := { up with tileMap := Sparse.put Reset.tileMapEntry [] 0 ⟨true, 0, 0⟩ }
/-- Queue q, enabled, holds one item with a descriptor of 64 bytes. -/
def itemOf (d b : List Byte) : Item := ⟨5, d, b, .waiting, false, none⟩
def queued (q : Nat) (d b : List Byte) : State :=
  (served.onQueue q fun u => { u with enable := true, state := .run, window := [itemOf d b] })
/-- A descriptor: KIND and the fields from byte 40 on. -/
def desc (kind : Nat) (tail : List Byte) : List Byte := padTo 64 (List.replicate 6 0 ++ leBytes 1 kind ++ List.replicate 33 0 ++ tail)
/-- A control message that came over port 0 from (1, 0). -/
def msg (b : List Byte) : CtlMsg := ⟨some 0, 1, 0, padTo 32 b⟩

/-! ### Hypotheses that a state meets

Each theorem gives, for the statement it is named after, a state and operands that meet the hypotheses together. -/

theorem witness_StepRunsFront : ({ State.reset with pending := [.hostReset, .standbyLoss] } : State).pending = .hostReset :: [.standbyLoss] := by
  decide
theorem witness_StepIdles : State.reset.pending = [] := by decide
theorem witness_JviFpLanes : ∀ o ∈ fpOps, (inK (jw o.op)).InKernel (.core 0) (jw o.op) o.op := by
  unfold State.InKernel State.AtOp; decide
theorem witness_JviFunctionLanes : ∀ o ∈ fnOps, (inK (jw o.op)).InKernel (.core 0) (jw o.op) o.op := by
  unfold State.InKernel State.AtOp; decide
theorem witness_JviFunctionLanes_deriv : (inK (jw 0x35)).InKernel (.core 0) (jw 0x35) 0x35 ∧ jImm (jw 0x35) % 16 < 9 := by
  unfold State.InKernel State.AtOp; decide
theorem witness_JviFunctionLanes_refused : (inK (jw 0x36 + 9)).InKernel (.core 0) (jw 0x36 + 9) 0x36 ∧ 9 ≤ jImm (jw 0x36 + 9) % 16 := by
  unfold State.InKernel State.AtOp; decide
theorem witness_JviIntegerLanes : ∀ o ∈ intOps, (inK (jw o.op)).InKernel (.core 0) (jw o.op) o.op := by
  unfold State.InKernel State.AtOp; decide
theorem witness_JviCrossLanes : ∀ o ∈ crossOps, (inK (jw o.op)).InKernel (.core 0) (jw o.op) o.op := by
  unfold State.InKernel State.AtOp; decide
theorem witness_JviCompares : ∀ o ∈ cmpOps, (inK (jw o.1)).InKernel (.core 0) (jw o.1) o.1 := by
  unfold State.InKernel State.AtOp; decide
theorem witness_JviScalars : ∀ o ∈ scalarOps, (inK (jw o.1)).InKernel (.core 0) (jw o.1) o.1 := by
  unfold State.InKernel State.AtOp; decide
theorem witness_JviScalars_srd : (inK (jw 0x1F + 4)).InKernel (.core 0) (jw 0x1F + 4) 0x1F ∧ jImm (jw 0x1F + 4) < 5 := by
  unfold State.InKernel State.AtOp; decide
theorem witness_JviScalars_refused : (inK (jw 0x1F + 5)).InKernel (.core 0) (jw 0x1F + 5) 0x1F ∧ 5 ≤ jImm (jw 0x1F + 5) := by
  unfold State.InKernel State.AtOp; decide
theorem witness_JviBranches : (∀ o ∈ branchOps, (inK (jw o.1)).AtOp (.core 0) (jw o.1) o.1) ∧ (inK (jw 4)).AtOp (.core 0) (jw 4) 4 ∧
    (inK (jw 5)).InKernel (.core 0) (jw 5) 5 := by
  unfold State.InKernel State.AtOp; decide
theorem witness_JviQuantisers : (inK (jw 0x50 + 0x637F)).InKernel (.core 0) (jw 0x50 + 0x637F) 0x50 ∧
    quantImmOk (jw 0x50 + 0x637F) = true ∧ bitsOf (jImm (jw 0x50 + 0x637F)) 16 1 = 0 := by
  unfold State.InKernel State.AtOp; decide
theorem witness_JviPacking : ∀ o ∈ [0x54, 0x55, 0x56], (inK (jw o)).InKernel (.core 0) (jw o) o := by
  unfold State.InKernel State.AtOp; decide
theorem witness_JviLoads : (inK (jw 0x7A)).InKernel (.core 0) (jw 0x7A) 0x7A ∧
    (((inK (jw 0x7A)).ctx (.core 0)).getS 0 + BitVec.ofInt 64 (signedOf 32 (jImm (jw 0x7A)))).toNat + 8 ≤ ctxRoom (.core 0) := by
  unfold State.InKernel State.AtOp; decide
theorem witness_JviStores : (inK (jw 0x7B)).InKernel (.core 0) (jw 0x7B) 0x7B ∧ (inK (jw 0x7B)).padClean (.core 0) := by
  refine ⟨?_, fun p h => ?_⟩
  · unfold State.InKernel State.AtOp; decide
  · simp [State.ctxTile] at h
theorem witness_JviSyncAndStreams : (∀ o ∈ [0x80, 0x81, 0x83, 0x90, 0x91], (inK (jw o)).InKernel (.core 0) (jw o) o) ∧
    ((inK (jw 0x83)).ctx (.core 0)).copies = [] := by
  unfold State.InKernel State.AtOp; decide
theorem witness_JviEnds : (inK (jw 0)).AtOp (.core 0) (jw 0) 0 ∧ (inK (jw 0xFF)).AtOp (.core 0) (jw 0xFF) 0xFF ∧ jviAssigned 0xFF = false := by
  unfold State.AtOp; decide
theorem witness_StavmonDenied : ∀ o ∈ [0x0203, 0x0402, 0x0601, 0x0C02], (withCmd standby o []).Waits (.pcie 0) o ∧
    (withCmd standby o []).deny (.pcie 0) o = some stDeniedRegime := by
  unfold State.Waits; decide
theorem witness_StavmonReports : ∀ o ∈ reportOps, (withCmd up o.1 []).Allowed (.pcie 0) o.1 := by
  unfold State.Allowed State.Waits; decide
theorem witness_StavmonReads : (withCmd up 0x0203 [0, 0, 125, 0]).Allowed (.pcie 0) 0x0203 ∧
    le ((withCmd up 0x0203 [0, 0, 125, 0]).payload (.pcie 0)) 2 2 = 125 := by
  unfold State.Allowed State.Waits; decide
/-- The command of opcode op with payload b waits in MB[0] and is allowed. -/
def Given (s : State) (op : Nat) (b : List Byte) : Prop :=
  (withCmd s op b).Allowed (.pcie 0) op ∧ (withCmd s op b).payload (.pcie 0) = b
def GivenMb15 (s : State) (op : Nat) (b : List Byte) : Prop := (withMb15 s op b).Allowed .chord op ∧ (withMb15 s op b).payload .chord = b
/-- A job runs in slot 0. -/
def inJob (s : State) : State := s.onJob fun j => { j with slots := [(0, ⟨0, 0, (0, 0, 0, 0)⟩)] }
/-- The shard is laid out: one block, the groups and the neighbour's groups at 4,096. -/
def laid : State := up.onMem fun m => { m with
  slow := Memory.write (Memory.write (Memory.write (Memory.write [] 0 [1]) 8 [1]) 0x80 [0, 16]) 0xD0 [0, 16] }

theorem witness_PowerCommands : Given up 0x0301 [150, 0] ∧ min (le [150, 0] 0 2) 1200 = 150 := by
  unfold Given State.Allowed State.Waits; decide
theorem witness_PowerCommands_floor : Given up 0x0301 [149, 0] ∧ min (le [149, 0] 0 2) 1200 < 150 := by
  unfold Given State.Allowed State.Waits; decide
theorem witness_PowerCommands_target : Given up 0x0303 (leBytes 2 680) ∧ le (leBytes 2 680) 0 2 = 680 ∧ 680 % 5 = 0 := by
  unfold Given State.Allowed State.Waits; decide
theorem witness_PowerCommands_park : Given up 0x0305 [15] ∧ le [15] 0 1 < 16 := by unfold Given State.Allowed State.Waits; decide
theorem witness_PowerCommands_share : Given up 0x0304 [7] ∧ le [7] 0 1 ≤ 7 ∧ le [7] 16 2 = 0 := by unfold Given State.Allowed State.Waits; decide
def envelope : List Byte := leBytes 2 1200 ++ List.replicate 14 0 ++ leBytes 2 150 ++ [1]
theorem witness_EnvelopeCommand : Given up 0x0302 envelope ∧ le envelope 0 2 ≤ 1200 ∧ le envelope 8 2 = 0 ∧ 150 ≤ le envelope 16 2 ∧
    le envelope 16 2 ≤ 1200 ∧ le envelope 18 1 ≤ 1 ∧ le envelope 4 4 = 0 := by
  unfold Given State.Allowed State.Waits; decide
/-- A ceiling that takes effect 1,000 ticks from now, with a ramp. -/
def laterEnvelope : List Byte := leBytes 4 149 ++ leBytes 4 1000 ++ leBytes 8 10000 ++ leBytes 2 1200
theorem witness_EnvelopeCommand_later : Given up 0x0302 laterEnvelope ∧ le laterEnvelope 0 2 = 149 ∧ le laterEnvelope 4 4 = 1000 ∧
    le laterEnvelope 8 2 = 10000 ∧ le laterEnvelope 16 2 = 1200 ∧ le laterEnvelope 18 1 = 0 := by
  unfold Given State.Allowed State.Waits; decide
theorem witness_MemoryCommands : Given up 0x0402 (leBytes 8 7 ++ leBytes 8 4096 ++ leBytes 8 4096) ∧ up.job.grants = [] ∧
    (∃ k, 12 ≤ k ∧ k < 64 ∧ 4096 = 2 ^ k) := ⟨by unfold Given State.Allowed State.Waits; decide, rfl, 12, by decide⟩
theorem witness_MemoryCommands_quota : Given up 0x0401 (leBytes 8 7 ++ leBytes 8 4096) ∧
    le (leBytes 8 7 ++ leBytes 8 4096) 8 8 = 4096 := by unfold Given State.Allowed State.Waits; decide
theorem witness_MemoryCommands_free : let s := up.onJob fun j => { j with grants := [⟨7, 4096, 4096⟩] }
    Given s 0x0403 (leBytes 8 7 ++ leBytes 8 4096) ∧ (withCmd s 0x0403 []).job.grants = [⟨7, 4096, 4096⟩] := by
  unfold Given State.Allowed State.Waits; decide
theorem witness_MemoryGrantsDisjoint : 0 < 4096 ∧ 0 < 4096 := by decide
theorem witness_JobCommands : Given up 0x0601 (List.replicate 24 0 ++ [0x70, 0x70]) ∧ le (List.replicate 24 0 ++ [0x70, 0x70]) 24 1 = 0x70 ∧
    up.job.slots = [] := by unfold Given State.Allowed State.Waits; decide
theorem witness_JobCommands_stop : Given (inJob up) 0x0602 [0] ∧ (∃ k ∈ (inJob up).job.slots, k.1 = 0) ∧ (inJob up).comp.commit = none := by
  unfold Given State.Allowed State.Waits; decide
theorem witness_JobCommands_abort : Given up 0x0603 [63] ∧ le [63] 0 1 ≤ 63 := by unfold Given State.Allowed State.Waits; decide
theorem witness_ModuleCommands : Given up 0x0104 [0] ∧ Given up 0x0103 [] ∧ up.boot.mainOn = true ∧ up.boot.waiter = none ∧
    up.boot.shutdown = none ∧ up.jobRuns = false := by unfold Given State.Allowed State.Waits; decide
theorem witness_ModuleCommands_on : let s := standby.onBoot fun b => { b with main := true }
    Given s 0x0102 [] ∧ s.boot.main = true ∧ s.boot.mainOn = false ∧ s.hot85 = false ∧ s.boot.waiter = none := by
  unfold Given State.Allowed State.Waits; decide
theorem witness_ConfigurationCommands_mcb : (withCmd up 0x0202 mcbDefault).Allowed (.pcie 0) 0x0202 ∧
    (withCmd up 0x0202 mcbDefault).payload (.pcie 0) = mcbDefault ∧ mcbDefault.length = 2048 ∧ mcbCrc mcbDefault = le mcbDefault 8 4 ∧
    up.flash.mcbWrite = none ∧ up.flash.mcbNext = none ∧ up.alm.flushing = false :=
  ⟨allowed_withCmd _ _ _ (by decide) rfl rfl, payload_withCmd _ _ _ (by rw [Laws.length_mcbDefault]; decide), Laws.length_mcbDefault,
    Laws.mcbDefault_check, rfl, rfl, rfl⟩
def scaleWrite : List Byte := leBytes 2 8191 ++ leBytes 6 1 ++ List.replicate 32 0
theorem witness_ConfigurationCommands_scale : Given up 0x0204 scaleWrite ∧ Given (inJob up) 0x0204 scaleWrite ∧ scaleRange scaleWrite = true ∧
    8 + 32 * le scaleWrite 2 2 ≤ scaleWrite.length ∧ up.jobRuns = false ∧ (inJob up).jobRuns = true := by
  unfold Given State.Allowed State.Waits; decide +kernel
def fdtPort : List Byte := [1] ++ List.replicate 33 0 ++ [63, 0] ++ leBytes 2 47207 ++ [8, 0] ++ leBytes 4 100000 ++ leBytes 4 500 ++ [1]
theorem witness_ConfigurationCommands_port : Given up 0x0205 fdtPort ∧ le fdtPort 0 1 ≤ 1 ∧ le fdtPort 34 1 = 63 ∧ le fdtPort 38 1 = 8 ∧
    le fdtPort 40 4 = 100000 ∧ le fdtPort 44 4 = 500 := by unfold Given State.Allowed State.Waits; decide +kernel
def fdtEnd : List Byte := [63] ++ List.replicate 15 0 ++ List.replicate 16 7 ++ [3, 0] ++ leBytes 2 1500
def portUp (s : State) : State := s.onEthPort 1 fun e => { e with state := 1 }
theorem witness_ConfigurationCommands_open : Given (portUp up) 0x0206 fdtEnd ∧ le fdtEnd 0 1 < 64 ∧ 1500 ≤ le fdtEnd 34 2 ∧ le fdtEnd 32 1 = 3 ∧
    ((portUp up).conn 63).state = .closed ∧ ((portUp up).ethPort 1).state = 1 ∧ bitOf 3 1 = true := by
  unfold Given State.Allowed State.Waits; decide +kernel
theorem witness_ConfigurationCommands_close : let s := up.onConn 63 fun c => { c with state := .open_ }
    Given s 0x0207 [63] ∧ le [63] 0 1 < 64 ∧ (s.conn 63).state = .open_ := by unfold Given State.Allowed State.Waits; decide
theorem witness_UpdateCommands_layout : Given up 0x0701 [1] ∧ up.jobRuns = false ∧
    (placeRegions 4096 (((regionNeeds (le [1] 0 8) (le [1] 8 8)).zipIdx).map fun z => max z.1.2 (le [1] (24 + 8 * z.2) 8))).2 ≤ slowSize ∧
    up.mem.badSlow = [] := by unfold Given State.Allowed State.Waits; decide +kernel
def groupWrite : List Byte := [255, 15] ++ List.replicate 70 0
theorem witness_UpdateCommands_group : Given laid 0x0702 groupWrite ∧ le groupWrite 0 2 = 4095 ∧ 56 ≤ groupWrite.length ∧ laid.laidOut = true ∧
    laid.jobRuns = false ∧ (withCmd laid 0x0702 groupWrite).namedByCommit 4095 = false := by
  unfold Given State.Allowed State.Waits; decide +kernel
theorem witness_UpdateCommands_schedule : Given laid 0x0704 [255] ∧ le [255] 0 2 < 256 ∧ laid.laidOut = true ∧
    scheduleOk (padTo 4160 (([255] : List Byte).drop 8)) = true := by unfold Given State.Allowed State.Waits; decide +kernel
/-- Program 63: an image of one END, with its CRC-32C. -/
def program : List Byte := leBytes 8 63 ++ leBytes 4 1 ++ leBytes 4 (crc32c (List.replicate 8 0)) ++ leBytes 8 1 ++ List.replicate 8 0
theorem witness_UpdateCommands_program : Given laid 0x0705 program ∧ imageCheck (program.drop 8) false = stOk ∧ le program 0 2 < 64 ∧
    programOk (imageCode (program.drop 8)) = true := by unfold Given State.Allowed State.Waits; decide +kernel
theorem bytes_beyond {m : List Host.Cell} {a n : Nat} (h : ∀ p ∈ m, p.1 < a) : Memory.bytes m a n = List.replicate n 0 := by
  have read : ∀ j, Memory.read m (a + j) = 0 := by
    intro j
    induction m with
    | nil => rfl
    | cons p r ih =>
      have hp := h p (List.mem_cons_self ..)
      rw [Memory.read, Sparse.get, if_neg (by omega)]
      exact ih fun q hq => h q (List.mem_cons_of_mem _ hq)
  simp [Memory.bytes, read]
theorem laid_nGroups : laid.nGroups = [] := by
  have hb : ∀ g, laid.npg g = pgOf (List.replicate 64 0) := by
    intro g
    rw [State.npg, State.region, show bitsOf (laid.dirAt dNpgt) 0 40 = 4096 by decide +kernel]
    exact congrArg pgOf (bytes_beyond fun p hp => Nat.lt_of_lt_of_le (show p.1 < 4096 from by revert p; decide +kernel) (Nat.le_add_right ..))
  simp only [State.nGroups, hb, show (pgOf (List.replicate 64 0)).valid = false by decide +kernel]
  simp
theorem witness_UpdateCommands_restore : Given laid 0x0707 [0] ∧ laid.laidOut = true ∧ laid.nscaleOf = le [0] 0 4 ∧
    ∀ x ∈ laid.nBlocks, laid.mirrorHolds (le [0] 0 4) x.2 = true :=
  ⟨by unfold Given State.Allowed State.Waits; decide, by decide +kernel, by decide +kernel, by simp [State.nBlocks, laid_nGroups]⟩
theorem witness_UpdateCommands_verdict : let s := laid.onComp fun c => { c with verdictDue := some 5 }
    Given s 0x0708 [5, 0, 0, 0, 0] ∧ Given s 0x0708 [5, 0, 0, 0, 2] ∧ s.comp.verdictDue = some (BitVec.ofNat 32 (le [5] 0 4)) := by
  unfold Given State.Allowed State.Waits; decide +kernel
theorem witness_UpdateCommands_repair : let s := laid.onConn 63 fun c => { c with state := .open_ }
    Given s 0x0709 [63] ∧ Given s 0x070A [63] ∧ (s.conn 63).state = .open_ ∧ s.laidOut = true ∧ s.comp.commit = none ∧ s.comp.export_ = none ∧
      s.exportOpen = false ∧ s.segments = 1 := by unfold Given State.Allowed State.Waits; decide +kernel
theorem witness_UpdateCommands : Given up 0x070B [] ∧ up.comp.export_ = none := by unfold Given State.Allowed State.Waits; decide
theorem witness_AlmanacCommands_config : let b : List Byte := [0, 0] ++ leBytes 6 64 ++ leBytes 2 2049
    Given up 0x0802 b ∧ le b 0 1 = 0 ∧ up.alm.bySeverity = false ∧ le b 2 2 = up.alm.keepUnits ∧ bitOf (le b 4 1) 0 = false := by
  unfold Given State.Allowed State.Waits; decide
theorem witness_AlmanacCommands_retain : Given up 0x0802 [1, 0, 64, 0, 1] ∧ le [1, 0, 64, 0, 1] 0 1 = 1 ∧ bitOf (le [1, 0, 64, 0, 1] 4 1) 0 = true ∧
    up.jobRuns = false ∧ up.flash.mcbWrite = none ∧ up.flash.mcbNext = none := by unfold Given State.Allowed State.Waits; decide
theorem witness_AlmanacCommands : Given up 0x0803 [] ∧ up.alm.ring = [] := by unfold Given State.Allowed State.Waits; decide
theorem witness_AlmanacCommands_flush : let s := up.report 0x0E03 .info 0 0 []
    Given s 0x0803 [] ∧ (∃ x ∈ s.alm.ring, x.flushed = false) := by unfold Given State.Allowed State.Waits; decide +kernel
/-- Detector 0x0305 on tile 67, stage 9, once. -/
def inject : List Byte := leBytes 2 0x0305 ++ [0, 2, 67, 0, 9, 0] ++ leBytes 4 1
theorem witness_AlmanacCommands_inject : Given up 0x0A01 inject ∧
    ((detectorTakes (le inject 0 2)).map fun ok => ok (le inject 3 1) (le inject 4 2) (le inject 6 1)) = some true ∧ le inject 2 1 = 0 ∧
    (List.range 16).find? (fun k => !(up.injSlot k).armed) = some 0 := by unfold Given State.Allowed State.Waits; decide +kernel
theorem witness_AlmanacCommands_selftest : Given up 0x0A02 [0, 67] ∧ le [0, 67] 1 1 ≤ 67 ∧ up.testable 67 = true ∧ up.cp.selftest = none ∧
    Given up 0x0A03 [255, 255] := by unfold Given State.Allowed State.Waits; decide
theorem witness_SecurityCommands : let s := up.onFlash fun f => { f with seed := some [1] }
    Given s 0x0902 [7] ∧ s.flash.seed = some [1] ∧ s.flash.lastAttest = none ∧ s.flash.lmsNext < 2 ^ 25 := by
  unfold Given State.Allowed State.Waits; decide
theorem witness_SecurityCommands_write : Given up 0x0903 [1, 0, 0, 0, 0, 0, 0, 0, 9] ∧
    le [1, 0, 0, 0, 0, 0, 0, 0, 9] 0 8 + (([1, 0, 0, 0, 0, 0, 0, 0, 9] : List Byte).drop 8).length ≤ 0x8000000 ∧ Given up 0x0904 [] := by
  unfold Given State.Allowed State.Waits; decide
theorem witness_GroupCommands : Given up 0x0B01 [] ∧ up.jobRuns = false ∧ Given up 0x0B02 [2, 64] := by
  unfold Given State.Allowed State.Waits; decide
theorem witness_GroupCommands_substitute : GivenMb15 (inJob up) 0x0B05 [] ∧ up.grp.epoch.toNat ≤ le [] 0 2 ∧ up.grp.newPos = none ∧
    (inJob up).jobRuns = true := by unfold GivenMb15 State.Allowed State.Waits; decide
theorem witness_GroupCommands_recover : GivenMb15 up 0x0B06 [0, 0, 5] ∧ up.pwr.regime = .summer ∧ le [0, 0, 5] 2 1 ≤ 5 := by
  unfold GivenMb15 State.Allowed State.Waits; decide
theorem witness_GroupCommands_ready : let s := up.onGrp fun g => { g with substitute := true }
    Given s 0x0B07 [] ∧ s.grp.substitute = true := by unfold Given State.Allowed State.Waits; decide
/-- An Apex whose row 7 has its spare in the place of column 3. -/
def substitutedRow : State := ((inJob up).onGrp fun g => { g with role := .apex }).onChd fun c => { c with pos := [(7, 0x76548210)] }
theorem witness_GroupCommands_return : Given substitutedRow 0x0B08 [3, 7] ∧ substitutedRow.isApex = true ∧ substitutedRow.jobRuns = true ∧
    substitutedRow.grp.returning = none ∧ substitutedRow.grp.newPos = none ∧ substitutedRow.grp.phase = 5 ∧
    (List.range 8).find? (fun x => substitutedRow.col x 7 == 8) = some 3 := by unfold Given State.Allowed State.Waits; decide
theorem witness_HostCommands : Given up 0x0C01 [] ∧ up.cp.lastCorrelate = none ∧ Given up 0x0C02 [] ∧
    (∀ q, q < 76 → ((withCmd up 0x0C02 []).queue q).state ≠ .stale) := by unfold Given State.Allowed State.Waits; decide
def ranges : List Byte := leBytes 8 1 ++ leBytes 8 4096 ++ leBytes 8 8192
theorem witness_HostCommands_register : Given (inJob up) 0x0C03 ranges ∧ le ranges 0 2 = 1 ∧ 8 + 16 * 1 ≤ ranges.length ∧
    bitOf (le ranges 2 1) 0 = false ∧ (inJob up).hst.ranges = [] := by unfold Given State.Allowed State.Waits; decide
theorem witness_MailboxDoorbell : up.Quiet ∧ up.linkUp = true ∧ (up.mbox (.pcie 14)).state = .idle := by unfold State.Quiet; decide
theorem witness_MailboxChecks : mLen (List.replicate 64 0) ≤ 4032 ∧ bitOf (mFlags (List.replicate 64 0)) 0 = false := by decide
theorem witness_ManagementBus : standby.Quiet ∧ standby.boot.standby = true ∧ standby.cp.smb.state = .idle := by unfold State.Quiet; decide
theorem witness_ChordMailbox : up.boot.mainOn = true ∧ le (msg [0x20]).bytes 0 1 = 0x20 ∧ le (msg [0x22]).bytes 0 1 = 0x22 := by decide
theorem witness_Supplies : 13800 < 13801 ∧ 11400 ≤ 12600 ∧ State.reset.boot.standby = false ∧ State.reset.boot.main = false := by decide
theorem witness_PowerLoss : up.boot.main = true ∧ up.boot.standby = true ∧ up.boot.shutdown = none := by decide
theorem witness_StartupStandby : ({ standby with cp := Reset.cp, boot := { standby.boot with phase := 0 } } : State).boot.phase = 0 ∧
    standby.Quiet ∧ standby.boot.main = false ∧ standby.boot.resume = none := by unfold State.Quiet; decide
/-- The states before phases 4, 5 and 8. -/
def atPhase (k : Nat) : State := { up with boot := { up.boot with phase := k, mainOn := decide (4 < k), ready := false }, pwr := { up.pwr with regime := .none_ } }
theorem witness_StartupMain : ∀ k ∈ [4, 5, 6, 7, 8], (atPhase k).Quiet ∧ (atPhase k).boot.springHeld = false ∧ (atPhase k).boot.phase = k ∧
    (atPhase k).boot.offUntil = none ∧ (atPhase k).comp.commit = none := by unfold State.Quiet; decide
theorem witness_McbWritten : (up.onFlash fun f => { f with mcbWrite := some ⟨[], none, 0⟩ }).flash.mcbWrite = some ⟨[], none, 0⟩ := by decide
theorem witness_ModuleTime : standby.boot.standby = true ∧ standby.now + 2 ^ 48 < 2 ^ 64 := by decide
theorem witness_ControlProcessor : up.Quiet ∧ up.cp.up = true ∧ up.cp.restarting = false ∧ up.cp.halted = false := by unfold State.Quiet; decide
theorem witness_CodewordCorrects : ([1, 2, 3, 4] ++ List.replicate 28 (0 : Byte)).length = 32 := by decide
theorem witness_CounterOperations : up.Quiet ∧ up.linkUp = true ∧ up.jobRuns = false := by unfold State.Quiet; decide
theorem witness_Watches : up.Quiet ∧ up.linkUp = true ∧ fld 0x8000000000000000 63 1 = 1 ∧ fld 0x8000000000000000 0 32 ≤ up.sc 0 := by
  unfold State.Quiet; decide
theorem witness_LmsKeysNeverReused : State.reset.flash.lmsNext ≤ State.reset.flash.lmsClaimed := by decide
theorem witness_GovernorAndCalibration : up.Quiet ∧ up.boot.mainOn = true ∧ up.pwr.regime ≠ .spring ∧ up.pwr.rampUp = 0 ∧ up.pwr.parkedLimit = 0 := by
  unfold State.Quiet; decide
theorem witness_PowerEvents : up.Quiet ∧ up.boot.mainOn = true ∧ up.boot.shutdown = none ∧ Sparse.get 0 up.pwrDyn.droop 3 = 0 := by
  unfold State.Quiet; decide
theorem witness_WorkItems : ∀ k ∈ [(0, Kind.nop), (4, .wait), (5, .post), (6, .fence), (7, .solstice), (8, .split)],
    (queued 0 (desc k.1 []) []).Takes 0 (itemOf (desc k.1 []) []) k.2 := by
  unfold State.Takes; decide
theorem witness_WorkItems_copies : ∀ k ∈ [(3, Kind.dma), (9, .offload), (10, .prefetch)],
    (queued 64 (desc k.1 []) []).Takes 64 (itemOf (desc k.1 []) []) k.2 := by
  unfold State.Takes; decide
theorem witness_KernelsAndCommits : (queued 0 (desc 2 []) []).Takes 0 (itemOf (desc 2 []) []) .vector ∧
    (queued 72 (desc 11 []) []).Takes 72 (itemOf (desc 11 []) []) .commit := by
  unfold State.Takes; decide
theorem witness_QueueControl : up.Quiet ∧ up.linkUp = true ∧ (up.queue 75).enable = false ∧ (up.queue 75).base.toNat % 4096 = 0 ∧
    (locRange (up.queue 75).base.toNat (80 * 2 ^ 6) Loc.isG7OrHost).isSome = true := by unfold State.Quiet; decide
theorem witness_EngineWork : served.Quiet ∧ served.ptile 0 = some 0 ∧ (served.tile 0).regs.state = .idle := by unfold State.Quiet; decide
theorem witness_MemoryAndLink : up.Quiet ∧ up.boot.mainOn = true ∧ fld up.mem.ctrl 1 1 = 1 ∧ up.mem.scrubG7 + 1 < g7Granules ∧
    (up.lp 63).dead = false ∧ d2dRuns .gradMirror true = true := by unfold State.Quiet; decide
theorem witness_ChordLinks : (up.onPort 7 fun o => { o with state := .training }).Quiet ∧
    ((up.onPort 7 fun o => { o with state := .training }).port 7).state = .training := by unfold State.Quiet; decide
theorem witness_Streams : (up.onGrp fun g => { g with spanStart := some 0 }).Quiet ∧
    ((up.onChd fun c => { c with deadline := 1 }).onGrp fun g => { g with spanStart := some 0 }).chd.deadline ≠ 0 := by unfold State.Quiet; decide
theorem witness_GroupEvents : ∀ k ∈ [0x11, 0x12, 0x13, 0x14, 0x15, 0x16, 0x17, 0x19], up.Fresh (msg [BitVec.ofNat 8 k]) 0 k := by
  unfold State.Fresh; decide
theorem witness_HostAccesses : up.Quiet ∧ up.linkUp = true ∧ bar0Ok 0x300008 8 = true ∧ bar0Ok 2 4 = false ∧
    up.barPlace .bar2 g7Size 4 = none := by unfold State.Quiet; decide
theorem witness_HostEvents : up.Quiet ∧ up.linkUp = true ∧ up.hostOpen = true ∧ up.boot.mainOn = true := by unfold State.Quiet; decide
theorem witness_EthernetAndFdt : ((up.onEthPort 1 fun e => { e with state := 1 }).ethPort 1).state = 1 ∧ up.Quiet := by unfold State.Quiet; decide
theorem witness_AlmanacRecords : up.Quiet ∧ up.linkUp = true ∧ up.alm.ring.length < 2048 ∧ up.alm.lostRing = 0 := by unfold State.Quiet; decide

theorem witness_ChordLinks_send : let s := up.onPort 7 fun o => { o with state := .up, credits := [1, 0, 0, 0, 0], sendQ := [⟨0, 0, 0, 0, 0, 0, 0, false, 0, []⟩] }
    s.Quiet ∧ (s.port 7).state = .up ∧ (s.port 7).sinceMarker < 99 ∧ (s.port 7).resend = [] ∧ (s.port 7).replay.length < 512 ∧
      0 < (s.port 7).credits.getD 0 0 := by unfold State.Quiet; decide +kernel
/-- A packet for local id 7 over a connection in slot 63, with its CRC-32C. -/
def packet (type : Nat) : FdtPacket := ⟨0, 5, false, 44, fdtPacket type 0 0 7 9 0 0 0 0 0 0 [] [], 47207, true, ⟨100, 0, true, true⟩⟩
def peer (st : ConnState) : State := (up.onEthPort 0 fun e => { e with state := 1 }).onConn 63 fun c => { c with state := st, localId := 7 }
theorem witness_EthernetAndFdt_packets : ∀ k ∈ [2, 3, 4, 5, 6, 7, 8], fdtMalformed (packet k) = false ∧ be (packet k).bytes 0 1 % 16 = k ∧
    ((peer .open_).ethPort (packet k).port).state = 1 ∧ (peer .open_).fdtSlot (BitVec.ofNat 32 (be (packet k).bytes 4 4)) isOpen = some 63 := by
  decide +kernel
theorem witness_EthernetAndFdt_timers : ((peer .open_).conn 63).state = .open_ ∧ ((peer .open_).pickPort ((peer .open_).conn 63)).isSome = false ∧
    (((peer .open_).onConn 63 fun c => { c with ports := 1 }).pickPort { (peer .open_).conn 63 with ports := 1 }).isSome = true := by decide +kernel
theorem witness_EngineWork_run : ((served.onTileRegs 0 fun r => { r with state := .run }).tile 0).regs.state = .run ∧
    (queued 0 (desc 1 []) (List.replicate 128 0)).Takes 0 (itemOf (desc 1 []) (List.replicate 128 0)) .matmul := by
  unfold State.Takes; decide +kernel
theorem witness_GroupEvents_apex : (up.onGrp fun g => { g with role := .apex, phase := 1, pos := some (0, 0) }).isApex = true := by decide
theorem witness_GroupEvents_grace : let s := ((up.onGrp fun g => { g with spanStart := some 0, expired := true, pos := some (0, 0) }).onJob fun j =>
      { j with slots := [(0, ⟨0, 0, (0, 0, 0, 0)⟩)] })
    s.grp.expired = true ∧ s.grp.voted = false ∧ s.jobRuns = true ∧ s.grp.pos.isSome = true := by decide
theorem witness_HostEvents_flush : let s := up.onHst fun h => { h with flushOut := true, lastAddr := some 64 }
    s.hst.flushOut = true ∧ s.boot.mainOn = true ∧ s.hst.link = .l0 ∧ s.hst.wait = [] := by decide
theorem witness_HostEvents_down : let s := up.onHst fun h => { h with link := .down, downSince := 1 }
    s.Quiet ∧ s.hst.link = .down ∧ s.hst.downSince ≠ 0 ∧ s.hst.bme = true := by unfold State.Quiet; decide
theorem witness_AlmanacRecords_flush : let s := up.onAlm fun a => { a with flushing := true }
    s.Quiet ∧ s.alm.flushing = true ∧ s.flash.mcbWrite = none := by unfold State.Quiet; decide
theorem witness_MemoryAndLink_retrain : ((up.onChannel 79 fun c => { c with state := .retrain, fails := 2 }).channel 79).state = .retrain := by decide
theorem witness_PowerEvents_phase : let s := up.onPwr fun p => { p with pending := some ⟨800, 5⟩, lease := 1 }
    s.pwr.pending = some ⟨800, 5⟩ ∧ s.pwr.lease ≠ 0 ∧ s.pwr.leased = false := by decide

/-! ### The clauses of the other statements -/

theorem witness_MailboxDoorbell_posted : let s := up.setMbox (.pcie 14) { Reset.mailbox with state := .posted }
    s.Quiet ∧ s.linkUp = true ∧ (s.mbox (.pcie 14)).state = .posted ∧ ({ up with cp := Reset.cp } : State).cpReady = false := by
  unfold State.Quiet; decide +kernel
/-- A request of opcode 0x0101 with a sequence number, its CRC-32C in place. -/
def request (seq : Nat) : List Byte :=
  let b := padTo 64 (leBytes 2 0x0101 ++ [0, 0] ++ leBytes 4 seq)
  b.take 16 ++ leBytes 4 (requestCrc b) ++ b.drop 20
theorem witness_MailboxChecks_request : ∀ n ∈ [0xFFFFFFFF, 0, 5], mLen (request n) ≤ 4032 ∧ requestCrc (request n) = le (request n) 16 4 ∧
    bitOf (mFlags (request n)) 0 = false ∧ mSeq (request n) = BitVec.ofNat 32 n ∧ opcodeListed (mOp (request n)) = true ∧
    mFlags (request n) / 2 = 0 := by decide +kernel
theorem witness_MailboxChecks_seq : Reset.mailbox.lastSeq = 0xFFFFFFFF ∧ (0 : Word32) = Reset.mailbox.lastSeq + 1 ∧
    (5 : Word32) ≠ Reset.mailbox.lastSeq + 1 := by decide
theorem witness_ManagementBus_bounds : ([1, 2] : List Byte).length ≤ 253 ∧ 4094 + ([1, 2] : List Byte).length ≤ 4096 ∧
    4096 < 4095 + ([1, 2] : List Byte).length ∧ (0x30 : Byte) ≠ 0x20 := by decide
theorem witness_ChordMailbox_next : let s := up.onCp fun c => { c with mb15 := [1], mb15From := some (1, 0) }
    s.boot.mainOn = true ∧ le (msg [0x21]).bytes 0 1 = 0x21 ∧ s.cp.mb15 ≠ [] ∧
      s.cp.mb15From = some ((msg [0x21]).srcX, (msg [0x21]).srcY) ∧ s.grp.restoring = [] := by decide +kernel
theorem witness_PowerLoss_rails : let s := up.onBoot fun b => { b with shutdown := some .thermal }
    s.boot.shutdown = some .thermal ∧ s.boot.mainOn = true ∧ s.flash.mcbWrite = none ∧ s.flash.mcbNext = none ∧ s.alm.flushing = false ∧
      s.alm.flushDue = false := by decide
theorem witness_PowerLoss_standby : standby.boot.standby = true ∧ standby.boot.main = false ∧
    (standby.onBoot fun b => { b with offUntil := some 5 }).boot.offUntil = some 5 := by decide
/-- Empty flash holds no image; one that passes rests on the signature check, which the model leaves open. -/
theorem witness_StartupStandby_rom : let s := { standby with cp := Reset.cp, boot := { standby.boot with phase := 0 } }
    s.boot.standby = true ∧ s.boot.phase = 0 ∧ s.cp.up = false ∧ s.boot.romOnly = false ∧ s.imageFails 0 = some 0 ∧ s.imageFails 1 = some 0 := by
  decide +kernel
theorem witness_StartupStandby_phases : ∀ k ∈ [1, 2], (standby.onBoot fun b => { b with phase := k }).Quiet ∧
    (standby.onBoot fun b => { b with phase := k }).cp.up = true ∧ (standby.onBoot fun b => { b with phase := k }).boot.phase = k ∧
    standby.boot.resume = none ∧ standby.boot.main = false := by unfold State.Quiet; decide
theorem witness_StartupMain_links : let s := (atPhase 7).onFlash fun f => { f with mcb := List.replicate 16 0 ++ [9] }
    s.boot.phase = 7 ∧ 9 ≤ le s.flash.mcb 16 1 % 16 ∧ le (atPhase 7).flash.mcb 16 1 % 16 < 9 := by decide +kernel
theorem witness_StartupMain_rails : (atPhase 4).pwr.regime = .none_ ∧ (atPhase 4).openSlot = none ∧ (atPhase 8).openSlot = none ∧
    (atPhase 8).boot.mainOn = true ∧ (((atPhase 8).onPort 7 fun o => { o with state := .miscabled }).port 7).state = .miscabled ∧
    ∀ p, p < 8 → ((atPhase 8).port p).state ≠ .miscabled := by decide +kernel
theorem witness_StartupMain_tiles : (atPhase 5).boot.phase = 5 ∧
    ∀ q, q < 4 → (([(0, 3), (67, 1)] : List (Fin 68 × Nat)).filter fun f => f.1.val / 17 == q).length ≤ 1 := by decide
theorem witness_McbWritten_image : (up.onFlash fun f => { f with mcbWrite := some ⟨mcbDefault, some (.pcie 0), 0⟩ }).flash.mcbWrite =
    some ⟨mcbDefault, some (.pcie 0), 0⟩ ∧ mcbDefault.length = 2048 ∧
    ((up.setMbox (.pcie 0) { Reset.mailbox with state := .running }).mbox (.pcie 0)).state = .running :=
  ⟨rfl, Laws.length_mcbDefault, by decide⟩
theorem witness_ModuleTime_off : State.reset.boot.standby = false ∧ State.reset.boot.fallback = false ∧ up.aoUp = true := by decide
theorem witness_ControlProcessor_restart : let s := up.onCp fun c => { c with restarting := true, halted := true }
    s.cp.restarting = true ∧ s.cp.halted = true ∧ s.aoUp = true ∧
      ((s.setMbox (.pcie 3) { Reset.mailbox with state := .running }).mbox (.pcie 3)).state = .running := by decide +kernel
theorem witness_CounterOperations_start : (atPhase 4).Quiet ∧ (atPhase 4).boot.springHeld = false ∧ (atPhase 4).boot.offUntil = none ∧
    3 < fld (0x4000000000000000 : Word64) 60 4 := by unfold State.Quiet; decide
/-- Watch 1,023 waits for counter 16,383 to reach 2. -/
def watching (table : List Host.Cell) : State := (up.onHst fun h => { h with
  msixEn := true, msixTable := table, watch := [(1023, 0x80003FFF00000002)] }).setCounter 16383 ⟨2, false, false⟩
theorem witness_Watches_armed : let x := Sparse.get 0 (watching []).hst.watch 1023
    fld x 63 1 = 1 ∧ fld x 32 14 = 16383 ∧ fld x 0 32 = 2 ∧ (watching []).jobRuns = false ∧ (watching []).hst.msixEn = true ∧
      (watching []).masked 2047 = true := by decide +kernel
theorem witness_Watches_sent : let s := watching [(32764, 1)]
    fld (0x80003FFF00000002 : Word64) 63 1 = 1 ∧ fld (0x80003FFF00000002 : Word64) 0 32 ≤ s.sc (fld (0x80003FFF00000002 : Word64) 32 14) ∧
      s.hst.msixEn = true ∧ s.masked 2047 = false ∧ s.hostOpen = true ∧ s.hst.wait = [] ∧ s.logRoom (.msix 2047) = true ∧
      s.sc 0 < fld (0x8000000000000002 : Word64) 0 32 := by decide +kernel
theorem witness_GovernorAndCalibration_limit : let v := up.setpointGoal
    450 < v ∧ up.pwrDyn.episode = false ∧ 150 ≤ up.pwr.cap ∧ 150 ≤ up.pwr.envelope ∧ up.pwr.parkedTemp = 0 ∧
      1000 * max 150 (min up.pwr.cap (min up.pwr.envelope 1200)) = 1200000 ∧ (1200000 < 1200001 ∧ ¬11 * 1200000 < 10 * 1200001) ∧
      11 * 1200000 < 10 * 1320001 ∧ 100 * 1163999 < 97 * 1200000 ∧ 97 * 1200000 ≤ 100 * 1164000 ∧
      ({ up with pwr := { up.pwr with regime := .spring } } : State).pwr.regime = .spring := by decide +kernel
theorem witness_GovernorAndCalibration_off : 8 * 100 < 100 * (max 109 100 - min 109 100) ∧ ¬8 * 100 < 100 * (max 108 100 - min 108 100) := by
  decide
/-- The droop gate holds the waves of the module, its detector quiet again. -/
def gated : State := { up with pwrDyn := { up.pwrDyn with droopGate := true, droopActive := true } }
theorem witness_PowerEvents_droop : gated.pwrDyn.droopGate = true ∧ gated.pwrDyn.droop = [] ∧ gated.pwrDyn.droopActive = true ∧
    ({ gated with pwrDyn := { gated.pwrDyn with droopGate := false } } : State).pwrDyn.droopActive = true ∧ 40 < 41 := by decide
theorem witness_PowerEvents_slew : let s : State := { up with pwrDyn := { up.pwrDyn with slew := some (550, 600, 3) } }
    s.Quiet ∧ s.pwrDyn.slew = some (550, 600, 3) ∧ s.pwrDyn.droopActive = false ∧ s.pwr.parkedLimit = 0 ∧ s.pwr.parkedTemp = 0 := by
  unfold State.Quiet; decide
theorem witness_PowerEvents_temp : let s : State := { up with pwrDyn := { up.pwrDyn with coreCeil := 450 } }
    s.boot.mainOn = true ∧ (∀ k ∈ s.pwrDyn.readings ++ s.pwrDyn.edgeReadings ++ s.pwrDyn.compReadings, k.2 < 93 * 16) ∧
      s.pwrDyn.lastRaise = none ∧ s.pwrDyn.coreCeil < s.pwr.target := by decide
theorem witness_PowerEvents_hot : let s : State := { up with pwrDyn := { up.pwrDyn with readings := [(67, 1759)] } }
    (∀ k ∈ s.pwrDyn.readings ++ s.pwrDyn.edgeReadings ++ s.pwrDyn.compReadings, k.2 < 1760) ∧
      (∃ k ∈ s.pwrDyn.readings, 95 * 16 ≤ k.2) ∧ s.pwrDyn.lastLower = none := by decide
theorem witness_PowerEvents_quarters : let s : State := { served with pwr := { served.pwr with parking := 8, unparking := 1 } }
    s.pwr.parking.getLsbD 3 = true ∧ s.quarterQuiet 3 = true ∧ s.pwr.unparking.getLsbD 0 = true ∧
      ∀ i, i < 16 → ∀ p, s.ptile (16 * 0 + i) = some p → (s.tile p).health ≠ .failedSelftest := by
  refine ⟨by decide, by decide +kernel, by decide, fun i hi => ?_⟩
  have : ∀ i : Fin 16, ∀ p : Nat, served.ptile (16 * 0 + i.val) = some p → p = 0 := by
    intro i p h
    revert p
    rcases i with ⟨i, hi⟩
    interval_cases i <;> simp [State.ptile, State.tmap, served, up, State.reset, Reset.tileMapEntry, Sparse.get, Sparse.put, Sparse.ins, Sparse.del]
  intro p h
  rw [this ⟨i, hi⟩ p h]
  decide +kernel
theorem witness_WorkItems_wait : let d := desc 4 [1]
    (queued 75 d []).Takes 75 (itemOf d []) .wait ∧ bitOf (le d 40 1) 0 = true ∧
      ((queued 75 d []).take 75 (itemOf d [])).streams.posts = [] := by unfold State.Takes; decide +kernel
/-- A POST with a target of operation 3, and one with an ADD here. -/
theorem witness_WorkItems_post : (∃ t ∈ [40, 47, 54].map fun off => postTarget (slice (desc 5 [0, 0xC0]) off 7), t.op = 3) ∧
    (∀ t ∈ [40, 47, 54].map fun off => postTarget (slice (desc 5 [0, 0x40]) off 7), t.op ≠ 3 ∧ (t.op = 0 ∨ t.remote = false)) ∧
    (queued 0 (desc 5 [0, 0x40]) []).Takes 0 (itemOf (desc 5 [0, 0x40]) []) .post := by unfold State.Takes; decide +kernel
theorem witness_WorkItems_fence : let d := desc 6 [3]
    let s := queued 64 d []
    s.Takes 64 (itemOf d []) .fence ∧ ((s.queue 64).window.find? fun j => j.run != .complete) = some (itemOf d []) ∧
      s.hostSettled 64 = true ∧ s.remoteAcked = true := by unfold State.Takes; decide +kernel
theorem witness_WorkItems_solstice : (∀ k ∈ [0, 6, 7], (queued 0 (desc 7 [BitVec.ofNat 8 k]) []).Takes 0 (itemOf (desc 7 [BitVec.ofNat 8 k]) []) .solstice ∧
    le (desc 7 [BitVec.ofNat 8 k]) 40 1 = k) ∧ up.pwrRegs.phases = [] := by unfold State.Takes; decide +kernel
theorem witness_WorkItems_split : ∀ k ∈ [0, 1, 2], let d := desc 8 [BitVec.ofNat 8 k]
    (queued 0 d []).Takes 0 (itemOf d []) .split ∧ le d 40 1 = k ∧ (queued 0 d []).ptile 0 = some 0 ∧
      ∀ j ∈ ((queued 0 d []).queue 0).window, j.running = false ∧ j.finished = false := by unfold State.Takes; decide +kernel
/-- A copy of 32 bytes within G7, one that writes zeros, and copies from and to the host. -/
def copyDesc (kind : Nat) (src dst flags : Nat) : List Byte := desc kind (leBytes 8 src ++ leBytes 8 dst ++ leBytes 4 32 ++ leBytes 1 flags)
theorem witness_WorkItems_dma : let s (d : List Byte) := (queued 71 d []).take 71 (itemOf d [])
    ((s (copyDesc 3 64 4096 0)).dmaCopy (copyDesc 3 64 4096 0)).isSome = true ∧
      ((s (copyDesc 3 64 4096 2)).dmaCopy (copyDesc 3 64 4096 2)).map (fun c => c.src.isNone) = some true ∧
      ((s (copyDesc 3 65 4096 0)).dmaCopy (copyDesc 3 64 4096 0)).map (fun c => (s (copyDesc 3 64 4096 0)).copyParked c) = some false ∧
      (s (desc 3 [])).dmaCopy (desc 3 []) = none ∧ ∀ x ∈ ((queued 64 (desc 3 []) []).queue 64).window, x.running = false := by decide +kernel
theorem witness_WorkItems_order : let d := desc 0 []
    let s := (queued 0 d []).onQueue 0 fun u => { u with lastStep := some 5 }
    s.takeable 0 = some (itemOf d []) ∧ dKind d = some .nop ∧ s.stepBad 0 (dStep d) = true := by decide +kernel
/-- An operand block: one K-block of two rows, E4M3 by E4M3, FP32 results. -/
def block : List Byte := padTo 128 (List.replicate 6 0 ++ [1] ++ List.replicate 25 0 ++ leBytes 4 0x411 ++ leBytes 4 0x400)
def matmul : Item := itemOf (desc 1 []) block
theorem witness_EngineWork_item : (queued 0 (desc 1 []) block).Takes 0 matmul .matmul ∧ block.length = 128 ∧ obKb block ≠ 0 ∧
    ((queued 0 (desc 1 []) block).take 0 matmul).matmulRefusal (served.tile 0).regs block = none := by
  unfold State.Takes; decide +kernel
theorem witness_EngineWork_refused : ((queued 0 (desc 1 []) (padTo 128 [])).take 0 (itemOf (desc 1 []) (padTo 128 []))).matmulRefusal (served.tile 0).regs
    (padTo 128 []) = some (stBadOpcode, false) := by decide +kernel
/-- The item in the arrays of tile 0, its first row and its weights waiting. -/
def running (r : Run) : State := (served.onTile 0 fun t => { t with
  regs := { t.regs with state := .run }
  work := { t.work with
    runU := some r
    feedU := [⟨5, 0, 0, [], []⟩]
    shadowU := [(0, ⟨5, 0, []⟩), (1, ⟨5, 0, []⟩), (2, ⟨5, 0, []⟩), (3, ⟨5, 0, []⟩)] } })
def run0 : Run := served.newRun matmul false
theorem witness_EngineWork_wave : let s := running run0
    let w := (s.tile 0).work
    s.Quiet ∧ s.ptile 0 = some 0 ∧ (s.tile 0).regs.state = .run ∧ s.pwr.closed = false ∧ s.pwrDyn.droopGate = false ∧ w.runU = some run0 ∧
      w.feedU.head? = some ⟨5, 0, 0, [], []⟩ ∧ run0.waves = true ∧ halfReady w .u = true ∧ halfReady w .l = false ∧
      s.halfStopped 0 w .u = false ∧ run0.sub + 1 = subWaves run0.aFmt run0.bFmt ∧ run0.scratch = false ∧ spillsNow run0 = false ∧
      quiet run0.block = false ∧ obAccRow run0.block + run0.row < 512 ∧ rowPoisoned (s.tile 0).regs 0 = false := by
  unfold State.Quiet; decide +kernel
/-- A B16 operand takes four waves. -/
theorem witness_EngineWork_subWave : let r : Run := { run0 with aFmt := 3, bFmt := 3 }
    r.sub + 1 < subWaves r.aFmt r.bFmt ∧ halfReady ((running r).tile 0).work .u = true := by decide +kernel
theorem witness_EngineWork_feed : let s := running run0
    let w := (s.tile 0).work
    w.reads (halfOf (s.tile 0).regs.split .u) = some run0 ∧ (w.feed .u).length < 32 ∧
      (s.readVec 0 (streamed run0.block run0.aFmt) run0.feedRow 0 (readLen 128 (redLen run0.block 128) 0) 128).2.2.1 = false := by
  decide +kernel
theorem witness_EngineWork_load : let s := served.onTileWork 0 fun w => { w with runU := some run0 }
    nextLoad (s.tile 0).work .u 3 = some (run0, 0) ∧ obBStream run0.block = false := by decide +kernel
theorem witness_EngineWork_drain : let r : Run := { run0 with ready := 1, kb := 1 }
    let s := running r
    (s.tile 0).work.drains .u = some r ∧ quiet r.block = false ∧ r.drained < r.ready ∧ r.drained + 1 < obM r.block ∧
      rowPoisoned (s.tile 0).regs (obAccRow r.block + r.drained) = false := by decide +kernel
theorem witness_EngineWork_ramp : let s := queued 0 (desc 1 []) block
    s.pwr.closed = false ∧ s.pwrDyn.droopGate = false ∧ (s.tile 0).regs.state = .idle ∧ s.matmulWants 0 0 = true ∧
      served.matmulWants 0 0 = false := by decide +kernel
theorem witness_EngineWork_hang : let s : State := { running run0 with
      tiles := (List.range 17).map fun p => (p, { (running run0).tile p with health := .active }) }
    s.mustWave 0 0 = true ∧ s.spares (0 / 17) = [] ∧ s.linkUp = true ∧ s.engineOf 0 = some 0 ∧
      (queued 0 (desc 1 []) block).item 0 5 = some matmul ∧ matmul.run = .waiting := by decide +kernel
theorem witness_EngineWork_selftest : (served.onCp fun c => { c with selftest := some (16, none) }).cp.selftest = some (16, none) := by decide
theorem witness_KernelsAndCommits_kernel : let s := queued 0 (desc 2 []) (List.replicate 128 0)
    s.Takes 0 (itemOf (desc 2 []) (List.replicate 128 0)) .vector ∧ (List.replicate 128 (0 : Byte)).length = 128 ∧
      ((s.take 0 (itemOf (desc 2 []) (List.replicate 128 0))).fetchImage 0 (dAddr (desc 2 []) 40)).1 = stBadOpcode := by
  unfold State.Takes; decide +kernel
/-- A kernel image of one END at G7 address 64. -/
def kernelAt (s : State) : State := s.onMem fun m => { m with g7 := Memory.write m.g7 64 (program.drop 8) }
theorem witness_KernelsAndCommits_runs : let d := desc 2 [64]
    let s := kernelAt (queued 0 d (List.replicate 128 0))
    s.Takes 0 (itemOf d (List.replicate 128 0)) .vector ∧ ((s.take 0 (itemOf d (List.replicate 128 0))).fetchImage 0 (dAddr d 40)).1 = stOk ∧
      (s.ptile 0).isSome = true := by unfold State.Takes; decide +kernel
theorem witness_KernelsAndCommits_ends : let d := desc 11 []
    let s := queued 75 d []
    s.Takes 75 (itemOf d []) .commit ∧ s.commitPlan (commitReq 75 d) = .ends stBadOpcode 0 none ∧ s.votedFor (commitReq 75 d) = true ∧
      up.commitPlan (updCommitReq (.pcie 0) []) = .ends stBadOpcode 0 none ∧ up.votedFor (updCommitReq (.pcie 0) []) = true := by
  unfold State.Takes; decide +kernel
/-- Group 0, of no blocks, and its program; the commit records at 16,384. -/
def grouped (s : State) : State := s.onMem fun m => { m with
  slow := [(0, 1), (0x81, 16), (0x91, 32), (0x99, 64), (4119, 0x80)] ++ Memory.write [] 8192 (program.drop 8) }
/-- RECORD at slot 1 of the commit records. -/
def commitDesc : List Byte := desc 11 ([0, 0, 1, 0, 0, 0, 0, 0] ++ leBytes 8 (0x3000000000004040))
theorem witness_KernelsAndCommits_begins : let s := grouped (queued 75 commitDesc [])
    ∃ x, s.commitPlan (commitReq 75 commitDesc) = .begins x ∧ s.planMay (commitReq 75 commitDesc) (.begins x) = true ∧
      ((s.take 75 (itemOf commitDesc [])).beginCommit x).1 = none := by
  refine ⟨(commitReq 75 commitDesc).run 16448 0, ?_⟩; decide +kernel
def commitPayload : List Byte := [0, 0, 1, 0, 0, 0, 0, 0] ++ leBytes 8 0x3000000000004040 ++ [0, 0, 0, 0]
theorem witness_KernelsAndCommits_upd : let s := ((grouped up).onGrp fun g => { g with pos := some (0, 0) }).onComp fun c => { c with scaleSent := some 0 }
    let r := updCommitReq (.pcie 0) commitPayload
    Given s 0x0706 commitPayload ∧ ∃ x, (withCmd s 0x0706 commitPayload).commitPlan r = .begins x ∧
      (withCmd s 0x0706 commitPayload).planMay r (.begins x) = true ∧ ((withCmd s 0x0706 commitPayload).beginCommit x).1 = none ∧
      ((withCmd s 0x0706 commitPayload).beginCommit x).2.comp.commit.isSome = true := by
  refine ⟨by unfold Given State.Allowed State.Waits; decide +kernel, (updCommitReq (.pcie 0) commitPayload).run 16448 0, ?_⟩; decide +kernel
theorem witness_KernelsAndCommits_complete : let i := itemOf (desc 0 []) []
    let f := { i with run := .finished stOk 0 0 }
    let s := served.onQueue 75 fun u => { u with enable := true, state := .run, window := [f] }
    s.item 75 5 = some f ∧ s.writesOut 75 5 = false ∧ (s.completeItem 75 f stOk 0 0).job.faultReplay = false := by decide +kernel
theorem witness_QueueControl_enable : fld (0x8000000600000007 : Word64) 63 1 = 1 ∧ fld (0x8000000600000007 : Word64) 32 5 = 6 ∧
    (locRange (up.queue 75).base.toNat (80 * 2 ^ 6) Loc.isG7OrHost).isSome = true ∧
    ((up.onQueue 75 fun u => { u with base := 64 }).queue 75).base.toNat % 4096 ≠ 0 := by decide +kernel
theorem witness_QueueControl_disable : (queued 75 (desc 0 []) []).linkUp = true ∧ ((queued 75 (desc 0 []) []).queue 75).enable = true ∧
    (∀ i ∈ ((queued 75 (desc 0 []) []).queue 75).window, i.run = .waiting ∨ i.run = .complete) := by decide +kernel
theorem witness_QueueControl_resume : let s := up.onQueue 0 fun u => { u with enable := true, state := .stopped }
    (s.queue 0).state = .stopped ∧ (s.queue 0).enable = true ∧ (s.queue 0).bell = none ∧ fld (0x8000010000000000 : Word64) 40 1 = 1 := by
  decide +kernel
theorem witness_QueueControl_bell : let s := up.onQueue 0 fun u => { u with enable := true, state := .idle }
    bellOut (s.queue 0) 65 = true ∧ bellOut (s.queue 0) 0 = false ∧ (s.queue 0).disabling = false ∧ (s.queue 0).expect = 0 ∧
      (s.queue 0).window = [] := by decide +kernel
/-- Polling queue 0, whose slot names another SEQ. -/
def polling (k : Nat) : State := (up.onQueue 0 fun u => { u with enable := true, state := .repoll, attempts := k, expect := 1 })
theorem witness_QueueControl_poll : ∀ k ∈ [62, 63], let s := polling k
    (s.queue 0).state = .repoll ∧ s.mayRead 0 = true ∧ (match ((s.pass (pollWait (k + 1))).poll 0).1 with | .stale _ _ => true | _ => false) = true := by
  decide +kernel
/-- A WAIT with a ticket on counter 0 at 1, and a TIMEOUT of one tick. -/
def waitItem : Item := itemOf (patch (desc 4 [0, 0, 0, 0, 1]) 17 [0x80, 1]) []
theorem witness_QueueControl_timeout : let s := served.onQueue 0 fun u => { u with enable := true, state := .run, window := [waitItem], waitSince := some 0 }
    s.Quiet ∧ (s.queue 0).window.head? = some waitItem ∧ waitItem.waiting = true ∧ le waitItem.desc 44 4 = 1 ∧
      dKind waitItem.desc = some .wait ∧ (s.passTo 1).ticketsMet waitItem.desc = false := by unfold State.Quiet; decide +kernel
theorem witness_MemoryAndLink_thermal : let s := up.onMem fun m => { m with coolSince := some 5, reserve := .thermal, hold := true }
    s.mem.coolSince = some 5 ∧ s.mem.reserve = .thermal ∧ s.mem.hold = true ∧ s.linkUp = true ∧ fld (4 : Word64) 2 1 = 1 ∧
      s.boot.faulted = false ∧ (∀ x ∈ s.alm.ring, x.code ≠ 0x080A) := by decide +kernel
theorem witness_MemoryAndLink_migration : let s := up.onMem fun m => { m with reserve := .migrating, reserveCh := 79 }
    s.mem.switchDue = false ∧ s.mem.reserve = .migrating ∧ (s.channel s.mem.reserveCh).state ≠ .retrain ∧
      s.mem.migDone.toNat + 1 < dataSlots ∧ (up.channel 0).state ≠ .dead ∧ (up.channel 0).state ≠ .retiredThermal := by decide +kernel
theorem witness_MemoryAndLink_unit : let l := up.d2dLink 7 (d2dDir true)
    l.failed = false ∧ l.lanes.length = 64 ∧ up.d2dHeld 7 = false ∧ up.d2d.waiting = [] ∧ (∀ k ∈ l.lanes, ∀ b ∈ ([67] : List (Fin 68)), b.val ≠ k) := by
  decide +kernel
/-- Module 7 of the link at half width less all but lane 3, in one direction. -/
def oneLane (r : Option (Nat × Nat)) : State := up.onD2dLink 7 0 fun l => { l with lanes := [3], retrain := r }
theorem witness_MemoryAndLink_lanes : ((oneLane none).d2dLink 7 (d2dDir true)).lanes = [3] ∧ (oneLane none).d2dHeld 7 = false ∧
    Sparse.get 0 ((oneLane none).d2dLink 7 (d2dDir true)).fails 3 < 15 ∧ (oneLane (some (3, 0))).d2dHeld 7 = true ∧
    ((oneLane (some (3, 0))).d2dLink 7 (d2dDir true)).retrain = some (3, 0) := by decide +kernel
/-- A frame of a flit whose sums hold. -/
def Framed (h : List Byte) (n : Nat) (t : List Byte) : Prop :=
  h.length + n = 988 ∧ 16 ≤ h.length ∧ t.length = 36 ∧ ∀ k, k < 8 → ∀ i, i < 4 →
    Laws.strictFold (fun s b => gfMul s (gfExp i) ^^^ b.toNat) ((interleave k).map (Laws.frameAt h n t)) 0 = 0
def crcOf (h : List Byte) (n : Nat) : Nat :=
  Laws.strictFold (fun c b => crcStepR 0x82F63B78 (c ^^^ b.toNat) 8) (h ++ List.replicate n 0) 0xFFFFFFFF ^^^ 0xFFFFFFFF
theorem hdrOf_frame {h t : List Byte} {n : Nat} (hh : 16 ≤ h.length) : hdrOf (Laws.frame h n t) = hdrOf h := by
  simp only [hdrOf, le, Laws.frame_slice (show 0 + 16 ≤ h.length by omega)]
theorem goodFlit {s : State} {p n type : Nat} {h t : List Byte} (hr : portRuns (s.port p) = true) (hf : Framed h n t)
    (hc : crcOf h n = le t 0 4) (ht : (hdrOf h).type = type) (ho : flitOdd (hdrOf h) = false) :
    s.GoodFlit p (Laws.frame h n t) type ∧ (flitFec (padTo 1024 (Laws.frame h n t))).2 = [] := by
  unfold State.GoodFlit
  rw [Laws.frame_fec hf.1 hf.2.2.1 hf.2.2.2, hdrOf_frame hf.2.1]
  exact ⟨⟨hr, by rw [Laws.frame_crc hf.1, Laws.crc32c_strict]; exact beq_iff_eq.2 hc, ht, ho⟩, rfl⟩
/-- The header of a link flit with SEQ 1, and what ends each: the CRC and the check bytes of the interleaves. -/
def linkHdr (type : Byte) : List Byte := [0, 0, 0, 0, 0, 0, 0, 0, 0, 0, 0, 0, 1, 0, 0, type <<< 4]
def idleEnd : List Byte := [1, 174, 189, 224, 116, 149, 135, 200, 149, 136, 220, 124, 201, 141, 6, 162, 0, 0, 0, 0, 0, 0, 0, 0, 110, 109, 118, 116,
  0, 0, 0, 0, 15, 54, 120, 64]
def nakEnd : List Byte := [129, 79, 200, 123, 243, 15, 159, 12, 76, 174, 90, 112, 131, 63, 108, 171, 0, 0, 0, 0, 0, 0, 0, 0, 110, 109, 118, 116,
  0, 0, 0, 0, 220, 52, 174, 199]
def markerEnd : List Byte := [65, 191, 114, 54, 100, 91, 121, 201, 244, 164, 243, 209, 47, 125, 101, 1, 0, 0, 0, 0, 0, 0, 0, 0, 110, 109, 118, 116,
  0, 0, 0, 0, 232, 55, 19, 141]
theorem framed_idle : Framed (linkHdr 0) 972 idleEnd := by unfold Framed; decide +kernel
theorem framed_nak : Framed (linkHdr 2) 972 nakEnd := by unfold Framed; decide +kernel
theorem framed_marker : Framed (linkHdr 3) 972 markerEnd := by unfold Framed; decide +kernel
/-- A DATA flit with the control codeword of a HEARTBEAT. -/
def dataFront : List Byte := [0, 0, 0, 0, 0, 0, 0, 0, 0, 0, 0, 0, 1, 0, 16, 16] ++ ([19] ++ List.replicate 31 0) ++ [57, 199, 142, 99]
def dataEnd : List Byte := [217, 13, 159, 50, 52, 37, 209, 83, 40, 105, 36, 153, 62, 15, 124, 108, 0, 0, 0, 0, 0, 0, 0, 0, 110, 109, 118, 116,
  111, 76, 191, 165, 30, 170, 164, 30]
theorem framed_data : Framed dataFront 936 dataEnd := by unfold Framed; decide +kernel
def swapping : State := up.onPort 7 fun o => { o with state := .swap, swapLane := 2, rxSeq := 0 }
theorem witness_ChordLinks_idle : swapping.GoodFlit 7 (Laws.frame (linkHdr 0) 972 idleEnd) 0 :=
  (goodFlit (by decide +kernel) framed_idle (by decide +kernel) (by decide +kernel) (by decide +kernel)).1
theorem witness_ChordLinks_nak : swapping.GoodFlit 7 (Laws.frame (linkHdr 2) 972 nakEnd) 2 :=
  (goodFlit (by decide +kernel) framed_nak (by decide +kernel) (by decide +kernel) (by decide +kernel)).1
theorem witness_ChordLinks_marker : (swapping.GoodFlit 7 (Laws.frame (linkHdr 3) 972 markerEnd) 3 ∧
    (flitFec (padTo 1024 (Laws.frame (linkHdr 3) 972 markerEnd))).2 = []) ∧ (hdrOf (linkHdr 3)).crCount = 0 ∧
    (swapping.port 7).laneErrs = [] ∧ (swapping.port 7).state = .swap ∧ (swapping.port 7).swapLane < 8 :=
  ⟨goodFlit (by decide +kernel) framed_marker (by decide +kernel) (by decide +kernel) (by decide +kernel), by decide +kernel⟩
/-- It names SEQ 1, the next after 0, and reaches this module. -/
theorem witness_ChordLinks_data : swapping.GoodFlit 7 (Laws.frame dataFront 936 dataEnd) 1 ∧
    (let h := hdrOf dataFront
     swapping.creditGranted 7 h.vc = true ∧ h.seq = (swapping.port 7).rxSeq + 1 ∧ h.seq ≠ (up.port 7).rxSeq + 1 ∧ h.dx ≤ 8 ∧ h.vc = 0 ∧ h.ncw = 1 ∧
      swapping.dirTo (some (oppDir (swapping.port 7).dir)) (h.sx, h.sy) h.dx h.dy = none ∧
      decodeWord (slice dataFront 16 36) = ([19] ++ List.replicate 31 0, .good) ∧ controlKnown 19 = true) :=
  ⟨(goodFlit (by decide +kernel) framed_data (by decide +kernel) (by decide +kernel) (by decide +kernel)).1, by decide +kernel⟩
/-- A frame of zeros fails its CRC. -/
theorem witness_ChordLinks_crc : portRuns (swapping.port 7) = true ∧ flitCrc (flitFec (padTo 1024 (Laws.frame (List.replicate 16 0) 972
    (List.replicate 36 0)))).1 = false := by
  refine ⟨by decide +kernel, ?_⟩
  have hf : Framed (List.replicate 16 0) 972 (List.replicate 36 0) := by unfold Framed; decide +kernel
  rw [Laws.frame_fec hf.1 hf.2.2.1 hf.2.2.2, Laws.frame_crc hf.1, Laws.crc32c_strict]
  decide +kernel
theorem witness_ChordLinks_train : ∀ o ∈ [PortState.training, .retrain], ((up.onPort 7 fun x => { x with state := o }).port 7).state = o := by decide +kernel
theorem witness_ChordLinks_lock : let o := (up.onPort 7 fun x => { x with state := .up, lanes := 8 }).port 7
    o.lanes = 8 ∧ o.spareFor = 15 ∧ o.laneMap.getD 7 9 = 7 ∧ (∀ j, j < 8 → j ≠ 7 → o.laneMap.getD j 9 ≠ 7) ∧ o.failsInRow ≠ 2 ∧
      fld (1 : Word64) 0 1 = 1 := by decide +kernel
/-- Position (0, 0) of a group whose reduce stream 0 has 1,024 elements a chunk. -/
def reducing : State := (up.onGrp fun g => { g with pos := some (0, 0) }).onChd fun c => { c with
  reduce := [(0, 0x8000000000000000), (1, 65536), (6, 1024)]
  own := [(512, [1]), (536870928, [1])]
  partials := [(64, [1])] }
/-- Block 512, of owner (0, 2), is at hop 1 here; block 64, of owner (2, 0), at hop 8. -/
theorem witness_Streams_hops : rValid reducing 0 = true ∧ rFrozen reducing 0 = false ∧ 512 < reducing.rBlocks 0 ∧
    (match reducing.redPath 0 512 with | some p => decide (1 < p.n1) && p.i1 == 1 | none => false) = true ∧
    (blockFrom reducing.chd.own 0 512).isSome = true ∧ reducing.chd.fold.contains (rKey 0 512) = false ∧
    blockFrom reducing.chd.own 0 480 = none ∧ reducing.grp.expired = false ∧
    (match reducing.redPath 0 64 with | some p => decide (p.n1 ≤ 8) && p.line2 && p.i2 + (p.n1 - 1) == 8 | none => false) = true ∧
    Sparse.get [] reducing.chd.partials (rKey 0 64) ≠ [] := by decide +kernel
/-- Entry 0 of weight stream 255's list, at G7 address 0, names two codewords; SLOT_BYTES 64, 1 slot. -/
def landing : State := up.onChd fun c => { c with
  wstream := [(1021, 0x0000000100000002), (1022, 0x0000400100000000)]
  wrecv := [(255 * 2 ^ 32, [1]), (255 * 2 ^ 32 + 1, [1])] }
theorem witness_Streams_landing : let s := landing.onMem fun m => { m with g7 := [(5, 2)] }
    let slots := fld (s.wword 255 2) 32 8
    let size := fld (s.wword 255 2) 40 24
    0 < fld (s.wword 255 1) 32 32 ∧ (255 : Fin 256).val ∉ s.chd.stopped ∧ 0 ∉ Sparse.get [] s.chd.landed 255 ∧ 0 < slots ∧
      (match s.landEntry 255 0 with
       | (some x, v) => decide (32 * x.count ≤ size) && decide (0 % slots * size + 32 * x.count ≤ padSize) &&
          (List.range x.count).all fun j => Sparse.get [] v.chd.wrecv (wKey 255 (x.start + j)) != []
       | _ => false) = true := by decide +kernel
theorem witness_GroupEvents_posts : let m := msg ([1, 0, 0x40] ++ List.replicate 5 0)
    let a := msg ([2, 0, 0, 0, 0, 0, 0, 0, 63, 5, 0, 0])
    m.port = some 0 ∧ le m.bytes 0 1 = 1 ∧ (postTarget (slice m.bytes 1 7)).op = 1 ∧ le a.bytes 0 1 = 2 ∧ le a.bytes 8 1 = 63 ∧
      le a.bytes 9 3 = 5 ∧ (up.onStreams fun t => { t with posts := [(63, 5)] }).streams.posts = [(63, 5)] ∧
      (let i := { itemOf (desc 5 []) [] with run := .running }
       (served.onQueue 63 fun u => { u with window := [i] }).item 63 5 = some i ∧ i.running = true) := by decide +kernel
/-- A COMMIT of step 7, waiting for its buddy. -/
def waitingCommit : CommitRun := ⟨none, none, 0, 7, 0, 0, 0, 0, false, 0, 0⟩
theorem witness_GroupEvents_acks : let m := msg ([4, 0, 0, 0, 7, 0, 0, 0, 0, 0, 0, 0, 0])
    let a := msg ([4, 0, 0, 0, 7, 0, 0, 0, 0, 0, 0, 0, 1])
    le m.bytes 0 1 = 4 ∧ le m.bytes 12 1 = 0 ∧ le a.bytes 12 1 = 1 ∧ le m.bytes 4 8 = waitingCommit.step.toNat ∧
      (Sparse.get CwHealth.good up.mem.badSlow 1).isBad = false ∧
      (up.onComp fun c => { c with commit := some waitingCommit }).comp.commit = some waitingCommit := by decide +kernel
theorem witness_GroupEvents_claims : let s := up.onGrp fun g => { g with claimDue := some 5 }
    s.grp.claimDue = some 5 ∧ s.boot.faulted = false ∧ s.cpReady = true ∧ msgEpoch (msg [0x15, 0, 1]).bytes ≠ s.grp.epoch ∧
      s.Fresh (msg [0x15, 0, 1]) 0 0x15 := by unfold State.Fresh; decide +kernel
/-- The Vertex of row 0 at column 0 takes the vote of column 1 for step 0. -/
theorem witness_GroupEvents_vote : let s := up.onGrp fun g => { g with role := .vertex, pos := some (0, 0) }
    let m := msg [0x10, 1]
    s.Fresh m 0 0x10 ∧ s.grp.pos = some (0, m.srcY) ∧ m.srcX < 8 ∧ m.srcY < 8 ∧ s.stepNo ≤ (voteOf m.bytes).step.toNat ∧
      (voteOf m.bytes).epoch = s.grp.epoch ∧
      combined (Sparse.ins m.srcX (voteOf m.bytes) (Sparse.del m.srcX s.grp.rowVotes)) (voteOf m.bytes).step = none := by
  unfold State.Fresh; decide +kernel
/-- The Apex at (0, 0) has every vote but that of (1, 0). -/
def lacking : State := (inJob up).onGrp fun g => { g with
  role := .apex, phase := 5, pos := some (0, 0), voteStart := some 5
  colVotes := (List.range 7).map fun j => (j + 1, voteOf [])
  rowVotes := ([0, 2, 3, 4, 5, 6, 7] : List Nat).map fun j => (j, voteOf []) }
theorem witness_GroupEvents_limit : let has (l : Sparse Vote) (j : Nat) : Bool := l.any fun v => v.1 == j && v.2.step == lacking.job.step
    lacking.grp.voteStart = some 5 ∧ lacking.isApex = true ∧ 5 ≤ lacking.grp.phase ∧ lacking.job.verdict = 0 ∧ lacking.grp.groupVotes = [] ∧
      (∀ j, j < 8 → (has lacking.grp.colVotes j = true ↔ j ≠ 0)) ∧ (∀ j, j < 8 → (has lacking.grp.rowVotes j = true ↔ j ≠ 1)) ∧
      lacking.grp.newPos = none ∧ lacking.job.waiting = [] ∧ lacking.jobRuns = true ∧ lacking.ringOpen = false := by decide +kernel
theorem witness_GroupEvents_groups : let s := up.onGrp fun g => { g with role := .leadApex, cfg := { g.cfg with groups := [7, 9] } }
    s.isLead = true ∧ 1 < s.groups ∧ 1 ≠ s.groupNo ∧ s.grp.groupVotes = [] ∧
      (lacking.onGrp fun g => { g with phase := 4 }).grp.role = .apex ∧ (lacking.onGrp fun g => { g with phase := 4 }).grp.lost = false := by
  decide +kernel
theorem witness_GroupEvents_verdict : let s := inJob up
    s.Fresh (msg [0x11]) 0 0x11 ∧ le (msg [0x11]).bytes 4 4 = s.stepNo ∧ s.job.verdict = 0 ∧ s.jobRuns = true := by
  unfold State.Fresh; decide +kernel
theorem witness_GroupEvents_digest : let s := up.onGrp fun g => { g with role := .apex }
    let m := msg [0x12]
    let l := Sparse.ins (64 * s.groupNo + 8 * m.srcY + m.srcX) (padTo 32 m.bytes) (Sparse.del (64 * s.groupNo + 8 * m.srcY + m.srcX) s.grp.digests)
    s.Fresh m 0 0x12 ∧ m.srcX < 8 ∧ m.srcY < 8 ∧ ((s.onGrp fun g => { g with digests := l }).digestsOf s.groupNo 0).length < 64 := by
  unfold State.Fresh; decide +kernel
theorem witness_GroupEvents_recovery : (∀ k ∈ [1, 5], up.Fresh (msg [0x16, BitVec.ofNat 8 k]) 0 0x16 ∧ le (msg [0x16, BitVec.ofNat 8 k]).bytes 1 1 = k) ∧
    up.grp.newPos = none ∧ up.Fresh (msg [0x14]) 0 0x14 ∧ (∀ k ∈ [1, 2, 4], let s := lacking.onGrp fun g => { g with phase := k }
      s.isApex = true ∧ s.grp.lost = false ∧ s.grp.phase = k ∧ s.restored = true) := by unfold State.Fresh; decide +kernel
theorem witness_GroupEvents_weights : let m := msg [0x17, 0, 0, 0, 0, 0, 0, 0, 255, 0, 63]
    up.Fresh m 0 0x17 ∧ le m.bytes 4 4 = up.stepNo ∧ le m.bytes 8 2 < 256 ∧ le m.bytes 10 1 < 64 := by unfold State.Fresh; decide +kernel
theorem witness_HostAccesses_places : up.barPlace .bar2 (g7Size - 32) 32 = some (.g7 (g7Size - 32)) ∧ 32 * (g7Size / 32 - 1) + 32 ≤ g7Size ∧
    (List.replicate 32 (0 : Byte)).length = 32 ∧ 4088 % 8 = 0 ∧ 4088 + 8 ≤ 4096 := by decide +kernel
theorem witness_HostEvents_lost : let s := up.onHst fun h => { h with link := .down, downSince := 1 }
    s.Quiet ∧ s.boot.mainOn = true ∧ (4 : Nat) ≤ 4 ∧ (up.onHst fun h => { h with lastAddr := some 64 }).hst.flushOut = false ∧
      (up.onScales fun c => { c with due := some 3 }).scales.due = some 3 ∧ up.cpReady = true := by unfold State.Quiet; decide
theorem witness_EthernetAndFdt_frames : let s := up.onEthPort 1 fun e => { e with state := 1, pfc := true }
    s.Quiet ∧ (s.ethPort 1).state = 1 ∧ (s.ethPort 1).pfc = true ∧ s.ownAddr 1 .other = false ∧ (up.ethPort 0).state ≠ 1 := by
  unfold State.Quiet; decide
/-- DATA of message 9, the one being received, on the slot's connection. -/
def dataPacket : FdtPacket := { packet 1 with bytes := fdtPacket 1 0 0 7 9 0 0 0 0 9 0 [] [] }
theorem witness_EthernetAndFdt_data : let m : FdtMsg := ⟨9, 1, [], 0, 64, [], false, []⟩
    let s := (peer .open_).onConn 63 fun c => { c with msgs := [m] }
    s.TakesPacket dataPacket ∧ be dataPacket.bytes 0 1 % 16 = 1 ∧ s.fdtSlot (BitVec.ofNat 32 (be dataPacket.bytes 4 4)) isOpen = some 63 ∧
      be dataPacket.bytes 12 4 = (s.conn 63).rxPsn.toNat ∧ (s.conn 63).rxAhead = [] ∧ bitOf (be dataPacket.bytes 1 1) 7 = false ∧
      s.chd.ringIn = [] ∧ m.id = BitVec.ofNat 32 (be dataPacket.bytes 24 4) ∧ m.id ≠ (s.conn 63).doneMsg + 1 := by
  unfold State.TakesPacket; decide +kernel
theorem witness_EthernetAndFdt_acks : let s := (peer .open_).onConn 63 fun c => { c with timer := some 5, unackedRx := 1 }
    (peer .opening).fdtSlot 7 (fun x => x == .opening || x == .open_) = some 63 ∧ s.TakesPacket (packet 2) ∧
      (s.conn 63).timer = some 5 ∧ (s.conn 63).unackedRx ≠ 0 ∧ (s.conn 63).expiries + 1 < s.eth.retryLimit ∧
      (s.onConn 63 fun c => { c with expiries := 11 }).eth.retryLimit ≤ 11 + 1 := by unfold State.TakesPacket; decide +kernel
theorem witness_AlmanacRecords_folds : let s := (up.onAlm fun a => { a with flushLevel := 0 }).report 0x0E03 .info 0 0 []
    let r : AlmRec := ⟨0x0E03, false, .info, 0, 0, 0, 0, 0, padTo 12 [], false, false⟩
    s.Quiet ∧ (s.alm.ring.getLast?.map fun l => foldsInto l r) = some true ∧ (s.alm.ring.getLast?.map fun l => foldsInto l { r with code := 1 }) = some false ∧
      s.alm.lostFlash = 0 ∧ s.alm.flushLevel = 0 := by unfold State.Quiet; decide +kernel
theorem witness_AlmanacRecords_erase : let s := up.onAlm fun a => { a with erased := [] }
    let a := if s.alm.head / 2048 + 1 < 128 then s.alm.head / 2048 + 1 else s.alm.keepUnits / 2
    s.alm.bySeverity = false ∧ s.alm.flushing = false ∧ s.aoUp = true ∧ a ∉ s.alm.erased ∧ a ≠ s.alm.head / 2048 ∧
      (up.onFlash fun f => { f with mcbNext := some ⟨[], none, 0⟩ }).flash.mcbNext = some ⟨[], none, 0⟩ := by decide +kernel

/-! ### Clauses on waiting, holding and boundary values -/

theorem witness_StavmonDenied_flash : Given up 0x0903 [] ∧ up.flashBusy = false ∧ Given up 0x0101 [] := by
  unfold Given State.Allowed State.Waits; decide
/-- Partition 7 with engine 63 and a share of 1 W; partition 0 holds engine 0. -/
def shareOf (mask : Nat) : List Byte := leBytes 8 7 ++ leBytes 8 mask ++ leBytes 2 1
def shared : State := { up with pwrRegs := { up.pwrRegs with shares := [(0, { Reset.share with valid := true, mask := 1 })] } }
theorem witness_PowerCommands_define : Given shared 0x0304 (shareOf (2 ^ 63)) ∧ le (shareOf (2 ^ 63)) 0 1 = 7 ∧ le (shareOf (2 ^ 63)) 16 2 ≠ 0 ∧
    (∀ k ∈ shared.pwrRegs.shares, k.1 ≠ 7 → k.2.valid = true → k.2.mask &&& BitVec.ofNat 64 (le (shareOf (2 ^ 63)) 8 8) = 0) ∧
    (Sparse.get Reset.share shared.pwrRegs.shares 7).duty ≤ 1024 := by unfold Given State.Allowed State.Waits; decide +kernel
theorem witness_PowerCommands_clash : Given shared 0x0304 (shareOf 3) ∧
    ∃ k ∈ shared.pwrRegs.shares, k.1 ≠ 7 ∧ k.2.valid = true ∧ k.2.mask &&& BitVec.ofNat 64 (le (shareOf 3) 8 8) ≠ 0 := by
  unfold Given State.Allowed State.Waits; decide +kernel
theorem witness_PowerCommands_held : Given standby 0x0305 [15] ∧ standby.boot.mainOn = false ∧ Given standby 0x0303 (leBytes 2 450) ∧
    le (leBytes 2 450) 0 2 = 450 ∧ Given up 0x0305 [16] ∧ Given up 0x0303 (leBytes 2 681) ∧ le (leBytes 2 681) 0 2 = 681 := by
  unfold Given State.Allowed State.Waits; decide +kernel
/-- A delay that is over where the receipt lies 1,000 ticks back, and one that is not. -/
theorem witness_EnvelopeCommand_receipt : let s := up.onBoot fun b => { b with modCount := 1000 }
    Given s 0x0302 laterEnvelope ∧ ((withCmd s 0x0302 laterEnvelope).mbox (.pcie 0)).receipt.toNat + le laterEnvelope 4 4 ≤ s.now ∧
      up.now < ((withCmd up 0x0302 laterEnvelope).mbox (.pcie 0)).receipt.toNat + le laterEnvelope 4 4 := by
  unfold Given State.Allowed State.Waits; decide +kernel
theorem witness_MemoryGrantsDisjoint_step : let s := up.onJob fun j => { j with grants := [⟨7, 4096, 4096⟩, ⟨0, 8192, 4096⟩] }
    disjointGrants s.job.grants ∧ s.pending = [] := by unfold disjointGrants; decide
theorem witness_ModuleCommands_off : Given standby 0x0104 [1] ∧ Given standby 0x0104 [2] ∧ standby.jobRuns = false ∧
    standby.boot.waiter = none ∧ standby.boot.shutdown = none ∧ standby.boot.mainOn = false ∧ Given (inJob up) 0x0103 [] ∧ Given up 0x0104 [3] := by
  unfold Given State.Allowed State.Waits; decide
theorem witness_ConfigurationCommands_busy : (up.onFlash fun f => { f with mcbNext := some ⟨[], none, 0⟩ }).flash.mcbNext.isSome = true ∧
    (up.onAlm fun a => { a with flushing := true }).alm.flushing = true ∧ mcbCrc [] ≠ le ([] : List Byte) 8 4 ∧ ([] : List Byte).length ≠ 2048 := by
  decide +kernel
theorem witness_UpdateCommands_repairing : let s := (laid.onConn 63 fun c => { c with state := .open_ }).onComp fun t => { t with
      repair := some ⟨63, none, 0, 0, 1, 0⟩ }
    Given s 0x0709 [63] ∧ (s.conn 63).state = .open_ ∧ s.comp.repair.isSome = true := by
  unfold Given State.Allowed State.Waits; decide +kernel
theorem witness_SecurityCommands_waits : let s := (up.onFlash fun f => { f with seed := some [1] }).onAlm fun a => { a with flushing := true }
    Given s 0x0902 [7] ∧ s.flashBusy = true ∧ s.flash.lmsClaimed ≤ s.flash.lmsNext ∧ Given s 0x0903 [1, 0, 0, 0, 0, 0, 0, 0, 9] ∧
      (up.imageFails (1 - up.boot.image)).isSome = true ∧
      ((up.onFlash fun f => { f with lastAttest := some 0 }).now < 0 + 1000000000) := by
  unfold Given State.Allowed State.Waits; decide +kernel
/-- A request for MB[15] with EPOCH 0, one with EPOCH 1, and one with a reserved bit of FLAGS. -/
def request15 (op flags epoch : Nat) : List Byte :=
  let b := leBytes 2 op ++ leBytes 2 flags ++ leBytes 4 0 ++ List.replicate 12 0 ++ leBytes 4 epoch ++ List.replicate 40 0
  b.take 16 ++ leBytes 4 (requestCrc b) ++ b.drop 20
theorem witness_MailboxChecks_chord : (∀ k ∈ [(0x0B06, 0, 0), (0x0B06, 0, 1), (0x0B06, 2, 0), (0x0101, 0, 0)],
      let q := request15 k.1 k.2.1 k.2.2
      mLen q ≤ 4032 ∧ requestCrc q = le q 16 4 ∧ mSeq q = Reset.mailbox.lastSeq + 1 ∧ opcodeListed (mOp q) = true ∧ mFlags q / 2 = k.2.1 / 2) ∧
    mb15Allows 0x0B06 = true ∧ mb15Allows 0x0101 = false ∧ mEpoch (request15 0x0B06 0 0) = up.grp.epoch.toNat ∧
    mEpoch (request15 0x0B06 0 1) ≠ up.grp.epoch.toNat ∧ opcodeListed 0xFFFF = false ∧
    (up.onCp fun c => { c with mb15From := some up.apexPos }).cp.mb15From = some up.apexPos := by decide +kernel
theorem witness_PowerLoss_fallback : let s := up.onBoot fun b => { b with fallback := true, standbyLost := some 0, shutdown := some .standbyLoss }
    s.boot.main = true ∧ s.boot.fallback = true ∧ s.boot.standbyLost = some 0 ∧ s.now ≤ 0 + 100000 ∧ up.boot.fallback = false ∧
      up.alm.flushing = false ∧ 3 ≤ up.boot.phase := by decide
theorem witness_ControlProcessor_interrupted : let s := (up.setMbox (.pcie 3) { Reset.mailbox with state := .posted, checked := true }).onCp fun c =>
      { c with restarting := true, lostCmd := some 0 }
    let t := (s.setMbox .smb { Reset.mailbox with state := .running }).onFlash fun f => { f with mcbWrite := some ⟨[], some .smb, 0⟩ }
    t.cp.restarting = true ∧ (t.mbox (.pcie 3)).state = .posted ∧ (t.mbox (.pcie 3)).checked = true ∧ t.flash.mcbWrite = some ⟨[], some .smb, 0⟩ ∧
      (t.mbox .smb).state = .running ∧ (t.mbox .smb).reached = none := by decide +kernel
theorem witness_Watches_operations : (watching []).Quiet ∧ (watching []).linkUp = true ∧ (watching []).boot.mainOn = true ∧
    (ScSource.chord 0 ≠ .pcie) ∧ (watching []).hst.wlogSize = 0 := by unfold State.Quiet; decide +kernel
theorem witness_PowerEvents_solstice : let x : Solstice := ⟨9, 1, true, 0, 0, 1, true, 0, 0⟩
    let s : State := { up with pwrRegs := { up.pwrRegs with phases := [{ x with begun := false }] } }
    s.pwrRegs.phases = [{ x with begun := false }] ∧ s.pwr.regime ≠ .spring ∧ s.pwr.parkedLimit = 0 ∧ s.pwr.parkedTemp = 0 ∧
      ({ x with before := 2 ^ 20 } : Solstice).waves0 + x.duration * 2 ^ 20 ≤ 2 ^ 20 + up.wavesOf x.queue := by decide +kernel
theorem witness_WorkItems_skip : (queued 0 (desc 0 []) []).queueTaking 0 = true ∧ (queued 0 (desc 0 []) []).refusesStep 0 (itemOf (desc 0 []) []) = false ∧
    (queued 0 (desc 0 []) []).d2dClear .control 1 = true := by decide +kernel
/-- Queue 0, at SEQ 1 with nothing in its window, and its ring in G7 at 4,096; the slot of SEQ 1 as it is stored. -/
def belled (slot : List Byte) : State := (up.onQueue 0 fun u => { u with
  enable := true, state := .idle, base := 4096, expect := 1, head := 1, bell := none }).onMem fun m => { m with g7 := Memory.write m.g7 4160 slot }
def nopSlot : List Byte := padTo 64 (leBytes 4 1)
theorem witness_QueueControl_fetch : let s := belled (nopSlot.take 4 ++ leBytes 2 (crc16 nopSlot) ++ nopSlot.drop 6)
    let u := s.queue 0
    u.enable = true ∧ bellOut u 2 = false ∧ u.disabling = false ∧ u.state = .idle ∧ u.window = [] ∧ u.head = u.expect ∧ u.expect + 1 = (2 : Word32) ∧
      u.bell ≠ some (2 : Word32) ∧ s.mayRead 0 = true ∧
      let f := (s.onQueue 0 fun x => { x with bell := some 2 }).fetchSlot 0
      (match f.1 with | .ok d b => d.length == 64 && f.2.jnlRoom b | _ => false) = true ∧ f.2.queue 0 = { u with bell := some 2 } ∧ f.2.alm.injKeys = [] := by
  decide +kernel
theorem witness_QueueControl_stale : let f := ((belled nopSlot).onQueue 0 fun x => { x with bell := some 2 }).fetchSlot 0
    (match f.1 with | .stale _ _ => true | _ => false) = true ∧ f.2.queue 0 = { (belled nopSlot).queue 0 with bell := some 2 } := by decide +kernel
theorem witness_EngineWork_gated : let s : State := { (running run0).onTileRegs 0 (fun r => { r with gateSlot := 1 }) with pwr := { (running run0).pwr with gateDuty := 512 } }
    (s.tile 0).regs.state = .run ∧ s.pwr.closed = false ∧ s.pwrDyn.droopGate = false ∧ halfReady (s.tile 0).work .u = true ∧
      s.halfStopped 0 (s.tile 0).work .u = false ∧ (s.gateStep 0 0).1 = false ∧
      (({ s with pwr := { s.pwr with gateDuty := 0 } } : State).gateStep 0 0).1 = true ∧ 1024 ≤ (running run0).waveDuty 0 := by decide +kernel
theorem witness_EngineWork_ballast : let s : State := { served with
      pwr := { served.pwr with ballast := true, rampUp := 10, rampCeil := 0 }
      pwrRegs := { served.pwrRegs with phases := [⟨9, 1, true, 0, 0, 1, false, 0, 0⟩] } }
    s.ballastRuns = true ∧ (s.tile 0).regs.state = .idle ∧ 1024 ≤ s.waveDuty 0 ∧ served.ballastRuns = false := by decide +kernel
theorem witness_GroupEvents_own : (up.onGrp fun g => { g with pos := some (7, 7) }).grp.pos = some (7, 7) := by decide
theorem witness_HostAccesses_parts : ([1] : List Byte).length < 32 ∧ 31 + ([1] : List Byte).length ≤ 32 ∧ (up.g7Health 5).isBad = false ∧
    ((up.setG7Health 5 .poison).g7Health 5).isBad = true ∧ 4096 ≤ 32 * 128 ∧ 32 * (slowSize / 32 - 1) + 32 ≤ slowSize ∧
    4064 + (List.replicate 32 (0 : Byte)).length ≤ 4096 ∧ served.ptile 0 = some 0 ∧ 32 * (padSize / 32 - 1) + 32 ≤ padSize ∧ ¬up.inLog 0 := by
  unfold State.inLog; decide +kernel
theorem witness_HostEvents_derived : let s := up.onScales fun c => { c with due := some 4, ended := [(8191, Reset.scaleRec)] }
    s.scales.due = some 4 ∧ s.scales.ended = [(8191, Reset.scaleRec)] ∧ s.scales.applying = [] ∧ s.cpReady = true := by decide
theorem witness_EthernetAndFdt_dropped : let k := { packet 4 with checkOk := false }
    ((peer .open_).ethPort k.port).state = 1 ∧ be k.bytes 0 1 % 16 = 4 ∧ (peer .open_).fdtTaken k = false := by decide +kernel
/-- The head within sector 0, and at its start with that sector erased: sector 1 follows. -/
theorem witness_AlmanacRecords_next : let s := up.onAlm fun a => { a with head := 5, erased := [] }
    let t := up.onAlm fun a => { a with head := 0, erased := [0] }
    s.alm.head % 2048 ≠ 0 ∧ 1 ∉ s.alm.erased ∧ s.alm.bySeverity = false ∧ t.alm.head % 2048 = 0 ∧ 0 ∈ t.alm.erased ∧ 1 ∉ t.alm.erased := by
  decide +kernel

/-! ### Single steps -/

/-- A field of the next state; none where a step stops. -/
def after {α : Type} (o : Host.Outcome State Fault Refusal) (f : State → α) : Option α := match o with | .next t => some (f t) | _ => none

/-- R180: ADD saturates at 0xFFFF_FFFF and sets OVF. -/
theorem test_add_saturates : after (exec (.scAdd 0 2 (.chord 0)) (up.setCounter 0 ⟨0xFFFFFFFF, false, false⟩)) (fun t => t.counter 0) =
    some ⟨0xFFFFFFFF, true, false⟩ := by decide +kernel
/-- R180: SUB below zero gives 0 and sets UNF. -/
theorem test_sub_floors : after (exec (.scSub 16383 2 (.chord 0)) (up.setCounter 16383 ⟨1, false, false⟩)) (fun t => t.counter 16383) =
    some ⟨0, false, true⟩ := by decide +kernel
/-- R414: a standby supply above 13.8 V is beyond Table 15-3. -/
theorem test_standby_beyond : after (exec (.standbyApply 13801) State.reset) (fun t => t.boot.standby) = none := by decide +kernel
/-- R51: MOD_COUNT starts from zero when standby is applied. -/
theorem test_standby : after (exec (.standbyApply 12000) State.reset) (fun t => (t.boot.standby, t.boot.modCount)) = some (true, 0) := by decide +kernel
/-- R52: a read of the low half latches the high half. -/
theorem test_latch : after (exec .modCountLowRead { up with boot := { up.boot with modCount := 0x500000007 } }) (fun t => t.boot.hiLatch) =
    some (some 5) := by decide +kernel
/-- R315: a function-level reset clears Bus Master Enable. -/
theorem test_flr : after (exec .functionLevelReset up) (fun t => t.hst.bme) = some false := by decide +kernel
/-- R310: a write of a register with 2 bytes is a violation. -/
theorem test_bad_size : after (exec (.registerWrite 0 0x300008 2 1) up) (fun t => (t.hst.viol, t.chd.arb)) = some (1, 0x42040401) := by decide +kernel
/-- Table 09-10: CHD_ARB keeps 32 bits. -/
theorem test_chd_arb : after (exec (.registerWrite 0 0x300008 8 0xFFFFFFFF11223344) up) (fun t => t.chd.arb) = some 0x11223344 := by decide +kernel
/-- Table 06-18: SADD 3 + 4 + (-1). -/
theorem test_sadd : after (exec (.jSadd (.core 0)) (up.setCtx (.core 0) { Reset.jvi with
    busy := true, code := [BitVec.ofNat 64 (0x10 * 2 ^ 56 + 3 * 2 ^ 51 + 2 ^ 46 + 2 * 2 ^ 41 + 0xFFFFFFFF), 0], s := [(1, 3), (2, 4)] }))
    (fun t => ((t.ctx (.core 0)).getS 3, (t.ctx (.core 0)).pc)) = some (6, 1) := by decide +kernel
/-- R322: a frame that is none of ARP, Neighbor Discovery and echo is dropped and counted. -/
theorem test_other_frame : after (exec (.ethFrameReceive 0 .other ⟨100, 0, true, true⟩) (up.onEthPort 0 fun e => { e with state := 1 })) (fun t => (t.ethPort 0).other) =
    some 1 := by decide +kernel

end Sys2Proof.Tests
end

section
/-! What an event that the Almanac takes can change (R389 to R394, R402): one mask over the state and one relation. -/

namespace Sys2Proof.Machine

/-- The state without what a record below FAULT and its message write: the Almanac's ring with its counters, SMB_ALERT#, host-bound
messages with the write log and its ring in G7, and the output. -/
def State.sansReports (s : State) : State := { s with
  boot := { s.boot with smbAlert := false }
  alm := { s.alm with
    ring := [], nextSeq := 0, flushing := false, flushDue := false, lost := 0, lostRing := 0, lostFlash := 0, lostSeq := 0, folded := 0
    rows := [] }
  hst := { s.hst with pba := [], wait := [], wlog := [], wlogPos := 0, handed := 0, lastAddr := none }
  mem := { s.mem with g7 := [], badG7 := [] }
  out := [] }

/-- From s to t the module reported only: nothing else changed, and G7 changed inside the host write log alone. -/
structure State.OnlyReports (s t : State) : Prop where
  rest : t.sansReports = s.sansReports
  g7 : s.SameG7 t

open Sys2Proof.Laws

/-! ### The relation -/

theorem State.OnlyReports.of_mem {s t : State} (h : t.sansReports = s.sansReports) (hm : t.mem = s.mem) : s.OnlyReports t :=
  ⟨h, fun _ _ => by rw [hm], fun _ _ => by unfold State.g7Health State.g7Rule; rw [hm]⟩

theorem State.OnlyReports.refl (s : State) : s.OnlyReports s := ⟨rfl, sameG7_refl s⟩

section
variable {s t u : State} (h : s.OnlyReports t)
include h

theorem State.OnlyReports.wlogBase : t.hst.wlogBase = s.hst.wlogBase := by
  simpa [State.sansReports] using congrArg (fun x : State => x.hst.wlogBase) h.rest
theorem State.OnlyReports.wlogSize : t.hst.wlogSize = s.hst.wlogSize := by
  simpa [State.sansReports] using congrArg (fun x : State => x.hst.wlogSize) h.rest
theorem State.OnlyReports.viol : t.hst.viol = s.hst.viol := by
  simpa [State.sansReports] using congrArg (fun x : State => x.hst.viol) h.rest
theorem State.OnlyReports.oor : t.hst.oor = s.hst.oor := by
  simpa [State.sansReports] using congrArg (fun x : State => x.hst.oor) h.rest
theorem State.OnlyReports.slow : t.mem.slow = s.mem.slow := by
  simpa [State.sansReports] using congrArg (fun x : State => x.mem.slow) h.rest
theorem State.OnlyReports.cp : t.cp = s.cp := by
  simpa [State.sansReports] using congrArg State.cp h.rest

theorem State.OnlyReports.trans (k : t.OnlyReports u) : s.OnlyReports u :=
  ⟨k.rest.trans h.rest, sameG7_trans h.g7 k.g7 h.wlogBase h.wlogSize⟩

/-- A masked part may be written first, with reports after it. -/
theorem State.OnlyReports.after (hr : s.sansReports = u.sansReports := by rfl) (hm : s.mem = u.mem := by rfl) : u.OnlyReports t :=
  .trans (.of_mem hr hm) h
/-- A masked part may be written last, with reports before it. -/
theorem State.OnlyReports.before (hr : u.sansReports = t.sansReports := by rfl) (hm : u.mem = t.mem := by rfl) : s.OnlyReports u :=
  .trans h (.of_mem hr hm)

end

/-! ### The Almanac's operations -/

theorem onlyReports_msix (s : State) (v : Nat) : s.OnlyReports (s.msix v) := by
  obtain ⟨h, hg⟩ := msix_frame s v
  exact ⟨by rw [h]; rfl, hg⟩

theorem onlyReports_alert (s : State) : s.OnlyReports s.alert := (onlyReports_msix _ 272).after

theorem onlyReports_startFlush (s : State) : s.OnlyReports s.startFlush := by
  unfold State.startFlush
  split
  · exact .refl s
  · split <;> exact .of_mem rfl rfl

theorem onlyReports_almLoss (s : State) : s.OnlyReports s.almLoss := .of_mem rfl rfl

theorem onlyReports_makePlace (s : State) : s.OnlyReports s.makePlace := by
  unfold State.makePlace
  split
  · exact .refl s
  · exact .of_mem rfl rfl

theorem onlyReports_pushRec (s : State) (r : AlmRec) : s.OnlyReports (s.pushRec r) := by
  unfold State.pushRec
  dsimp only
  split
  · exact (onlyReports_startFlush _).after
  · exact .of_mem rfl rfl

/-- The record of one loss that is owed. -/
theorem onlyReports_lostRec (s : State) (place count : Nat) :
    s.OnlyReports (s.makePlace.pushRec (s.lostRec place count)).alert :=
  ((onlyReports_makePlace s).trans (onlyReports_pushRec _ _)).trans (onlyReports_alert _)

theorem onlyReports_payLost (s : State) : s.OnlyReports s.payLost := by
  have one (u : State) (place count : Nat) : u.OnlyReports (if count = 0 ∨ !u.ringRoom then u else
      (u.makePlace.pushRec (u.lostRec place count)).alert.onAlm fun a =>
        if place = 0 then { a with lostRing := 0 } else { a with lostFlash := 0 }) := by
    split
    · exact .refl u
    · split <;> exact (onlyReports_lostRec u place count).before
  exact (one s 0 _).trans (one _ 1 _)

theorem onlyReports_appendRec (s : State) (r : AlmRec) : s.OnlyReports (s.appendRec r) := by
  unfold State.appendRec
  dsimp only
  split
  · exact ((onlyReports_payLost s).trans (onlyReports_makePlace _)).trans (onlyReports_pushRec _ r)
  · split
    · exact onlyReports_almLoss s
    · split
      · exact (onlyReports_almLoss s).trans (onlyReports_pushRec _ r).after
      · exact onlyReports_almLoss s

theorem onlyReports_recMessages (s : State) {r : AlmRec} (fold : Bool) (h : r.sev ≠ .fault) : s.OnlyReports (s.recMessages r fold) := by
  unfold State.recMessages
  dsimp only
  rw [if_neg (fun hc => h hc.1)]
  split
  · exact onlyReports_alert s
  · exact .refl s

theorem onlyReports_takeRec (s : State) {r : AlmRec} (h : r.sev ≠ .fault) : s.OnlyReports (s.takeRec r) := by
  unfold State.takeRec
  dsimp only
  rw [if_neg (fun hc : r.sev = .fault ∧ _ => h hc.1)]
  split
  · exact onlyReports_appendRec s r
  · exact (onlyReports_appendRec s r).trans (onlyReports_recMessages _ false h)

/-- An event below FAULT reports only (R391 to R394, R402). -/
theorem onlyReports_reportRep (s : State) (rep code : Nat) {sev : Severity} (kind index : Nat) (p : List Byte) (h : sev ≠ .fault) :
    s.OnlyReports (s.reportRep rep code sev kind index p) := by
  unfold State.reportRep
  dsimp only
  split
  · split
    · exact (onlyReports_recMessages _ true h).after
    · exact onlyReports_takeRec s h
  · exact onlyReports_takeRec s h

theorem onlyReports_report (s : State) (code : Nat) {sev : Severity} (kind index : Nat) (p : List Byte) (h : sev ≠ .fault) :
    s.OnlyReports (s.report code sev kind index p) := onlyReports_reportRep s 0 code kind index p h

/-- So does an event of a row whose records are limited (R393). -/
theorem onlyReports_rowReport (s : State) (key code : Nat) {sev : Severity} (kind index : Nat) (p : List Byte) (h : sev ≠ .fault) :
    s.OnlyReports (s.rowReport key code sev kind index p) := by
  unfold State.rowReport
  split
  · split
    · dsimp only
      split
      · split
        · exact (onlyReports_alert _).after
        · exact .of_mem rfl rfl
      · exact .of_mem rfl rfl
    · exact (onlyReports_reportRep s _ code kind index p h).before
  · exact (onlyReports_report s code kind index p h).before

/-- A violation by the host is counted, and reported. -/
theorem onlyReports_hostViol (s : State) (row : Nat) (hdr : Word64) :
    (s.onHst fun h => { h with viol := inc h.viol }).OnlyReports (s.hostViol row hdr) :=
  onlyReports_rowReport _ _ _ _ _ _ (by decide)

theorem hostViol_viol (s : State) (row : Nat) (hdr : Word64) : (s.hostViol row hdr).hst.viol = s.hst.viol + 1 :=
  (onlyReports_hostViol s row hdr).viol
theorem hostViol_oor (s : State) (row : Nat) (hdr : Word64) : (s.hostViol row hdr).hst.oor = s.hst.oor :=
  (onlyReports_hostViol s row hdr).oor
theorem hostViol_cp (s : State) (row : Nat) (hdr : Word64) : (s.hostViol row hdr).cp = s.cp := (onlyReports_hostViol s row hdr).cp
theorem hostViol_slow (s : State) (row : Nat) (hdr : Word64) : (s.hostViol row hdr).mem.slow = s.mem.slow :=
  (onlyReports_hostViol s row hdr).slow
theorem sameG7_hostViol (s : State) (row : Nat) (hdr : Word64) : s.SameG7 (s.hostViol row hdr) :=
  sameG7_trans (sameG7_refl s) (onlyReports_hostViol s row hdr).g7 rfl rfl

end Sys2Proof.Machine
end

section
/-! Bytes, codewords and the detectors of a state without injections. -/

namespace Sys2Proof.Machine

open Sys2Proof.Laws

/-! ### No injection is set (R404, R405) -/

theorem opportunity_of_slots_nil {s : State} (h : s.alm.slots = []) (det kind index tile : Nat) (ok : Nat → Bool) :
    s.opportunity det kind index tile ok = (none, s) := by
  have idle : ∀ k, slotMatches (s.injSlot k) det kind index tile ok = false := fun k => by
    simp [slotMatches, State.injSlot, h, Sparse.get, Reset.slot]
  unfold State.opportunity
  induction List.range 16 with
  | nil => rfl
  | cons k l ih => simpa [idle] using ih

section
variable {s : State} (h : s.Quiet)
include h

theorem State.Quiet.fires (det kind index : Nat) : s.fires det kind index = (false, s) := by
  unfold State.fires
  rw [opportunity_of_slots_nil h.1]
  rfl

theorem State.Quiet.injEnd (kind index : Nat) : s.injEnd kind index = s := by
  have kept : s.alm.injKeys.filter (· != srcKey kind index) = s.alm.injKeys := by rw [h.2]; rfl
  show { s with alm := { s.alm with injKeys := s.alm.injKeys.filter (· != srcKey kind index) } } = s
  rw [kept]

theorem State.Quiet.tlp : s.tlp = s := by
  simp [State.tlp, h.fires, h.injEnd]

end

/-! ### Bytes -/

/-- What a store leaves at each address. -/
theorem read_write (m : List Host.Cell) (a : Nat) (d : List Byte) (j : Nat) : Memory.read (Memory.write m a d) j =
    if a ≤ j ∧ j < a + d.length then d.getD (j - a) 0 else Memory.read m j := by
  split
  · rename_i h
    obtain ⟨i, rfl⟩ := Nat.exists_eq_add_of_le h.1
    rw [read_write_same d m a i (by omega), Nat.add_sub_cancel_left, List.getD_eq_getElem]
  · exact read_write_other d m a j (by omega)

/-- A store of zeros over a codeword. -/
theorem read_write_zeros (m : List Host.Cell) (k j : Nat) : Memory.read (Memory.write m (32 * k) (List.replicate 32 0)) j =
    if j / 32 = k then 0 else Memory.read m j := by
  rw [read_write, List.length_replicate]
  by_cases h : j / 32 = k
  · rw [if_pos h, if_pos (by omega), List.getD_replicate _ (by omega)]
  · rw [if_neg h, if_neg (by omega)]

theorem getD_leBytes {n i : Nat} (v : Nat) (h : i < n) : (leBytes n v).getD i 0 = BitVec.ofNat 8 (v / 256 ^ i) := by
  induction n generalizing v i with
  | zero => omega
  | succ n ih =>
    cases i with
    | zero => simp [leBytes]
    | succ i =>
      rw [leBytes, List.getD_cons_succ, ih (v / 256) (by omega), Nat.div_div_eq_div_mul, Nat.pow_succ']

/-- The bytes from place i on of a block stored in a mailbox at `off` leave its reserved bytes (R14, Table 13-7). -/
theorem read_mboxStore_from (off a : Nat) (d : List Byte) (i : Nat) (m : List Host.Cell) :
    Memory.read ((d.zipIdx i).foldl (fun m p => if mboxReserved (off + p.2) then m else Memory.write m (off + p.2) [p.1]) m) a =
      if off + i ≤ a ∧ a < off + i + d.length ∧ mboxReserved a = false then d.getD (a - (off + i)) 0 else Memory.read m a := by
  induction d generalizing i m with
  | nil => rw [if_neg (by simp only [List.length_nil]; omega)]; rfl
  | cons b d ih =>
    rw [List.zipIdx_cons, List.foldl_cons, ih, List.length_cons]
    by_cases ha : a = off + i
    · subst ha
      rw [if_neg (by omega), Nat.sub_self, List.getD_cons_zero]
      by_cases hr : mboxReserved (off + i) = true
      · simp [hr]
      · rw [Bool.not_eq_true] at hr
        simp [hr, read_write]
    · have other : Memory.read (if mboxReserved (off + i) then m else Memory.write m (off + i) [b]) a = Memory.read m a := by
        split
        · rfl
        · exact read_write_other [b] m (off + i) a (by simp; omega)
      rw [other]
      by_cases hi : off + (i + 1) ≤ a
      · rw [show a - (off + i) = a - (off + (i + 1)) + 1 by omega, List.getD_cons_succ]
        exact if_congr (by constructor <;> rintro ⟨h1, h2, h3⟩ <;> exact ⟨by omega, by omega, h3⟩) rfl rfl
      · rw [if_neg (by omega), if_neg (by omega)]

theorem read_mboxStore (m : List Host.Cell) (off : Nat) (d : List Byte) (a : Nat) : Memory.read (mboxStore m off d) a =
    if off ≤ a ∧ a < off + d.length ∧ mboxReserved a = false then d.getD (a - off) 0 else Memory.read m a :=
  read_mboxStore_from off a d 0 m

/-! ### Codewords -/

/-- Bytes that lie in one codeword touch it alone. -/
theorem cwSpan_within {off n k : Nat} (h : 32 * k ≤ off) (hn : 0 < n) (he : off + n ≤ 32 * k + 32) : cwSpan off n = [k] := by
  unfold cwSpan
  rw [if_neg (by omega), show (off + n - 1) / 32 - off / 32 + 1 = 1 by omega, show off / 32 = k by omega]
  rfl

theorem cwPart_within {off n k : Nat} (h : 32 * k ≤ off) (he : off + n ≤ 32 * k + 32) : cwPart off n k = (off, n) := by
  unfold cwPart
  rw [Nat.max_eq_left h, Nat.min_eq_left he]
  exact congrArg (off, ·) (Nat.add_sub_cancel_left off n)

end Sys2Proof.Machine
end

section
/-! The memories behind BAR2 and BAR4 (R222 to R224, R309): what a write to one codeword does, and what a poisoned write leaves. -/

namespace Sys2Proof.Machine

open Sys2Proof.Laws

/-! ### Health of codewords -/

theorem g7Health_setG7Health_same (s : State) (k : Nat) (h : CwHealth) : (s.setG7Health k h).g7Health k = h := get_put_same _ _ _ _
theorem g7Health_setG7Health_other (s : State) {k j : Nat} (h : CwHealth) (hj : k ≠ j) :
    (s.setG7Health k h).g7Health j = s.g7Health j := get_put_other_default _ _ _ _ hj

theorem setG7Health_g7 (s : State) (k : Nat) (h : CwHealth) : (s.setG7Health k h).mem.g7 = s.mem.g7 := rfl

/-- Bytes are stored in G7. -/
def State.setG7 (s : State) (off : Nat) (d : List Byte) : State := s.onMem fun m => { m with g7 := Memory.write m.g7 off d }

theorem g7Health_setG7 (s : State) (off : Nat) (d : List Byte) (k : Nat) : (s.setG7 off d).g7Health k = s.g7Health k := rfl
theorem setG7_hst (s : State) (off : Nat) (d : List Byte) : (s.setG7 off d).hst = s.hst := rfl
theorem setG7_g7 (s : State) (off : Nat) (d : List Byte) : (s.setG7 off d).mem.g7 = Memory.write s.mem.g7 off d := rfl

/-- A codeword of G7 becomes the poison word (R224). -/
def State.poisonCw (s : State) (k : Nat) : State := (s.setG7Health k .poison).setG7 (32 * k) (List.replicate 32 0)

theorem g7Health_poisonCw (s : State) (k j : Nat) : (s.poisonCw k).g7Health j = if j = k then .poison else s.g7Health j := by
  unfold State.poisonCw
  rw [g7Health_setG7]
  split
  · rename_i h
    rw [h, g7Health_setG7Health_same]
  · rename_i h
    rw [g7Health_setG7Health_other s .poison (Ne.symm h)]

theorem hst_poisonCw (s : State) (k : Nat) : (s.poisonCw k).hst = s.hst := by
  unfold State.poisonCw
  rw [setG7_hst]
  rfl

theorem read_poisonCw (s : State) (k a : Nat) :
    Memory.read (s.poisonCw k).mem.g7 a = if a / 32 = k then 0 else Memory.read s.mem.g7 a := by
  unfold State.poisonCw
  rw [setG7_g7, read_write_zeros]
  rfl

theorem poisonG7_eq (s : State) (off len : Nat) : s.poisonG7 off len = (cwSpan off len).foldl State.poisonCw s := rfl

/-- The poison word in every codeword of a list, and nothing else of G7 or of the host's part. -/
theorem foldl_poisonCw (l : List Nat) (s : State) : (l.foldl State.poisonCw s).hst = s.hst ∧
    (∀ k, (l.foldl State.poisonCw s).g7Health k = if k ∈ l then .poison else s.g7Health k) ∧
    ∀ a, Memory.read (l.foldl State.poisonCw s).mem.g7 a = if a / 32 ∈ l then 0 else Memory.read s.mem.g7 a := by
  induction l generalizing s with
  | nil => exact ⟨rfl, fun _ => rfl, fun _ => rfl⟩
  | cons c l ih =>
    obtain ⟨hh, hk, ha⟩ := ih (s.poisonCw c)
    refine ⟨by rw [List.foldl_cons, hh, hst_poisonCw], fun k => ?_, fun a => ?_⟩
    · rw [List.foldl_cons, hk, g7Health_poisonCw]
      by_cases hl : k ∈ l <;> by_cases hc : k = c <;> simp [hl, hc]
    · rw [List.foldl_cons, ha, read_poisonCw]
      by_cases hl : a / 32 ∈ l <;> by_cases hc : a / 32 = c <;> simp [hl, hc]

/-! ### What a reader of a codeword of G7 changes -/

theorem g7_g7Retrain (s : State) (c cause : Nat) : (s.g7Retrain c cause).mem.g7 = s.mem.g7 := by
  unfold State.g7Retrain
  dsimp only
  split <;> rfl

theorem g7_g7Ce (s : State) (k : Nat) : (s.g7Ce k).mem.g7 = s.mem.g7 := by
  unfold State.g7Ce
  dsimp only
  split
  · exact g7_g7Retrain _ _ 0
  · rfl

/-- The record and the message of an uncorrectable codeword reach G7 in the write log alone. -/
theorem sameG7_g7Ue (s : State) (k : Nat) : s.SameG7 (s.g7Ue k) := by
  have reports := (onlyReports_report (s.onChannel (s.g7Where (32 * k)).1 fun ch => { ch with ue := inc ch.ue }) 0x0804 (sev := .warn)
    7 (s.g7Where (32 * k)).1 (leBytes 1 (s.g7Where (32 * k)).1 ++ leBytes 4 (s.g7Where (32 * k)).2 ++ leBytes 1 (k % 16) ++
      leBytes 4 s.stepNo) (by decide)).trans (onlyReports_msix _ 273)
  exact sameG7_trans (sameG7_refl s) reports.g7 rfl rfl

section
variable {s : State} (hq : s.Quiet) (k : Nat)
include hq

/-- Without injections a reader meets the codeword's own health. -/
theorem g7Look_health : (s.g7Look k).1 = s.g7Health k := by
  simp only [State.g7Look, hq.fires]
  by_cases h : (s.g7Health k).isBad = true <;> simp [h]

theorem g7_g7Look_of_not_bad (h : (s.g7Health k).isBad = false) : (s.g7Look k).2.mem.g7 = s.mem.g7 := by
  simp only [State.g7Look, hq.fires, h, Bool.false_eq_true, if_false]
  split <;> split <;> simp [State.injEnd, g7_g7Ce]

theorem sameG7_g7Look_of_bad (h : (s.g7Health k).isBad = true) : s.SameG7 (s.g7Look k).2 := by
  simp only [State.g7Look, hq.fires, h, if_true]
  split
  · exact sameG7_g7Ue s k
  · exact sameG7_g7Ue s k

end

/-! ### A write to one codeword of G7 -/

/-- The state in which a write of G7 reaches its codeword: accesses that met a retraining channel are parked (R232). -/
def State.withParks (s : State) (channels : Sparse Channel) (parked : List (Nat × List Byte)) : State :=
  { s with mem := { s.mem with channels := channels, parked := parked } }

theorem park_frame (s : State) (c : Nat) : ∃ l, s.park c = s.withParks l s.mem.parked := by
  unfold State.park
  split
  · exact ⟨_, rfl⟩
  · exact ⟨s.mem.channels, rfl⟩

theorem parkAll_frame (s : State) (off len : Nat) : ∃ l, s.parkAll off len = s.withParks l s.mem.parked := by
  unfold State.parkAll
  induction granSpan off len generalizing s with
  | nil => exact ⟨s.mem.channels, rfl⟩
  | cons g l ih =>
    obtain ⟨c, hc⟩ := park_frame s (s.g7Channel (512 * g))
    obtain ⟨c', h⟩ := ih (s.park (s.g7Channel (512 * g)))
    exact ⟨c', by rw [List.foldl_cons, h, hc]; rfl⟩

/-- A write that lies in one codeword replaces it whole, or merges a part after a read, or leaves the poison word (R224). -/
theorem writeG7_within (s : State) {off k : Nat} {d : List Byte} (h : 32 * k ≤ off) (h0 : 0 < d.length)
    (he : off + d.length ≤ 32 * k + 32) : ∃ channels parked, s.writeG7 off d =
      let u := s.withParks channels parked
      if d.length = 32 then (u.setG7Health k .good).setG7 off d
      else if (u.g7Look k).1.isBad then (u.g7Look k).2.poisonCw k
      else ((u.g7Look k).2.setG7Health k .good).setG7 off d := by
  obtain ⟨c, hc⟩ := parkAll_frame s off d.length
  have parks (u : State) (x : Prop) [Decidable x] : ∃ q, (if x then u.onMem fun m => { m with parked := m.parked ++ [(off, d)] } else u) =
      u.withParks u.mem.channels q := by
    split
    · exact ⟨_, rfl⟩
    · exact ⟨u.mem.parked, rfl⟩
  unfold State.writeG7
  rw [cwSpan_within h h0 he, List.foldl_cons, List.foldl_nil, hc]
  unfold State.writeG7Cw
  rw [cwPart_within h he]
  dsimp only
  rw [Nat.sub_self, List.drop_zero, List.take_length]
  obtain ⟨q, hq⟩ := parks (s.withParks c s.mem.parked)
    (((s.withParks c s.mem.parked).channel ((s.withParks c s.mem.parked).g7Channel (32 * k))).state = .retrain)
  rw [hq]
  exact ⟨c, q, rfl⟩

theorem read_writeG7_whole (s : State) {k : Nat} {d : List Byte} (hd : d.length = 32) (a : Nat) :
    Memory.read (s.writeG7 (32 * k) d).mem.g7 a =
      if 32 * k ≤ a ∧ a < 32 * k + 32 then d.getD (a - 32 * k) 0 else Memory.read s.mem.g7 a := by
  obtain ⟨c, p, e⟩ := writeG7_within s (k := k) (d := d) le_rfl (by omega) (by omega)
  rw [e]
  dsimp only
  rw [if_pos hd, setG7_g7, read_write, hd]
  rfl

section
variable {s : State} (hq : s.Quiet) {off k : Nat} {d : List Byte} (h : 32 * k ≤ off) (h0 : 0 < d.length) (h1 : d.length < 32)
  (he : off + d.length ≤ 32 * k + 32)
include hq h h0 h1 he

theorem writeG7_part_of_not_bad (hk : (s.g7Health k).isBad = false) : (s.writeG7 off d).g7Health k = .good ∧
    ∀ a, Memory.read (s.writeG7 off d).mem.g7 a =
      if off ≤ a ∧ a < off + d.length then d.getD (a - off) 0 else Memory.read s.mem.g7 a := by
  obtain ⟨c, p, e⟩ := writeG7_within s h h0 he
  have look : ((s.withParks c p).g7Look k).1.isBad = false := by rw [g7Look_health (s := s.withParks c p) hq k]; exact hk
  have kept : ((s.withParks c p).g7Look k).2.mem.g7 = s.mem.g7 := g7_g7Look_of_not_bad (s := s.withParks c p) hq k hk
  rw [e]
  dsimp only
  rw [if_neg (by omega), look, if_neg Bool.false_ne_true]
  refine ⟨(g7Health_setG7 _ off d k).trans (g7Health_setG7Health_same _ k .good), fun a => ?_⟩
  rw [setG7_g7, read_write, setG7Health_g7, kept]

theorem writeG7_part_of_bad (hk : (s.g7Health k).isBad = true) : (s.writeG7 off d).g7Health k = .poison ∧
    ∀ a, ¬s.inLog a → Memory.read (s.writeG7 off d).mem.g7 a = if a / 32 = k then 0 else Memory.read s.mem.g7 a := by
  obtain ⟨c, p, e⟩ := writeG7_within s h h0 he
  have look : ((s.withParks c p).g7Look k).1.isBad = true := by rw [g7Look_health (s := s.withParks c p) hq k]; exact hk
  have kept := (sameG7_g7Look_of_bad (s := s.withParks c p) hq k hk).1
  rw [e]
  dsimp only
  rw [if_neg (by omega), if_pos look]
  refine ⟨(g7Health_poisonCw _ k k).trans (if_pos rfl), fun a ha => ?_⟩
  rw [read_poisonCw, kept a ha]
  rfl

end

/-! ### The slow tier and the scratchpads -/

theorem writeSlow_whole (s : State) {k : Nat} {d : List Byte} (hd : d.length = 32) : s.writeSlow (32 * k) d =
    (s.setSlowHealth k .good).onMem fun m => { m with slow := Memory.write m.slow (32 * k) d } := by
  unfold State.writeSlow
  rw [cwSpan_within le_rfl (by omega) (by omega), List.foldl_cons, List.foldl_nil]
  unfold State.writeSlowCw
  rw [cwPart_within le_rfl (by omega)]
  dsimp only
  rw [if_pos hd, Nat.sub_self, List.drop_zero, List.take_length]

theorem storeSlow_of_le {off : Nat} (s : State) (d : List Byte) (h : 4096 ≤ off) : s.storeSlow off d = s.writeSlow off d := by
  unfold State.storeSlow
  rw [Nat.max_eq_left h, Nat.sub_eq_zero_of_le h, List.drop_zero]

/-- A store within the layout directory changes nothing (R197). -/
theorem storeSlow_directory {off : Nat} (s : State) {d : List Byte} (h : off + d.length ≤ 4096) : s.storeSlow off d = s := by
  unfold State.storeSlow
  rw [List.drop_eq_nil_of_le (by omega)]
  rfl

theorem writePad_whole (s : State) (p : Nat) {k : Nat} {d : List Byte} (hd : d.length = 32) : s.writePad p (32 * k) d =
    s.onTileMem p fun m => { m with pad := Memory.write m.pad (32 * k) d, badPad := Sparse.put .good m.badPad k .good } := by
  unfold State.writePad
  rw [cwSpan_within le_rfl (by omega) (by omega), List.foldl_cons, List.foldl_nil]
  unfold State.writePadCw
  rw [cwPart_within le_rfl (by omega)]
  dsimp only
  rw [if_neg (fun hc => hc.1 hd), Nat.sub_self, List.drop_zero, List.take_length]

/-! ### Places of the windows (Table 11-2) -/

theorem barPlace_bar2 (s : State) {off len : Nat} (h : off + len ≤ g7Size) : s.barPlace .bar2 off len = some (.g7 off) := if_pos h

theorem barPlace_slow (s : State) {off len : Nat} (h : off + len ≤ slowSize) : s.barPlace .bar4 off len = some (.slow off) := if_pos h

theorem barPlace_pad (s : State) {e o len p : Nat} (he : e < 64) (hp : s.ptile e = some p) (h : o + len ≤ padSize) (hl : 0 < len) :
    s.barPlace .bar4 (0x10000000000 + 0x800000 * e + o) len = some (.pad e o) := by
  unfold padSize at h
  have engine : (0x10000000000 + 0x800000 * e + o - 0x10000000000) / 0x800000 = e := by omega
  have offset : (0x10000000000 + 0x800000 * e + o - 0x10000000000) % 0x800000 = o := by omega
  unfold State.barPlace
  dsimp only
  rw [engine, offset, if_neg (by unfold slowSize; omega), if_pos ⟨by omega, he, by unfold padSize; omega, by rw [hp]; rfl⟩]

end Sys2Proof.Machine
end

section
/-! The host's accesses (R309, R310, R312): what each command of the host does on a link that is up, without injections. -/

namespace Sys2Proof.Machine

open Sys2Proof.Laws

/-! ### BAR0 -/

/-- A write of 8 bytes in MB[n]. -/
theorem bar0Write_mbox (s : State) (hdr v : Word64) (n : Fin 15) {k : Nat} (h8 : k % 8 = 0) (hk : k + 8 ≤ 4096) :
    s.bar0Write hdr (0x1000 * (n + 1) + k) 8 v = s.setMbox (.pcie n) { s.mbox (.pcie n) with
      bytes := mboxStore (s.mbox (.pcie n)).bytes k (leBytes 8 v.toNat) } := by
  have aligned : (0x1000 * (n.val + 1) + k) / 8 * 8 = 0x1000 * (n.val + 1) + k := by omega
  have box : (0x1000 * (n.val + 1) + k) / 0x1000 - 1 = n.val := by omega
  have byte : (0x1000 * (n.val + 1) + k) % 0x1000 = k := by omega
  unfold State.bar0Write
  simp only [aligned, box, byte]
  rw [if_neg (by omega), if_pos (by omega), dif_pos n.isLt]

/-- A write of 8 bytes of CHD_ARB keeps its 32 bits (Table 09-10). -/
theorem bar0Write_chdArb (s : State) (hdr v : Word64) :
    s.bar0Write hdr 0x300008 8 v = s.onChd fun c => { c with arb := v &&& 0xFFFFFFFF } := by
  simp [State.bar0Write, State.writeChord, mergeReg]

section
variable {s : State} (hq : s.Quiet) (hl : s.linkUp = true) (hdr : Word64)
include hq hl

theorem exec_registerWrite_accepted {off size : Nat} (v : Word64) (h : bar0Ok off size = true) :
    exec (.registerWrite hdr off size v) s = .next (s.bar0Write hdr off size v) := by
  show execRegisterWrite hdr off size v s = _
  simp [execRegisterWrite, hl, hq.tlp, h]

theorem exec_registerWrite_badSize {off size : Nat} (v : Word64) (h : bar0Ok off size = false) :
    exec (.registerWrite hdr off size v) s = .next (s.hostViol 4 hdr) := by
  show execRegisterWrite hdr off size v s = _
  simp [execRegisterWrite, hl, hq.tlp, h]

theorem exec_bar0BadSizeRead {off size : Nat} (h : bar0Ok off size = false) : exec (.bar0BadSizeRead hdr off size) s =
    .next ((s.hostViol 4 hdr).emit (.completion false (List.replicate size 0))) := by
  show execBar0BadSizeRead hdr off size s = _
  simp [execBar0BadSizeRead, hl, hq.tlp, h]

/-! ### BAR2 and BAR4 -/

theorem exec_barMemoryWrite_placed {b : Bar} {off : Nat} {data : List Byte} {l : Loc} (h : s.barPlace b off data.length = some l) :
    exec (.barMemoryWrite hdr b off data false) s = .next (s.writeLoc l data) := by
  show execBarMemoryWrite hdr b off data false s = _
  simp [execBarMemoryWrite, hl, hq.tlp, h]

theorem exec_barMemoryWrite_outside {b : Bar} {off : Nat} {data : List Byte} (h : s.barPlace b off data.length = none) :
    exec (.barMemoryWrite hdr b off data false) s = .next (s.barOutside hdr) := by
  show execBarMemoryWrite hdr b off data false s = _
  simp [execBarMemoryWrite, hl, hq.tlp, h]

/-- A write of BAR2 received with EP (R309, Table 11-7 row 2). -/
theorem exec_barMemoryWrite_poisoned {off : Nat} {data : List Byte} (h : off + data.length ≤ g7Size) :
    exec (.barMemoryWrite hdr .bar2 off data true) s = .next (((s.aer 1 12).hostViol 2 hdr).poisonG7 off data.length) := by
  show execBarMemoryWrite hdr .bar2 off data true s = _
  simp [execBarMemoryWrite, hl, hq.tlp, barPlace_bar2 _ h, State.poisonLoc]

theorem exec_barMemoryRead_placed {b : Bar} {off len : Nat} {l : Loc} (h : s.barPlace b off len = some l) :
    exec (.barMemoryRead hdr b off len) s =
      .next ((s.readLoc l len).2.2.emit (.completion (s.readLoc l len).2.1 (s.readLoc l len).1)) := by
  show execBarMemoryRead hdr b off len s = _
  simp [execBarMemoryRead, hl, hq.tlp, h]

theorem exec_barMemoryRead_outside {b : Bar} {off len : Nat} (h : s.barPlace b off len = none) :
    exec (.barMemoryRead hdr b off len) s = .next ((s.barOutside hdr).emit (.completion false (List.replicate len 0))) := by
  show execBarMemoryRead hdr b off len s = _
  simp [execBarMemoryRead, hl, hq.tlp, h]

/-! ### HST_FLUSH and the other rows of Table 11-7 -/

omit hdr in
theorem exec_hstFlushRead : exec .hstFlushRead s = .next (s.emit (.completion false (leBytes 8 s.now))) := by
  show execHstFlushRead s = _
  simp [execHstFlushRead, hl, hq.tlp]

theorem exec_malformedTlp : exec (.malformedTlp hdr) s = .next ((s.aer 0 18).hostViol 1 hdr) := by
  show execMalformedTlp hdr s = _
  simp [execMalformedTlp, hl, hq.tlp]

theorem exec_unsupportedRequest (k : UrKind) : exec (.unsupportedRequest hdr k) s = .next (s.unsupported.hostViol 3 hdr) := by
  show execUnsupportedRequest hdr k s = _
  simp [execUnsupportedRequest, hl, hq.tlp]

theorem exec_unexpectedCompletion : exec (.unexpectedCompletion hdr) s = .next ((s.aer 2 16).hostViol 6 hdr) := by
  show execUnexpectedCompletion hdr s = _
  simp [execUnexpectedCompletion, hl, hq.tlp]

end

/-! ### What the accesses leave -/

theorem read_bar0Write_mbox (s : State) (hdr v : Word64) (n : Fin 15) {k : Nat} (h8 : k % 8 = 0) (hk : k + 8 ≤ 4096) (a : Nat) :
    Memory.read ((s.bar0Write hdr (0x1000 * (n + 1) + k) 8 v).mbox (.pcie n)).bytes a =
      if k ≤ a ∧ a < k + 8 ∧ mboxReserved a = false then BitVec.ofNat 8 (v.toNat / 256 ^ (a - k))
      else Memory.read (s.mbox (.pcie n)).bytes a := by
  rw [bar0Write_mbox s hdr v n h8 hk, mbox_setMbox_same, read_mboxStore, length_leBytes]
  split
  · exact getD_leBytes _ (by omega)
  · rfl

/-- An access outside the contents is counted and changes no memory (Table 11-7 row 5). -/
theorem barOutside_frame (s : State) (hdr : Word64) : (s.barOutside hdr).hst.oor = s.hst.oor + 1 ∧
    (s.barOutside hdr).hst.viol = s.hst.viol + 1 ∧ s.SameG7 (s.barOutside hdr) ∧ (s.barOutside hdr).mem.slow = s.mem.slow := by
  unfold State.barOutside
  exact ⟨hostViol_oor _ 5 hdr, hostViol_viol _ 5 hdr, sameG7_hostViol (s.onHst fun h => { h with oor := inc h.oor }) 5 hdr,
    hostViol_slow _ 5 hdr⟩

/-- A write received with EP is counted and leaves the poison word in the codewords that it touches. -/
theorem poisonedWrite_frame (s : State) (hdr : Word64) (off len : Nat) :
    let t := ((s.aer 1 12).hostViol 2 hdr).poisonG7 off len
    t.hst.viol = s.hst.viol + 1 ∧
      (∀ k ∈ cwSpan off len, t.g7Health k = .poison ∧ ∀ a, 32 * k ≤ a → a < 32 * k + 32 → Memory.read t.mem.g7 a = 0) ∧
      ∀ a, ¬s.inLog a → a / 32 ∉ cwSpan off len → Memory.read t.mem.g7 a = Memory.read s.mem.g7 a := by
  dsimp only
  rw [poisonG7_eq]
  obtain ⟨hh, hk, ha⟩ := foldl_poisonCw (cwSpan off len) ((s.aer 1 12).hostViol 2 hdr)
  refine ⟨by rw [hh, hostViol_viol]; rfl, fun k hm => ⟨by rw [hk, if_pos hm], fun a h1 h2 => ?_⟩, fun a hn hs => ?_⟩
  · rw [ha, show a / 32 = k by omega, if_pos hm]
  · rw [ha, if_neg hs]
    exact (sameG7_hostViol (s.aer 1 12) 2 hdr).1 a hn

theorem writeLoc_pad {s : State} {e p : Nat} (hp : s.ptile e = some p) (o : Nat) (d : List Byte) :
    s.writeLoc (.pad e o) d = s.writePad p o d := by
  simp only [State.writeLoc, hp]

theorem read_writePad_whole (s : State) (p : Nat) {k : Nat} {d : List Byte} (hd : d.length = 32) (a : Nat) :
    Memory.read ((s.writePad p (32 * k) d).tile p).mem.pad a =
      if 32 * k ≤ a ∧ a < 32 * k + 32 then d.getD (a - 32 * k) 0 else Memory.read (s.tile p).mem.pad a := by
  rw [writePad_whole s p hd, State.onTileMem, tile_onTile_same, read_write, hd]

theorem read_writeSlow_whole (s : State) {k : Nat} {d : List Byte} (hd : d.length = 32) (a : Nat) :
    Memory.read (s.writeSlow (32 * k) d).mem.slow a =
      if 32 * k ≤ a ∧ a < 32 * k + 32 then d.getD (a - 32 * k) 0 else Memory.read s.mem.slow a := by
  rw [writeSlow_whole s hd, onMem_mem, read_write, hd]
  rfl

end Sys2Proof.Machine

namespace Sys2Proof.Proofs

open Sys2Proof.Machine Sys2Proof.Laws

/-- Settles O1: `step` on a queue that is not empty. -/
theorem stepRunsFront : Obligations.StepRunsFront := by
  intro c r s hs
  unfold step
  rw [hs]

/-- Settles O57: each clause names the command's equation and what the state it reaches holds. -/
theorem hostAccesses : Obligations.HostAccesses := by
  intro s hdr v off size len b data hq hl
  refine ⟨exec_registerWrite_accepted hq hl hdr v, ?mailbox, ?chdArb, ?g7Whole, ?g7Part, ?g7Poisoned, ?slow, ?directory, ?pad, ?outside,
    fun l => exec_barMemoryRead_placed hq hl hdr, ?readOutside, ⟨_, exec_hstFlushRead hq hl, rfl⟩, fun k => ⟨?badSize, ?rows⟩⟩
  case mailbox =>
    intro n k h8 hk
    have accepted : bar0Ok (0x1000 * (n + 1) + k) 8 = true := by simp [bar0Ok]; omega
    exact ⟨_, exec_registerWrite_accepted hq hl hdr v accepted, read_bar0Write_mbox s hdr v n h8 hk⟩
  case chdArb => exact ⟨_, exec_registerWrite_accepted hq hl hdr v (by decide), by rw [bar0Write_chdArb]; rfl⟩
  case g7Whole =>
    intro k hd hk
    exact ⟨_, exec_barMemoryWrite_placed hq hl hdr (barPlace_bar2 s (by omega)), read_writeG7_whole s hd⟩
  case g7Part =>
    intro k j h0 h1 hj hk
    refine ⟨_, exec_barMemoryWrite_placed hq hl hdr (barPlace_bar2 s (by omega)), fun a => ⟨fun hg => ?_, fun hb => ?_⟩⟩
    · obtain ⟨hh, hr⟩ := writeG7_part_of_not_bad hq (Nat.le_add_right _ j) h0 h1 (by omega) hg
      exact ⟨hh, hr a⟩
    · obtain ⟨hh, hr⟩ := writeG7_part_of_bad hq (Nat.le_add_right _ j) h0 h1 (by omega) hb
      exact ⟨hh, fun hn => (hr a hn).trans (if_congr (by omega) rfl rfl)⟩
  case g7Poisoned =>
    intro h
    exact ⟨_, exec_barMemoryWrite_poisoned hq hl hdr h, poisonedWrite_frame s hdr off data.length⟩
  case slow =>
    intro k hd hk hs
    refine ⟨_, exec_barMemoryWrite_placed hq hl hdr (barPlace_slow s (by omega)), ?_⟩
    rw [State.writeLoc, storeSlow_of_le s data hk]
    exact ⟨by rw [writeSlow_whole s hd]; rfl, read_writeSlow_whole s hd⟩
  case directory =>
    intro h
    refine ⟨_, exec_barMemoryWrite_placed hq hl hdr (barPlace_slow s (by unfold slowSize; omega)), ?_⟩
    rw [State.writeLoc, storeSlow_directory s h]
  case pad =>
    intro e p k he hp hd hk
    refine ⟨_, exec_barMemoryWrite_placed hq hl hdr (barPlace_pad s he hp (by omega) (by omega)), ?_⟩
    rw [writeLoc_pad hp]
    exact ⟨by rw [writePad_whole s p hd]; rfl, read_writePad_whole s p hd⟩
  case outside =>
    intro h
    exact ⟨_, exec_barMemoryWrite_outside hq hl hdr h, barOutside_frame s hdr⟩
  case readOutside =>
    intro h
    obtain ⟨hoor, -⟩ := barOutside_frame s hdr
    exact ⟨_, exec_barMemoryRead_outside hq hl hdr h, hoor, rfl⟩
  case badSize =>
    intro h i hi
    simp only [List.mem_cons, List.not_mem_nil, or_false] at hi
    obtain rfl | rfl := hi
    · exact ⟨_, exec_registerWrite_badSize hq hl hdr v h, hostViol_viol s 4 hdr, congrArg Cp.mbx (hostViol_cp s 4 hdr)⟩
    · exact ⟨_, exec_bar0BadSizeRead hq hl hdr h, hostViol_viol s 4 hdr, congrArg Cp.mbx (hostViol_cp s 4 hdr)⟩
  case rows =>
    intro i hi
    simp only [List.mem_cons, List.not_mem_nil, or_false] at hi
    obtain rfl | rfl | rfl := hi
    · exact ⟨_, exec_malformedTlp hq hl hdr, hostViol_viol _ 1 hdr, hostViol_oor _ 1 hdr⟩
    · exact ⟨_, exec_unsupportedRequest hq hl hdr k, hostViol_viol _ 3 hdr, hostViol_oor _ 3 hdr⟩
    · exact ⟨_, exec_unexpectedCompletion hq hl hdr, hostViol_viol _ 6 hdr, hostViol_oor _ 6 hdr⟩

end Sys2Proof.Proofs
end

section
/-! Stavmon commands (R374 to R376): the command that each row of Table 13-9 runs, and how one that is taken or denied ends. -/

namespace Sys2Proof.Machine

open Sys2Proof.Laws

/-! ### What a command runs -/

section
variable {s : State} {r : Route} {op : Nat} {waits : List Byte → Bool} (f : List Byte → State → CmdResult)

/-- A command that is denied has no effect to wait for. -/
theorem commandUnless_of_denied {st : Word16} (h : s.deny r op = some st) : s.commandUnless r op waits f = s.command r op f :=
  if_neg fun hc => by rw [h] at hc; cases hc.1

theorem commandUnless_of_ready (h : waits (s.payload r) = false) : s.commandUnless r op waits f = s.command r op f :=
  if_neg fun hc => Bool.false_ne_true (h.symm.trans hc.2)

/-- A command whose effect must wait stays posted. -/
theorem commandUnless_of_waits (hd : s.deny r op = none) (h : waits (s.payload r) = true) : s.commandUnless r op waits f = s :=
  if_pos ⟨hd, h⟩

end

/-- SEC_ATTEST needs a reserve record that the flash cannot take now (R35, R368). -/
def State.attestWaits (s : State) : Bool :=
  s.flashBusy && s.flash.seed.isSome && !s.attestSoon && s.lmsLeft != 0 && decide (s.flash.lmsClaimed ≤ s.flash.lmsNext)

section
variable {s : State} {r : Route}

theorem exec_secAttest_of_ready (h : s.attestWaits = false) : exec (.secAttest r) s = .next (s.command r 0x0902 secAttestCmd) :=
  congrArg Host.Outcome.next (commandUnless_of_ready secAttestCmd h)

theorem exec_secAttest_of_waits (hd : s.deny r 0x0902 = none) (h : s.attestWaits = true) : exec (.secAttest r) s = .next s :=
  congrArg Host.Outcome.next (commandUnless_of_waits secAttestCmd hd h)

theorem exec_secFwWrite_of_free (h : s.flashBusy = false) : exec (.secFwWrite r) s = .next (s.command r 0x0903 secFwWriteCmd) :=
  congrArg Host.Outcome.next (commandUnless_of_ready secFwWriteCmd (by simp [h]))

theorem exec_secFwWrite_of_busy (hd : s.deny r 0x0903 = none) (h : s.flashBusy = true)
    (hl : le (s.payload r) 0 8 + ((s.payload r).drop 8).length ≤ 0x8000000) : exec (.secFwWrite r) s = .next s :=
  congrArg Host.Outcome.next (commandUnless_of_waits secFwWriteCmd hd (by simp only [h, hl, decide_true, Bool.and_self]))

theorem exec_secFwActivate_of_free (h : s.flashBusy = false) : exec (.secFwActivate r) s = .next (s.command r 0x0904 secFwActivateCmd) :=
  congrArg Host.Outcome.next (commandUnless_of_ready secFwActivateCmd (by simp [h]))

theorem exec_secFwActivate_of_busy (hd : s.deny r 0x0904 = none) (h : s.flashBusy = true) (hi : s.imageFails s.otherSlot = none) :
    exec (.secFwActivate r) s = .next s :=
  congrArg Host.Outcome.next (commandUnless_of_waits secFwActivateCmd hd (by simp [h, hi]))

end

/-- Every row of Table 13-9 runs its effect through the mailbox of its route; a SEC command does so once the flash is free, or
where it is denied. -/
theorem exec_stavmonOp {s : State} {r : Route} : ∀ o ∈ stavmonOps,
    (o.1 / 256 = 9 → s.flashBusy = false ∨ ∃ st, s.deny r o.1 = some st) → ∃ f, exec (o.2 r) s = .next (s.command r o.1 f) := by
  unfold stavmonOps
  simp only [List.forall_mem_cons, List.not_mem_nil, false_imp_iff, implies_true, and_true]
  and_intros
  all_goals intro flash
  any_goals exact ⟨_, rfl⟩
  · obtain free | ⟨_, denied⟩ := flash trivial
    · exact ⟨_, exec_secAttest_of_ready (by simp [State.attestWaits, free])⟩
    · exact ⟨_, congrArg _ (commandUnless_of_denied secAttestCmd denied)⟩
  · obtain free | ⟨_, denied⟩ := flash trivial
    · exact ⟨_, exec_secFwWrite_of_free free⟩
    · exact ⟨_, congrArg _ (commandUnless_of_denied secFwWriteCmd denied)⟩
  · obtain free | ⟨_, denied⟩ := flash trivial
    · exact ⟨_, exec_secFwActivate_of_free free⟩
    · exact ⟨_, congrArg _ (commandUnless_of_denied secFwActivateCmd denied)⟩

/-! ### How a command ends -/

/-- A command that is taken is answered, or runs on (R375). -/
theorem command_ends {s : State} {r : Route} {op : Nat} (h : s.Waits r op) (f : List Byte → State → CmdResult) :
    ((s.command r op f).mbox r).state = .done ∨ ((s.command r op f).mbox r).state = .running := by
  obtain ⟨posted, checked, hop, ready⟩ := h
  unfold State.command
  dsimp only
  rw [if_pos ⟨posted, checked, hop, ready⟩]
  split
  · exact .inl (respond_answers _ _ _ _).2.1
  · split
    · exact .inl (respond_answers _ _ _ _).2.1
    · exact .inr (congrArg Mailbox.state (mbox_setMbox_same _ _ _))
    · exact .inr (congrArg Mailbox.state (mbox_setMbox_same _ _ _))

theorem deny_mainOff_iff {s : State} (hr : s.boot.romOnly = false) (hm : s.boot.mainOn = false) (r : Route) (op : Nat) :
    s.deny r op = some stDeniedRegime ↔ standbyAllows op = false ∨ (op = 0x0C01 ∧ r ≠ .smb) := by
  unfold State.deny
  by_cases ha : standbyAllows op = true
  · by_cases hc : op = 0x0C01 ∧ r ≠ .smb <;> simp [hr, hm, ha, hc]
  · simp [hr, hm, ha]

theorem standbyAllows_iff (op : Nat) : standbyAllows op = true ↔
    op / 256 = 1 ∨ op = 0x0201 ∨ op = 0x0202 ∨ op / 256 = 3 ∨ op / 256 = 8 ∨ op / 256 = 9 ∨ op = 0x0C01 := by
  simp [standbyAllows, or_assoc]

end Sys2Proof.Machine
end

section
/-! The SEC commands (R364 to R369): the claim of LMS indices, attestation, and the image and header that are written. -/

namespace Sys2Proof.Machine

open Sys2Proof.Laws

section
variable {s t : State} (h : s.OnlyReports t)
include h

theorem State.OnlyReports.flash : t.flash = s.flash := by
  simpa [State.sansReports] using congrArg State.flash h.rest
theorem State.OnlyReports.now : t.now = s.now := by
  simpa [State.sansReports, State.now] using congrArg (fun x : State => x.boot.modCount.toNat) h.rest

end

/-! ### SEC_ATTEST (R368, R369) -/

/-- A reserve record changes the claim alone: the next index lies below it then. -/
theorem reserveLms_frame (s : State) : ∃ n, s.reserveLms.flash = { s.flash with lmsClaimed := n } ∧ s.flash.lmsNext < n ∧
    s.reserveLms.now = s.now := by
  unfold State.reserveLms
  split
  · rename_i hc
    exact ⟨s.flash.lmsClaimed, rfl, hc, rfl⟩
  · have reports := onlyReports_report (s.onFlash fun f => { f with lmsClaimed := s.flash.lmsNext + 1024 }) 0x0D0A (sev := .info) 0x0F 0
      (leBytes 4 s.flash.lmsNext ++ leBytes 4 s.lmsLeft) (by decide)
    exact ⟨s.flash.lmsNext + 1024, reports.flash, by omega, reports.now⟩

theorem lmsNext_reserveLms (s : State) : s.reserveLms.flash.lmsNext = s.flash.lmsNext := by
  obtain ⟨n, hf, -, -⟩ := reserveLms_frame s
  rw [hf]

theorem attestSoon_eq_false {s : State} (h : s.flash.lastAttest = none) : s.attestSoon = false := by
  unfold State.attestSoon
  rw [h]

theorem attestSoon_eq_true {s : State} {t : Nat} (h : s.flash.lastAttest = some t) (ht : s.now < t + 1000000000) : s.attestSoon = true := by
  unfold State.attestSoon
  rw [h]
  exact decide_eq_true ht

theorem lmsLeft_ne_zero {s : State} (h : s.flash.lmsNext < 2 ^ 25) : s.lmsLeft ≠ 0 := Nat.sub_ne_zero_of_lt h

theorem secAttestCmd_noSeed {s : State} (h : s.flash.seed = none) (b : List Byte) : secAttestCmd b s = .done stFaulted [] s := by
  unfold secAttestCmd
  rw [h]
  rfl

theorem secAttestCmd_soon {s : State} {seed : List Byte} (h : s.flash.seed = some seed) (hs : s.attestSoon = true) (b : List Byte) :
    secAttestCmd b s = .done stBusy [] s := by
  unfold secAttestCmd
  rw [h]
  exact if_pos hs

/-- The report that SEC_ATTEST answers with: the head, and both signatures of its digest. -/
def State.attestReport (s : State) (seed nonce : List Byte) : List Byte :=
  s.attestHead nonce ++ padTo 96 (Config.ecdsaSign seed (Config.sha384 (s.attestHead nonce))) ++
    padTo 3124 (Config.hssSign seed s.flash.lmsNext (Config.sha384 (s.attestHead nonce)))

/-- An attestation uses one index, which is claimed, and notes its time. -/
theorem secAttestCmd_attests {s : State} {seed : List Byte} (h : s.flash.seed = some seed) (hs : s.attestSoon = false)
    (hl : s.lmsLeft ≠ 0) (b : List Byte) :
    ∃ s', secAttestCmd b s = .done stOk (s.reserveLms.attestReport seed (slice b 0 32)) s' ∧
      s'.flash.lmsNext = s.flash.lmsNext + 1 ∧ s'.flash.lmsNext ≤ s'.flash.lmsClaimed ∧ s'.flash.lastAttest = some s.now := by
  obtain ⟨n, hf, hn, hnow⟩ := reserveLms_frame s
  unfold secAttestCmd
  rw [h]
  dsimp only
  rw [if_neg (by rw [hs]; exact Bool.false_ne_true), if_neg hl]
  refine ⟨_, rfl, ?_⟩
  simp only [onBoot_flash, onFlash_flash, hf, hnow]
  exact ⟨trivial, hn, trivial⟩

/-! ### SEC_FW_WRITE and SEC_FW_ACTIVATE (R364, R365) -/

theorem secFwWriteCmd_fits {b : List Byte} (h : le b 0 8 + (b.drop 8).length ≤ 0x8000000) (s : State) :
    secFwWriteCmd b s = .done stOk [] (s.writeFlash (imageBase s.otherSlot + le b 0 8) (b.drop 8)) := if_neg (by omega)

/-- A field before the bytes that are replaced. -/
theorem le_patch_before {m v : List Byte} {p off n : Nat} (h : off + n ≤ p) (hp : p ≤ m.length) : le (patch m p v) off n = le m off n := by
  have front : ((patch m p v).drop off).take n = (m.drop off).take n := by
    rw [patch, List.append_assoc, List.drop_append_of_le_length (by simp; omega), List.take_append_of_le_length (by simp; omega),
      List.drop_take, List.take_take, Nat.min_eq_left (by omega)]
  rw [le, le, slice, slice, front]

theorem newHeader_magic (i seq : Nat) : le (newHeader i seq) 0 4 = 0x4A4B4648 := by
  unfold newHeader
  rw [le_patch_before (by decide) (by rw [padTo, length_slice]; decide)]
  simp [le, padTo, slice, leBytes, leNat]

/-- The image that a new header selects (Table 13-11). -/
theorem newHeader_image (i seq : Nat) : le (newHeader i seq) 6 1 = i % 256 := by
  unfold newHeader
  rw [le_patch_before (by decide) (by rw [padTo, length_slice]; decide)]
  simp [le, padTo, slice, leBytes, leNat]

theorem secFwActivateCmd_bad {s : State} (h : (s.imageFails s.otherSlot).isSome = true) (b : List Byte) :
    secFwActivateCmd b s = .done stBadCheck [] s := by
  unfold secFwActivateCmd
  exact if_pos h

theorem secFwActivateCmd_good {s : State} (h : s.imageFails s.otherSlot = none) (b : List Byte) :
    ∃ s', secFwActivateCmd b s = .done stOk [] s' ∧ le s'.flash.header 0 4 = 0x4A4B4648 ∧ le s'.flash.header 6 1 = s.otherSlot % 256 := by
  unfold secFwActivateCmd
  dsimp only
  rw [if_neg (by rw [h]; exact Bool.false_ne_true)]
  refine ⟨_, rfl, ?_⟩
  rw [(onlyReports_report _ _ _ _ _ (by decide)).flash]
  exact ⟨newHeader_magic _ _, newHeader_image _ _⟩

end Sys2Proof.Machine
end

section
/-! The statements on the module's composition. -/

namespace Sys2Proof.Proofs

open Sys2Proof.Machine Sys2Proof.Laws

/-- Settles O16: every row of Table 13-9 is one `State.command`, which checks `State.deny` before its effect. -/
theorem stavmonDenied : Obligations.StavmonDenied := by
  refine ⟨?denied, ?allowed, ?mainOff⟩
  case denied =>
    intro s r st o ho hw hd
    obtain ⟨f, hf⟩ := exec_stavmonOp o ho fun _ => .inr ⟨st, hd⟩
    exact completes_of_denied hw hd hf
  case allowed =>
    rintro s r o ho ⟨hw, -⟩ hflash
    obtain ⟨f, hf⟩ := exec_stavmonOp o ho fun h9 => .inl (hflash h9)
    exact ⟨_, hf, command_ends hw f⟩
  case mainOff =>
    intro s r op hr hm
    rw [deny_mainOff_iff hr hm, ← Bool.not_eq_true, standbyAllows_iff]
    by_cases hc : op = 0x0C01
    · subst hc; simp
    · simp [hc]

/-- Settles O28: each clause names the command's equation and the branch that its effect takes. -/
theorem securityCommands : Obligations.SecurityCommands := by
  intro s r
  refine ⟨fun h => ⟨fun hseed => ?noSeed, fun seed hseed hlast hlms hbusy hclaim => ?attestWaits, fun seed hseed hlast hlms hflash => ?attests,
    fun seed t hseed hlast ht => ?soon⟩, fun h hlen => ⟨fun hfree => ?writes, fun hbusy => ?writeWaits⟩, fun h hi hbusy => ?activateWaits,
    fun h hfree => ⟨?activateAnswers, fun hi => ?activates, fun hi => ?badImage⟩⟩
  case noSeed =>
    exact completes_of_done h (exec_secAttest_of_ready (by simp [State.attestWaits, hseed])) (secAttestCmd_noSeed hseed _)
  case attestWaits =>
    exact exec_secAttest_of_waits h.2
      (by simp [State.attestWaits, hbusy, hseed, attestSoon_eq_false hlast, lmsLeft_ne_zero hlms, hclaim])
  case attests =>
    obtain ⟨s', heq, hnext, hle, htime⟩ := secAttestCmd_attests hseed (attestSoon_eq_false hlast) (lmsLeft_ne_zero hlms) (s.payload r)
    have ready : s.attestWaits = false := by
      obtain hfree | hlt := hflash
      · simp [State.attestWaits, hfree]
      · simp [State.attestWaits, hlt]
    exact ⟨s', _, completes_of_done h (exec_secAttest_of_ready ready) heq, hnext, hle, htime, by rw [State.attestReport, lmsNext_reserveLms]⟩
  case soon =>
    have hs := attestSoon_eq_true hlast ht
    exact completes_of_done h (exec_secAttest_of_ready (by simp [State.attestWaits, hs])) (secAttestCmd_soon hseed hs _)
  case writes => exact completes_of_done h (exec_secFwWrite_of_free hfree) (secFwWriteCmd_fits hlen s)
  case writeWaits => exact exec_secFwWrite_of_busy h.2 hbusy hlen
  case activateWaits => exact exec_secFwActivate_of_busy h.2 hbusy hi
  case activateAnswers =>
    cases hi : s.imageFails s.otherSlot with
    | none =>
      obtain ⟨s', heq, -⟩ := secFwActivateCmd_good hi (s.payload r)
      obtain ⟨t, ht, done, status, -⟩ := completes_of_done h (exec_secFwActivate_of_free hfree) heq
      exact ⟨t, ht, done, fun _ => hi, fun _ => status⟩
    | some c =>
      have bad : (s.imageFails s.otherSlot).isSome = true := by rw [hi]; rfl
      obtain ⟨t, ht, done, status, -⟩ := completes_of_done h (exec_secFwActivate_of_free hfree) (secFwActivateCmd_bad bad _)
      exact ⟨t, ht, done, fun ok => absurd (status.symm.trans ok) (by decide), fun good => absurd (hi.symm.trans good) nofun⟩
  case activates =>
    obtain ⟨s', heq, header⟩ := secFwActivateCmd_good hi (s.payload r)
    exact ⟨s', completes_of_done h (exec_secFwActivate_of_free hfree) heq, header⟩
  case badImage => exact completes_of_done h (exec_secFwActivate_of_free hfree) (secFwActivateCmd_bad hi _)

end Sys2Proof.Proofs
end

section
/-! What an event that reaches the Almanac can change, FAULTs included (R389 to R394, R402), and what throttling adds (R355): one mask
over the state, one relation, and the fate of the codewords under the host write log. -/

namespace Sys2Proof.Machine

open Sys2Proof.Laws

/-- The state without what a record and its messages write: the Almanac but its injections, SMB_ALERT# and the fault bit, host-bound
messages with the write log and its ring in G7, control messages, the throttle reasons and the output. -/
def State.sansNotices (s : State) : State := { s with
  boot := { s.boot with smbAlert := false, faulted := false }
  alm := { Reset.alm with slots := s.alm.slots, injKeys := s.alm.injKeys }
  hst := { s.hst with pba := [], wait := [], wlog := [], wlogPos := 0, handed := 0, lastAddr := none }
  chd := { s.chd with turn := [], ports := [], ctlIn := [] }
  mem := { s.mem with g7 := [], badG7 := [] }
  pwrRegs := { s.pwrRegs with thrNow := 0, thrEvents := [] }
  out := [] }

/-- From s to t every codeword of G7 kept its health, or is good. -/
def State.Heals (s t : State) : Prop := ∀ w, t.g7Health w = s.g7Health w ∨ t.g7Health w = .good

theorem State.Heals.of_mem {s t : State} (h : t.mem = s.mem) : s.Heals t := fun _ => .inl (by unfold State.g7Health State.g7Rule; rw [h])

theorem State.Heals.trans {s t u : State} (h : s.Heals t) (k : t.Heals u) : s.Heals u := fun w => (k w).elim
  (fun hk => (h w).imp hk.trans hk.trans) .inr

/-- From s to t the module noticed something: nothing else changed, G7 changed inside the host write log alone, and a codeword that
the log wrote is good. -/
structure State.Notices (s t : State) : Prop where
  rest : t.sansNotices = s.sansNotices
  g7 : s.SameG7 t
  heals : s.Heals t

theorem State.Notices.of_mem {s t : State} (h : t.sansNotices = s.sansNotices) (hm : t.mem = s.mem) : s.Notices t :=
  ⟨h, ⟨fun _ _ => by rw [hm], fun _ _ => by unfold State.g7Health State.g7Rule; rw [hm]⟩, .of_mem hm⟩

theorem State.Notices.refl (s : State) : s.Notices s := .of_mem rfl rfl

section
variable {s t u : State} (h : s.Notices t)
include h

/-- Every field of the memory controllers but the contents and the health of G7 is as it was. -/
theorem State.Notices.mem {α : Type} (f : Mem → α) (hf : ∀ m, f { m with g7 := [], badG7 := [] } = f m := by exact fun _ => rfl) :
    f t.mem = f s.mem := by
  have hm : f t.sansNotices.mem = f s.sansNotices.mem := by rw [h.rest]
  exact ((hf t.mem).symm.trans hm).trans (hf s.mem)

/-- So is every part of the state that no notice writes. -/
theorem State.Notices.field {α : Type} (f : State → α) (hf : ∀ x : State, f x.sansNotices = f x := by exact fun _ => rfl) : f t = f s :=
  ((hf t).symm.trans (congrArg f h.rest)).trans (hf s)

theorem State.Notices.d2d : t.d2d = s.d2d := h.field State.d2d
theorem State.Notices.channel (c : Nat) : t.channel c = s.channel c := h.mem fun m => Sparse.get Reset.channel m.channels c
theorem State.Notices.lp (l : Nat) : t.lp l = s.lp l := h.mem fun m => Sparse.get Reset.lpChannel m.lps l
theorem State.Notices.slots : t.alm.slots = s.alm.slots := h.field fun x => x.alm.slots
theorem State.Notices.injKeys : t.alm.injKeys = s.alm.injKeys := h.field fun x => x.alm.injKeys
theorem State.Notices.wlogBase : t.hst.wlogBase = s.hst.wlogBase := h.field fun x => x.hst.wlogBase
theorem State.Notices.wlogSize : t.hst.wlogSize = s.hst.wlogSize := h.field fun x => x.hst.wlogSize

theorem State.Notices.quiet (q : s.Quiet) : t.Quiet := ⟨h.slots.trans q.1, h.injKeys.trans q.2⟩

theorem State.Notices.trans (k : t.Notices u) : s.Notices u :=
  ⟨k.rest.trans h.rest, sameG7_trans h.g7 k.g7 h.wlogBase h.wlogSize, h.heals.trans k.heals⟩

/-- A masked part may be written first, with notices after it. -/
theorem State.Notices.after (hr : s.sansNotices = u.sansNotices := by rfl) (hm : s.mem = u.mem := by rfl) : u.Notices t :=
  .trans (.of_mem hr hm) h
/-- A masked part may be written last, with notices before it. -/
theorem State.Notices.before (hr : u.sansNotices = t.sansNotices := by rfl) (hm : u.mem = t.mem := by rfl) : s.Notices u :=
  .trans h (.of_mem hr hm)

end

/-! ### Codewords that the write log stores -/

theorem heals_markGood (l : List Nat) (s : State) : s.Heals (l.foldl (fun s k => s.setG7Health k .good) s) := by
  induction l generalizing s with
  | nil => exact .of_mem rfl
  | cons k l ih =>
    have one : s.Heals (s.setG7Health k .good) := by
      intro w
      by_cases hk : k = w
      · subst hk
        exact .inr (g7Health_setG7Health_same s k .good)
      · exact .inl (g7Health_setG7Health_other s .good hk)
    exact one.trans (ih _)

theorem heals_storeG7 (s : State) (off : Nat) (d : List Byte) : s.Heals (s.storeG7 off d) := heals_markGood _ s

theorem heals_logWrite (s : State) (x : HostWrite) : s.Heals (s.logWrite x) := by
  have stored : s.Heals (s.logStore x) := by
    unfold State.logStore
    dsimp only
    split
    · exact .of_mem rfl
    · exact ((heals_storeG7 s _ _).trans (heals_storeG7 _ _ _)).trans (.of_mem rfl)
  exact stored.trans (.of_mem rfl)

theorem heals_msix (s : State) (v : Nat) : s.Heals (s.msix v) := by
  have handed : s.Heals (s.onHst fun h => { h with handed := h.handed + 1 }) := .of_mem rfl
  unfold State.msix
  split
  · exact .of_mem rfl
  · split
    · split <;> exact .of_mem rfl
    · unfold State.hostBound
      rw [if_pos (show (Out.msix v).isWrite = true from rfl)]
      dsimp only
      split
      · exact handed.trans ((heals_logWrite _ _).trans (.of_mem ((emit_mem _ _).trans (onHst_mem _ _))))
      · exact .of_mem rfl

/-! ### The Almanac's operations -/

theorem notices_msix (s : State) (v : Nat) : s.Notices (s.msix v) := by
  obtain ⟨h, hg⟩ := msix_frame s v
  exact ⟨by rw [h]; rfl, hg, heals_msix s v⟩

theorem notices_sendControl (s : State) (x y : Nat) (b : List Byte) : s.Notices (s.sendControl x y b) := by
  obtain ⟨h, -⟩ := sendControl_frame s x y b
  exact .of_mem (by rw [h]; rfl) (by rw [h])

theorem notices_alert (s : State) : s.Notices s.alert := (notices_msix _ 272).after

theorem notices_startFlush (s : State) : s.Notices s.startFlush := by
  unfold State.startFlush
  split
  · exact .refl s
  · split <;> exact .of_mem rfl rfl

theorem notices_makePlace (s : State) : s.Notices s.makePlace := by
  unfold State.makePlace
  split
  · exact .refl s
  · exact .of_mem rfl rfl

theorem notices_pushRec (s : State) (r : AlmRec) : s.Notices (s.pushRec r) := by
  unfold State.pushRec
  dsimp only
  split
  · exact (notices_startFlush _).after
  · exact .of_mem rfl rfl

theorem notices_lostRec (s : State) (place count : Nat) : s.Notices (s.makePlace.pushRec (s.lostRec place count)).alert :=
  ((notices_makePlace s).trans (notices_pushRec _ _)).trans (notices_alert _)

theorem notices_payLost (s : State) : s.Notices s.payLost := by
  have one (u : State) (place count : Nat) : u.Notices (if count = 0 ∨ !u.ringRoom then u else
      (u.makePlace.pushRec (u.lostRec place count)).alert.onAlm fun a =>
        if place = 0 then { a with lostRing := 0 } else { a with lostFlash := 0 }) := by
    split
    · exact .refl u
    · split <;> exact (notices_lostRec u place count).before
  exact (one s 0 _).trans (one _ 1 _)

theorem notices_appendRec (s : State) (r : AlmRec) : s.Notices (s.appendRec r) := by
  have loss : s.Notices s.almLoss := .of_mem rfl rfl
  unfold State.appendRec
  dsimp only
  split
  · exact ((notices_payLost s).trans (notices_makePlace _)).trans (notices_pushRec _ r)
  · split
    · exact loss
    · split
      · exact loss.trans (notices_pushRec _ r).after
      · exact loss

theorem notices_recMessages (s : State) (r : AlmRec) (fold : Bool) : s.Notices (s.recMessages r fold) := by
  have alerts : s.Notices (if r.sev = .warn ∨ r.sev = .fault then s.alert else s) := by
    split
    · exact notices_alert s
    · exact .refl s
  unfold State.recMessages
  dsimp only
  generalize (if r.sev = .warn ∨ r.sev = .fault then s.alert else s) = u at alerts ⊢
  have flushed := alerts.trans (notices_startFlush u)
  split
  · split
    · exact flushed
    · exact flushed.trans (notices_sendControl _ _ _ _).after
  · exact alerts

theorem notices_takeRec (s : State) (r : AlmRec) : s.Notices (s.takeRec r) := by
  have appended := notices_appendRec s r
  unfold State.takeRec
  dsimp only
  split
  · split
    · exact appended.before
    · exact appended
  · exact appended.trans (notices_recMessages _ r false)

theorem notices_reportRep (s : State) (rep code : Nat) (sev : Severity) (kind index : Nat) (p : List Byte) :
    s.Notices (s.reportRep rep code sev kind index p) := by
  unfold State.reportRep
  dsimp only
  split
  · split
    · exact (notices_recMessages _ _ true).after
    · exact notices_takeRec s _
  · exact notices_takeRec s _

/-- An event that reaches the Almanac is noticed only (R391 to R394, R402). -/
theorem notices_report (s : State) (code : Nat) (sev : Severity) (kind index : Nat) (p : List Byte) :
    s.Notices (s.report code sev kind index p) := notices_reportRep s 0 code sev kind index p

/-- So are throttle reasons that change (R355). -/
theorem notices_throttle (s : State) : s.Notices s.throttle := by
  unfold State.throttle
  dsimp only
  split
  · exact .refl s
  · exact (notices_msix _ 274).after

/-! ### A FAULT (R392, R402) -/

theorem boot_sendControl (s : State) (x y : Nat) (b : List Byte) : (s.sendControl x y b).boot = s.boot := by
  rw [(sendControl_frame s x y b).1]

/-- A FAULT but that of code 0x0A09 (R402). -/
theorem faulted_takeRec (s : State) {r : AlmRec} (hs : r.sev = .fault) (hc : r.code ≠ 0x0A09) : (s.takeRec r).boot.faulted = true := by
  unfold State.takeRec
  dsimp only
  split
  · rw [if_pos ⟨hs, hc⟩]; rfl
  · unfold State.recMessages
    dsimp only
    rw [if_pos (c := r.sev = .fault ∧ (!false) = true) ⟨hs, rfl⟩, if_neg hc, boot_sendControl]
    rfl

/-- A FAULT that does not fold ends the module's own service. -/
theorem faulted_report (s : State) {code : Nat} (kind index : Nat) (p : List Byte) (hc : BitVec.ofNat 16 code ≠ 0x0A09)
    (hr : ∀ x ∈ s.alm.ring, x.code ≠ BitVec.ofNat 16 code) : (s.report code .fault kind index p).boot.faulted = true := by
  unfold State.report State.reportRep
  dsimp only
  split
  · rename_i last hl
    have apart : (last.code == BitVec.ofNat 16 code) = false := beq_eq_false_iff_ne.2 (hr last (List.mem_of_getLast? hl))
    rw [if_neg (by simp [foldsInto, apart])]
    exact faulted_takeRec s rfl hc
  · exact faulted_takeRec s rfl hc

/-! ### Codes of the records in the ring -/

/-- No record of the ring has a code. -/
def State.ringLacks (s : State) (code : Word16) : Prop := ∀ x ∈ s.alm.ring, x.code ≠ code

theorem ringLacks_of_alm {s t : State} {code : Word16} (h : s.ringLacks code) (ha : t.alm = s.alm) : t.ringLacks code := by
  unfold State.ringLacks
  rw [ha]
  exact h

theorem alm_msix (s : State) (v : Nat) : (s.msix v).alm = s.alm := by rw [(msix_frame s v).1]
theorem alm_alert (s : State) : s.alert.alm = s.alm := alm_msix _ 272
theorem alm_sendControl (s : State) (x y : Nat) (b : List Byte) : (s.sendControl x y b).alm = s.alm := by
  rw [(sendControl_frame s x y b).1]

theorem mem_of_mem_dropFirst {p : AlmRec → Bool} {x : AlmRec} : ∀ {l : List AlmRec}, x ∈ dropFirst p l → x ∈ l
  | r :: l, h => by
    unfold dropFirst at h
    split at h
    · exact List.mem_cons_of_mem _ h
    · obtain rfl | h := List.mem_cons.1 h
      · exact List.mem_cons_self
      · exact List.mem_cons_of_mem _ (mem_of_mem_dropFirst h)

section
variable {s : State} {code : Word16} (h : s.ringLacks code)
include h

theorem ringLacks_startFlush : s.startFlush.ringLacks code := by
  unfold State.startFlush
  split
  · exact h
  · split
    · exact h
    · intro x hx
      obtain ⟨y, hy, rfl⟩ := List.mem_map.1 hx
      split <;> exact h y hy

theorem ringLacks_makePlace : s.makePlace.ringLacks code := by
  unfold State.makePlace
  split
  · exact h
  · exact fun x hx => h x (mem_of_mem_dropFirst hx)

theorem ringLacks_pushRec {r : AlmRec} (hr : r.code ≠ code) : (s.pushRec r).ringLacks code := by
  have pushed : (s.onAlm fun a => { a with
      ring := a.ring ++ [{ r with seq := a.nextSeq, frozen := a.flushing, flushed := false }], nextSeq := a.nextSeq + 1 }).ringLacks code := by
    intro x hx
    obtain hx | hx := List.mem_append.1 hx
    · exact h x hx
    · rw [List.mem_singleton.1 hx]; exact hr
  unfold State.pushRec
  dsimp only
  split
  · exact ringLacks_startFlush pushed
  · exact pushed

theorem ringLacks_payLost (hc : (0x0E01 : Word16) ≠ code) : s.payLost.ringLacks code := by
  have one {u : State} (hu : u.ringLacks code) (place count : Nat) : State.ringLacks (if count = 0 ∨ !u.ringRoom then u else
      (u.makePlace.pushRec (u.lostRec place count)).alert.onAlm fun a =>
        if place = 0 then { a with lostRing := 0 } else { a with lostFlash := 0 }) code := by
    have owed := ringLacks_of_alm (ringLacks_pushRec (ringLacks_makePlace hu) (r := u.lostRec place count) hc) (alm_alert _)
    split
    · exact hu
    · split <;> exact owed
  exact one (one h 0 _) 1 _

theorem ringLacks_appendRec {r : AlmRec} (hr : r.code ≠ code) (hc : (0x0E01 : Word16) ≠ code) : (s.appendRec r).ringLacks code := by
  unfold State.appendRec
  dsimp only
  split
  · exact ringLacks_pushRec (ringLacks_makePlace (ringLacks_payLost h hc)) hr
  · split
    · exact h
    · split
      · refine ringLacks_pushRec ?_ hr
        exact fun x hx => h x (mem_of_mem_dropFirst hx)
      · exact h

theorem ringLacks_recMessages (r : AlmRec) (fold : Bool) : (s.recMessages r fold).ringLacks code := by
  have alerts : State.ringLacks (if r.sev = .warn ∨ r.sev = .fault then s.alert else s) code := by
    split
    · exact ringLacks_of_alm h (alm_alert s)
    · exact h
  unfold State.recMessages
  dsimp only
  generalize (if r.sev = .warn ∨ r.sev = .fault then s.alert else s) = u at alerts ⊢
  split
  · split
    · exact ringLacks_startFlush alerts
    · exact ringLacks_of_alm (ringLacks_startFlush alerts) (alm_sendControl _ _ _ _)
  · exact alerts

theorem ringLacks_takeRec {r : AlmRec} (hr : r.code ≠ code) (hc : (0x0E01 : Word16) ≠ code) : (s.takeRec r).ringLacks code := by
  have appended := ringLacks_appendRec h hr hc
  unfold State.takeRec
  dsimp only
  split
  · split <;> exact appended
  · exact ringLacks_recMessages appended r false

/-- An event of another code brings no record of a code that the ring lacks, but the ALM_LOST that may be owed (R394). -/
theorem ringLacks_report {c : Nat} (hr : BitVec.ofNat 16 c ≠ code) (hc : (0x0E01 : Word16) ≠ code) (sev : Severity) (kind index : Nat)
    (p : List Byte) : (s.report c sev kind index p).ringLacks code := by
  unfold State.report State.reportRep
  dsimp only
  split
  · rename_i last hl
    split
    · refine ringLacks_recMessages (fun x hx => ?_) _ true
      obtain hx | hx := List.mem_append.1 hx
      · exact h x (List.dropLast_subset _ hx)
      · rw [List.mem_singleton.1 hx]
        exact h last (List.mem_of_getLast? hl)
    · exact ringLacks_takeRec h hr hc
  · exact ringLacks_takeRec h hr hc

/-! ### Time that passes (R51, R55) -/

theorem ringLacks_endPause (i : Nat) : (s.endPause i).ringLacks code := by
  have emitted (l : List Out) : ∀ u : State, (l.foldl State.emit u).alm = u.alm := by
    induction l with
    | nil => exact fun _ => rfl
    | cons o l ih => exact fun u => ih (u.emit o)
  unfold State.endPause
  dsimp only
  split
  · exact h
  · exact ringLacks_of_alm h (emitted _ s)

theorem ringLacks_epoch (hr : (0x0201 : Word16) ≠ code) (hc : (0x0E01 : Word16) ≠ code) (k : Nat) : (s.epoch k).ringLacks code := by
  unfold State.epoch
  exact ringLacks_report (ringLacks_of_alm h (onBoot_alm _ _)) hr hc .info 0 0 _

theorem ringLacks_epochs (hr : (0x0201 : Word16) ≠ code) (hc : (0x0E01 : Word16) ≠ code) (k : Nat) (l : List Nat) :
    (l.foldl (fun s i => s.epoch (k + i)) s).ringLacks code := by
  induction l generalizing s with
  | nil => exact h
  | cons i l ih => exact ih (ringLacks_epoch h hr hc _)

theorem ringLacks_countTicks (n : Nat) : (s.countTicks n).ringLacks code := h

theorem ringLacks_pass (hr : (0x0201 : Word16) ≠ code) (hc : (0x0E01 : Word16) ≠ code) (n : Nat) : (s.pass n).ringLacks code := by
  unfold State.pass
  split
  · exact h
  · dsimp only
    refine ringLacks_endPause (ringLacks_endPause (ringLacks_of_alm ?_ (onBoot_alm _ _)) 0) 1
    exact ringLacks_epochs (ringLacks_countTicks h n) hr hc _ _

theorem ringLacks_passTo (hr : (0x0201 : Word16) ≠ code) (hc : (0x0E01 : Word16) ≠ code) (t : Nat) : (s.passTo t).ringLacks code := by
  unfold State.passTo
  split
  · exact ringLacks_pass h hr hc _
  · exact h

end

end Sys2Proof.Machine
end

section
/-! Readers of G7 (R222 to R225, R231, R232): what an access changes without injections, and what it leaves of a channel that died. -/

namespace Sys2Proof.Machine

open Sys2Proof.Laws

/-- The state without what a notice or an access to G7 writes: beside the contents, the channels and the writes that are parked. -/
def State.sansAccess (s : State) : State := s.sansNotices.onMem fun m => { m with channels := [], parked := [] }

/-- From s to t accesses to G7 changed contents, health, channels and parked writes, and a dead channel stays dead. -/
structure State.Accesses (s t : State) : Prop where
  rest : t.sansAccess = s.sansAccess
  dead : ∀ c, (s.channel c).state = .dead → (t.channel c).state = .dead

/-- The accesses were reads: bytes changed in the host write log alone, and no codeword has become correctable. -/
structure State.Reads (s t : State) : Prop extends State.Accesses s t where
  bytes : ∀ a, ¬s.inLog a → Memory.read t.mem.g7 a = Memory.read s.mem.g7 a
  clean : ∀ w, s.g7Health w ≠ .correctable → t.g7Health w ≠ .correctable

section
variable {s t u : State}

theorem State.Accesses.refl (s : State) : s.Accesses s := ⟨rfl, fun _ h => h⟩
theorem State.Accesses.trans (h : s.Accesses t) (k : t.Accesses u) : s.Accesses u :=
  ⟨k.rest.trans h.rest, fun c hc => k.dead c (h.dead c hc)⟩

/-- Every part of the state that no access writes is as it was. -/
theorem State.Accesses.field (h : s.Accesses t) {α : Type} (f : State → α)
    (hf : ∀ x : State, f x.sansAccess = f x := by exact fun _ => rfl) : f t = f s :=
  ((hf t).symm.trans (congrArg f h.rest)).trans (hf s)

theorem State.Accesses.quiet (h : s.Accesses t) (q : s.Quiet) : t.Quiet :=
  ⟨(h.field fun x => x.alm.slots).trans q.1, (h.field fun x => x.alm.injKeys).trans q.2⟩

theorem State.Accesses.inLog_iff (h : s.Accesses t) (a : Nat) : t.inLog a ↔ s.inLog a := by
  unfold State.inLog
  rw [h.field fun x => x.hst.wlogBase, h.field fun x => x.hst.wlogSize]

theorem State.Reads.refl (s : State) : s.Reads s := ⟨.refl s, fun _ _ => rfl, fun _ h => h⟩
theorem State.Reads.trans (h : s.Reads t) (k : t.Reads u) : s.Reads u :=
  ⟨h.toAccesses.trans k.toAccesses, fun a ha => (k.bytes a (mt (h.inLog_iff a).1 ha)).trans (h.bytes a ha),
    fun w hw => k.clean w (h.clean w hw)⟩

theorem State.Notices.reads (h : s.Notices t) : s.Reads t := by
  refine ⟨⟨congrArg (State.onMem · fun m => { m with channels := [], parked := [] }) h.rest, fun c hc => by rw [h.channel]; exact hc⟩,
    h.g7.1, fun w hw => ?_⟩
  obtain e | e := h.heals w
  · rw [e]; exact hw
  · rw [e]; decide

end

/-! ### Channels -/

/-- A channel changes but for a death undone. -/
theorem reads_onChannel (s : State) (c : Nat) {f : Channel → Channel}
    (hf : (s.channel c).state = .dead → (f (s.channel c)).state = .dead) : s.Reads (s.onChannel c f) := by
  refine ⟨⟨rfl, fun k hk => ?_⟩, fun _ _ => rfl, fun _ h => h⟩
  by_cases hc : c = k
  · subst hc
    rw [channel_onChannel_same]
    exact hf hk
  · rw [channel_onChannel_other s f hc]
    exact hk

theorem reads_park (s : State) (c : Nat) : s.Reads (s.park c) := by
  unfold State.park
  split
  · exact reads_onChannel s c id
  · exact .refl s

theorem reads_parkAll (s : State) (off len : Nat) : s.Reads (s.parkAll off len) := by
  unfold State.parkAll
  induction granSpan off len generalizing s with
  | nil => exact .refl s
  | cons g l ih => exact (reads_park s _).trans (ih _)

/-- A dead channel does not retrain. -/
theorem reads_g7Retrain (s : State) (c cause : Nat) : s.Reads (s.g7Retrain c cause) := by
  unfold State.g7Retrain
  dsimp only
  split
  · exact .refl s
  · rename_i h
    exact reads_onChannel s c fun hd => absurd (.inr hd) h

theorem reads_g7Ce (s : State) (cw : Nat) : s.Reads (s.g7Ce cw) := by
  have counted (l : List Nat) : s.Reads (s.onChannel (s.g7Channel (32 * cw)) fun ch => { ch with ce := inc ch.ce, ceTicks := l }) :=
    reads_onChannel s _ id
  unfold State.g7Ce
  dsimp only
  split
  · exact (counted _).trans (reads_g7Retrain _ _ 0)
  · exact counted _

theorem reads_g7Ue (s : State) (cw : Nat) : s.Reads (s.g7Ue cw) :=
  (reads_onChannel s _ id).trans ((notices_report _ _ _ _ _ _).trans (notices_msix _ 273)).reads

/-! ### Codewords -/

section
variable {s : State} (q : s.Quiet)
include q

/-- A reader meets a codeword in its own health, and counts what it finds. -/
theorem g7Look_eq (cw : Nat) : ∃ t, s.g7Look cw = (s.g7Health cw, t) ∧ s.Reads t := by
  have found : ∃ t, (s.g7Look cw).2 = (if (t.channel (s.g7Channel (32 * cw))).state = .retrain then t
      else t.injEnd 7 (s.g7Channel (32 * cw))) ∧ s.Reads t := by
    simp only [State.g7Look, q.fires, Bool.false_eq_true, if_false, ite_self]
    refine ⟨_, rfl, ?_⟩
    split
    · exact reads_g7Ue s cw
    · split
      · exact reads_g7Ce s cw
      · exact .refl s
  obtain ⟨t, e, h⟩ := found
  rw [(h.quiet q).injEnd, ite_self] at e
  exact ⟨t, Prod.ext (g7Look_health q cw) e, h⟩

end

theorem accesses_setG7Health (s : State) (cw : Nat) (h : CwHealth) : s.Accesses (s.setG7Health cw h) := ⟨rfl, fun _ k => k⟩

theorem reads_setG7Health_good (s : State) (cw : Nat) : s.Reads (s.setG7Health cw .good) := by
  refine ⟨accesses_setG7Health s cw .good, fun _ _ => rfl, fun w hw => ?_⟩
  by_cases h : cw = w
  · subst h
    rw [g7Health_setG7Health_same]; decide
  · rw [g7Health_setG7Health_other s .good h]; exact hw

/-- A codeword that is read, and stored corrected where it needs it. -/
def State.lookGood (s : State) (cw : Nat) : State :=
  if (s.g7Look cw).1 = .correctable then (s.g7Look cw).2.setG7Health cw .good else (s.g7Look cw).2

theorem lookGood_reads {s : State} (q : s.Quiet) (cw : Nat) : s.Reads (s.lookGood cw) ∧ (s.lookGood cw).g7Health cw ≠ .correctable := by
  obtain ⟨t, e, h⟩ := g7Look_eq q cw
  unfold State.lookGood
  rw [e]
  split
  · exact ⟨h.trans (reads_setG7Health_good t cw), by rw [g7Health_setG7Health_same]; decide⟩
  · rename_i hn
    exact ⟨h, h.clean cw hn⟩

theorem scrubWord_g7 (s : State) (cw : Nat) (f : Option CwFind) :
    s.scrubWord false cw f = (s.setG7Health cw (worse (s.g7Health cw) f)).lookGood cw := if_neg Bool.false_ne_true

/-- The scrubber leaves no codeword of G7 correctable (R225). -/
theorem scrubWord_reads {s : State} (q : s.Quiet) (cw : Nat) (f : Option CwFind) :
    s.Reads (s.scrubWord false cw f) ∧ (s.scrubWord false cw f).g7Health cw ≠ .correctable := by
  have marked := accesses_setG7Health s cw (worse (s.g7Health cw) f)
  obtain ⟨h, hcw⟩ := lookGood_reads (marked.quiet q) cw
  rw [scrubWord_g7]
  refine ⟨⟨marked.trans h.toAccesses, fun a ha => h.bytes a ha, fun w hw => ?_⟩, hcw⟩
  by_cases hk : cw = w
  · subst hk; exact hcw
  · exact h.clean w (by rw [g7Health_setG7Health_other s _ hk]; exact hw)

/-! ### Ranges -/

/-- What reads at every step reads over a list. -/
theorem reads_foldl {f : State → Nat → State} (hf : ∀ (u : State) j, u.Quiet → u.Reads (f u j)) (l : List Nat) {s : State} (q : s.Quiet) :
    s.Reads (l.foldl f s) := by
  induction l generalizing s with
  | nil => exact .refl s
  | cons j l ih => exact (hf s j q).trans (ih ((hf s j q).quiet q))

/-- A codeword that its own step leaves clean stays so to the end of the list. -/
theorem clean_foldl {f : State → Nat → State} {at' : Nat → Nat} (hf : ∀ (u : State) j, u.Quiet → u.Reads (f u j) ∧ (f u j).g7Health (at' j) ≠ .correctable)
    {l : List Nat} {s : State} (q : s.Quiet) {j : Nat} (hj : j ∈ l) : (l.foldl f s).g7Health (at' j) ≠ .correctable := by
  induction l generalizing s with
  | nil => cases hj
  | cons k l ih =>
    have quiet := (hf s k q).1.quiet q
    obtain rfl | hj := List.mem_cons.1 hj
    · exact (reads_foldl (fun u i qu => (hf u i qu).1) l quiet).clean _ (hf s j q).2
    · exact ih quiet hj

/-! ### Writes that were parked (R232, R237) -/

theorem accesses_writeG7Cw {s : State} (q : s.Quiet) (off : Nat) (d : List Byte) (cw : Nat) : s.Accesses (s.writeG7Cw off d cw) := by
  have parks (x : Prop) [Decidable x] (w : Nat × List Byte) :
      s.Accesses (if x then s.onMem fun m => { m with parked := m.parked ++ [w] } else s) := by
    split
    · exact ⟨rfl, fun _ h => h⟩
    · exact .refl s
  have stores (u : State) (h : CwHealth) (g : Mem → List Host.Cell) : u.Accesses ((u.setG7Health cw h).onMem fun m => { m with g7 := g m }) :=
    ⟨rfl, fun _ h => h⟩
  unfold State.writeG7Cw
  dsimp only
  generalize hu : (if (s.channel (s.g7Channel (32 * cw))).state = .retrain then _ else s) = u
  have parked : s.Accesses u := by rw [← hu]; exact parks _ _
  obtain ⟨t, e, h⟩ := g7Look_eq (parked.quiet q) cw
  rw [e]
  split
  · exact parked.trans (stores u _ _)
  · split <;> exact parked.trans (h.toAccesses.trans (stores t _ _))

theorem accesses_unpark {s : State} (q : s.Quiet) (c : Nat) : s.Accesses (s.unpark c) := by
  have writes (l : List (Nat × List Byte)) : ∀ u : State, u.Quiet → u.Accesses (l.foldl (fun s w => s.writeG7Cw w.1 w.2 (w.1 / 32)) u) := by
    induction l with
    | nil => exact fun u _ => .refl u
    | cons w l ih =>
      intro u qu
      have one := accesses_writeG7Cw qu w.1 w.2 (w.1 / 32)
      exact one.trans (ih _ (one.quiet qu))
  have drained (p : Nat × List Byte → Bool) : s.Accesses (s.onMem fun m => { m with parked := m.parked.filter p }) := ⟨rfl, fun _ h => h⟩
  unfold State.unpark
  dsimp only
  split
  · exact (drained _).trans (writes _ _ ((drained _).quiet q))
  · exact drained _

end Sys2Proof.Machine
end

section
/-! The work of the queues, of the copies and of the link itself leaves the lanes of the die-to-die link and HOLD alone (R30, R237): one
lemma per operation, in the order in which the model defines them. -/

namespace Sys2Proof.Machine

open Sys2Proof.Laws

/-- The link modules and HOLD of the memory controllers. -/
def State.kept (s : State) : Sparse D2dLink × Bool := (s.d2d.links, s.mem.hold)

/-- The two parts, each as it was. The lemmas below are stated with it and not by `rfl`, so that simp rewrites with them. -/
theorem kept_of {s t : State} (hl : t.d2d.links = s.d2d.links) (hh : t.mem.hold = s.mem.hold) : t.kept = s.kept := Prod.ext hl hh

/-- What every step of a fold leaves alone, the fold leaves alone. -/
theorem foldl_proj {σ α τ : Type} (π : σ → τ) {f : σ → α → σ} (h : ∀ s a, π (f s a) = π s) (l : List α) (s : σ) :
    π (l.foldl f s) = π s := by
  induction l generalizing s with
  | nil => rfl
  | cons a l ih => rw [List.foldl_cons, ih, h]

theorem State.Notices.kept {s t : State} (h : s.Notices t) : t.kept = s.kept := kept_of (congrArg D2d.links h.d2d) (h.mem Mem.hold)

@[simp] theorem kept_ite (c : Prop) [Decidable c] (s t : State) : (if c then s else t).kept = if c then s.kept else t.kept :=
  apply_ite State.kept c s t

section
variable (s : State)

/-! ### Parts of the state -/

@[simp] theorem kept_onStreams (f : Streams → Streams) : (s.onStreams f).kept = s.kept := kept_of rfl rfl
@[simp] theorem kept_onSync (f : Sync → Sync) : (s.onSync f).kept = s.kept := kept_of rfl rfl
@[simp] theorem kept_onScales (f : Scales → Scales) : (s.onScales f).kept = s.kept := kept_of rfl rfl
@[simp] theorem kept_onJob (f : Job → Job) : (s.onJob f).kept = s.kept := kept_of rfl rfl
@[simp] theorem kept_onGrp (f : Grp → Grp) : (s.onGrp f).kept = s.kept := kept_of rfl rfl
@[simp] theorem kept_onGrpStats (f : GrpStats → GrpStats) : (s.onGrpStats f).kept = s.kept := kept_of rfl rfl
@[simp] theorem kept_onComp (f : Comp → Comp) : (s.onComp f).kept = s.kept := kept_of rfl rfl
@[simp] theorem kept_onChd (f : Chd → Chd) : (s.onChd f).kept = s.kept := kept_of rfl rfl
@[simp] theorem kept_onHst (f : Hst → Hst) : (s.onHst f).kept = s.kept := kept_of rfl rfl
@[simp] theorem kept_emit (o : Out) : (s.emit o).kept = s.kept := kept_of rfl rfl
@[simp] theorem kept_draw : s.draw.2.kept = s.kept := kept_of rfl rfl
@[simp] theorem kept_onQueue (q : Nat) (f : Queue → Queue) : (s.onQueue q f).kept = s.kept := kept_of rfl rfl
@[simp] theorem kept_onConn (k : Nat) (f : Conn → Conn) : (s.onConn k f).kept = s.kept := kept_of rfl rfl
@[simp] theorem kept_onEthPort (i : Nat) (f : EthPort → EthPort) : (s.onEthPort i f).kept = s.kept := kept_of rfl rfl
@[simp] theorem kept_onChannel (c : Nat) (f : Channel → Channel) : (s.onChannel c f).kept = s.kept := kept_of rfl rfl
@[simp] theorem kept_onLp (l : Nat) (f : LpChannel → LpChannel) : (s.onLp l f).kept = s.kept := kept_of rfl rfl
@[simp] theorem kept_setScaleRec (i : Nat) (r : ScaleRec) : (s.setScaleRec i r).kept = s.kept := kept_of rfl rfl
@[simp] theorem kept_onTileMem (p : Nat) (f : TileMem → TileMem) : (s.onTileMem p f).kept = s.kept := kept_of rfl rfl
@[simp] theorem kept_onTileRegs (p : Nat) (f : TileRegs → TileRegs) : (s.onTileRegs p f).kept = s.kept := kept_of rfl rfl
@[simp] theorem kept_onTileWork (p : Nat) (f : TileWork → TileWork) : (s.onTileWork p f).kept = s.kept := kept_of rfl rfl
@[simp] theorem kept_setCounter (n : Nat) (c : Counter) : (s.setCounter n c).kept = s.kept := kept_of rfl rfl
@[simp] theorem kept_setG7Health (k : Nat) (h : CwHealth) : (s.setG7Health k h).kept = s.kept := kept_of rfl rfl
@[simp] theorem kept_setSlowHealth (k : Nat) (h : CwHealth) : (s.setSlowHealth k h).kept = s.kept := kept_of rfl rfl

@[simp] theorem kept_onMem {f : Mem → Mem} (h : (f s.mem).hold = s.mem.hold) : (s.onMem f).kept = s.kept := kept_of rfl h
@[simp] theorem kept_onD2d {f : D2d → D2d} (h : (f s.d2d).links = s.d2d.links) : (s.onD2d f).kept = s.kept := kept_of h rfl

@[simp] theorem kept_setCtx (c : Ctx) (x : JviCtx) : (s.setCtx c x).kept = s.kept := by
  unfold State.setCtx
  split
  · rfl
  · split <;> rfl

/-! ### Messages, records and injections -/

@[simp] theorem kept_msix (v : Nat) : (s.msix v).kept = s.kept := (notices_msix s v).kept
@[simp] theorem kept_sendControl (x y : Nat) (b : List Byte) : (s.sendControl x y b).kept = s.kept := (notices_sendControl s x y b).kept
@[simp] theorem kept_report (code : Nat) (sev : Severity) (kind index : Nat) (p : List Byte) :
    (s.report code sev kind index p).kept = s.kept := (notices_report s code sev kind index p).kept

@[simp] theorem kept_injEnd (kind index : Nat) : (s.injEnd kind index).kept = s.kept := kept_of rfl rfl

@[simp] theorem kept_injBegin (kind index : Nat) : (s.injBegin kind index).kept = s.kept := kept_of rfl rfl
@[simp] theorem kept_setSlot (k : Nat) (x : InjSlot) : (s.setSlot k x).kept = s.kept := kept_of rfl rfl

@[simp] theorem kept_disarm (k cause : Nat) : (s.disarm k cause).kept = s.kept := by
  unfold State.disarm
  dsimp only
  split
  · rfl
  · exact kept_report _ _ _ _ _ _

@[simp] theorem kept_opportunity (det kind index tile : Nat) (ok : Nat → Bool) : (s.opportunity det kind index tile ok).2.kept = s.kept := by
  unfold State.opportunity
  refine foldl_proj (fun a : Option Nat × State => a.2.kept) (fun a k => ?_) _ _
  simp [apply_ite Prod.snd]

@[simp] theorem kept_fires (det kind index : Nat) : (s.fires det kind index).2.kept = s.kept := by simp [State.fires]

theorem kept_sendDir (d : Nat) (f : FlitOut) : (s.sendDir d f).kept = s.kept := by rw [sendDir_frame]; rfl

@[simp] theorem kept_routeBy (o : Option Nat) (vc st off : Nat) (dest : Nat × Nat) (late : Bool) (b : List Byte) :
    (s.routeBy o vc st off dest late b).kept = s.kept := by
  unfold State.routeBy
  split
  · rfl
  · exact kept_sendDir _ _ _

@[simp] theorem kept_route (vc st off : Nat) (dest : Nat × Nat) (late : Bool) (b : List Byte) :
    (s.route vc st off dest late b).kept = s.kept := kept_routeBy s none vc st off dest late b

@[simp] theorem kept_logWrite (w : HostWrite) : (s.logWrite w).kept = s.kept := by
  have stored (u : State) (off : Nat) (d : List Byte) : (u.storeG7 off d).kept = u.kept := by
    unfold State.storeG7
    exact (kept_onMem _ rfl).trans (foldl_proj State.kept (fun v k => kept_setG7Health v k .good) _ _)
  simp [State.logWrite, State.logStore, stored]

@[simp] theorem kept_issueHost (o : Out) : (s.issueHost o).kept = s.kept := by
  unfold State.issueHost
  split <;> simp

@[simp] theorem kept_hostBound (o : Out) : (s.hostBound o).kept = s.kept := by simp [State.hostBound]

@[simp] theorem kept_hostWrite (relaxed : Bool) (a : Nat) (d : List Byte) : (s.hostWrite relaxed a d).kept = s.kept := by
  simp [State.hostWrite]

/-! ### G7, the slow tier and the scratchpads -/

@[simp] theorem kept_g7Retrain (c cause : Nat) : (s.g7Retrain c cause).kept = s.kept := by simp [State.g7Retrain]
@[simp] theorem kept_g7Ce (cw : Nat) : (s.g7Ce cw).kept = s.kept := by simp [State.g7Ce]
@[simp] theorem kept_g7Ue (cw : Nat) : (s.g7Ue cw).kept = s.kept := by simp [State.g7Ue]
@[simp] theorem kept_g7Look (cw : Nat) : (s.g7Look cw).2.kept = s.kept := by simp [State.g7Look]
@[simp] theorem kept_slowLook (cw : Nat) : (s.slowLook cw).2.kept = s.kept := by simp [State.slowLook, State.slowUe, State.slowCe]
@[simp] theorem kept_padLook (p cw : Nat) : (s.padLook p cw).2.kept = s.kept := by simp [State.padLook]

theorem kept_lookAll {look : State → Nat → CwHealth × State} (h : ∀ s cw, (look s cw).2.kept = s.kept) (l : List Nat) :
    (lookAll look s l).2.2.kept = s.kept := by
  induction l generalizing s with
  | nil => rfl
  | cons cw l ih => exact (ih _).trans (h s cw)

@[simp] theorem kept_parkAll (off len : Nat) : (s.parkAll off len).kept = s.kept := by
  obtain ⟨l, h⟩ := parkAll_frame s off len
  rw [h]
  rfl

@[simp] theorem kept_readG7 (off len : Nat) : (s.readG7 off len).2.2.kept = s.kept :=
  (kept_lookAll _ kept_g7Look _).trans (kept_parkAll s off len)
@[simp] theorem kept_readSlow (off len : Nat) : (s.readSlow off len).2.2.kept = s.kept := kept_lookAll s kept_slowLook _
@[simp] theorem kept_readPad (p off len : Nat) : (s.readPad p off len).2.2.kept = s.kept :=
  kept_lookAll s (fun s cw => kept_padLook s p cw) _

@[simp] theorem kept_readLoc (l : Loc) (len : Nat) : (s.readLoc l len).2.2.kept = s.kept := by
  unfold State.readLoc
  cases l with
  | pad e o => dsimp only; split <;> simp
  | acc e o => dsimp only; split <;> rfl
  | g7 | slow | host | remote | reduce => simp

@[simp] theorem kept_writeG7Cw (off : Nat) (d : List Byte) (cw : Nat) : (s.writeG7Cw off d cw).kept = s.kept := by
  simp [State.writeG7Cw]
@[simp] theorem kept_writeG7 (off : Nat) (d : List Byte) : (s.writeG7 off d).kept = s.kept :=
  (foldl_proj State.kept (fun u => kept_writeG7Cw u off d) _ _).trans (kept_parkAll s _ _)
@[simp] theorem kept_writeSlowCw (off : Nat) (d : List Byte) (cw : Nat) : (s.writeSlowCw off d cw).kept = s.kept := by
  simp [State.writeSlowCw]
@[simp] theorem kept_writeSlow (off : Nat) (d : List Byte) : (s.writeSlow off d).kept = s.kept :=
  foldl_proj State.kept (fun u => kept_writeSlowCw u off d) _ _
@[simp] theorem kept_storeSlow (off : Nat) (d : List Byte) : (s.storeSlow off d).kept = s.kept := kept_writeSlow s _ _
@[simp] theorem kept_writePad (p off : Nat) (d : List Byte) : (s.writePad p off d).kept = s.kept :=
  foldl_proj State.kept (fun u cw => by simp [State.writePadCw]) _ _
@[simp] theorem kept_setDir (off v : Nat) : (s.setDir off v).kept = s.kept := kept_writeSlow s _ _
@[simp] theorem kept_readLocal (c off len : Nat) : (s.readLocal c off len).2.2.kept = s.kept := by simp [State.readLocal]

/-! ### Fetching (R174, R175, R184) -/

@[simp] theorem kept_settle (q : Nat) : (s.settle q).kept = s.kept := kept_onQueue s q _

/-- A piece of an entry of the journal in the ring and in its copy (R184, R239). -/
def State.jnlRing (s : State) (pos : Nat) (x : List Byte) : State :=
  match s.place (s.streams.jnlBase.toNat + pos) x.length Loc.isG7 with
  | some (.g7 o) => s.writeG7 o x
  | _ => s
def State.jnlCopied (s : State) (pos : Nat) (x : List Byte) : State :=
  if s.mem.jnlCopy = 0 then s
  else match s.place (s.mem.jnlCopy.toNat + pos) x.length Loc.isSlow with
    | some (.slow o) => s.storeSlow o x
    | _ => s

theorem jnlWrite_eq (d : List Byte) : s.jnlWrite d =
    let size := s.streams.jnlSize.toNat
    let pos := s.streams.jnlPos % size
    let t := (s.jnlRing pos (d.take (size - pos))).jnlCopied pos (d.take (size - pos))
    let u := if (d.drop (size - pos)).isEmpty then t else (t.jnlRing 0 (d.drop (size - pos))).jnlCopied 0 (d.drop (size - pos))
    u.onStreams fun x => { x with jnlPos := (pos + d.length) % size } := rfl

theorem kept_jnlRing (pos : Nat) (x : List Byte) : (s.jnlRing pos x).kept = s.kept := by
  unfold State.jnlRing
  split <;> simp

theorem kept_jnlCopied (pos : Nat) (x : List Byte) : (s.jnlCopied pos x).kept = s.kept := by
  unfold State.jnlCopied
  split
  · rfl
  · split <;> simp

@[simp] theorem kept_jnlWrite (d : List Byte) : (s.jnlWrite d).kept = s.kept := by
  rw [jnlWrite_eq]
  simp [kept_jnlRing, kept_jnlCopied]

@[simp] theorem kept_jnlAppend (q : Nat) (d block : List Byte) : (s.jnlAppend q d block).kept = s.kept := by simp [State.jnlAppend]
@[simp] theorem kept_jnlStop (q : Nat) : (s.jnlStop q).kept = s.kept := by simp [State.jnlStop]

@[simp] theorem kept_fetchBlock (d : List Byte) : (s.fetchBlock d).2.kept = s.kept := by
  unfold State.fetchBlock
  split
  · rfl
  · split
    · rfl
    · split
      · rfl
      · dsimp only
        split <;> exact kept_readLoc s _ _

@[simp] theorem kept_fetchSlot (q : Nat) : (s.fetchSlot q).2.kept = s.kept := by
  unfold State.fetchSlot
  dsimp only
  split
  · simp
  · split
    · simp
    · split
      · simp
      · split
        · simp
        · split
          · simp
          · split <;> simp

@[simp] theorem kept_accept (q : Nat) (d block : List Byte) : (s.accept q d block).kept = s.kept := by simp [State.accept]

@[simp] theorem kept_fetchFrom (q n : Nat) : (s.fetchFrom q n).kept = s.kept := by
  induction n generalizing s with
  | zero => rfl
  | succ n ih =>
    unfold State.fetchFrom
    dsimp only
    split
    · split
      · simp
      · simp
      · simp [ih]
    · rfl

@[simp] theorem kept_fetch (q : Nat) : (s.fetch q).kept = s.kept := by simp [State.fetch]

/-! ### What waits for the link (R28 to R30): weight streams, the mirror VC, final sums -/

theorem kept_weightIn (w cw : Nat) (raws : List (List Byte)) : (s.weightIn w cw raws).kept = s.kept := by
  have stored (l : List (List Byte × Nat)) (u : State) : (l.foldl (fun s r => s.keepWeight w (cw + r.2) r.1) u).kept = u.kept :=
    foldl_proj State.kept (fun _ _ => kept_onChd _ _) l u
  have sent (l : List (Option Nat × Nat × Nat)) (u : State) :
      (l.foldl (fun s d => s.routeBy d.1 1 w cw d.2 false raws.flatten) u).kept = u.kept :=
    foldl_proj State.kept (fun v d => kept_routeBy v _ _ _ _ _ _ _) l u
  simp [State.weightIn, stored, sent]

theorem kept_weightOwn (w cw : Nat) (raws : List (List Byte)) : (s.weightOwn w cw raws).kept = s.kept :=
  foldl_proj State.kept (fun u _ => (kept_weightIn _ _ _ _).trans (kept_onChd u _)) _ s

@[simp] theorem kept_d2dArrive (cls : D2dClass) (dir : Nat) (data : List Byte) : (s.d2dArrive cls dir data).kept = s.kept := by
  simp [State.d2dArrive, kept_weightOwn]

@[simp] theorem kept_slowLand (off : Nat) (raw : List Byte) : (s.slowLand off raw).kept = s.kept := by simp [State.slowLand]
@[simp] theorem kept_g7Land (off : Nat) (raw : List Byte) : (s.g7Land off raw).kept = s.kept := by simp [State.g7Land]
@[simp] theorem kept_landWord (p off : Nat) (raw : List Byte) : (s.landWord p off raw).kept = s.kept := by simp [State.landWord]

theorem kept_followNpgt (n : Nat) : (s.followNpgt n).kept = s.kept :=
  foldl_proj State.kept (fun u g => by simp) _ s

@[simp] theorem kept_ackNeighbour (step kind : Nat) : (s.ackNeighbour step kind).kept = s.kept := by
  unfold State.ackNeighbour
  split <;> simp

@[simp] theorem kept_mirrorFull (n : Nat) : (s.mirrorFull n).kept = s.kept := by simp [State.mirrorFull, kept_followNpgt]

@[simp] theorem kept_mirrorWord (cw : Nat) (raw : List Byte) : (s.mirrorWord cw raw).kept = s.kept := by
  have landed (b : Nat) (m : Sparse (List Byte)) (l : List Nat) (u : State) : (l.foldl (fun s k =>
      s.slowLand (s.region dMirror b 33024 + 32 * k) (Sparse.get [] m (1032 * b + k))) u).kept = u.kept :=
    foldl_proj State.kept (fun v k => kept_slowLand v _ _) l u
  simp [State.mirrorWord, landed]

@[simp] theorem kept_noteArriving : s.noteArriving.kept = s.kept := by simp [State.noteArriving]
@[simp] theorem kept_gradsWhole : s.gradsWhole.kept = s.kept := by simp [State.gradsWhole]

@[simp] theorem kept_gradWord (cw : Nat) (raw : List Byte) : (s.gradWord cw raw).kept = s.kept := by
  unfold State.gradWord
  dsimp only
  split <;> simp

@[simp] theorem kept_nscaleWord (i : Nat) (raw : List Byte) : (s.nscaleWord i raw).kept = s.kept := by simp [State.nscaleWord]

@[simp] theorem kept_restoredStep : s.restoredStep.2.kept = s.kept := by simp [State.restoredStep, apply_ite Prod.snd]

@[simp] theorem kept_restoreDone : s.restoreDone.kept = s.kept := by
  have records (l : List (ScaleRec × Nat)) (u : State) : (l.foldl (fun s r => s.setScaleRec r.2 r.1) u).kept = u.kept :=
    foldl_proj State.kept (fun v r => kept_setScaleRec v _ _) l u
  have groups (n : Nat) (l : List Nat) (u : State) :
      (l.foldl (fun s g => s.writeSlow (s.region dPgt g 64 + 48) (leBytes 8 (2 * n))) u).kept = u.kept :=
    foldl_proj State.kept (fun v g => kept_writeSlow v _ _) l u
  simp [State.restoreDone, records, groups]

@[simp] theorem kept_restoreCount : s.restoreCount.kept = s.kept := by simp [State.restoreCount]
@[simp] theorem kept_shardWord (cw : Nat) (raw : List Byte) : (s.shardWord cw raw).kept = s.kept := by simp [State.shardWord]
@[simp] theorem kept_recordWord (i : Nat) (raw : List Byte) : (s.recordWord i raw).kept = s.kept := by simp [State.recordWord]

theorem kept_mirrorVcWord (src : Nat × Nat) (stream cw : Nat) (raw : List Byte) : (s.mirrorVcWord src stream cw raw).kept = s.kept := by
  unfold State.mirrorVcWord
  cases s.ptile (stream - 0x100) <;> simp [State.remoteWord]

theorem kept_mirrorLand (src : Nat × Nat) (stream cw : Nat) (raws : List (List Byte)) : (s.mirrorLand src stream cw raws).kept = s.kept := by
  have words (l : List (List Byte × Nat)) (u : State) : (l.foldl (fun s r => s.mirrorVcWord src stream (cw + r.2) r.1) u).kept = u.kept :=
    foldl_proj State.kept (fun v r => kept_mirrorVcWord v _ _ _ _) l u
  simp [State.mirrorLand, State.writeAckTo, words]

/-! ### FDT and the cross-group ring (R303, R326, R327) -/

theorem kept_fdtSend (k type flags : Nat) (psn msg : Word32) (off : Nat) (header data : List Byte) :
    (s.fdtSend k type flags psn msg off header data).kept = s.kept := by
  unfold State.fdtSend
  dsimp only
  split
  · rfl
  · simp [State.sendFrame]

theorem kept_fdtPumpFrom (k : Nat) (l : List FdtPart) : (s.fdtPumpFrom k l).kept = s.kept := by
  induction l generalizing s with
  | nil => rfl
  | cons p r ih =>
    unfold State.fdtPumpFrom
    simp [ih, State.fdtTransmit, kept_fdtSend]

@[simp] theorem kept_ringSend (key : Nat) (d : List Byte) : (s.ringSend key d).kept = s.kept := by
  simp [State.ringSend, State.fdtMessage, State.fdtPump, kept_fdtPumpFrom]

@[simp] theorem kept_postVote (straggler : Bool) : (s.postVote straggler).kept = s.kept := by
  have quiet : (if straggler then (false, s) else s.fires 0x0A02 0 0 : Bool × State).2.kept = s.kept := by
    split <;> simp
  simp [State.postVote, quiet]

@[simp] theorem kept_ringVote : s.ringVote.kept = s.kept := by
  unfold State.ringVote
  split <;> simp

@[simp] theorem kept_unitWrite (st u : Nat) (d : List Byte) : (s.unitWrite st u d).kept = s.kept := by
  unfold State.unitWrite
  split <;> simp

@[simp] theorem kept_ringFinal (st u : Nat) (d : List Byte) : (s.ringFinal st u d).kept = s.kept := by simp [State.ringFinal]

@[simp] theorem kept_redQuant (st blk hop : Nat) (ys : List Word32) : (s.redQuant st blk hop ys).2.kept = s.kept := by
  unfold State.redQuant
  dsimp only
  split
  · rfl
  · split
    · rfl
    · exact (foldl_proj State.kept (fun u r => kept_writeG7 u _ _) _ _).trans
        (foldl_proj (fun a : List Word16 × State => a.2.kept) (fun a k => kept_readG7 a.2 _ _) _ _)

@[simp] theorem kept_redSum (st blk hop : Nat) (ys : List Word32) : (s.redSum st blk hop ys).2.kept = s.kept := by simp [State.redSum]

@[simp] theorem kept_ringAdd (st u hop : Nat) (d : List Byte) : (s.ringAdd st u hop d).2.kept = s.kept := by
  unfold State.ringAdd
  exact foldl_proj (fun a : List (List Byte × Byte) × State => a.2.kept) (fun a i => kept_redSum a.2 _ _ _ _) _ _

@[simp] theorem kept_ringStep (st u : Nat) : (s.ringStep st u).kept = s.kept := by
  unfold State.ringStep
  dsimp only
  split
  · rfl
  · split
    · simp
    · split <;> simp

theorem kept_redLand (st blk : Nat) (b : List Byte × Byte) : (s.redLand st blk b).kept = s.kept := by
  unfold State.redLand
  dsimp only
  split
  · rfl
  · split <;> simp

/-! ### The link drains (R30) -/

theorem kept_d2dCross (w : D2dTraffic) : (s.d2dCross w).kept = s.kept := by
  cases w with
  | unit cls dir data => exact kept_d2dArrive s cls dir data
  | mirrorOut stream cw x y data => exact kept_route s _ _ _ _ _ _
  | mirrorIn x y stream cw raws => exact kept_mirrorLand s _ _ _ _
  | reduced st blk elems scale => exact kept_redLand s _ _ _

@[simp] theorem kept_d2dRetry (dir : Nat) : (s.d2dRetry dir).kept = s.kept := by
  have crossed (l : List D2dTraffic) (u : State) : (l.foldl State.d2dCross u).kept = u.kept := foldl_proj State.kept kept_d2dCross l u
  simp [State.d2dRetry, crossed]

theorem kept_d2dDrain : s.d2dDrain.kept = s.kept := by simp [State.d2dDrain]

/-! ### Sync counters and watches (R180 to R183, R317) -/

theorem kept_watchFire (k : Nat) : (s.watchFire k).kept = s.kept := by simp [State.watchFire]

@[simp] theorem kept_watchAll (n : Nat) : (s.watchAll n).kept = s.kept :=
  foldl_proj State.kept (fun u kw => by simp [kept_watchFire]) _ s

@[simp] theorem kept_scFlags (n : Nat) (old new : Counter) (src : Nat) : (s.scFlags n old new src).kept = s.kept := by simp [State.scFlags]
@[simp] theorem kept_voteCheck (n : Nat) : (s.voteCheck n).kept = s.kept := by simp [State.voteCheck]

@[simp] theorem kept_scOp (n : Nat) (op : ScOp) (v : Word32) (src : ScSource) : (s.scOp n op v src).kept = s.kept := by
  unfold State.scOp
  cases op <;> simp

@[simp] theorem kept_restoreCounters : s.restoreCounters.kept = s.kept := by
  have restored (l : List Nat) (u : State) : (l.foldl State.restoreOne u).kept = u.kept :=
    foldl_proj State.kept (fun v n => by simp [State.restoreOne]) l u
  have watched (l : List Nat) (u : State) : (l.foldl (fun s n => s.watchAll n) u).kept = u.kept := foldl_proj State.kept kept_watchAll l u
  simp [State.restoreCounters, restored, watched]

/-! ### Completion and replay (R157, R158, R186, R187) -/

@[simp] theorem kept_writeRecord (a : Nat) (d : List Byte) : (s.writeRecord a d).kept = s.kept := by
  unfold State.writeRecord
  split <;> simp

@[simp] theorem kept_queueError (q : Nat) : (s.queueError q).kept = s.kept := by simp [State.queueError]

@[simp] theorem kept_releaseStop (q : Nat) : (s.releaseStop q).kept = s.kept := by
  unfold State.releaseStop
  split <;> simp

@[simp] theorem kept_onItem (q : Nat) (seq : Word32) (f : Item → Item) : (s.onItem q seq f).kept = s.kept := kept_onQueue s q _
@[simp] theorem kept_pop (q : Nat) : (s.pop q).kept = s.kept := kept_onQueue s q _
@[simp] theorem kept_tryDisable (q : Nat) : (s.tryDisable q).kept = s.kept := by simp [State.tryDisable]

@[simp] theorem kept_completeItem (q : Nat) (i : Item) (status : Word16) (outcome rows : Nat) :
    (s.completeItem q i status outcome rows).kept = s.kept := by
  unfold State.completeItem
  cases i.tally <;> simp [State.addTally, State.markHost]

@[simp] theorem kept_dropRun (q : Nat) (seq : Word32) : (s.dropRun q seq).kept = s.kept := by
  unfold State.dropRun
  by_cases h : q < 64 <;> cases s.ptile q <;> simp [h, State.markIdle]

@[simp] theorem kept_abortRunning (q : Nat) (i : Item) : (s.abortRunning q i).kept = s.kept := by
  unfold State.abortRunning
  cases s.ptile q <;> simp [State.finish, State.cancelWrites, State.poisonBanks]

@[simp] theorem kept_landWrites (q : Nat) (seq : Word32) : (s.landWrites q seq).kept = s.kept := by
  unfold State.landWrites
  refine (kept_onComp _ _).trans (foldl_proj State.kept (fun u k => foldl_proj State.kept (fun v y => ?_) _ u) _ s)
  dsimp only
  split
  · split <;> simp
  · rfl

theorem kept_abortStep (q : Nat) : (s.abortStep q).kept = s.kept := by
  unfold State.abortStep State.abortItems
  refine foldl_proj State.kept (fun u i => ?_) _ s
  split
  · split <;> simp
  · rfl

theorem kept_jnlPiece (pos n : Nat) : (s.jnlPiece pos n).2.kept = s.kept := by
  unfold State.jnlPiece
  split
  · rfl
  · dsimp only
    split
    · simp
    · split
      · simp
      · split <;> simp

@[simp] theorem kept_jnlRead (e : JnlEntry) : (s.jnlRead e).2.kept = s.kept := by
  simp [State.jnlRead, apply_ite Prod.snd, kept_jnlPiece]

theorem kept_replayItems (q : Nat) : (s.replayItems q).2.kept = s.kept := by
  unfold State.replayItems
  refine foldl_proj (fun a : List Item × State => a.2.kept) (fun a e => ?_) _ _
  dsimp only
  split
  · rfl
  · split <;> simp

theorem kept_replayQueue (q : Nat) : (s.replayQueue q).kept = s.kept := by simp [State.replayQueue, kept_replayItems]

theorem kept_requestWeights (w : Nat) : (s.requestWeights w).kept = s.kept :=
  foldl_proj State.kept (fun u _ => kept_sendControl u _ _ _) _ s

@[simp] theorem kept_restartStreams (group : Bool) : (s.restartStreams group).kept = s.kept := by
  have requested (l : List Nat) (u : State) : (l.foldl State.requestWeights u).kept = u.kept := foldl_proj State.kept kept_requestWeights l u
  simp [State.restartStreams, requested]

theorem kept_replayStep (cause : Nat) : (s.replayStep cause).kept = s.kept := by
  have aborted (l : List Nat) (u : State) : (l.foldl State.abortStep u).kept = u.kept := foldl_proj State.kept kept_abortStep l u
  have replayed (l : List Nat) (u : State) : (l.foldl State.replayQueue u).kept = u.kept := foldl_proj State.kept kept_replayQueue l u
  simp [State.replayStep, State.clearCounts, aborted, replayed]

end

end Sys2Proof.Machine
end

section
/-! The memory controllers without injections (R225, R231 to R243): what each of their events does to the state. -/

namespace Sys2Proof.Machine

open Sys2Proof.Laws

/-! ### Injections that end, and throttle reasons -/

theorem channel_throttle (s : State) (c : Nat) : s.throttle.channel c = s.channel c := (notices_throttle s).channel c
theorem channel_injEnd (s : State) (kind index c : Nat) : (s.injEnd kind index).channel c = s.channel c := rfl
theorem lp_injEnd (s : State) (kind index l : Nat) : (s.injEnd kind index).lp l = s.lp l := rfl
theorem channel_onMem (s : State) {f : Mem → Mem} (h : (f s.mem).channels = s.mem.channels) {c : Nat} :
    (s.onMem f).channel c = s.channel c := by
  show Sparse.get Reset.channel (f s.mem).channels c = _
  rw [h]
  rfl
theorem channel_report (s : State) (code : Nat) (sev : Severity) (kind index : Nat) (p : List Byte) (c : Nat) :
    (s.report code sev kind index p).channel c = s.channel c := (notices_report s code sev kind index p).channel c

section
variable {s : State} (q : s.Quiet)
include q

theorem disarm_of_quiet (k cause : Nat) : s.disarm k cause = s := by
  have unarmed : (s.injSlot k).armed = false := by rw [State.injSlot, q.1]; rfl
  unfold State.disarm
  exact if_pos (by rw [unarmed]; rfl)

theorem disarmTarget_of_quiet (p : InjSlot → Bool) : s.disarmTarget p = s := by
  unfold State.disarmTarget
  induction List.range 16 with
  | nil => rfl
  | cons k l ih => rw [List.foldl_cons, disarm_of_quiet q, ite_self, ih]

/-! ### Patrol scrub and migration (R225, R236) -/

theorem exec_patrolScrub_g7 (hm : s.boot.mainOn = true) (hc : fld s.mem.ctrl 1 1 = 1) (hg : s.mem.scrubG7 + 1 < g7Granules)
    (finds : List (Fin 16 × CwFind)) : ∃ t, exec (.patrolScrub false finds) s = .next (t.onMem fun m => { m with scrubG7 := s.mem.scrubG7 + 1 }) ∧
      s.Reads t ∧ ∀ j, j < 16 → t.g7Health (16 * s.mem.scrubG7 + j) ≠ .correctable := by
  have parked := reads_parkAll s (512 * s.mem.scrubG7) 512
  have word (u : State) (j : Nat) (qu : u.Quiet) := scrubWord_reads qu (16 * s.mem.scrubG7 + j)
    ((finds.find? fun f => f.1.val == j).map (·.2))
  refine ⟨(List.range 16).foldl (fun u j => u.scrubWord false (16 * s.mem.scrubG7 + j)
    ((finds.find? fun f => f.1.val == j).map (·.2))) (s.parkAll (512 * s.mem.scrubG7) 512), ?_, ?_, ?_⟩
  · show execPatrolScrub false finds s = _
    unfold execPatrolScrub
    simp only [Bool.false_eq_true, if_false]
    rw [if_neg (by simp [State.mainUp, hm, hc]; omega)]
    exact if_neg fun h => Nat.not_lt.2 h.1 hg
  · exact parked.trans (reads_foldl (fun u j qu => (word u j qu).1) _ (parked.quiet q))
  · exact fun j hj => clean_foldl (at' := (16 * s.mem.scrubG7 + ·)) word (parked.quiet q) (List.mem_range.2 hj)

theorem exec_migrationCopy (hm : s.boot.mainOn = true) (hd : s.mem.switchDue = false)
    (hr : s.mem.reserve = .migrating ∨ s.mem.reserve = .returning) (hc : (s.channel s.mem.reserveCh).state ≠ .retrain)
    (hs : s.mem.migDone.toNat + 1 < dataSlots) :
    ∃ t, exec .migrationCopy s = .next (t.onMem fun m => { m with migDone := m.migDone + 1 }) ∧ s.Reads t := by
  have parked := reads_parkAll s (512 * granuleAt s.mem.reserveCh s.mem.migDone.toNat) 512
  have copied (u : State) (j : Nat) (qu : u.Quiet) := (lookGood_reads qu (16 * granuleAt s.mem.reserveCh s.mem.migDone.toNat + j)).1
  refine ⟨_, ?_, parked.trans (reads_foldl copied (List.range 16) (parked.quiet q))⟩
  show execMigrationCopy s = _
  unfold execMigrationCopy
  dsimp only
  rw [if_neg (by simp only [State.mainUp, hm, hd]; simp only [hc]; obtain h | h := hr <;> simp [h]), if_neg (by omega)]
  rfl

/-! ### Retraining (R231 to R233) -/

theorem exec_g7RetrainDone_ok {c : Fin 80} (hc : (s.channel c).state = .retrain) : ∃ t, exec (.g7RetrainDone c true) s = .next t ∧
    t.channel c = { s.channel c with
      state := (s.channel c).under, trainTemp := (s.channel c).temp, ceTicks := [], park := 0, fails := 0 } := by
  show ∃ t, execG7RetrainDone c true s = _ ∧ _
  unfold execG7RetrainDone
  dsimp only
  rw [if_neg (not_not.2 hc), q.fires, if_pos ⟨rfl, rfl⟩]
  refine ⟨_, rfl, ?_⟩
  rw [channel_throttle, channel_injEnd, channel_report, channel_onMem _ rfl, channel_onChannel_same]

theorem exec_g7RetrainDone_failed {c : Fin 80} (hc : (s.channel c).state = .retrain) : ∃ u : State, u.Quiet ∧
    u.channel c = { s.channel c with fails := (s.channel c).fails + 1 } ∧ exec (.g7RetrainDone c false) s =
      .next ((if 3 ≤ (s.channel c).fails + 1 then u.channelDead c else u).injEnd 7 c).throttle := by
  have counted := notices_report (s.onChannel c fun ch => { ch with fails := (s.channel c).fails + 1 }) 0x0802 .warn 7 c
    (leBytes 1 c ++ leBytes 1 ((s.channel c).fails + 1) ++ leBytes 4 s.stepNo)
  refine ⟨_, counted.quiet q, (counted.channel c).trans (channel_onChannel_same s c _), ?_⟩
  show execG7RetrainDone c false s = _
  unfold execG7RetrainDone
  dsimp only
  rw [if_neg (not_not.2 hc), q.fires, if_neg (fun h => Bool.false_ne_true h.1)]

end

/-! ### Death of a channel (R233, R237, R239, R240) -/

/-- No injection is set, and the channel is dead. -/
def State.quietDead (s : State) (c : Nat) : Prop := s.Quiet ∧ (s.channel c).state = .dead

theorem State.Notices.quietDead {s t : State} (h : s.Notices t) {c : Nat} (k : s.quietDead c) : t.quietDead c :=
  ⟨h.quiet k.1, by rw [h.channel]; exact k.2⟩

theorem State.Accesses.quietDead {s t : State} (h : s.Accesses t) {c : Nat} (k : s.quietDead c) : t.quietDead c :=
  ⟨h.quiet k.1, h.dead c k.2⟩

theorem notices_deadRecord (s : State) (c : Nat) (before : Reserve) (lost : Nat) : s.Notices (s.deadRecord c before lost) :=
  (notices_report _ _ _ _ _ _).trans (notices_msix _ 273)
theorem notices_noReserve (s : State) (c serves : Nat) (before : Reserve) : s.Notices (s.noReserve c serves before) :=
  notices_report _ _ _ _ _ _

section
variable {s : State} {c : Nat} (h : s.quietDead c)
include h

theorem quietDead_onMem {f : Mem → Mem} (hf : (f s.mem).channels = s.mem.channels) : (s.onMem f).quietDead c :=
  ⟨h.1, by rw [channel_onMem s hf]; exact h.2⟩

theorem quietDead_setRemap (g : Nat) (r : Remap) : (s.setRemap g r).quietDead c :=
  quietDead_onMem h (by split <;> rfl)

theorem quietDead_loseSlots (lo hi : Nat) : (s.loseSlots c lo hi).quietDead c := quietDead_onMem h rfl

theorem quietDead_deadRemap (lo hi : Nat) : (s.deadRemap c lo hi).quietDead c := by
  unfold State.deadRemap
  dsimp only
  generalize hu : State.deadRecord _ c s.mem.reserve (hi - lo) = u
  have recorded : u.quietDead c := by
    rw [← hu]
    exact (notices_deadRecord _ _ _ _).quietDead (quietDead_onMem (quietDead_setRemap (quietDead_loseSlots h lo hi) _ _) rfl)
  split
  · exact (notices_noReserve _ _ _ _).quietDead recorded
  · exact recorded

/-- A death with the reserve in use elsewhere: all slots are lost (R239). -/
theorem quietDead_unserved (serves : Nat) (before : Reserve) :
    (((s.loseSlots c 0 dataSlots).deadRecord c before dataSlots).noReserve c serves before).quietDead c :=
  (notices_noReserve _ _ _ _).quietDead ((notices_deadRecord _ _ _ _).quietDead (quietDead_loseSlots h _ _))

theorem quietDead_unpark_retired : ((s.unpark c).channelRetired c).quietDead c := by
  have unparked := (accesses_unpark h.1 c).quietDead h
  rw [State.channelRetired, disarmTarget_of_quiet unparked.1]
  exact unparked

end

theorem channelDead_dead {s : State} (q : s.Quiet) (c : Nat) : ((s.channelDead c).channel c).state = .dead := by
  have died : (s.onChannel c fun ch => { ch with state := .dead, throttle := 0, park := 0 }).quietDead c :=
    ⟨q, by rw [channel_onChannel_same]⟩
  unfold State.channelDead
  dsimp only
  generalize s.onChannel c (fun ch => { ch with state := .dead, throttle := 0, park := 0 }) = u at died ⊢
  refine (quietDead_unpark_retired ?_).2
  split
  · exact quietDead_deadRemap died _ _
  · split
    · exact quietDead_deadRemap died _ _
    · exact quietDead_unserved died _ _
  · split
    · exact quietDead_deadRemap died _ _
    · exact quietDead_unserved died _ _
  · split
    · have recorded := (notices_deadRecord _ c .thermal 0).quietDead (quietDead_onMem (quietDead_setRemap died u.mem.gen
        { u.remap u.mem.gen with kind := 2 }) (f := fun m => { m with reserve := .repaired, coolSince := none }) rfl)
      split
      · exact (notices_noReserve _ _ _ _).quietDead recorded
      · exact recorded
    · exact quietDead_unserved died _ _
  · exact quietDead_unserved died _ _

/-! ### Temperature (R231, R241, R242) -/

/-- The reading and the throttle level of a channel. -/
def State.levels (s : State) (c : Nat) : Int × Nat := ((s.channel c).temp, (s.channel c).throttle)

theorem State.Notices.levels {s t : State} (h : s.Notices t) (c : Nat) : t.levels c = s.levels c := by
  unfold State.levels
  rw [h.channel]

section
variable (s : State)

theorem levels_onChannel {f : Channel → Channel} (k : Nat)
    (h : (f (s.channel k)).temp = (s.channel k).temp ∧ (f (s.channel k)).throttle = (s.channel k).throttle) (c : Nat) :
    (s.onChannel k f).levels c = s.levels c := by
  unfold State.levels
  by_cases hk : k = c
  · subst hk
    rw [channel_onChannel_same, h.1, h.2]
  · rw [channel_onChannel_other s f hk]

theorem levels_onMem {f : Mem → Mem} (h : (f s.mem).channels = s.mem.channels) (c : Nat) : (s.onMem f).levels c = s.levels c := by
  unfold State.levels
  rw [channel_onMem s h]

theorem levels_g7Retrain (k cause c : Nat) : (s.g7Retrain k cause).levels c = s.levels c := by
  unfold State.g7Retrain
  dsimp only
  split
  · rfl
  · exact levels_onChannel s k ⟨rfl, rfl⟩ c

theorem levels_tempRetrain (k linkErrs : Nat) (det : Bool) (c : Nat) : (s.tempRetrain k linkErrs det).levels c = s.levels c := by
  unfold State.tempRetrain
  dsimp only
  split
  · rfl
  · split
    · exact levels_g7Retrain s k 1 c
    · split
      · exact levels_g7Retrain s k 2 c
      · split
        · exact levels_g7Retrain s k 3 c
        · rfl

theorem levels_throttleNotes (k old new c : Nat) : (s.throttleNotes k old new).levels c = s.levels c := by
  refine foldl_proj (fun u : State => u.levels c) (fun u n => ?_) _ s
  split
  · exact (notices_report _ _ _ _ _ _).levels c
  · rfl

theorem levels_setChState (k : Nat) (st : ChState) (c : Nat) : (s.setChState k st).levels c = s.levels c := by
  unfold State.setChState
  refine levels_onChannel s k ?_ c
  split <;> exact ⟨rfl, rfl⟩

theorem levels_setRemap (g : Nat) (r : Remap) (c : Nat) : (s.setRemap g r).levels c = s.levels c :=
  levels_onMem s (by split <;> rfl) c

theorem levels_retireThermal (k c : Nat) : (s.retireThermal k).levels c = s.levels c := by
  unfold State.retireThermal
  dsimp only
  rw [(notices_report _ _ _ _ _ _).levels, levels_setChState, levels_onMem _ rfl, levels_setRemap]

theorem levels_tempRetire (k c : Nat) : (s.tempRetire k).levels c = s.levels c := by
  unfold State.tempRetire
  dsimp only
  split
  · rfl
  · split
    · exact levels_retireThermal s _ c
    · split
      · exact (notices_report _ _ _ _ _ _).levels c
      · rfl

end

/-- A reading without link errors is kept, with the level that it gives a channel in service (R241). -/
theorem exec_g7TempRead {s : State} (q : s.Quiet) (hm : s.boot.mainOn = true) (c : Fin 80) (temp : Int) :
    ∃ t, exec (.g7TempRead c temp 0) s = .next t ∧ t.levels c =
      (temp, if (s.channel c).state == .dead || (s.channel c).state == .retiredThermal then 0 else throttleLevel (s.channel c).throttle temp) := by
  show ∃ t, execG7TempRead c temp 0 s = _ ∧ _
  unfold execG7TempRead
  dsimp only
  rw [if_neg (by simp [State.mainUp, hm]), opportunity_of_slots_nil q.1, q.fires]
  refine ⟨_, rfl, ?_⟩
  have ended (u : State) : State.levels (if (u.channel c).state = .retrain then u else u.injEnd 7 c) c = u.levels c := by split <;> rfl
  rw [(notices_throttle _).levels, ended, levels_onMem _ rfl, levels_tempRetire, levels_tempRetrain, levels_throttleNotes]
  unfold State.levels
  rw [channel_onChannel_same]
  simp

/-! ### The reserve (R236, R242) -/

theorem exec_thermalReturnStart {s : State} {k : Nat} (hk : s.mem.coolSince = some k) (hr : s.mem.reserve = .thermal) :
    ∃ t, exec .thermalReturnStart s = .next t ∧ t.mem.reserve = .returning ∧ t.mem.migDone = 0 := by
  show ∃ t, execThermalReturnStart s = _ ∧ _
  unfold execThermalReturnStart
  rw [hk]
  dsimp only
  rw [if_neg (not_not.2 hr)]
  refine ⟨_, rfl, ?_⟩
  exact ⟨(notices_report _ _ _ _ _ _).mem Mem.reserve, (notices_report _ _ _ _ _ _).mem Mem.migDone⟩

/-! ### HOLD (R237, R238) -/

theorem exec_memRelease {s : State} (q : s.Quiet) {v : Word64} (hl : s.linkUp = true) (hh : s.mem.hold = true) (hv : fld v 2 1 = 1) :
    ∃ t, exec (.memRelease v) s = .next t ∧ t.mem.hold = false := by
  refine ⟨s.writeMemCtrl v, ?_, ?_⟩
  · show execMemRelease v s = _
    unfold execMemRelease
    rw [if_pos hl, q.tlp]
  · unfold State.writeMemCtrl
    dsimp only
    rw [if_pos ⟨hv, hh⟩]
    exact congrArg Prod.snd (kept_replayStep _ 3)

theorem exec_memHoldTimeout {s : State} (hh : s.mem.hold = true) (hf : s.boot.faulted = false) (hr : s.ringLacks 0x080A) :
    ∃ t, exec .memHoldTimeout s = .next t ∧ t.boot.faulted = true := by
  refine ⟨_, if_neg (by simp [hh, hf]), ?_⟩
  exact faulted_report _ _ _ _ (by decide) (ringLacks_passTo hr (by decide) (by decide) _)

/-! ### The slow tier (R243) -/

/-- The four channels of a package take one throttle level. -/
theorem lp_foldl_throttle (s : State) (n level k : Nat) (hk : k < 4) :
    (((List.range 4).foldl (fun (s : State) k => s.onLp (4 * n + k) fun x => { x with throttle := level }) s).lp (4 * n + k)).throttle = level := by
  have kept (u : State) (j : Nat) (h : (u.lp (4 * n + k)).throttle = level ∨ j = k) :
      ((u.onLp (4 * n + j) fun x => { x with throttle := level }).lp (4 * n + k)).throttle = level := by
    by_cases hj : j = k
    · rw [hj, lp_onLp_same]
    · rw [lp_onLp_other u _ (by omega)]
      exact h.resolve_right hj
  have done (l : List Nat) : ∀ u : State, (u.lp (4 * n + k)).throttle = level ∨ k ∈ l →
      ((l.foldl (fun (s : State) k => s.onLp (4 * n + k) fun x => { x with throttle := level }) u).lp (4 * n + k)).throttle = level := by
    induction l with
    | nil => exact fun u h => h.resolve_right List.not_mem_nil
    | cons j l ih =>
      intro u h
      refine ih _ ?_
      by_cases hj : j = k
      · exact .inl (kept u j (.inr hj))
      · exact h.imp (fun hu => kept u j (.inl hu)) fun hm => (List.mem_cons.1 hm).resolve_left (Ne.symm hj)
  exact done _ s (.inr (List.mem_range.2 hk))

theorem exec_lpTempRead {s : State} (q : s.Quiet) (hm : s.boot.mainOn = true) (l : Fin 16) (temp : Int) :
    ∃ t, exec (.lpTempRead l temp) s = .next t ∧
      ∀ k, k < 4 → (t.lp (4 * l + k)).throttle = throttleLevel (s.lp (4 * l)).throttle temp := by
  have looked (n : Nat) (ks : List Nat) : ks.foldl (fun (a : Nat × State) k => (a.1 + ((a.2.opportunity 0x0809 8 (4 * n + k) 0
      fun _ => true).1).getD 0, (a.2.opportunity 0x0809 8 (4 * n + k) 0 fun _ => true).2)) (0, s) = (0, s) := by
    induction ks with
    | nil => rfl
    | cons k ks ih => rw [List.foldl_cons, opportunity_of_slots_nil q.1]; exact ih
  have ended (n j : Nat) (ks : List Nat) (u : State) : (ks.foldl (fun s k => s.injEnd 8 (4 * n + k)) u).lp j = u.lp j :=
    foldl_proj (State.lp · j) (f := fun (u : State) k => u.injEnd 8 (4 * n + k)) (fun _ _ => rfl) ks u
  have noted (c : Prop) [Decidable c] (u : State) (code : Nat) (sev : Severity) (kind index : Nat) (p : List Byte) (j : Nat) :
      State.lp (if c then u.report code sev kind index p else u) j = u.lp j := by
    split
    · exact (notices_report _ _ _ _ _ _).lp j
    · rfl
  show ∃ t, execLpTempRead l temp s = _ ∧ _
  unfold execLpTempRead
  dsimp only
  rw [if_neg (by simp [State.mainUp, hm]), looked]
  refine ⟨_, rfl, fun k hk => ?_⟩
  rw [(notices_throttle _).lp, ended, noted, noted, lp_foldl_throttle _ _ _ _ hk]
  simp

theorem exec_lp5xRetrainDone_ok {s : State} (q : s.Quiet) (hm : s.boot.mainOn = true) {l : Fin 64} (hl : (s.lp l).dead = false) :
    ∃ t, exec (.lp5xRetrainDone l true) s = .next t ∧ t.lp l = { s.lp l with fails := 0 } := by
  show ∃ t, execLp5xRetrainDone l true s = _ ∧ _
  unfold execLp5xRetrainDone
  dsimp only
  rw [if_neg (by simp [State.mainUp, hm, hl]), q.fires, if_pos ⟨rfl, rfl⟩]
  refine ⟨_, rfl, ?_⟩
  rw [lp_injEnd, lp_onLp_same]

theorem exec_lp5xRetrainDone_failed {s : State} (q : s.Quiet) (hm : s.boot.mainOn = true) {l : Fin 64} (hl : (s.lp l).dead = false) :
    ∃ t, exec (.lp5xRetrainDone l false) s = .next t ∧
      t.lp l = { s.lp l with fails := (s.lp l).fails + 1, dead := decide (3 ≤ (s.lp l).fails + 1) } := by
  show ∃ t, execLp5xRetrainDone l false s = _ ∧ _
  unfold execLp5xRetrainDone
  dsimp only
  rw [if_neg (by simp [State.mainUp, hm, hl]), q.fires, if_neg (fun h => Bool.false_ne_true h.1)]
  refine ⟨_, rfl, ?_⟩
  rw [lp_injEnd]
  split
  · rw [(notices_report _ _ _ _ _ _).lp, lp_onLp_same]
  · rw [lp_onLp_same]

end Sys2Proof.Machine
end

section
/-! The die-to-die link without injections (R26 to R31): a unit that arrives, and the end of a retrain. -/

namespace Sys2Proof.Machine

open Sys2Proof.Laws

theorem d2dLink_onD2dLink_same (s : State) (m dir : Nat) (f : D2dLink → D2dLink) :
    (s.onD2dLink m dir f).d2dLink m dir = f (s.d2dLink m dir) := get_put_same _ _ _ _

theorem d2dLink_of_kept {s t : State} (h : t.kept = s.kept) (m dir : Nat) : t.d2dLink m dir = s.d2dLink m dir :=
  congrArg (fun k : Sparse D2dLink × Bool => Sparse.get Reset.d2dLink k.1 (2 * m + dir)) h

/-! ### Lanes that fail -/

/-- A link without a lane at 16 failed units neither retrains nor faults (R30, R31). -/
theorem d2dLaneFailed_of_low {s : State} {m dir : Nat} (h : ∀ k ∈ (s.d2dLink m dir).lanes, Sparse.get 0 (s.d2dLink m dir).fails k < 16) :
    s.d2dLaneFailed m dir = s := by
  have low : ((s.d2dLink m dir).lanes.find? fun k => decide (16 ≤ Sparse.get 0 (s.d2dLink m dir).fails k)) = none :=
    List.find?_eq_none.2 fun k hk => by simpa using h k hk
  unfold State.d2dLaneFailed
  dsimp only
  rw [low]

/-- A retrain that begins, and a FAULT, leave the lanes in service and the spares. -/
theorem d2dLaneFailed_lanes (s : State) (m dir : Nat) :
    ((s.d2dLaneFailed m dir).d2dLink m dir).lanes = (s.d2dLink m dir).lanes ∧
      ((s.d2dLaneFailed m dir).d2dLink m dir).spares = (s.d2dLink m dir).spares := by
  unfold State.d2dLaneFailed
  dsimp only
  split
  · exact ⟨rfl, rfl⟩
  · split
    · rw [d2dLink_of_kept (kept_report _ _ _ _ _ _), d2dLink_onD2dLink_same]
      exact ⟨rfl, rfl⟩
    · rw [d2dLink_onD2dLink_same]
      exact ⟨rfl, rfl⟩

/-! ### Units (R28 to R30) -/

/-- The lanes in service on which the CRC of a unit fails. -/
def badOf (l : D2dLink) (bad : List (Fin 68)) : List Nat := l.lanes.filter fun k => bad.any fun b => b.val == k

/-- The consecutive failed units of each lane after a unit that failed on some. -/
def failsAfter (l : D2dLink) (bad : List Nat) : Sparse Nat :=
  l.lanes.foldl (fun f k => Sparse.put 0 f k (if bad.contains k then Sparse.get 0 f k + 1 else 0)) l.fails

/-- After a unit that failed on no lane, no lane in service has failed units. -/
theorem failsAfter_nil (l : D2dLink) {k : Nat} (h : k ∈ l.lanes) : Sparse.get 0 (failsAfter l []) k = 0 := by
  have counted (ks : List Nat) : ∀ f : Sparse Nat, Sparse.get 0 f k = 0 ∨ k ∈ ks →
      Sparse.get 0 (ks.foldl (fun f k => Sparse.put 0 f k (if ([] : List Nat).contains k then Sparse.get 0 f k + 1 else 0)) f) k = 0 := by
    induction ks with
    | nil => exact fun f h => h.resolve_right List.not_mem_nil
    | cons j ks ih =>
      intro f h
      refine ih _ ?_
      by_cases hj : j = k
      · exact .inl (by rw [hj]; exact get_put_same _ _ _ _)
      · exact h.imp (fun hf => by rw [get_put_other _ _ _ hj, hf]) fun hm => (List.mem_cons.1 hm).resolve_left (Ne.symm hj)
  exact counted l.lanes l.fails (.inr h)

/-- The only lane in service counts a unit that failed on it. -/
theorem failsAfter_single {l : D2dLink} {k : Nat} (h : l.lanes = [k]) : Sparse.get 0 (failsAfter l [k]) k = Sparse.get 0 l.fails k + 1 := by
  unfold failsAfter
  rw [h]
  simp

/-- A unit is counted on its lanes. -/
def State.unitCounted (s : State) (m dir : Nat) (bad : List Nat) : State :=
  s.onD2dLink m dir fun l => { l with fails := failsAfter l bad }

theorem d2dLink_unitCounted (s : State) (m dir : Nat) (bad : List Nat) : (s.unitCounted m dir bad).d2dLink m dir =
    { s.d2dLink m dir with fails := failsAfter (s.d2dLink m dir) bad } := d2dLink_onD2dLink_same _ _ _ _

/-- A unit is counted on its lanes, and delivered, or waits to be sent again. -/
def State.unitTaken (s : State) (m dir : Nat) (bad : List Nat) (cls : D2dClass) (data : List Byte) : State :=
  if bad.isEmpty then ((s.unitCounted m dir bad).d2dRetry dir).d2dDeliver cls dir data
  else (s.unitCounted m dir bad).d2dWait (.unit cls dir data)

/-- After a unit, a lane may leave service; an injection on the link ends unless it retrains. -/
def State.unitDone (s : State) (m dir : Nat) : State :=
  if (s.d2dLaneFailed m dir).d2dHeld m then s.d2dLaneFailed m dir else (s.d2dLaneFailed m dir).injEnd 6 m

theorem unitDone_of_low {s : State} (q : s.Quiet) {m dir : Nat}
    (h : ∀ k ∈ (s.d2dLink m dir).lanes, Sparse.get 0 (s.d2dLink m dir).fails k < 16) : s.unitDone m dir = s := by
  unfold State.unitDone
  rw [d2dLaneFailed_of_low h, q.injEnd, ite_self]

/-- What is sent or set to wait after the count leaves the link as it was counted. -/
theorem unitDone_of_counted {s t : State} {m dir : Nat} {bad : List Nat} (q : t.Quiet)
    (hl : t.d2dLink m dir = (s.unitCounted m dir bad).d2dLink m dir)
    (h : ∀ k ∈ (s.d2dLink m dir).lanes, Sparse.get 0 (failsAfter (s.d2dLink m dir) bad) k < 16) : t.unitDone m dir = t := by
  refine unitDone_of_low q ?_
  rw [hl, d2dLink_unitCounted]
  exact h

/-! What waits in neither direction is not sent again, and what follows it is delivered at once. -/

theorem d2dRetry_of_idle {s : State} (h : s.d2d.waiting = []) (dir : Nat) : s.d2dRetry dir = s := by
  have idle : (s.onD2d fun d => { d with waiting := d.waiting.filter fun w => w.lane.2 != dir }) = s := by
    show { s with d2d := { s.d2d with waiting := s.d2d.waiting.filter fun w => w.lane.2 != dir } } = s
    rw [h, List.filter_nil, ← h]
  unfold State.d2dRetry
  rw [h, List.filter_nil, List.foldl_nil, idle, ite_self]

theorem d2dDeliver_of_idle {s : State} (h : s.d2d.waiting = []) {cls : D2dClass} (hc : cls ≠ .workingCopy) (dir : Nat) (data : List Byte) :
    s.d2dDeliver cls dir data = s.emit (.d2d cls dir data) := by
  unfold State.d2dDeliver
  rw [h]
  exact if_neg hc

section
variable {s : State} {m : Fin 8} {toComp : Bool} {cls : D2dClass} (hm : s.boot.mainOn = true)
  (hf : (s.d2dLink m (d2dDir toComp)).failed = false) (hr : d2dRuns cls toComp = true)
include hm hf hr

/-- While the module retrains, the unit waits. -/
theorem exec_d2dUnitReceive_held (hh : s.d2dHeld m = true) (bad : List (Fin 68)) (data : List Byte) :
    exec (.d2dUnitReceive m toComp bad cls data) s = .next (s.d2dWait (.unit cls (d2dDir toComp) data)) := by
  show execD2dUnitReceive m toComp bad cls data s = _
  unfold execD2dUnitReceive
  dsimp only
  rw [if_neg (by simp [State.mainUp, hm, hf, hr]), if_pos hh]

theorem exec_d2dUnitReceive_taken (q : s.Quiet) (hh : s.d2dHeld m = false) (bad : List (Fin 68)) (data : List Byte) :
    exec (.d2dUnitReceive m toComp bad cls data) s = .next ((s.unitTaken m (d2dDir toComp) (badOf (s.d2dLink m (d2dDir toComp)) bad) cls
      data).unitDone m (d2dDir toComp)) := by
  show execD2dUnitReceive m toComp bad cls data s = _
  unfold execD2dUnitReceive
  dsimp only
  rw [if_neg (by simp [State.mainUp, hm, hf, hr]), if_neg (by rw [hh]; exact Bool.false_ne_true), opportunity_of_slots_nil q.1]
  dsimp only
  rw [List.append_nil]
  rfl

/-- A unit with no lane failed is delivered (R28). -/
theorem exec_d2dUnitReceive_good (q : s.Quiet) (hh : s.d2dHeld m = false) (hw : s.d2d.waiting = []) (hc : cls ≠ .workingCopy)
    {bad : List (Fin 68)} (hb : ∀ k ∈ (s.d2dLink m (d2dDir toComp)).lanes, ∀ b ∈ bad, b.val ≠ k) (data : List Byte) :
    exec (.d2dUnitReceive m toComp bad cls data) s =
      .next ((s.unitCounted m (d2dDir toComp) []).emit (.d2d cls (d2dDir toComp) data)) := by
  have noBad : badOf (s.d2dLink m (d2dDir toComp)) bad = [] := List.filter_eq_nil_iff.2 fun k hk => by simpa using hb k hk
  have delivered : s.unitTaken m (d2dDir toComp) [] cls data = (s.unitCounted m (d2dDir toComp) []).emit (.d2d cls (d2dDir toComp) data) := by
    show State.d2dDeliver ((s.unitCounted m (d2dDir toComp) []).d2dRetry (d2dDir toComp)) _ _ _ = _
    have idle : (s.unitCounted m (d2dDir toComp) []).d2d.waiting = [] := hw
    rw [d2dRetry_of_idle idle, d2dDeliver_of_idle idle hc]
  rw [exec_d2dUnitReceive_taken hm hf hr q hh, noBad, delivered]
  refine congrArg _ (unitDone_of_counted (s := s) (bad := []) q rfl fun k hk => ?_)
  rw [failsAfter_nil _ hk]
  decide

/-- A unit that failed on the only lane in service waits to be sent again (R29). -/
theorem exec_d2dUnitReceive_bad (q : s.Quiet) (hh : s.d2dHeld m = false) {bad : List (Fin 68)} {b : Fin 68} (hb : b ∈ bad)
    (hl : (s.d2dLink m (d2dDir toComp)).lanes = [b.val]) (hk : Sparse.get 0 (s.d2dLink m (d2dDir toComp)).fails b < 15) (data : List Byte) :
    exec (.d2dUnitReceive m toComp bad cls data) s =
      .next ((s.unitCounted m (d2dDir toComp) [b.val]).d2dWait (.unit cls (d2dDir toComp) data)) := by
  have onlyBad : badOf (s.d2dLink m (d2dDir toComp)) bad = [b.val] := by
    have failed : (bad.any fun x => x.val == b.val) = true := List.any_eq_true.2 ⟨b, hb, beq_self_eq_true _⟩
    unfold badOf
    rw [hl, List.filter_cons, if_pos failed, List.filter_nil]
  rw [exec_d2dUnitReceive_taken hm hf hr q hh, onlyBad]
  refine congrArg _ (unitDone_of_counted (s := s) (bad := [b.val]) q rfl ?_)
  intro k hk'
  obtain rfl : k = b.val := List.mem_singleton.1 (hl ▸ hk')
  rw [failsAfter_single hl]
  omega

end

/-! ### Retrains (R30, R31) -/

theorem exec_d2dRetrainDone {s : State} {m : Fin 8} {toComp : Bool} {k since : Nat}
    (h : (s.d2dLink m (d2dDir toComp)).retrain = some (k, since)) : ∃ t, exec (.d2dRetrainDone m toComp) s = .next t ∧
      (t.d2dLink m (d2dDir toComp)).lanes = repairLanes (s.d2dLink m (d2dDir toComp)) k ∧
      (t.d2dLink m (d2dDir toComp)).spares = (s.d2dLink m (d2dDir toComp)).spares - 1 := by
  show ∃ t, execD2dRetrainDone m toComp s = _ ∧ _
  unfold execD2dRetrainDone
  dsimp only
  rw [h]
  refine ⟨_, rfl, ?_⟩
  rw [d2dLink_of_kept (kept_d2dDrain _), (d2dLaneFailed_lanes _ _ _).1, (d2dLaneFailed_lanes _ _ _).2]
  generalize hu : State.report (s.onD2dLink m (d2dDir toComp) _) 0x0101 .note 6 m _ = u
  have repaired : u.kept = (s.onD2dLink m (d2dDir toComp) fun l => { l with
      lanes := repairLanes (s.d2dLink m (d2dDir toComp)) k, spares := (s.d2dLink m (d2dDir toComp)).spares - 1, retrain := none
      fails := Sparse.put 0 l.fails k 0 }).kept := hu ▸ kept_report _ _ _ _ _ _
  rw [d2dLink_of_kept (t := ite _ _ _) (s := u) (by simp), d2dLink_of_kept repaired, d2dLink_onD2dLink_same]
  exact ⟨rfl, rfl⟩

end Sys2Proof.Machine
end

section
/-! The statement on the memory controllers and the die-to-die link. -/

namespace Sys2Proof.Proofs

open Sys2Proof.Machine Sys2Proof.Laws

/-- Settles O53: a look at a codeword heals it and writes no byte outside the host write log; what follows each of the other events leaves
alone the channel, the link or HOLD that the event set. -/
theorem memoryAndLink : Obligations.MemoryAndLink := by
  unfold Obligations.MemoryAndLink
  intro s q hm
  refine ⟨?scrub, ?temp, ?retrain, ?returnStart, ?migration, ?release, ?timeout, ?lpTemp, ?lpRetrain, ?unit, ?laneRepair⟩
  case scrub =>
    intro finds hc hg
    obtain ⟨t, heq, reads, healed⟩ := exec_patrolScrub_g7 q hm hc hg finds
    exact ⟨_, heq, rfl, reads.bytes, healed⟩
  case temp =>
    intro c temp
    obtain ⟨t, heq, levels⟩ := exec_g7TempRead q hm c temp
    refine ⟨t, heq, congrArg Prod.fst levels, fun alive serves => (congrArg Prod.snd levels).trans ?_⟩
    exact if_neg (by simp [alive, serves])
  case retrain =>
    intro c hc
    obtain ⟨u, qu, counted, failed⟩ := exec_g7RetrainDone_failed q hc
    refine ⟨?_, fun few => ?_, fun many => ?_⟩
    · obtain ⟨t, heq, trained⟩ := exec_g7RetrainDone_ok q hc
      refine ⟨t, heq, ?_⟩
      rw [trained]
      exact ⟨rfl, rfl, rfl⟩
    · rw [if_neg (by omega)] at failed
      refine ⟨_, failed, ?_⟩
      rw [channel_throttle, channel_injEnd, counted]
      exact ⟨hc, rfl⟩
    · rw [if_pos (by omega)] at failed
      refine ⟨_, failed, ?_⟩
      rw [channel_throttle, channel_injEnd]
      exact channelDead_dead qu c
  case returnStart => exact fun k hk hr => exec_thermalReturnStart hk hr
  case migration =>
    intro hd hr hc hs
    obtain ⟨t, heq, reads⟩ := exec_migrationCopy q hm hd hr hc hs
    exact ⟨_, heq, congrArg (· + 1) (reads.field fun x => x.mem.migDone), reads.bytes⟩
  case release => exact fun v hl hh hv => exec_memRelease q hl hh hv
  case timeout => exact fun hh hf hr => exec_memHoldTimeout hh hf hr
  case lpTemp => exact fun l temp => exec_lpTempRead q hm l temp
  case lpRetrain =>
    intro l hl
    obtain ⟨t, trainedEq, trained⟩ := exec_lp5xRetrainDone_ok q hm hl
    obtain ⟨u, failedEq, failed⟩ := exec_lp5xRetrainDone_failed q hm hl
    refine ⟨⟨t, trainedEq, ?_⟩, u, failedEq, ?_⟩
    · rw [trained]
      exact ⟨rfl, hl⟩
    · rw [failed]
      exact ⟨rfl, decide_eq_decide.2 Nat.succ_le_succ_iff⟩
  case unit =>
    intro m toComp cls data bad l hf hr hc
    refine ⟨fun hh => ?_, fun hh hw hb => ?_, fun hh k _ b hb hbk hk hl => ?_⟩
    · exact ⟨_, exec_d2dUnitReceive_held hm hf hr hh bad data, rfl, rfl⟩
    · refine ⟨_, exec_d2dUnitReceive_good hm hf hr q hh hw hc hb data, rfl, ?_⟩
      have counted := congrArg D2dLink.lanes (d2dLink_unitCounted s m (d2dDir toComp) [])
      exact counted
    · subst hbk
      refine ⟨_, exec_d2dUnitReceive_bad hm hf hr q hh hb hl hk data, rfl, ?_⟩
      have counted := congrArg (fun l => Sparse.get 0 l.fails b.val) (d2dLink_unitCounted s m (d2dDir toComp) [b.val])
      exact counted.trans (failsAfter_single hl)
  case laneRepair => exact fun m toComp k since h => exec_d2dRetrainDone h

end Sys2Proof.Proofs
end

section
/-! Time and the host's mailboxes (R51, R52, R55 to R57, R175, R179, R377, R387): what passing time changes, doorbells, and the effects of
the HST commands. -/

namespace Sys2Proof.Machine

open Sys2Proof.Laws

/-! ### Passing time (R51, R55) -/

/-- The end of a pause touches the Ethernet ports and the output alone. -/
theorem endPause_frame (s : State) (i : Nat) : s.endPause i = { s with eth := (s.endPause i).eth, out := (s.endPause i).out } := by
  have emitted (l : List Out) : ∀ u : State, l.foldl State.emit u = { u with out := (l.foldl State.emit u).out } := by
    induction l with
    | nil => exact fun _ => rfl
    | cons o l ih => exact fun u => (ih (u.emit o)).trans rfl
  unfold State.endPause
  dsimp only
  split
  · rfl
  · rw [emitted]
    rfl

/-- MOD_COUNT after n ticks with a supply. -/
theorem modCount_pass {s : State} (h : s.aoUp = true) (n : Nat) : (s.pass n).boot.modCount = BitVec.ofNat 64 (s.now + n) := by
  unfold State.pass
  rw [if_neg (by simpa [State.aoUp, Bool.or_eq_true, imp_iff_not_or] using h)]
  dsimp only
  rw [endPause_frame, endPause_frame]
  rfl

/-- No time passes without a supply. -/
theorem pass_of_off {s : State} (hs : s.boot.standby = false) (hf : s.boot.fallback = false) (n : Nat) : s.pass n = s :=
  if_pos (by simp [hs, hf])

theorem aoUp_of_standby {s : State} (h : s.boot.standby = true) : s.aoUp = true := by simp [State.aoUp, h]

theorem modCount_pass_add {s : State} (h : s.aoUp = true) (n : Nat) : (s.pass n).boot.modCount = s.boot.modCount + BitVec.ofNat 64 n := by
  rw [modCount_pass h, BitVec.ofNat_add, State.now, BitVec.ofNat_toNat, BitVec.setWidth_eq]

theorem exec_modCountWrap (s : State) : exec .modCountWrap s = .next (s.pass (2 ^ 48 - s.now % 2 ^ 48)) := rfl

/-- A wrap leaves MOD_COUNT at the next multiple of 2^48, modulo 2^64. -/
theorem modCount_pass_wrap {s : State} (h : s.aoUp = true) :
    (s.pass (2 ^ 48 - s.now % 2 ^ 48)).boot.modCount.toNat = 2 ^ 48 * (s.now / 2 ^ 48 + 1) % 2 ^ 64 := by
  rw [modCount_pass h, BitVec.toNat_ofNat]
  congr 1
  omega

theorem exec_modCountLowRead {s : State} (h : s.aoUp = true) : exec .modCountLowRead s =
    .next { s with boot := { s.boot with hiLatch := some (s.boot.modCount.extractLsb' 32 32) } } :=
  congrArg Host.Outcome.next (if_pos h)

theorem step_of_pending_nil {s : State} (h : s.pending = []) : step s = .next (s.pass 1) := by
  unfold step
  rw [h]
  rfl

/-! ### Doorbells (R377) -/

section
variable {s : State} (q : s.Quiet) (hl : s.linkUp = true) (hdr : Word64)
include q hl

theorem exec_mbxDoorbell (n : Fin 16) : exec (.mbxDoorbell hdr n) s = .next (s.mbxBell hdr n) := by
  show execMbxDoorbell hdr n s = _
  rw [execMbxDoorbell, if_pos hl, q.tlp]

/-- A doorbell of a mailbox that is idle or done posts it. -/
theorem exec_mbxDoorbell_posts {n : Fin 15} (h : (s.mbox (.pcie n)).state = .idle ∨ (s.mbox (.pcie n)).state = .done) :
    exec (.mbxDoorbell hdr n.castSucc) s = .next (s.post (.pcie n)) := by
  have free : ¬((s.mbox (.pcie n)).state = .posted ∨ (s.mbox (.pcie n)).state = .running) := by
    obtain h | h := h <;> simp [h]
  rw [exec_mbxDoorbell q hl, State.mbxBell, dif_pos (show n.castSucc.val < 15 from n.isLt)]
  exact congrArg _ (if_neg free)

/-- A doorbell of a mailbox whose command is not done is a violation. -/
theorem exec_mbxDoorbell_busy {n : Fin 15} (h : (s.mbox (.pcie n)).state = .posted ∨ (s.mbox (.pcie n)).state = .running) :
    exec (.mbxDoorbell hdr n.castSucc) s = .next (s.hostViol 7 hdr) := by
  rw [exec_mbxDoorbell q hl, State.mbxBell, dif_pos (show n.castSucc.val < 15 from n.isLt)]
  exact congrArg _ (if_pos h)

/-- So is a doorbell of MB[15]. -/
theorem exec_mbxDoorbell_chord : exec (.mbxDoorbell hdr 15) s = .next (s.hostViol 7 hdr) := exec_mbxDoorbell q hl hdr 15

end

/-- While the CP takes no command, posting writes the mailbox alone. -/
theorem post_of_not_ready {s : State} (h : s.cpReady = false) (r : Route) : ∃ q, s.post r =
    s.setMbox r { s.mbox r with request := q, state := .posted, receipt := s.boot.modCount, checked := false } := by
  have kept (m : Mailbox) : (s.setMbox r m).cpReady = false := by cases r <;> exact h
  exact ⟨_, if_neg (by rw [kept]; exact Bool.false_ne_true)⟩

/-! ### HST_CORRELATE (R56, R57) -/

theorem hstCorrelateCmd_first {s : State} (h : s.cp.lastCorrelate = none) (r : Route) (b : List Byte) : ∃ s',
    hstCorrelateCmd r b s = .done stOk (leBytes 8 (s.mbox r).receipt.toNat) s' ∧ s'.boot.modCount = s.boot.modCount ∧
      s'.cp.lastCorrelate = some (s.mbox r).receipt.toNat := by
  unfold hstCorrelateCmd
  dsimp only
  rw [h]
  refine ⟨_, if_neg Bool.false_ne_true, rfl, ?_⟩
  rw [onBoot_cp, (onlyReports_report _ _ _ _ _ (by decide)).cp]
  rfl

theorem hstCorrelateCmd_soon {s : State} {l : Nat} {r : Route} (h : s.cp.lastCorrelate = some l)
    (hl : (s.mbox r).receipt.toNat < l + 100000) (b : List Byte) : hstCorrelateCmd r b s = .done stBusy [] s := by
  unfold hstCorrelateCmd
  dsimp only
  rw [h]
  exact if_pos (decide_eq_true hl)

/-! ### HST_FENCE (R175, R179) -/

/-- Without a STALE queue there is nothing to poll. -/
theorem hstFenceCmd_of_no_stale {s : State} (h : ∀ q, q < 76 → (s.queue q).state ≠ .stale) (b : List Byte) :
    hstFenceCmd b s = .done stOk [] s := by
  have none_polls (l : List Nat) (hl : ∀ q ∈ l, q < 76) :
      l.foldl (fun (s : State) q => if (s.queue q).state = .stale ∧ s.mayRead q then (s.poll q).2 else s) s = s := by
    induction l with
    | nil => rfl
    | cons q l ih =>
      rw [List.foldl_cons, if_neg fun hc => h q (hl q List.mem_cons_self) hc.1]
      exact ih fun k hk => hl k (List.mem_cons_of_mem q hk)
  exact congrArg (CmdResult.done stOk []) (none_polls _ fun q => List.mem_range.1)

/-! ### HST_BUF_REGISTER (R387) -/

/-- The ranges that the payload of HST_BUF_REGISTER names. -/
def newRanges (b : List Byte) : List (Nat × Nat) :=
  (List.range (le b 0 2)).map fun i => (le b (8 + 16 * i) 8, le b (16 + 16 * i) 8)

/-- The list after it: begun afresh where it is to be replaced. -/
def State.rangesWith (s : State) (b : List Byte) : List (Nat × Nat) :=
  (if s.hst.replaceList then [] else s.hst.ranges) ++ newRanges b

/-- The ranges are registered. -/
def State.register (s : State) (b : List Byte) : State := s.onHst fun h => { h with ranges := s.rangesWith b, replaceList := false }

/-- COUNT is in its range and the payload holds that many ranges. -/
def rangesHeld (b : List Byte) : Prop := 1 ≤ le b 0 2 ∧ le b 0 2 ≤ 250 ∧ 8 + 16 * le b 0 2 ≤ b.length

theorem hstBufRegisterCmd_bad {b : List Byte} (h : le b 0 2 = 0 ∨ 250 < le b 0 2 ∨ b.length < 8 + 16 * le b 0 2) (s : State) :
    hstBufRegisterCmd b s = .done stBadOpcode [] s := if_pos h

section
variable {b : List Byte} (hb : rangesHeld b)
include hb

theorem hstBufRegisterCmd_over {s : State} (h : 4096 < (s.rangesWith b).length) : hstBufRegisterCmd b s = .done stOverQuota [] s := by
  obtain ⟨h1, h2, h3⟩ := hb
  exact (if_neg (by omega)).trans (if_pos h)

/-- While a job runs, a list that is not the final one is registered and nothing more. -/
theorem hstBufRegisterCmd_ok {s : State} (h : (s.rangesWith b).length ≤ 4096) (hj : s.jobRuns = true) (hf : bitOf (le b 2 1) 0 = false) :
    hstBufRegisterCmd b s = .done stOk [] (s.register b) := by
  obtain ⟨h1, h2, h3⟩ := hb
  have notFinal : ¬(bitOf (le b 2 1) 0 = true ∧ (s.register b).streams.hostLost = true) := fun hc => Bool.false_ne_true (hf.symm.trans hc.1)
  have waits : (s.register b).jobRuns = true := hj
  refine (if_neg (by omega)).trans ((if_neg (Nat.not_lt.2 h)).trans (congrArg (CmdResult.done stOk []) ?_))
  exact (congrArg (fun v : State => if v.jobRuns then v else v.endHostLost) (if_neg notFinal)).trans (if_pos waits)

end

end Sys2Proof.Machine
end

section
/-! The statements on time, doorbells and the HST commands. -/

namespace Sys2Proof.Proofs

open Sys2Proof.Machine Sys2Proof.Laws

/-- The reset state with the standby supply present: no command waits, and time passes. -/
def powered : State := State.reset.onBoot fun b => { b with standby := true }

/-- Refutes O2: with nothing in the queue one tick of MOD_COUNT passes where standby is present. -/
theorem not_stepIdles : ¬ Obligations.StepIdles := by
  intro h
  have same : powered.pass 1 = powered := Host.Outcome.next.inj ((step_of_pending_nil rfl).symm.trans (h powered rfl))
  have ticked : (powered.pass 1).boot.modCount = powered.boot.modCount + 1 := modCount_pass_add rfl 1
  rw [same] at ticked
  exact absurd ticked (by decide)

/-- Settles O40: MOD_COUNT counts modulo 2^64 while a supply is present. -/
theorem moduleTime : Obligations.ModuleTime := by
  intro s
  refine ⟨fun hs => ⟨_, exec_modCountWrap s, ?multiple, fun hlt => ?next⟩, exec_modCountLowRead, fun n hs hf => pass_of_off hs hf n,
    fun n hs => modCount_pass_add (aoUp_of_standby hs) n⟩
  case multiple => rw [modCount_pass_wrap (aoUp_of_standby hs)]; omega
  case next => rw [modCount_pass_wrap (aoUp_of_standby hs)]; omega

/-- Settles O31: each clause names the doorbell's equation; a post that no check follows writes its mailbox alone. -/
theorem mailboxDoorbell : Obligations.MailboxDoorbell := by
  intro s hdr n q hl
  refine ⟨fun h => ⟨exec_mbxDoorbell_posts q hl hdr h, fun hc => ?posted⟩, exec_mbxDoorbell_busy q hl hdr, exec_mbxDoorbell_chord q hl hdr⟩
  case posted =>
    obtain ⟨req, heq⟩ := post_of_not_ready hc (.pcie n)
    rw [heq, mbox_setMbox_same]
    exact ⟨rfl, rfl, fun r hr => mbox_setMbox_other s _ hr⟩

/-- Settles O30: each clause names the branch that the command's effect takes. -/
theorem hostCommands : Obligations.HostCommands := by
  intro s r
  refine ⟨fun h => ⟨fun hn => ?first, fun l hs hl => ?soon⟩, fun h hq => ?fence, fun h => ⟨?registers, ?excess, fun hb => ?bad⟩⟩
  case first =>
    obtain ⟨s', heq, time, noted⟩ := hstCorrelateCmd_first hn r (s.payload r)
    exact ⟨s', completes_of_done h rfl heq, time, noted⟩
  case soon => exact completes_of_done h rfl (hstCorrelateCmd_soon hs hl _)
  case fence => exact completes_of_done h rfl (hstFenceCmd_of_no_stale hq _)
  case registers => exact fun h1 h2 h3 hall hj hf => completes_of_done h rfl (hstBufRegisterCmd_ok ⟨h1, h2, h3⟩ hall hj hf)
  case excess => exact fun h1 h2 h3 hall => completes_of_done h rfl (hstBufRegisterCmd_over ⟨h1, h2, h3⟩ hall)
  case bad => exact completes_of_done h rfl (hstBufRegisterCmd_bad hb s)

end Sys2Proof.Proofs
end

section
/-! The arrays of a tile (R59, R65, R76): the items in them, the feeders and the weight registers after each operation on them. -/

namespace Sys2Proof.Machine

open Sys2Proof.Laws

/-! ### The items in the arrays -/

/-- Items that follow each other into the arrays stay in their order (R65, R76). -/
theorem advance_runs (q : List Run) (d : List Run) (c : Option Run) :
    (advance d c q).1 ++ (advance d c q).2.1.toList ++ (advance d c q).2.2 = d ++ c.toList ++ q := by
  induction q generalizing d c with
  | nil => cases c <;> rfl
  | cons n q ih =>
    cases c with
    | none => simpa [advance] using ih d (some n)
    | some c =>
      unfold advance
      split
      · rfl
      · simpa using ih (d ++ [c]) (some n)

/-- The item that takes waves stays while it has waves to make. -/
theorem advance_of_waves {r : Run} (h : r.waves = true) (d q : List Run) : advance d (some r) q = (d, some r, q) := by
  cases q with
  | nil => rfl
  | cons n q => exact if_pos h

namespace TileWork

variable (w : TileWork)

theorem runsOf_advance (h : Half) : w.advance.runsOf h = w.runsOf h := by
  cases h with
  | u => exact advance_runs w.queued w.draining w.runU
  | l => rfl

/-- The items in the arrays are those of the two halves. -/
theorem mem_runs_iff {r : Run} : r ∈ w.runs ↔ r ∈ w.runsOf .u ∨ r ∈ w.runsOf .l := by
  simp only [runs, runsOf, List.mem_append]
  tauto

theorem mem_runs_advance {r : Run} : r ∈ w.advance.runs ↔ r ∈ w.runs := by
  rw [mem_runs_iff, mem_runs_iff, runsOf_advance, runsOf_advance]

@[simp] theorem runs_setStop (h : Half) (q : Option Word32) : (w.setStop h q).runs = w.runs := by cases h <;> rfl

/-- An item that enters is in the arrays. -/
theorem mem_runs_enter (split : Bool) (h : Half) (r : Run) : r ∈ (w.enter split h r).runs := by
  unfold enter
  rw [runs_setStop]
  cases split with
  | true => cases h <;> simp [setRun, runs]
  | false =>
    rw [if_neg Bool.false_ne_true, mem_runs_advance]
    simp [runs]

/-- The value that an item takes stands in the arrays. -/
theorem mem_runs_put {x r : Run} (hx : x ∈ w.runs) (hr : x.seq = r.seq) : r ∈ (w.put r).runs := by
  have put_x : (if x.seq = r.seq then r else x) = r := if_pos hr
  unfold put
  rw [mem_runs_advance]
  simp only [runs, List.mem_append, Option.mem_toList, List.mem_map, Option.map_eq_some_iff] at hx ⊢
  obtain ((hx | hx) | hx) | hx := hx
  · exact .inl (.inl (.inl ⟨x, hx, put_x⟩))
  · exact .inl (.inl (.inr ⟨x, hx, put_x⟩))
  · exact .inl (.inr ⟨x, hx, put_x⟩)
  · exact .inr ⟨x, hx, put_x⟩

theorem runU_put {x r : Run} (hx : w.runU = some x) (hr : x.seq = r.seq) (hw : r.waves = true) : (w.put r).runU = some r := by
  unfold put TileWork.advance
  simp [hx, hr, advance_of_waves hw]

theorem mem_runs_of_drains {h : Half} {r : Run} (hr : w.drains h = some r) : r ∈ w.runs := by
  have hm := List.mem_of_head? hr
  rw [mem_runs_iff]
  cases h with
  | u => exact .inl (List.mem_append_left _ hm)
  | l => exact .inr hm

/-! ### Feeders and weight registers -/

@[simp] theorem feed_put (r : Run) (h : Half) : (w.put r).feed h = w.feed h := by cases h <;> rfl
@[simp] theorem feed_setFeed (h : Half) (f : List FeedRow) : (w.setFeed h f).feed h = f := by cases h <;> rfl
@[simp] theorem shadow_setShadow (h : Half) (x : Sparse WBlock) : (w.setShadow h x).shadow h = x := by cases h <;> rfl

end TileWork

/-- A block that is inserted where none of its array stands is found. -/
theorem find?_ins {α : Type} (l : Sparse α) {i : Nat} (v : α) (h : l.find? (fun x => x.1 == i) = none) :
    (Sparse.ins i v l).find? (fun x => x.1 == i) = some (i, v) := by
  induction l with
  | nil => simp [Sparse.ins]
  | cons p l ih =>
    obtain ⟨k, x⟩ := p
    rw [List.find?_cons] at h
    have hk : (k == i) = false := by
      by_contra hc
      rw [Bool.not_eq_false] at hc
      rw [hc] at h
      cases h
    rw [hk] at h
    by_cases hi : i < k
    · simp [Sparse.ins, hi]
    · simp only [Sparse.ins, hi, if_false, List.find?_cons, hk]
      exact ih h

/-- A weight port loads only into a free shadow (R65). -/
theorem shadow_free_of_nextLoad {w : TileWork} {h : Half} {a : Nat} {x : Run × Nat} (hx : nextLoad w h a = some x) :
    (w.shadow h).find? (fun y => y.1 == a) = none := by
  unfold nextLoad at hx
  split at hx
  · cases hx
  · rename_i hs
    exact Option.not_isSome_iff_eq_none.1 hs

end Sys2Proof.Machine
end

section
/-! What reads, sums and drains leave of a tile: its work, its count of waves, the job and the group (R59, R62, R69, R76, R82). One lemma
per operation, in the order in which the model defines them. -/

namespace Sys2Proof.Machine

open Sys2Proof.Laws

/-! ### Fields of tiles -/

theorem tile_of_tiles {s t : State} (h : t.tiles = s.tiles) (p : Nat) : t.tile p = s.tile p := by
  unfold State.tile
  rw [h]

theorem ptile_of_tileMap {s t : State} (h : t.tileMap = s.tileMap) (e : Nat) : t.ptile e = s.ptile e := by
  unfold State.ptile State.tmap
  rw [h]

section
variable (s : State) (p : Nat) {α : Type}

/-- What an update of one tile keeps of it, every tile keeps. -/
theorem field_onTile (k : Nat) (g : Tile → α) {f : Tile → Tile} (h : g (f (s.tile k)) = g (s.tile k)) :
    g ((s.onTile k f).tile p) = g (s.tile p) := by
  by_cases hk : k = p
  · subst hk
    rw [tile_onTile_same, h]
  · rw [tile_onTile_other s f hk]

/-- A tile but for its vector unit is as it was when a context is set. -/
theorem field_setCtx (c : Ctx) (x : JviCtx) (g : Tile → α) (hv : ∀ t v, g { t with vec := v } = g t := by exact fun _ _ => rfl) :
    g ((s.setCtx c x).tile p) = g (s.tile p) := by
  unfold State.setCtx
  split
  · rw [tile_of_tiles (onComp_tiles s _) p]
  · split
    · exact field_onTile s p _ g (hv _ x)
    · rfl

/-- An item that leaves the arrays changes their contents, the mark of idleness and the contexts that ran it. -/
theorem field_dropRun (q : Nat) (seq : Word32) (g : Tile → α) (hw : ∀ t w, g { t with work := w } = g t := by exact fun _ _ => rfl)
    (hi : ∀ t i, g { t with regs := { t.regs with idleSince := i } } = g t := by exact fun _ _ => rfl)
    (hv : ∀ t v, g { t with vec := v } = g t := by exact fun _ _ => rfl) : g ((s.dropRun q seq).tile p) = g (s.tile p) := by
  have left (k : Nat) : g (((s.onTileWork k fun w => w.drop seq).markIdle k).tile p) = g (s.tile p) :=
    (field_onTile _ p k g (hi _ _)).trans (field_onTile s p k g (hw _ _))
  unfold State.dropRun
  dsimp only
  split
  · rw [field_setCtx _ p _ _ g hv]
    split
    · exact left _
    · rfl
  · rw [tile_of_tiles (onComp_tiles _ _) p]
    split
    · rfl
    · rfl

end

theorem tiles_finish (s : State) (q : Nat) (seq : Word32) (st : Word16) (o rows : Nat) : (s.finish q seq st o rows).tiles = s.tiles := by
  simp only [State.finish, State.onItem, State.onQueue, onStreams_tiles]

/-! ### Progress -/

/-- What the progress of the items of a tile rests on: the arrays' contents, ENG_WAVES, the job and the group. -/
def State.progress (s : State) (p : Nat) : TileWork × Word64 × Job × Grp := ((s.tile p).work, (s.tile p).regs.waves, s.job, s.grp)

section
variable {s t : State} {p : Nat} (h : t.progress p = s.progress p)
include h

theorem work_of_progress : (t.tile p).work = (s.tile p).work := congrArg Prod.fst h
theorem waves_of_progress : (t.tile p).regs.waves = (s.tile p).regs.waves := congrArg (·.2.1) h
theorem job_of_progress : t.job = s.job := congrArg (·.2.2.1) h
theorem grp_of_progress : t.grp = s.grp := congrArg (·.2.2.2) h

end

/-- The three parts, each as it was. The lemmas below are stated with it and not by `rfl`, so that simp rewrites with them. -/
theorem progress_of {s t : State} (ht : t.tiles = s.tiles) (hj : t.job = s.job) (hg : t.grp = s.grp) (p : Nat) :
    t.progress p = s.progress p := by
  unfold State.progress State.tile
  rw [ht, hj, hg]

theorem State.Notices.progress {s t : State} (h : s.Notices t) (p : Nat) : t.progress p = s.progress p := h.field (State.progress · p)

section
variable (s : State) (p : Nat)

/-! ### Parts of the state -/

@[simp] theorem progress_onMem (f : Mem → Mem) : (s.onMem f).progress p = s.progress p := progress_of rfl rfl rfl p
@[simp] theorem progress_onHst (f : Hst → Hst) : (s.onHst f).progress p = s.progress p := progress_of rfl rfl rfl p
@[simp] theorem progress_onAlm (f : Alm → Alm) : (s.onAlm f).progress p = s.progress p := progress_of rfl rfl rfl p
@[simp] theorem progress_onSync (f : Sync → Sync) : (s.onSync f).progress p = s.progress p := progress_of rfl rfl rfl p
@[simp] theorem progress_onScales (f : Scales → Scales) : (s.onScales f).progress p = s.progress p := progress_of rfl rfl rfl p
@[simp] theorem progress_onItem (q : Nat) (seq : Word32) (f : Item → Item) : (s.onItem q seq f).progress p = s.progress p := progress_of rfl rfl rfl p
@[simp] theorem progress_setCounter (n : Nat) (c : Counter) : (s.setCounter n c).progress p = s.progress p := progress_of rfl rfl rfl p

theorem progress_onTile (k : Nat) {f : Tile → Tile} (hw : (f (s.tile k)).work = (s.tile k).work)
    (hr : (f (s.tile k)).regs.waves = (s.tile k).regs.waves) : (s.onTile k f).progress p = s.progress p := by
  have tile := field_onTile s p k (fun t => (t.work, t.regs.waves)) (Prod.ext hw hr)
  exact congrArg (fun x : TileWork × Word64 => (x.1, x.2, s.job, s.grp)) tile

@[simp] theorem progress_onTileMem (k : Nat) (f : TileMem → TileMem) : (s.onTileMem k f).progress p = s.progress p :=
  progress_onTile s p k rfl rfl
theorem progress_onTileRegs (k : Nat) {f : TileRegs → TileRegs} (h : (f (s.tile k).regs).waves = (s.tile k).regs.waves) :
    (s.onTileRegs k f).progress p = s.progress p := progress_onTile s p k rfl h

/-! ### Records, messages and detectors -/

@[simp] theorem progress_report (code : Nat) (sev : Severity) (kind index : Nat) (b : List Byte) :
    (s.report code sev kind index b).progress p = s.progress p := (notices_report s code sev kind index b).progress p
@[simp] theorem progress_msix (v : Nat) : (s.msix v).progress p = s.progress p := (notices_msix s v).progress p

@[simp] theorem progress_disarm (k cause : Nat) : (s.disarm k cause).progress p = s.progress p := by
  unfold State.disarm
  dsimp only
  split
  · rfl
  · exact progress_report _ p _ _ _ _ _

@[simp] theorem progress_injBegin (kind index : Nat) : (s.injBegin kind index).progress p = s.progress p := progress_of rfl rfl rfl p
@[simp] theorem progress_setSlot (k : Nat) (x : InjSlot) : (s.setSlot k x).progress p = s.progress p := progress_of rfl rfl rfl p
@[simp] theorem progress_injEnd (kind index : Nat) : (s.injEnd kind index).progress p = s.progress p := progress_of rfl rfl rfl p

@[simp] theorem progress_ite (c : Prop) [Decidable c] (t : State) :
    (if c then s else t).progress p = if c then s.progress p else t.progress p := apply_ite (State.progress · p) c s t

@[simp] theorem progress_opportunity (det kind index tile : Nat) (ok : Nat → Bool) :
    (s.opportunity det kind index tile ok).2.progress p = s.progress p := by
  unfold State.opportunity
  refine foldl_proj (fun a : Option Nat × State => a.2.progress p) (fun a k => ?_) _ _
  simp [apply_ite Prod.snd]

/-! ### The scratchpad -/

@[simp] theorem progress_padLook (k cw : Nat) : (s.padLook k cw).2.progress p = s.progress p := by simp [State.padLook]

theorem progress_lookAll {look : State → Nat → CwHealth × State} (h : ∀ u cw, (look u cw).2.progress p = u.progress p) (l : List Nat) :
    (lookAll look s l).2.2.progress p = s.progress p := by
  induction l generalizing s with
  | nil => rfl
  | cons cw l ih => exact (ih _).trans (h s cw)

@[simp] theorem progress_readPad (k off len : Nat) : (s.readPad k off len).2.2.progress p = s.progress p :=
  progress_lookAll s p (fun u cw => progress_padLook u p k cw) _

@[simp] theorem progress_writePad (k off : Nat) (d : List Byte) : (s.writePad k off d).progress p = s.progress p :=
  foldl_proj (State.progress · p) (fun u cw => by simp [State.writePadCw]) _ s

/-! ### Operands (R62, R66) -/

/-- What every read of a list leaves alone, the list's reads leave alone. -/
theorem progress_reads {α β : Type} {f : α × Bool × State → β → α × Bool × State} (h : ∀ x b, (f x b).2.2.progress p = x.2.2.progress p)
    (l : List β) (x : α × Bool × State) : (l.foldl f x).2.2.progress p = x.2.2.progress p :=
  foldl_proj (fun x : α × Bool × State => x.2.2.progress p) h l x

@[simp] theorem progress_readVec (k : Nat) (o : OpArray) (i k0 n len : Nat) :
    (s.readVec k o i k0 n len).2.2.2.progress p = s.progress p := by
  unfold State.readVec
  dsimp only
  split
  · split <;> simp
  · split <;> dsimp only
    · exact progress_reads p (by exact fun _ _ => progress_readPad _ p _ _ _) _ _
    · refine (progress_reads p (by exact fun _ _ => progress_readPad _ p _ _ _) _ _).trans ?_
      exact progress_reads p (by exact fun _ _ => progress_readPad _ p _ _ _) _ _

theorem progress_readCols (k : Nat) (o : OpArray) (a k0 n len : Nat) : (s.readCols k o a k0 n len).2.2.progress p = s.progress p := by
  unfold State.readCols
  exact progress_reads p (by exact fun _ _ => progress_readVec _ p _ _ _ _ _ _) _ _

/-! ### Accumulator rows, wide slots and sums (R69, R72, R77 to R80) -/

@[simp] theorem progress_readAccRow (k : Nat) (scratch : Bool) (b : List Byte) (a r : Nat) :
    (s.readAccRow k scratch b a r).2.2.progress p = s.progress p := by cases scratch <;> simp [State.readAccRow]
@[simp] theorem progress_writeAccRow (k : Nat) (scratch : Bool) (b : List Byte) (a r : Nat) (ws : List Word32) :
    (s.writeAccRow k scratch b a r ws).progress p = s.progress p := by cases scratch <;> simp [State.writeAccRow]
@[simp] theorem progress_readWideRow (k : Nat) (scratch split : Bool) (b : List Byte) (a m : Nat) :
    (s.readWideRow k scratch split b a m).2.2.progress p = s.progress p := by cases scratch <;> simp [State.readWideRow]
@[simp] theorem progress_writeWideRow (k : Nat) (scratch split : Bool) (b : List Byte) (a m : Nat) (ws : List Wide) :
    (s.writeWideRow k scratch split b a m ws).progress p = s.progress p := by cases scratch <;> simp [State.writeWideRow]

theorem progress_sumArray (k : Nat) (split : Bool) (h : Half) (r : Run) (f : FeedRow) (a : Nat) :
    (s.sumArray k split h r f a).2.progress p = s.progress p := by
  have counted (u : State) (z c : Nat) : (u.onTileRegs k fun g => { g with
      zeroBlocks := addW g.zeroBlocks z, chainTrunc := addW g.chainTrunc c }).progress p = u.progress p := progress_onTileRegs u p k rfl
  unfold State.sumArray
  dsimp only
  split
  · split <;> split <;> simp [counted]
  · split <;> simp [counted]

/-! ### The output stage (R76, R77, R82) -/

@[simp] theorem progress_quantBlock (e k : Nat) (r : Run) (m j : Nat) (ys : List Word32) :
    (s.quantBlock e k r m j ys).2.progress p = s.progress p := by
  unfold State.quantBlock
  dsimp only
  split <;> simp

@[simp] theorem progress_quantRow (e k : Nat) (r : Run) (m : Nat) (ys : List Word32) : (s.quantRow e k r m ys).progress p = s.progress p :=
  foldl_proj (State.progress · p) (fun u j => by simp) _ s

@[simp] theorem progress_writeRow (e k : Nat) (r : Run) (m : Nat) (ys : List Word32) : (s.writeRow e k r m ys).progress p = s.progress p := by
  simp [State.writeRow]

@[simp] theorem progress_mergeRow (k : Nat) (split : Bool) (r : Run) (m a : Nat) :
    (s.mergeRow k split r m a).2.2.progress p = s.progress p := by
  unfold State.mergeRow
  dsimp only
  split <;> simp

@[simp] theorem progress_rowValues (k : Nat) (split : Bool) (r : Run) (m : Nat) :
    (s.rowValues k split r m).2.2.progress p = s.progress p := by
  refine progress_reads p (fun x a => ?_) _ _
  dsimp only
  split
  · simp
  · split <;> simp

@[simp] theorem progress_modeRow (e k : Nat) (r : Run) (m : Nat) (ys : List (Word32 × Bool)) :
    (s.modeRow e k r m ys).2.progress p = s.progress p := by
  unfold State.modeRow
  dsimp only
  split
  · simp
  · simp
  · split <;> simp
  · simp

theorem progress_drainRow (e k : Nat) (split : Bool) (r : Run) (m : Nat) : (s.drainRow e k split r m).2.progress p = s.progress p := by
  unfold State.drainRow
  dsimp only
  split
  · simp
  · split
    · simp
    · split
      · simp
      · split <;> split <;> simp

/-! ### Sync counters (R180 to R183, R317) -/

@[simp] theorem progress_watchAll (n : Nat) : (s.watchAll n).progress p = s.progress p :=
  foldl_proj (State.progress · p) (fun u kw => by simp [State.watchFire]) _ s

@[simp] theorem progress_scFlags (n : Nat) (old new : Counter) (src : Nat) : (s.scFlags n old new src).progress p = s.progress p := by
  simp [State.scFlags]

/-- An addition on a counter that releases no vote (R286). -/
theorem progress_scOp_add (n : Nat) (v : Word32) (src : ScSource) (h : s.jobRuns = false ∨ n ≠ s.grp.cfg.voteSc) :
    (s.scOp n .add v src).progress p = s.progress p := by
  have noVote (u : State) (hu : u.progress p = s.progress p) : u.voteCheck n = u := by
    have runs : u.jobRuns = s.jobRuns := by unfold State.jobRuns; rw [job_of_progress hu]
    refine if_neg fun hc => ?_
    rw [runs, grp_of_progress hu] at hc
    obtain h | h := h
    · exact Bool.false_ne_true (h.symm.trans hc.1)
    · exact h hc.2.2.1
  have watched (u : State) (hu : u.progress p = s.progress p) : ((u.watchAll n).voteCheck n).progress p = s.progress p := by
    rw [noVote _ ((progress_watchAll u p n).trans hu), progress_watchAll, hu]
  unfold State.scOp
  exact watched _ (by simp)

end

end Sys2Proof.Machine
end

section
/-! Waves (R37, R59, R63, R65, R69, R342): the sums that reach the accumulators, the part of a half, and the wave of an engine. -/

namespace Sys2Proof.Machine

open Sys2Proof.Laws

/-! ### ENG_WAVES is kept by what follows a wave -/

/-- ENG_WAVES of a tile. -/
def State.waveCount (s : State) (p : Nat) : Word64 := (s.tile p).regs.waves

section
variable (s : State) (p : Nat)

@[simp] theorem waveCount_onTileWork (k : Nat) (f : TileWork → TileWork) : (s.onTileWork k f).waveCount p = s.waveCount p :=
  field_onTile s p k (fun t => t.regs.waves) rfl
theorem waveCount_onTileRegs (k : Nat) {f : TileRegs → TileRegs} (h : (f (s.tile k).regs).waves = (s.tile k).regs.waves) :
    (s.onTileRegs k f).waveCount p = s.waveCount p := field_onTile s p k (fun t => t.regs.waves) h
@[simp] theorem waveCount_putRun (k : Nat) (r : Run) : (s.putRun k r).waveCount p = s.waveCount p := waveCount_onTileWork s p k _
@[simp] theorem waveCount_dropRun (q : Nat) (seq : Word32) : (s.dropRun q seq).waveCount p = s.waveCount p :=
  field_dropRun s p q seq fun t => t.regs.waves
@[simp] theorem waveCount_finish (q : Nat) (seq : Word32) (st : Word16) (o rows : Nat) :
    (s.finish q seq st o rows).waveCount p = s.waveCount p := congrArg (·.regs.waves) (tile_of_tiles (tiles_finish s q seq st o rows) p)
@[simp] theorem waveCount_onJob (f : Job → Job) : (s.onJob f).waveCount p = s.waveCount p :=
  congrArg (·.regs.waves) (tile_of_tiles (onJob_tiles s f) p)

@[simp] theorem waveCount_endRun (e : Nat) (r : Run) (st : Word16) : (s.endRun e r st).waveCount p = s.waveCount p := by
  simp [State.endRun]

@[simp] theorem waveCount_scratchFault (e k : Nat) (r : Run) : (s.scratchFault e k r).waveCount p = s.waveCount p := by
  unfold State.scratchFault
  dsimp only
  rw [waveCount_onJob, waveCount_endRun]
  exact waveCount_onTileRegs s p k rfl

@[simp] theorem waveCount_startRun (k : Nat) (r : Run) : (s.startRun k r).waveCount p = s.waveCount p := by
  unfold State.startRun
  split
  · rfl
  · exact waveCount_onTileRegs s p k rfl

end

/-! ### The part of a half in a wave -/

/-- The weights swap at the first wave of a K-block, and an item starts with its first (R65, R89). -/
def State.swapped (s : State) (p : Nat) (h : Half) (r : Run) : State :=
  let s := if r.row = 0 ∧ r.sub = 0 then s.onTileWork p fun w => (w.setActive h (w.shadow h)).setShadow h [] else s
  if r.kb = 0 ∧ r.row = 0 ∧ r.sub = 0 then s.startRun p r else s

/-- The four arrays deliver the sums of a row (R63, R69). -/
def State.arraySums (s : State) (p : Nat) (split : Bool) (h : Half) (r : Run) (f : FeedRow) (l : List Nat) : Bool × State :=
  l.foldl (fun (acc : Bool × State) a => (acc.1 || (acc.2.sumArray p split h r f a).1, (acc.2.sumArray p split h r f a).2)) (false, s)

section
variable {s : State} {p : Nat} {h : Half} {r : Run} {f : FeedRow} (hr : s.runOf p h = some r) (hf : ((s.tile p).work.feed h).head? = some f)
include hr hf

/-- The part of a half, in the order of its checks: g takes the entry from the feeder, x is the run that goes on. -/
theorem halfWave_eq (e : Nat) :
    let u := s.swapped p h r
    let v := u.arraySums p (s.tile p).regs.split h r f (List.range 4)
    ∃ g x, s.halfWave e p h =
      if r.sub + 1 < subWaves r.aFmt r.bFmt then u.putRun p { r with sub := r.sub + 1 }
      else if r.kb = 0 ∧ obInitAdd r.block ∧ rowPoisoned (u.tile p).regs (obAccRow r.block + r.row) then u.endRun e r stFaulted
      else if v.1 then v.2.scratchFault e p r
      else if quiet r.block ∧ x.ready = obM r.block then ((v.2.onTileWork p g).putRun p x).endRun e x stOk
      else (v.2.onTileWork p g).putRun p x := by
  dsimp only
  unfold State.halfWave
  dsimp only
  rw [hr, hf]
  exact ⟨_, _, rfl⟩

/-- A sub-wave before the last of an entry goes on to the next (R60). -/
theorem halfWave_sub (hs : r.sub + 1 < subWaves r.aFmt r.bFmt) (e : Nat) :
    s.halfWave e p h = (s.swapped p h r).putRun p { r with sub := r.sub + 1 } := by
  obtain ⟨g, x, heq⟩ := halfWave_eq hr hf e
  rw [heq, if_pos hs]

/-- The last sub-wave of an entry delivers the sums (R63): nothing that follows them writes the tile's stores. -/
theorem mem_halfWave_sums (hs : ¬r.sub + 1 < subWaves r.aFmt r.bFmt)
    (hp : r.kb = 0 → obInitAdd r.block = true → rowPoisoned ((s.swapped p h r).tile p).regs (obAccRow r.block + r.row) = false)
    (hq : quiet r.block = false) {u : State}
    (hu : (s.swapped p h r).arraySums p (s.tile p).regs.split h r f (List.range 4) = (false, u)) (e : Nat) :
    ((s.halfWave e p h).tile p).mem = (u.tile p).mem := by
  have clean : ¬(r.kb = 0 ∧ obInitAdd r.block = true ∧ rowPoisoned ((s.swapped p h r).tile p).regs (obAccRow r.block + r.row) = true) :=
    fun ⟨h0, ha, hb⟩ => Bool.false_ne_true ((hp h0 ha).symm.trans hb)
  obtain ⟨g, x, heq⟩ := halfWave_eq hr hf e
  rw [heq, if_neg hs, if_neg clean, hu, if_neg Bool.false_ne_true, if_neg (by simp [hq])]
  unfold State.putRun State.onTileWork
  rw [tile_onTile_same, tile_onTile_same]

/-- However the part ends, ENG_WAVES stands. -/
theorem waveCount_halfWave (e : Nat) : (s.halfWave e p h).waveCount p = s.waveCount p := by
  have swapped : (s.swapped p h r).waveCount p = s.waveCount p := by
    unfold State.swapped
    dsimp only
    split <;> split <;> simp
  have summed : ((s.swapped p h r).arraySums p (s.tile p).regs.split h r f (List.range 4)).2.waveCount p = s.waveCount p :=
    (waves_of_progress (foldl_proj (fun a : Bool × State => a.2.progress p) (by exact fun a k => progress_sumArray a.2 p p _ h r f k)
      (List.range 4) (false, s.swapped p h r))).trans swapped
  obtain ⟨g, x, heq⟩ := halfWave_eq hr hf e
  rw [heq]
  split
  · rw [waveCount_putRun, swapped]
  · split
    · rw [waveCount_endRun, swapped]
    · split
      · rw [waveCount_scratchFault, summed]
      · split <;> simp [summed]

end

/-! ### The accumulators (R69, R72) -/

/-- Entries that are put at rising places read back, and every other place is as it was. -/
theorem get_puts (ws : List Word32) (k i j : Nat) (m : Sparse Word32) :
    Sparse.get 0 ((ws.zipIdx i).foldl (fun m w => Sparse.put 0 m (k + w.2) w.1) m) j =
      if k + i ≤ j ∧ j < k + i + ws.length then ws.getD (j - (k + i)) 0 else Sparse.get 0 m j := by
  induction ws generalizing i m with
  | nil => rw [if_neg (by simp only [List.length_nil]; omega)]; rfl
  | cons w ws ih =>
    rw [List.zipIdx_cons, List.foldl_cons, ih, List.length_cons]
    by_cases hj : j = k + i
    · subst hj
      rw [if_neg (by omega), if_pos (by omega), Nat.sub_self, List.getD_cons_zero, get_put_same]
    · rw [get_put_other 0 m w (Ne.symm hj)]
      by_cases hi : k + i ≤ j
      · rw [show j - (k + i) = j - (k + (i + 1)) + 1 by omega, List.getD_cons_succ]
        exact if_congr (by omega) rfl rfl
      · rw [if_neg (by omega), if_neg (by omega)]

/-- The entry of column c in row n of the accumulator of array a. -/
def State.accEntry (s : State) (p a n c : Nat) : Word32 := Sparse.get 0 (s.tile p).mem.acc (a * 65536 + n * 128 + c)

theorem accEntry_of_mem {s t : State} {p : Nat} (h : (t.tile p).mem = (s.tile p).mem) (a n c : Nat) : t.accEntry p a n c = s.accEntry p a n c := by
  unfold State.accEntry
  rw [h]

theorem accEntry_writeAccRow (s : State) (p : Nat) (b : List Byte) {a n : Nat} (ws : List Word32) (hw : ws.length ≤ 128)
    {i c : Nat} (hc : c < 128) : (s.writeAccRow p false b a n ws).accEntry p i n c =
      if i = a ∧ c < ws.length then ws.getD c 0 else s.accEntry p i n c := by
  unfold State.accEntry State.writeAccRow
  rw [if_neg Bool.false_ne_true, State.onTileMem, tile_onTile_same]
  dsimp only
  rw [get_puts]
  by_cases hi : i = a
  · subst hi
    rw [show i * 65536 + n * 128 + c - (i * 65536 + n * 128 + 0) = c by omega]
    exact if_congr (by simp) rfl rfl
  · rw [if_neg (by omega), if_neg (fun h => hi h.1)]

/-! ### Sums outside scratchpad accumulation that spill nothing -/

/-- The weights of array a in a half. -/
def TileWork.cols (w : TileWork) (h : Half) (a : Nat) : List (List Nat × List Byte) :=
  match (w.active h).find? fun x => x.1 == a with | some x => x.2.cols | none => []

/-- The entries that a row of array a starts from (R69). -/
def State.oldRow (s : State) (p : Nat) (r : Run) (a : Nat) : List Word32 :=
  if readsAcc r then (s.readAccRow p false r.block a (obAccRow r.block + r.row)).1 else List.replicate 128 0

/-- The row of array a after the chain. -/
def State.newRow (s : State) (p : Nat) (h : Half) (r : Run) (f : FeedRow) (a : Nat) : List Word32 :=
  (chainRow r f ((s.tile p).work.cols h a) (s.oldRow p r a)).1

theorem length_newRow (s : State) (p : Nat) (h : Half) (r : Run) (f : FeedRow) (a : Nat) : (s.newRow p h r f a).length ≤ 128 := by
  have old : (s.oldRow p r a).length = 128 := by
    unfold State.oldRow State.readAccRow
    split
    · rw [if_neg Bool.false_ne_true, List.length_map, List.length_range]
    · exact List.length_replicate
  unfold State.newRow chainRow
  dsimp only
  rw [List.length_map, List.length_zip, old]
  exact Nat.min_le_left _ _

theorem oldRow_congr {s t : State} {p a : Nat} {r : Run}
    (h : ∀ c, c < 128 → t.accEntry p a (obAccRow r.block + r.row) c = s.accEntry p a (obAccRow r.block + r.row) c) :
    t.oldRow p r a = s.oldRow p r a := by
  unfold State.oldRow State.readAccRow
  split
  · rw [if_neg Bool.false_ne_true, if_neg Bool.false_ne_true]
    exact List.map_congr_left fun c hc => h c (List.mem_range.1 hc)
  · rfl

section
variable {r : Run} (hs : r.scratch = false) (hw : spillsNow r = false)
include hs hw

/-- One array counts its sums and writes its row. -/
theorem sumArray_plain (s : State) (p : Nat) (split : Bool) (h : Half) (f : FeedRow) (a : Nat) : ∃ z c : Nat,
    s.sumArray p split h r f a = (false, (s.onTileRegs p fun g => { g with
      zeroBlocks := addW g.zeroBlocks z, chainTrunc := addW g.chainTrunc c }).writeAccRow p false r.block a (obAccRow r.block + r.row)
        (s.newRow p h r f a)) := by
  have start : (if readsAcc r then s.readAccRow p false r.block a (obAccRow r.block + r.row) else (List.replicate 128 0, false, s)) =
      (s.oldRow p r a, false, s) := by
    unfold State.oldRow
    split <;> rfl
  unfold State.sumArray
  dsimp only
  rw [hw, hs, start, if_neg Bool.false_ne_true]
  exact ⟨_, _, rfl⟩

/-- The arrays of a list, none named twice, each write the row that the chain gives from the state before them all. -/
theorem arraySums_plain {l : List Nat} (hl : l.Nodup) (s : State) (p : Nat) (split : Bool) (h : Half)
    (f : FeedRow) : ∃ u, s.arraySums p split h r f l = (false, u) ∧ (u.tile p).work = (s.tile p).work ∧ ∀ a c, c < 128 →
      u.accEntry p a (obAccRow r.block + r.row) c = if a ∈ l ∧ c < (s.newRow p h r f a).length then (s.newRow p h r f a).getD c 0
        else s.accEntry p a (obAccRow r.block + r.row) c := by
  induction l generalizing s with
  | nil => exact ⟨s, rfl, rfl, fun a c _ => (if_neg (by simp)).symm⟩
  | cons b l ih =>
    obtain ⟨hb, hl⟩ := List.nodup_cons.1 hl
    obtain ⟨z, k, heq⟩ := sumArray_plain hs hw s p split h f b
    have work : ((s.sumArray p split h r f b).2.tile p).work = (s.tile p).work := work_of_progress (progress_sumArray s p p split h r f b)
    have entry (a c : Nat) (hc : c < 128) : (s.sumArray p split h r f b).2.accEntry p a (obAccRow r.block + r.row) c =
        if a = b ∧ c < (s.newRow p h r f b).length then (s.newRow p h r f b).getD c 0 else s.accEntry p a (obAccRow r.block + r.row) c := by
      rw [heq, accEntry_writeAccRow _ p r.block _ (length_newRow s p h r f b) hc]
      refine if_congr Iff.rfl rfl (accEntry_of_mem ?_ _ _ _)
      rw [State.onTileRegs, tile_onTile_same]
    obtain ⟨u, hu, hwork, hacc⟩ := ih hl (s.sumArray p split h r f b).2
    refine ⟨u, ?_, hwork.trans work, fun a c hc => ?_⟩
    · rw [← hu]
      unfold State.arraySums
      rw [List.foldl_cons, heq]
      rfl
    · rw [hacc a c hc, entry a c hc]
      by_cases hab : a = b
      · subst hab
        simp [hb]
      · have same : (s.sumArray p split h r f b).2.newRow p h r f a = s.newRow p h r f a := by
          unfold State.newRow
          rw [work, oldRow_congr fun c hc => (entry a c hc).trans (if_neg fun h => hab h.1)]
        rw [same, if_neg (fun h : a = b ∧ _ => hab h.1)]
        exact if_congr (by simp [hab]) rfl rfl

end

/-! ### The wave of an engine (R37, R59, R342) -/

theorem gateStep_of_full {s : State} {e : Nat} (h : 1024 ≤ s.waveDuty e) (p : Nat) : s.gateStep e p = (false, s) := if_pos h

section
variable {s : State} (q : s.Quiet)
include q

/-- Without injections and an upset no detector finds a fault. -/
theorem waveFaults_of_quiet (e p : Nat) : s.waveFaults e p none = s := by
  unfold State.waveFaults
  simp only [opportunity_of_slots_nil q.1]

theorem noSlot_matches (det kind index tile : Nat) (ok : Nat → Bool) :
    ((List.range 16).any fun k => slotMatches (s.injSlot k) det kind index tile ok) = false := by
  rw [List.any_eq_false]
  intro k _
  simp [slotMatches, State.injSlot, q.1, Sparse.get, Reset.slot]

end

section
variable {s : State} {e : Fin 64} {p : Nat} (q : s.Quiet) (hp : s.ptile e = some p) (hrun : (s.tile p).regs.state = .run)
  (hc : s.pwr.closed = false) (hd : s.pwrDyn.droopGate = false) (hu : halfReady (s.tile p).work .u = true)
  (hs : s.halfStopped e (s.tile p).work .u = false)
include q hp hrun hc hd hu hs

/-- A wave-time that the gate takes brings no wave. -/
theorem exec_wave_gated (hg : (s.gateStep e p).1 = true) : exec (.wave e none) s = .next (s.gateStep e p).2 := by
  show execWave e none s = _
  unfold execWave
  rw [hp]
  dsimp only
  rw [noSlot_matches q, if_neg (by simp [State.wavesGated, hrun, hc, hd, hu, hs]), if_pos hg]

/-- A wave in which half U alone takes part. -/
theorem exec_wave_upper (hg : 1024 ≤ s.waveDuty e) (hl : halfReady (s.tile p).work .l = false) : exec (.wave e none) s =
    .next ((s.onTileRegs p fun r => { r with waves := inc r.waves }).halfWave e p .u) := by
  have counted : (s.onTileRegs p fun r => { r with waves := inc r.waves }).Quiet := q
  have work : ((s.onTileRegs p fun r => { r with waves := inc r.waves }).tile p).work = (s.tile p).work := by
    rw [State.onTileRegs, tile_onTile_same]
  have goes : (s.onTileRegs p fun r => { r with waves := inc r.waves }).halfStopped e (s.tile p).work .u = false := hs
  show execWave e none s = _
  unfold execWave
  rw [hp]
  dsimp only
  rw [noSlot_matches q, if_neg (by simp [State.wavesGated, hrun, hc, hd, hu, hs]), gateStep_of_full hg, if_neg Bool.false_ne_true]
  dsimp only
  rw [waveFaults_of_quiet counted, opportunity_of_slots_nil counted.1]
  simp [work, hu, hl, hs, goes]

end

end Sys2Proof.Machine
end

section
/-! What each command of the arrays does to its tile (R42, R59, R65, R76, R86, R87, R90, R162 to R164, R354). -/

namespace Sys2Proof.Machine

open Sys2Proof.Laws

/-- The weights of array a that a wave of half U uses: those of the shadow at the first wave of a K-block (R65). -/
def TileWork.waveCols (w : TileWork) (r : Run) (a : Nat) : List (List Nat × List Byte) :=
  match (if r.row = 0 ∧ r.sub = 0 then w.shadowU else w.activeU).find? fun x => x.1 == a with | some x => x.2.cols | none => []

section
variable (s : State) (p : Nat)

@[simp] theorem tile_onTileWork (f : TileWork → TileWork) : (s.onTileWork p f).tile p = { s.tile p with work := f (s.tile p).work } :=
  tile_onTile_same s p _
@[simp] theorem tile_onTileRegs (f : TileRegs → TileRegs) : (s.onTileRegs p f).tile p = { s.tile p with regs := f (s.tile p).regs } :=
  tile_onTile_same s p _
@[simp] theorem work_putRun (r : Run) : ((s.putRun p r).tile p).work = (s.tile p).work.put r := by rw [State.putRun, tile_onTileWork]
@[simp] theorem work_markIdle : ((s.markIdle p).tile p).work = (s.tile p).work := by simp [State.markIdle]

/-! ### The start of an item and of a K-block -/

@[simp] theorem work_startRun (r : Run) : ((s.startRun p r).tile p).work = (s.tile p).work := by
  unfold State.startRun
  split <;> simp

@[simp] theorem mem_startRun (r : Run) : ((s.startRun p r).tile p).mem = (s.tile p).mem := by
  unfold State.startRun
  split <;> simp

theorem work_swapped (h : Half) (r : Run) : ((s.swapped p h r).tile p).work =
    if r.row = 0 ∧ r.sub = 0 then ((s.tile p).work.setActive h ((s.tile p).work.shadow h)).setShadow h [] else (s.tile p).work := by
  unfold State.swapped
  dsimp only
  split <;> split <;> simp

theorem mem_swapped (h : Half) (r : Run) : ((s.swapped p h r).tile p).mem = (s.tile p).mem := by
  unfold State.swapped
  dsimp only
  split <;> split <;> simp

theorem runU_swapped (r : Run) : ((s.swapped p .u r).tile p).work.runU = (s.tile p).work.runU := by
  rw [work_swapped]
  split <;> rfl

theorem cols_swapped (r : Run) (a : Nat) : ((s.swapped p .u r).tile p).work.cols .u a = (s.tile p).work.waveCols r a := by
  rw [work_swapped]
  unfold TileWork.waveCols
  split <;> rfl

/-- An item with INIT = ADD clears no poison. -/
theorem regs_swapped_of_add (h : Half) {r : Run} (hi : obInitAdd r.block = true) : ((s.swapped p h r).tile p).regs = (s.tile p).regs := by
  have started (u : State) : u.startRun p r = u := if_pos hi
  unfold State.swapped
  dsimp only
  rw [started, ite_self]
  split <;> simp

end

/-! ### A wave of half U -/

section
variable {s : State} {p : Nat} {r : Run} {f : FeedRow} (hr : (s.tile p).work.runU = some r) (hf : (s.tile p).work.feedU.head? = some f)
include hr hf

theorem runOf_halfWave_sub (hw : r.waves = true) (hs : r.sub + 1 < subWaves r.aFmt r.bFmt) (e : Nat) :
    (s.halfWave e p .u).runOf p .u = some { r with sub := r.sub + 1 } := by
  show ((s.halfWave e p .u).tile p).work.runU = _
  rw [halfWave_sub (h := .u) hr hf hs, work_putRun]
  exact TileWork.runU_put _ ((runU_swapped s p r).trans hr) rfl hw

theorem accEntry_halfWave (hs : r.sub + 1 = subWaves r.aFmt r.bFmt) (hsc : r.scratch = false) (hsp : spillsNow r = false)
    (hq : quiet r.block = false)
    (hp : r.kb = 0 → obInitAdd r.block = true → rowPoisoned (s.tile p).regs (obAccRow r.block + r.row) = false) (e : Nat) {a : Nat} (ha : a < 4) :
    let new := (chainRow r f ((s.tile p).work.waveCols r a) (s.oldRow p r a)).1
    ∀ c, c < new.length → c < 128 → (s.halfWave e p .u).accEntry p a (obAccRow r.block + r.row) c = new.getD c 0 := by
  obtain ⟨u, hu, -, hacc⟩ := arraySums_plain hsc hsp List.nodup_range (s.swapped p .u r) p (s.tile p).regs.split .u f (l := List.range 4)
  have clean : r.kb = 0 → obInitAdd r.block = true →
      rowPoisoned ((s.swapped p .u r).tile p).regs (obAccRow r.block + r.row) = false := fun h0 hi => by
    rw [regs_swapped_of_add s p .u hi]
    exact hp h0 hi
  have new : (s.swapped p .u r).newRow p .u r f a = (chainRow r f ((s.tile p).work.waveCols r a) (s.oldRow p r a)).1 := by
    unfold State.newRow
    rw [cols_swapped, oldRow_congr fun c _ => accEntry_of_mem (mem_swapped s p .u r) _ _ c]
  dsimp only
  intro c hc hc128
  rw [accEntry_of_mem (mem_halfWave_sums (h := .u) hr hf (by omega) clean hq hu e), hacc a c hc128, new]
  exact if_pos ⟨List.mem_range.2 ha, hc⟩

end

/-! ### Taking a MATMUL (R162 to R164) -/

theorem runKind_of_takes {s : State} {q : Nat} {i : Item} {k : Kind} (h : s.Takes q i k) (f : Item → State → State) :
    s.runKind q k f = f i (s.take q i) := by
  obtain ⟨ready, kind, order⟩ := h
  unfold State.runKind State.takeKind
  rw [ready]
  dsimp only
  rw [if_pos kind, order]
  rfl

theorem tiles_take (s : State) (q : Nat) (i : Item) : (s.take q i).tiles = s.tiles := by
  simp only [State.take, State.journalTaken, State.onItem, State.onQueue, onStreams_tiles]
theorem tileMap_take (s : State) (q : Nat) (i : Item) : (s.take q i).tileMap = s.tileMap := by
  simp only [State.take, State.journalTaken, State.onItem, State.onQueue, onStreams_tileMap]
theorem tile_take (s : State) (q : Nat) (i : Item) (p : Nat) : (s.take q i).tile p = s.tile p := tile_of_tiles (tiles_take s q i) p
theorem ptile_take (s : State) (q : Nat) (i : Item) (e : Nat) : (s.take q i).ptile e = s.ptile e := ptile_of_tileMap (tileMap_take s q i) e

section
variable {s : State} {e : Fin 64} {p : Nat} {i : Item} (hp : s.ptile e = some p) (ht : s.Takes e i .matmul) (hb : i.block.length = 128)
include hp ht hb

theorem exec_matmul_refused {st : Word16} (h : (s.take e i).matmulRefusal (s.tile p).takeRegs i.block = some (st, false)) :
    exec (.matmul e) s = .next ((s.take e i).finish e i.seq st 0 0) := by
  show Host.Outcome.next (s.runKind e .matmul _) = _
  rw [runKind_of_takes ht]
  dsimp only
  rw [ptile_take, hp]
  dsimp only
  rw [if_neg (not_not_intro hb), tile_take, h]
  rfl

/-- An item that is not refused enters the arrays. -/
theorem exec_matmul_enters (h : (s.take e i).matmulRefusal (s.tile p).takeRegs i.block = none) (hk : obKb i.block ≠ 0) :
    ∃ t, exec (.matmul e) s = .next t ∧ (s.take e i).newRun i (scratchOn (s.tile p).regs) ∈ (t.tile p).work.runs := by
  show ∃ t, Host.Outcome.next (s.runKind e .matmul _) = _ ∧ _
  rw [runKind_of_takes ht]
  dsimp only
  rw [ptile_take, hp]
  dsimp only
  rw [if_neg (not_not_intro hb), tile_take, h]
  dsimp only
  rw [if_neg (fun hc : obKb i.block = 0 ∧ _ => hk hc.1)]
  refine ⟨_, rfl, ?_⟩
  rw [work_markIdle, tile_onTileWork]
  exact TileWork.mem_runs_enter _ _ _ _

end

/-! ### Feeding, weight loads and drains (R59, R65, R76) -/

section
variable {s : State} {e : Fin 64} {p : Nat} (hp : s.ptile e = some p)
include hp

/-- A row vector enters the feeder queues. -/
theorem exec_feederWrite {h : Half} {r : Run} (hr : (s.tile p).work.reads (halfOf (s.tile p).regs.split h) = some r)
    (hf : ((s.tile p).work.feed (halfOf (s.tile p).regs.split h)).length < 32)
    (hs : s.halfStopped e (s.tile p).work (halfOf (s.tile p).regs.split h) = false) :
    let k := halfOf (s.tile p).regs.split h
    let len := kbLen r.aFmt r.bFmt (s.tile p).regs.split
    let v := s.readVec p (streamed r.block r.aFmt) r.feedRow (r.feedKb * len) (readLen len (redLen r.block len) (r.feedKb * len)) len
    v.2.2.1 = false → ∃ t, exec (.feederWrite e h) s = .next t ∧
      (t.tile p).work.feed k = (s.tile p).work.feed k ++ [⟨r.seq, r.feedKb, r.feedRow, v.1, v.2.1⟩] := by
  intro k len v hv
  have work : (v.2.2.2.tile p).work = (s.tile p).work := work_of_progress (progress_readVec s p p _ _ _ _ _)
  show ∃ t, execFeederWrite e h s = _ ∧ _
  unfold execFeederWrite
  rw [hp]
  dsimp only
  rw [hr]
  dsimp only
  rw [if_neg (by rw [hs]; exact Bool.false_ne_true), if_neg (by omega), if_neg (by show ¬v.2.2.1 = true; rw [hv]; exact Bool.false_ne_true)]
  refine ⟨_, rfl, ?_⟩
  rw [tile_onTileWork]
  dsimp only
  rw [work_putRun, TileWork.feed_setFeed, TileWork.feed_put]
  exact congrArg (TileWork.feed · k ++ _) work

/-- The weights of a K-block stand in the shadow of their array. -/
theorem exec_weightLoadDone {h : Half} {r : Run} {a : Fin 4} {i : Nat}
    (hn : nextLoad (s.tile p).work (halfOf (s.tile p).regs.split h) a = some (r, i))
    (hl : obBStream r.block = true → obLandBase r.block + i < s.sc (obLandSc r.block) ∧
      (s.jobRuns = false ∨ obRelSc r.block ≠ s.grp.cfg.voteSc)) :
    let k := halfOf (s.tile p).regs.split h
    let len := kbLen r.aFmt r.bFmt (s.tile p).regs.split
    let v := s.readCols p (stationary r.block r.bFmt (s.slotShift r.block i)) a (if obBStream r.block then 0 else i * len)
      (readLen len (redLen r.block len) (i * len)) len
    v.2.1 = false → ∃ t, exec (.weightLoadDone e h a) s = .next t ∧
      (((t.tile p).work.shadow k).find? fun x => x.1 == a.val).map (·.2) = some ⟨r.seq, i, v.1⟩ := by
  intro k len v hv
  have read : v.2.2.progress p = s.progress p := progress_readCols s p p _ _ _ _ _
  have free := shadow_free_of_nextLoad hn
  rw [← work_of_progress read] at free
  show ∃ t, execWeightLoadDone e h a s = _ ∧ _
  unfold execWeightLoadDone
  rw [hp]
  dsimp only
  rw [hn]
  dsimp only
  rw [if_neg (fun hc => by have := (hl hc.1).1; omega), if_neg (by show ¬v.2.1 = true; rw [hv]; exact Bool.false_ne_true)]
  refine ⟨_, rfl, ?_⟩
  generalize hu : v.2.2.onTileWork p _ = u
  have loaded : ((u.tile p).work.shadow k).find? (fun x => x.1 == a.val) = some (a.val, ⟨r.seq, i, v.1⟩) := by
    rw [← hu, tile_onTileWork, TileWork.shadow_setShadow]
    exact find?_ins _ _ free
  split
  · rename_i hc
    have noVote : u.jobRuns = false ∨ obRelSc r.block ≠ u.grp.cfg.voteSc := by
      have job : u.job = s.job := (show u.job = v.2.2.job by rw [← hu]; rfl).trans (job_of_progress read)
      have grp : u.grp = s.grp := (show u.grp = v.2.2.grp by rw [← hu]; rfl).trans (grp_of_progress read)
      unfold State.jobRuns
      rw [job, grp]
      exact (hl hc.1).2
    rw [work_of_progress (progress_scOp_add u p _ _ _ noVote), loaded]
    rfl
  · rw [loaded]
    rfl

/-- The oldest finished row of a half drains, and is not the item's last. -/
theorem exec_outputRowDrain (q : s.Quiet) {h : Half} {r : Run} (hr : (s.tile p).work.drains (halfOf (s.tile p).regs.split h) = some r)
    (hq : quiet r.block = false) (hd : r.drained < r.ready) (hm : r.drained + 1 < obM r.block)
    (hb : rowPoisoned (s.tile p).regs (obAccRow r.block + r.drained) = false)
    (hok : (s.drainRow e p (s.tile p).regs.split r r.drained).1 = false) :
    ∃ t, exec (.outputRowDrain e h none) s = .next t ∧ { r with drained := r.drained + 1 } ∈ (t.tile p).work.runs := by
  have zeroed (u : State) (l : List Nat) : (l.foldl (fun s a => s.writeAccRow p r.scratch r.block a (obAccRow r.block + r.drained)
      (List.replicate 128 0)) u).progress p = u.progress p := foldl_proj (State.progress · p) (fun _ _ => progress_writeAccRow _ p _ _ _ _ _ _) l u
  show ∃ t, execOutputRowDrain e h none s = _ ∧ _
  unfold execOutputRowDrain
  rw [hp]
  dsimp only
  rw [hr]
  dsimp only
  rw [if_neg (by simp [hq]; omega), if_neg (by rw [hb]; exact Bool.false_ne_true), opportunity_of_slots_nil q.1]
  dsimp only
  rw [if_neg (by rw [hok]; exact Bool.false_ne_true), if_neg (by omega)]
  refine ⟨_, rfl, ?_⟩
  rw [work_putRun]
  refine TileWork.mem_runs_put _ (x := r) ?_ rfl
  have drained := progress_drainRow s p e p (s.tile p).regs.split r r.drained
  split
  · rw [work_of_progress ((zeroed _ _).trans drained)]
    exact TileWork.mem_runs_of_drains _ hr
  · rw [work_of_progress drained]
    exact TileWork.mem_runs_of_drains _ hr

end

end Sys2Proof.Machine
end

section
/-! The ramp, snapshots, aborts, self-tests and hangs (R42, R86, R87, R90 to R93, R354, R407). -/

namespace Sys2Proof.Machine

open Sys2Proof.Laws

/-! ### The activity ramp (R86, R87, R354) -/

/-- The registers after a ramp wave upwards from place pos, for a MATMUL or for ballast. -/
def TileRegs.rampedUp (r : TileRegs) (real want : Bool) (pos : Nat) : TileRegs := { r with
  state := if 48 ≤ pos + 1 ∧ (real || !want) then .run else .rampUp
  rampWaves := if 48 ≤ pos + 1 then (if real || !want then 0 else 48) else pos + 1
  rampStep := min 8 (pos / 6 + 1), idleSince := none }

/-- The registers after a ramp wave downwards (R87). -/
def TileRegs.rampedDown (r : TileRegs) : TileRegs := { r with
  state := if 48 ≤ r.rampWaves + 1 then .idle else .rampDown
  rampWaves := if 48 ≤ r.rampWaves + 1 then 0 else r.rampWaves + 1
  rampStep := groupsDown (r.rampWaves + 1) }

/-- The registers after a ramp wave, by the state that it finds. -/
def TileRegs.ramped (r : TileRegs) (real want : Bool) : TileRegs :=
  match r.state with
  | .idle => if want then r.rampedUp real want 0 else r
  | .rampUp => r.rampedUp real want r.rampWaves
  | .rampDown => if want then r.rampedUp real want (6 * groupsDown r.rampWaves) else r.rampedDown
  | _ => r

theorem ramped_of_idle {r : TileRegs} (h : r.state = .idle) (real : Bool) : r.ramped real true = r.rampedUp real true 0 := by
  simp [TileRegs.ramped, h]

theorem ramped_of_rampUp {r : TileRegs} (h : r.state = .rampUp) (real want : Bool) :
    r.ramped real want = r.rampedUp real want r.rampWaves := by simp [TileRegs.ramped, h]

theorem ramped_of_rampDown {r : TileRegs} (h : r.state = .rampDown) (real : Bool) : r.ramped real false = r.rampedDown := by
  simp [TileRegs.ramped, h]

/-- The first wave upwards is not the last, whatever wants it. -/
theorem rampedUp_first (r : TileRegs) (real want : Bool) : (r.rampedUp real want 0).state = .rampUp := by simp [TileRegs.rampedUp]

section
variable {s : State} {e : Fin 64} {p : Nat} (hp : s.ptile e = some p)
include hp

/-- A ramp wave that no gate takes moves the registers of its tile. -/
theorem exec_rampWave (hc : s.pwr.closed = false) (hd : s.pwrDyn.droopGate = false) (hg : 1024 ≤ s.waveDuty e) :
    ∃ t, exec (.rampWave e) s = .next t ∧
      (t.tile p).regs = (s.tile p).regs.ramped (s.matmulWants e p) (s.matmulWants e p || s.ballastRuns) := by
  show ∃ t, execRampWave e s = _ ∧ _
  unfold execRampWave
  rw [hp]
  dsimp only
  rw [if_neg (by simp [hc, hd]), gateStep_of_full hg, if_neg Bool.false_ne_true]
  dsimp only
  cases hs : (s.tile p).regs.state with
  | idle =>
    by_cases hw : (s.matmulWants e p || s.ballastRuns) = true
    · exact ⟨_, if_pos hw, by rw [tile_onTileRegs, hw, ramped_of_idle hs]; rfl⟩
    · exact ⟨_, if_neg hw, by simp [TileRegs.ramped, hs, hw]⟩
  | rampUp => exact ⟨_, rfl, by rw [tile_onTileRegs, ramped_of_rampUp hs]; rfl⟩
  | rampDown =>
    by_cases hw : (s.matmulWants e p || s.ballastRuns) = true
    · exact ⟨_, if_pos hw, by rw [tile_onTileRegs]; simp [TileRegs.ramped, hs, hw, TileRegs.rampedUp]⟩
    · exact ⟨_, if_neg hw, by rw [tile_onTileRegs, Bool.eq_false_iff.2 hw, ramped_of_rampDown hs]; rfl⟩
  | run | faultStop | retired => exact ⟨s, rfl, by simp [TileRegs.ramped, hs]⟩

theorem exec_rampDownStart (hs : (s.tile p).regs.state = .run) (hw : s.matmulWants e p = false) :
    ∃ t, exec (.rampDownStart e) s = .next t ∧ (t.tile p).regs.state = .rampDown := by
  show ∃ t, execRampDownStart e s = _ ∧ _
  unfold execRampDownStart
  rw [hp]
  dsimp only
  rw [if_neg (by simp [hs, hw])]
  exact ⟨_, rfl, by rw [tile_onTileRegs]⟩

end

/-! ### Snapshots and aborts (R42, R90) -/

section
variable {s : State} (q : s.Quiet) (hl : s.linkUp = true) {e : Fin 64} {p : Nat} (hp : s.ptile e = some p)
include q hl hp

theorem exec_engSnap : exec (.engSnap (.logical e)) s = .next (s.onTileRegs p fun r => { r with
    snapWaves := r.waves, snapHalt := r.haltTicks, snapTick := s.boot.modCount }) := by
  show execEngSnap (.logical e) s = _
  unfold execEngSnap State.engSnap State.winTile
  rw [if_pos hl, q.tlp]
  dsimp only
  rw [hp]

/-- An item that has not been taken is removed unrun. -/
theorem exec_engAbort_waiting {seq : Word32} {i : Item} (he : s.engineOf p = some e.val) (hi : s.item e seq = some i)
    (hw : i.run = .waiting) : exec (.engAbort (.logical e) seq) s = .next ((s.finish e seq stFaulted 2 0).onTileRegs p fun r => { r with
      abortResult := BitVec.ofNat 64 (2 ^ 63 + seq.toNat * 2 ^ 16 + stOk.toNat) }) := by
  have aborted : s.abortItem e seq = (stOk, s.finish e seq stFaulted 2 0) := by
    unfold State.abortItem
    rw [hi]
    dsimp only
    rw [hw]
  show execEngAbort (.logical e) seq s = _
  unfold execEngAbort State.engAbort State.winTile
  rw [if_pos hl, q.tlp]
  dsimp only
  rw [hp]
  dsimp only
  rw [he]
  dsimp only
  rw [aborted]

end

/-! ### Self-tests (R407) -/

/-- The end of a long command is an answer in its mailbox at most. -/
theorem endCommand_frame (s : State) (r : Option Route) (st : Word16) (resp : List Byte) :
    (s.endCommand r st resp).tiles = s.tiles ∧ (s.endCommand r st resp).cp.selftest = s.cp.selftest := by
  unfold State.endCommand
  cases r with
  | none => exact ⟨rfl, rfl⟩
  | some r =>
    dsimp only
    split
    · obtain ⟨⟨answered, -⟩, -⟩ := respond_answers s r st resp
      exact ⟨by rw [answered], by rw [answered]⟩
    · exact ⟨rfl, rfl⟩

theorem exec_selftestDone_passed {s : State} (q : s.Quiet) {n : Nat} {k : Option Route} (h : s.cp.selftest = some (n, k)) :
    ∃ t, exec (.selftestDone 0) s = .next t ∧ t.cp.selftest = none ∧
      (t.tile n).health = if (s.tile n).health = .active then .active else .spareReady := by
  show ∃ t, execSelftestDone 0 s = _ ∧ _
  unfold execSelftestDone
  rw [h]
  dsimp only
  rw [opportunity_of_slots_nil q.1]
  simp only [ne_eq, not_true_eq_false, if_false, Option.getD_none]
  refine ⟨_, rfl, (endCommand_frame _ _ _ _).2, ?_⟩
  rw [tile_of_tiles (endCommand_frame _ _ _ _).1, tile_of_tiles (onCp_tiles _ _)]
  generalize hu : State.onTile s n _ = u
  have noted (v : List Byte) : ((u.report 0x0E05 .note 2 n v).injEnd 2 n).tile n = u.tile n :=
    tile_of_tiles ((notices_report u _ _ _ _ v).field State.tiles) n
  rw [noted, ← hu, tile_onTile_same]

/-! ### Hangs (R91 to R93) -/

/-- What passing time keeps: whatever no notice, MOD_COUNT, pause or tick count changes. -/
theorem field_pass {α : Type} (g : State → α) (hn : ∀ u t, State.Notices u t → g t = g u)
    (hb : ∀ u f, g (State.onBoot u f) = g u := by exact fun _ _ => rfl)
    (hp : ∀ u e o, g { u with eth := e, out := o } = g u := by exact fun _ _ _ => rfl)
    (s : State) (n : Nat) (hc : g (s.countTicks n) = g s) : g (s.pass n) = g s := by
  have paused (u : State) (i : Nat) : g (u.endPause i) = g u := by rw [endPause_frame, hp]
  unfold State.pass
  split
  · rfl
  · dsimp only
    rw [paused, paused, hb, foldl_proj g (fun u i => ?_), hc]
    exact (hn _ _ (notices_report _ _ _ _ _ _)).trans (hb _ _)

theorem quiet_pass {s : State} (q : s.Quiet) (n : Nat) : (s.pass n).Quiet := by
  have kept : ((s.pass n).alm.slots, (s.pass n).alm.injKeys) = (s.alm.slots, s.alm.injKeys) :=
    field_pass (fun u => (u.alm.slots, u.alm.injKeys)) (fun _ _ h => Prod.ext h.slots h.injKeys) (s := s) (n := n) (hc := rfl)
  exact ⟨(congrArg Prod.fst kept).trans q.1, (congrArg Prod.snd kept).trans q.2⟩

/-- An update of the listed tiles that keeps their health keeps that of every tile. -/
theorem health_map (l : Sparse Tile) {f : Nat × Tile → Nat × Tile} (hk : ∀ x, (f x).1 = x.1) (hh : ∀ x, (f x).2.health = x.2.health)
    (j : Nat) : (Sparse.get Reset.tile (l.map f) j).health = (Sparse.get Reset.tile l j).health := by
  induction l with
  | nil => rfl
  | cons x l ih =>
    have key : (f x).1 = x.1 := hk x
    have health : (f x).2.health = x.2.health := hh x
    show (if (f x).1 = j then (f x).2 else Sparse.get Reset.tile (l.map f) j).health =
      (if x.1 = j then x.2 else Sparse.get Reset.tile l j).health
    rw [key]
    split
    · exact health
    · exact ih

theorem health_countTicks (s : State) (n j : Nat) : ((s.countTicks n).tile j).health = (s.tile j).health := by
  unfold State.countTicks State.tile
  dsimp only
  split
  · refine health_map _ (fun x => ?_) (fun x => ?_) j
    · split <;> rfl
    · split <;> rfl
  · rfl

theorem health_pass (s : State) (n j : Nat) : ((s.pass n).tile j).health = (s.tile j).health :=
  field_pass (fun u => (u.tile j).health) (fun _ _ h => h.field fun u => (u.tile j).health) (s := s) (n := n) (hc := health_countTicks s n j)

theorem health_failAll (s : State) (e j : Nat) : ((s.failAll e).tile j).health = (s.tile j).health := by
  unfold State.failAll
  refine foldl_proj (fun u => (State.tile u j).health) (fun u i => ?_) _ s
  dsimp only
  split
  · rw [tile_of_tiles (tiles_finish _ _ _ _ _ _), field_dropRun u j e i.seq Tile.health]
  · rw [State.journalTaken, tile_of_tiles (onStreams_tiles _ _), tile_of_tiles (tiles_finish _ _ _ _ _ _)]
  · rfl

/-- Spares do not appear while healths stand, but for tiles that are retired. -/
theorem spares_eq_nil {s t : State} {quad : Nat} (h : s.spares quad = [])
    (ht : ∀ j, (t.tile j).health = (s.tile j).health ∨ (t.tile j).health = .retiredRun) : t.spares quad = [] := by
  unfold State.spares at h ⊢
  rw [List.filter_eq_nil_iff] at h ⊢
  intro j hj
  obtain e | e := ht j
  · rw [e]; exact h j hj
  · rw [e]; decide

/-! Reports and injections leave the tiles and TILE_MAP alone. -/

/-- The tiles and TILE_MAP. -/
def State.placed (s : State) : Sparse Tile × Sparse TileMapEntry := (s.tiles, s.tileMap)

theorem placed_report (s : State) (code : Nat) (sev : Severity) (kind index : Nat) (b : List Byte) :
    (s.report code sev kind index b).placed = s.placed := (notices_report s code sev kind index b).field State.placed

theorem placed_injEnd (s : State) (kind index : Nat) : (s.injEnd kind index).placed = s.placed := rfl

theorem placed_disarmTarget (s : State) (f : InjSlot → Bool) : (s.disarmTarget f).placed = s.placed := by
  refine foldl_proj State.placed (fun u k => ?_) _ s
  unfold State.disarm
  dsimp only
  split
  · split
    · rfl
    · exact placed_report _ _ _ _ _ _
  · rfl

/-- The tile of a hang when its quadrant has no spare: it is retired, and its engine is served by none (R92, R93). -/
theorem retire_without_spare (s : State) (e p stage : Nat) (h : s.spares (p / 17) = []) :
    (s.retire e p 0 stage).ptile e = none ∧ ((s.retire e p 0 stage).tile p).health = .retiredRun ∧
      ((s.retire e p 0 stage).tile p).regs.state = .retired := by
  unfold State.retire
  dsimp only
  generalize hu : (if srcKey 1 e ∈ s.alm.injKeys then s.injBegin 2 p else s) = u
  have health (j : Nat) : ((u.failAll e).tile j).health = (s.tile j).health := by
    rw [health_failAll, ← hu]
    split <;> rfl
  generalize ht : State.onTile (u.failAll e) p _ = t
  have tile : (t.tile p).health = .retiredRun ∧ (t.tile p).regs.state = .retired := by
    rw [← ht, tile_onTile_same]
    exact ⟨rfl, rfl⟩
  have none_left : t.spares (p / 17) = [] := by
    refine spares_eq_nil h fun j => ?_
    by_cases hj : p = j
    · subst hj
      exact .inr tile.1
    · rw [← ht, tile_onTile_other _ _ hj]
      exact .inl (health j)
  rw [none_left]
  unfold State.bringSpare
  dsimp only
  generalize hv : State.disarmTarget _ _ = v
  have placed : v.placed = (t.setTmap e ⟨false, 0, (t.tmap e).subst⟩).placed := by
    rw [← hv, placed_disarmTarget, placed_injEnd, placed_report]
  have tiles : v.tiles = t.tiles := congrArg Prod.fst placed
  rw [ptile_of_tileMap (congrArg Prod.snd placed), tile_of_tiles tiles]
  refine ⟨?_, tile⟩
  unfold State.ptile
  rw [tmap_setTmap_same]
  rfl

theorem exec_tileHang_without_spare {s : State} {e : Fin 64} {p : Nat} (q : s.Quiet) (hp : s.ptile e = some p)
    (hm : s.mustWave e p = true) (h : s.spares (p / 17) = []) : ∃ t, exec (.tileHang e 0) s = .next t ∧ t.ptile e = none ∧
      (t.tile p).health = .retiredRun ∧ (t.tile p).regs.state = .retired := by
  have retired := retire_without_spare (s.pass 1000) e p 0 (spares_eq_nil h fun j => .inl (health_pass s 1000 j))
  have ended (u : State) : (u.injEnd 1 e).ptile e = u.ptile e ∧ (u.injEnd 1 e).tile p = u.tile p :=
    ⟨ptile_of_tileMap rfl e, tile_of_tiles rfl p⟩
  show ∃ t, execTileHang e 0 s = _ ∧ _
  unfold execTileHang
  rw [hp]
  dsimp only
  rw [if_pos hm, opportunity_of_slots_nil (quiet_pass q 1000).1]
  refine ⟨_, rfl, ?_⟩
  rw [(ended _).1, (ended _).2]
  exact retired

end Sys2Proof.Machine
end

section
/-! The statement on the work of the arrays. -/

namespace Sys2Proof.Proofs

open Sys2Proof.Machine Sys2Proof.Laws

/-- Settles O52: each clause is the equation of its command; the ramp's clauses read the registers after the ramp wave. -/
theorem engineWork : Obligations.EngineWork := by
  intro s e p q hp
  have ramps (hc : s.pwr.closed = false) (hd : s.pwrDyn.droopGate = false) (hg : 1024 ≤ s.waveDuty e) := exec_rampWave hp hc hd hg
  refine ⟨fun i ht hb => ⟨fun st => exec_matmul_refused hp ht hb, exec_matmul_enters hp ht hb⟩,
    fun hrun hc hd hu hs hg => exec_wave_gated q hp hrun hc hd hu hs hg, ?wave,
    fun h => ⟨fun r => exec_feederWrite hp, fun r a i => exec_weightLoadDone hp, fun r hr hq hd hm => exec_outputRowDrain hp q hr hq hd hm⟩,
    ?ballast, fun hc hd hg hb => ⟨?start, ?up, ?down⟩, exec_rampDownStart hp, exec_tileHang_without_spare q hp,
    fun hl => ⟨_, exec_engSnap q hl hp, ?snap⟩, fun seq i hl he hi hw => ⟨_, exec_engAbort_waiting q hl hp he hi hw, ?abort⟩,
    fun n k => exec_selftestDone_passed q⟩
  case wave =>
    intro hrun hc hd hg r f hr hf hw hu hl hs
    refine ⟨_, exec_wave_upper q hp hrun hc hd hu hs hg hl, ?_⟩
    generalize hv : State.onTileRegs s p _ = v
    have tile : v.tile p = { s.tile p with regs := { (s.tile p).regs with waves := inc (s.tile p).regs.waves } } := by
      rw [← hv, tile_onTileRegs]
    have run : (v.tile p).work.runU = some r := by rw [tile]; exact hr
    have feed : (v.tile p).work.feedU.head? = some f := by rw [tile]; exact hf
    refine ⟨?_, fun hsub => runOf_halfWave_sub run feed hw hsub e, fun hsub hsc hsp hq _ hb a ha => ?_⟩
    · have counted := waveCount_halfWave (h := .u) run feed e
      unfold State.waveCount at counted
      rw [counted, tile]
      rfl
    · have row : v.oldRow p r a = s.oldRow p r a := oldRow_congr fun c _ => accEntry_of_mem (by rw [tile]) _ _ c
      have sums := accEntry_halfWave run feed hsub hsc hsp hq (by rw [tile]; exact hb) e ha
      rw [row, tile] at sums
      exact sums
  case ballast =>
    intro hc hd hg hb hs
    obtain ⟨t, heq, regs⟩ := ramps hc hd hg
    rw [hb, Bool.or_true, ramped_of_idle hs] at regs
    exact ⟨t, heq, by rw [regs, rampedUp_first]⟩
  case start =>
    intro hs hw
    obtain ⟨t, heq, regs⟩ := ramps hc hd hg
    rw [hw, Bool.true_or, ramped_of_idle hs] at regs
    exact ⟨t, heq, by rw [regs, rampedUp_first], by rw [regs]; rfl, by rw [regs]; rfl⟩
  case up =>
    intro hs
    obtain ⟨t, heq, regs⟩ := ramps hc hd hg
    rw [ramped_of_rampUp hs] at regs
    refine ⟨t, heq, ?_, by rw [regs]; rfl⟩
    rw [regs, TileRegs.rampedUp]
    exact if_congr (by simp [hb]) rfl rfl
  case down =>
    intro hs hw
    obtain ⟨t, heq, regs⟩ := ramps hc hd hg
    rw [hw, hb, Bool.or_false, ramped_of_rampDown hs] at regs
    refine ⟨t, heq, ?_, by rw [regs]; rfl⟩
    rw [regs, TileRegs.rampedDown]
    exact if_congr (by omega) rfl rfl
  case snap =>
    rw [tile_onTileRegs]
    exact ⟨rfl, rfl, rfl⟩
  case abort => rw [tile_onTileRegs]

end Sys2Proof.Proofs
end

section
/-! The JOB commands (R90, R386): what the effect of each answers, by its payload and the slots that hold a job. -/

namespace Sys2Proof.Machine

open Sys2Proof.Laws

/-- The model's test of a slot, as the statement asks it. -/
theorem any_slot_iff {α : Type} (l : Sparse α) (j : Nat) : (l.any fun k => k.1 == j) = true ↔ ∃ k ∈ l, k.1 = j := by
  simp only [List.any_eq_true, beq_iff_eq]

theorem not_any_slot_iff {α : Type} (l : Sparse α) (j : Nat) : (!l.any fun k => k.1 == j) = true ↔ ∀ k ∈ l, k.1 ≠ j := by
  simp only [List.not_any_eq_all_not, List.all_eq_true, Bool.not_eq_true', beq_eq_false_iff_ne]

/-! ### CHD_SLICE (R264) -/

/-- The word of CHD_SLICE for slot j on columns x0 to x1 and rows y0 to y1. -/
def sliceWord (j x0 x1 y0 y1 : Nat) : Word64 := BitVec.ofNat 64 (x0 * 2 ^ 20 + x1 * 2 ^ 16 + y0 * 2 ^ 12 + y1 * 2 ^ 8 + j)

section
variable {j x0 x1 y0 y1 : Nat} (hj : j < 256) (hx0 : x0 < 16) (hx1 : x1 < 16) (hy0 : y0 < 16) (hy1 : y1 < 16)
include hj hx0 hx1 hy0 hy1

theorem toNat_sliceWord : (sliceWord j x0 x1 y0 y1).toNat = x0 * 2 ^ 20 + x1 * 2 ^ 16 + y0 * 2 ^ 12 + y1 * 2 ^ 8 + j :=
  (BitVec.toNat_ofNat _ _).trans (Nat.mod_eq_of_lt (by omega))

theorem fields_sliceWord : fld (sliceWord j x0 x1 y0 y1) 0 8 = j ∧ fld (sliceWord j x0 x1 y0 y1) 20 4 = x0 ∧
    fld (sliceWord j x0 x1 y0 y1) 16 4 = x1 ∧ fld (sliceWord j x0 x1 y0 y1) 12 4 = y0 ∧ fld (sliceWord j x0 x1 y0 y1) 8 4 = y1 := by
  unfold fld bitsOf
  rw [toNat_sliceWord hj hx0 hx1 hy0 hy1]
  omega

end

/-! ### JOB_START (R386) -/

/-- The payload of JOB_START names a slot and a rectangle of logical positions. -/
def jobStartOk (b : List Byte) : Prop :=
  le b 0 1 ≤ 7 ∧ le b 24 1 % 16 ≤ le b 24 1 / 16 ∧ le b 24 1 / 16 ≤ 7 ∧ le b 25 1 % 16 ≤ le b 25 1 / 16 ∧ le b 25 1 / 16 ≤ 7

/-- The state in which the job of a payload runs. -/
def State.jobStarted (s : State) (b : List Byte) : State :=
  let x0 := le b 24 1 % 16
  let x1 := le b 24 1 / 16
  let y0 := le b 25 1 % 16
  let y1 := le b 25 1 / 16
  ((s.freshJob.onJob fun t => { t with
    slots := Sparse.ins (le b 0 1) ⟨BitVec.ofNat 32 (le b 4 4), BitVec.ofNat 128 (le b 8 16), (x0, x1, y0, y1)⟩ t.slots
    step := BitVec.ofNat 32 (le b 4 4), committed := 0, replaying := false, faultReplay := false, verdict := 0
    lastCommit := none, lastSkip := none }).onChd fun c => { c with slice := sliceWord (le b 0 1) x0 x1 y0 y1 }).snapshotCounters

section
variable {s : State} {b : List Byte}

theorem jobStartCmd_bad (h : ¬jobStartOk b) : jobStartCmd b s = .done stBadOpcode [] s :=
  if_pos (by unfold jobStartOk at h; omega)

theorem jobStartCmd_busy (h : jobStartOk b) (hs : ∃ k ∈ s.job.slots, k.1 = le b 0 1) : jobStartCmd b s = .done stBusy [] s :=
  (if_neg (by unfold jobStartOk at h; omega)).trans (if_pos ((any_slot_iff _ _).mpr hs))

theorem jobStartCmd_starts (h : jobStartOk b) (hs : ∀ k ∈ s.job.slots, k.1 ≠ le b 0 1) :
    jobStartCmd b s = .done stOk [] (s.jobStarted b) :=
  (if_neg (by unfold jobStartOk at h; omega)).trans (if_neg (by simpa only [any_slot_iff, not_exists, not_and] using hs))

end

theorem slots_jobStarted (s : State) (b : List Byte) : ((s.jobStarted b).job.slots.any fun k => k.1 == le b 0 1) = true :=
  (any_slot_iff _ _).mpr ⟨_, (mem_ins _ _ _ _).mpr (.inl rfl), rfl⟩

/-- The counters keep their values; the net effects of external operations start afresh with the snapshot (R186). -/
theorem sync_jobStarted (s : State) (b : List Byte) : (s.jobStarted b).sync.sc = s.sync.sc ∧ (s.jobStarted b).sync.ext = [] := ⟨rfl, rfl⟩

/-- CHD_SLICE holds the slot and the rectangle (R264). -/
theorem fields_jobStarted (s : State) {b : List Byte} (h : jobStartOk b) :
    let w := (s.jobStarted b).chd.slice
    fld w 0 8 = le b 0 1 ∧ fld w 20 4 = le b 24 1 % 16 ∧ fld w 16 4 = le b 24 1 / 16 ∧ fld w 12 4 = le b 25 1 % 16 ∧
      fld w 8 4 = le b 25 1 / 16 := by
  obtain ⟨slot, left, right, low, high⟩ := h
  exact fields_sliceWord (by omega) (by omega) (by omega) (by omega) (by omega)

/-! ### JOB_STOP (R386) -/

section
variable {s : State} {b : List Byte}

theorem jobStopCmd_none (hs : ∀ k ∈ s.job.slots, k.1 ≠ le b 0 1) : jobStopCmd b s = .done stAlreadyDone [] s :=
  if_pos ((not_any_slot_iff _ _).mpr hs)

theorem jobStopCmd_commits (hs : ∃ k ∈ s.job.slots, k.1 = le b 0 1) (hc : s.comp.commit.isSome = true ∧ fld s.chd.slice 0 8 = le b 0 1) :
    jobStopCmd b s = .done stBusy [] s :=
  (if_neg (by simpa only [not_any_slot_iff, not_forall, not_not, exists_prop] using hs)).trans (if_pos hc)

theorem jobStopCmd_stops (hs : ∃ k ∈ s.job.slots, k.1 = le b 0 1)
    (hc : ¬(s.comp.commit.isSome = true ∧ fld s.chd.slice 0 8 = le b 0 1)) :
    jobStopCmd b s = .done stOk [] (s.onJob fun t => { t with slots := Sparse.del (le b 0 1) t.slots }).idleNow :=
  (if_neg (by simpa only [not_any_slot_iff, not_forall, not_not, exists_prop] using hs)).trans (if_neg hc)

end

/-! ### JOB_ABORT (R90) -/

/-- An abort of the item SEQ of queue q that ended in a status, noted in ENG_ABORT_RESULT of the tile that serves the queue. -/
def State.abortNoted (s : State) (q seq : Nat) (st : Word16) : State :=
  match s.ptile q with
  | some p => s.onTileRegs p fun x => { x with abortResult := BitVec.ofNat 64 (2 ^ 63 + seq % 2 ^ 32 * 2 ^ 16 + st.toNat) }
  | none => s

section
variable {s : State} {b : List Byte}

theorem jobAbortCmd_bad (h : 63 < le b 0 1) : jobAbortCmd b s = .done stBadOpcode [] s := if_pos h

theorem jobAbortCmd_aborts (h : le b 0 1 ≤ 63) :
    let a := s.abortItem (le b 0 1) (BitVec.ofNat 32 (le b 4 4))
    jobAbortCmd b s = .done a.1 [] (a.2.abortNoted (le b 0 1) (le b 4 4) a.1) := if_neg (by omega)

end

end Sys2Proof.Machine
end

section
/-! The statement on the JOB commands. -/

namespace Sys2Proof.Proofs

open Sys2Proof.Machine Sys2Proof.Laws

/-- Settles O23: each clause is one branch of its command's effect. -/
theorem jobCommands : Obligations.JobCommands := by
  intro s r
  refine ⟨fun h => ⟨?start, ?busy, ?bad⟩,
    fun h => ⟨fun hs => completes_of_done h rfl (jobStopCmd_none hs), fun hs hc => completes_of_done h rfl (jobStopCmd_commits hs hc),
      fun hs hc => completes_of_done h rfl (jobStopCmd_stops hs hc)⟩,
    fun h => ⟨fun hq => completes_of_done h rfl (jobAbortCmd_aborts hq), fun hq => completes_of_done h rfl (jobAbortCmd_bad hq)⟩⟩
  case start =>
    intro hj hx hx1 hy hy1 hs
    have ok : jobStartOk (s.payload r) := ⟨hj, hx, hx1, hy, hy1⟩
    obtain ⟨slot, left, right, low, high⟩ := fields_jobStarted s ok
    exact ⟨_, completes_of_done h rfl (jobStartCmd_starts ok hs), slots_jobStarted s _, rfl, rfl, slot, left, right, low, high,
      sync_jobStarted s _⟩
  case busy =>
    intro hj hx hx1 hy hy1 hs
    exact completes_of_done h rfl (jobStartCmd_busy ⟨hj, hx, hx1, hy, hy1⟩ hs)
  case bad =>
    intro hb
    exact completes_of_done h rfl (jobStartCmd_bad (by unfold jobStartOk; omega))

end Sys2Proof.Proofs
end

section
/-! The commands that read with a payload, and the CFG commands that write (R118, R203, R325, R364, R371, R403): what the effect of
each answers. -/

namespace Sys2Proof.Machine

open Sys2Proof.Laws

section
variable {s : State} {b : List Byte}

/-! ### Scale records (R118) -/

theorem scaleRange_eq_true_iff : scaleRange b = true ↔ 1 ≤ le b 2 2 ∧ le b 2 2 ≤ 125 ∧ le b 0 2 + le b 2 2 ≤ 8192 := by
  simp only [scaleRange, Bool.and_eq_true, decide_eq_true_eq, and_assoc]

theorem cfgScaleReadCmd_ok (h : scaleRange b = true) : cfgScaleReadCmd b s = .done stOk
    (leBytes 2 (le b 0 2) ++ leBytes 2 (le b 2 2) ++ leBytes 4 0 ++
      (List.range (le b 2 2)).flatMap fun k => recToBytes (s.scaleRec (le b 0 2 + k))) s :=
  if_neg (by simp [h])

theorem cfgScaleReadCmd_bad (h : scaleRange b = false) : cfgScaleReadCmd b s = .done stBadOpcode [] s := if_pos (by simp [h])

/-- The records that the payload of CFG_SCALE_WRITE names, with what it writes to them. -/
def scaleWrites (b : List Byte) : List (Nat × ScaleRec) :=
  (List.range (le b 2 2)).map fun k => (le b 0 2 + k, recOf (slice b (8 + 32 * k) 32))

/-- The writes of a payload wait for the boundary behind those that wait already. -/
def State.scaleWritesWait (s : State) (b : List Byte) : State := s.onScales fun c => { c with waiting := c.waiting ++ scaleWrites b }

theorem cfgScaleWriteCmd_bad (h : scaleRange b = false ∨ b.length < 8 + 32 * le b 2 2) :
    cfgScaleWriteCmd b s = .done stBadOpcode [] s := if_pos (by simpa using h)

theorem cfgScaleWriteCmd_ok (h : scaleRange b = true) (hl : 8 + 32 * le b 2 2 ≤ b.length) : cfgScaleWriteCmd b s = .done stOk []
    (if s.jobRuns then s.scaleWritesWait b else (s.scaleWritesWait b).applyScaleWrites) :=
  if_neg (by simpa [h] using hl)

/-! ### The other reads (R203, R364, R403) -/

theorem updGroupReadCmd_ok (h : le b 0 2 < 4096) (hl : s.laidOut = true) : updGroupReadCmd b s = .done stOk (s.pgBytes (le b 0 2)) s :=
  if_neg (by simpa [hl] using h)

theorem updGroupReadCmd_bad (h : 4096 ≤ le b 0 2 ∨ s.laidOut = false) : updGroupReadCmd b s = .done stBadOpcode [] s :=
  if_pos (by simpa using h)

theorem secIdentityCmd_ok (h : s.boot.identityOk = true) :
    secIdentityCmd b s = .done stOk (((s.certificate.drop (le b 0 4)).take 4000) ++ s.factoryMacs) s := if_neg (by simp [h])

theorem secIdentityCmd_bad (h : s.boot.identityOk = false) : secIdentityCmd b s = .done stFaulted [] s := if_pos (by simp [h])

/-- ALM_READ over the management bus releases SMB_ALERT# (Table 15-1). -/
def State.alertReleased (s : State) (r : Route) : State := if r = .smb then s.onBoot fun t => { t with smbAlert := false } else s

theorem alm_alertReleased (s : State) (r : Route) : (s.alertReleased r).alm = s.alm := by
  unfold State.alertReleased
  split <;> rfl

/-- The records of the ring from a SEQ on, at most a count of them. -/
def State.ringFrom (s : State) (first count : Nat) : List AlmRec :=
  (s.alm.ring.filter fun x => decide (first ≤ x.seq.toNat)).take count

/-- ALM_READ of the ring: its records stand in the response without the POLICY bit. -/
theorem almReadCmd_ring (r : Route) (h : le b 4 1 = 0) (h1 : 1 ≤ le b 5 1) (h2 : le b 5 1 ≤ 125) :
    let rs := s.ringFrom (le b 0 4) (le b 5 1)
    almReadCmd r b s = .done stOk (leBytes 4 (match rs.getLast? with | some x => x.seq.toNat + 1 | none => le b 0 4) ++
      leBytes 4 rs.length ++ rs.flatMap fun x => recBytes x false) (s.alertReleased r) := by
  dsimp only
  unfold almReadCmd State.ringFrom
  rw [← alm_alertReleased s r]
  change (if _ then _ else _) = _
  rw [if_neg (by omega), h]
  rfl

theorem almReadCmd_bad (r : Route) (h : 1 < le b 4 1 ∨ le b 5 1 = 0 ∨ 125 < le b 5 1) :
    almReadCmd r b s = .done stBadOpcode [] (s.alertReleased r) := if_pos (by omega)

/-! ### The MCB (R371) -/

theorem cfgMcbWriteCmd_bad (r : Route) (h : b.length ≠ 2048 ∨ mcbCrc b ≠ le b 8 4) :
    cfgMcbWriteCmd r b s = .done stBadCheck [] s := if_pos h

section
variable (r : Route) (hl : b.length = 2048) (hc : mcbCrc b = le b 8 4)
include hl hc

theorem cfgMcbWriteCmd_busy (h : s.flash.mcbWrite.isSome = true ∨ s.flash.mcbNext.isSome = true) :
    cfgMcbWriteCmd r b s = .done stBusy [] s := (if_neg (by simp [hl, hc])).trans (if_pos h)

theorem cfgMcbWriteCmd_ok (hw : s.flash.mcbWrite = none) (hn : s.flash.mcbNext = none) : cfgMcbWriteCmd r b s =
    if s.alm.flushing then .pending (s.onFlash fun f => { f with mcbNext := some ⟨b, some r, s.now⟩ })
    else .pending (s.onFlash fun f => { f with mcbWrite := some ⟨b, some r, s.now⟩ }) :=
  (if_neg (by simp [hl, hc])).trans (if_neg (by simp [hw, hn]))

end

/-! ### FDT ports and connections (R325) -/

theorem cfgFdtPortCmd_ok (hi : le b 0 1 ≤ 1) (hd : le b 34 1 ≤ 63) (hg : 1 ≤ le b 38 1 ∧ le b 38 1 ≤ 8)
    (ht : 1000 ≤ le b 40 4 ∧ le b 40 4 ≤ 100000) (ha : 500 ≤ le b 44 4 ∧ le b 44 4 ≤ 20000) :
    cfgFdtPortCmd b s = .done stOk []
      ((s.onEthPort (le b 0 1) fun e => { e with
        mac := BitVec.ofNat 48 (le b 8 6), config := slice b 16 18, pfc := bitOf (le b 48 1) 0 }).onEth fun e => { e with
          dscp := le b 34 1, udpPort := le b 36 2, gShift := le b 38 1, periodT := le b 40 4, stepA := le b 44 4 }) :=
  if_neg (by omega)

/-- The payload of CFG_FDT_OPEN names a slot, ports and an MTU. -/
def fdtOpenOk (b : List Byte) : Prop := le b 0 1 < 64 ∧ 1500 ≤ le b 34 2 ∧ 1 ≤ le b 32 1 ∧ le b 32 1 ≤ 3

theorem exists_payloadOf {mtu : Nat} (h : 1500 ≤ mtu) : ∃ n, payloadOf mtu = some n := by
  unfold payloadOf
  rw [if_pos h]
  split
  · exact ⟨_, rfl⟩
  · split <;> exact ⟨_, rfl⟩

/-- The slot that CFG_FDT_OPEN names opens, with a new connection id. -/
def State.fdtOpening (s : State) (r : Route) (b : List Byte) (mtu : Nat) : State :=
  s.newId.2.onConn (le b 0 1) fun c => { c.fresh with
    state := .opening, localId := s.newId.1, remote := le b 16 16, ports := le b 32 1, mtu := mtu, openRoute := some r, timer := some s.now }

section
variable (r : Route) (hb : fdtOpenOk b)
include hb

theorem cfgFdtOpenCmd_busy (h : (s.conn (le b 0 1)).state = .open_ ∨ (s.conn (le b 0 1)).state = .opening) :
    cfgFdtOpenCmd r b s = .done stBusy [] s := by
  obtain ⟨hk, hm, h1, h3⟩ := hb
  obtain ⟨mtu, hmtu⟩ := exists_payloadOf hm
  unfold cfgFdtOpenCmd
  rw [hmtu]
  exact (if_neg (by omega)).trans (if_pos h)

theorem cfgFdtOpenCmd_opens (h : (s.conn (le b 0 1)).state = .closed ∨ (s.conn (le b 0 1)).state = .lost) :
    ∃ mtu, let u := s.fdtOpening r b mtu
      cfgFdtOpenCmd r b s = if (u.pickPort (u.conn (le b 0 1))).isNone then .done stTimeout [] (u.connStop (le b 0 1) .closed)
        else .running (u.fdtSend (le b 0 1) ftOpen 0 0 0 0 [] []) := by
  obtain ⟨hk, hm, h1, h3⟩ := hb
  obtain ⟨mtu, hmtu⟩ := exists_payloadOf hm
  refine ⟨mtu, ?_⟩
  unfold cfgFdtOpenCmd
  rw [hmtu]
  exact (if_neg (by omega)).trans (if_neg (by rcases h with h | h <;> simp [h]))

end

theorem cfgFdtCloseCmd_bad (h : 64 ≤ le b 0 1) : cfgFdtCloseCmd b s = .done stBadOpcode [] s := if_pos h

theorem cfgFdtCloseCmd_closed (hk : le b 0 1 < 64) (h : (s.conn (le b 0 1)).state = .closed) :
    cfgFdtCloseCmd b s = .done stAlreadyDone [] s := (if_neg (by omega)).trans (if_pos h)

theorem cfgFdtCloseCmd_ok (hk : le b 0 1 < 64) (h : (s.conn (le b 0 1)).state ≠ .closed) : cfgFdtCloseCmd b s = .done stOk []
    ((if (s.conn (le b 0 1)).state = .lost then s else s.fdtSend (le b 0 1) ftClose 0 0 0 0 [] []).connStop (le b 0 1) .closed) :=
  (if_neg (by omega)).trans (if_neg h)

end

/-! ### Connections that open -/

section
variable (s : State)

/-- A connection that has sent nothing finds no port exactly when none of its ports is UP (R325). -/
theorem pickPort_isNone_iff {c : Conn} (h : c.lastPort = 0) :
    (s.pickPort c).isNone = true ↔ ∀ i, i < 2 → bitOf c.ports i = true → (s.ethPort i).state ≠ 1 := by
  have two : (∀ i, i < 2 → bitOf c.ports i = true → (s.ethPort i).state ≠ 1) ↔
      ¬(bitOf c.ports 1 = true ∧ (s.ethPort 1).state = 1) ∧ ¬(bitOf c.ports 0 = true ∧ (s.ethPort 0).state = 1) :=
    ⟨fun h => ⟨fun h1 => h 1 (by omega) h1.1 h1.2, fun h0 => h 0 (by omega) h0.1 h0.2⟩,
      fun h i hi hb hs => by interval_cases i; exacts [h.2 ⟨hb, hs⟩, h.1 ⟨hb, hs⟩]⟩
  rw [two]
  simp only [State.pickPort, h, Bool.and_eq_true, beq_iff_eq]
  split
  next up1 => simp [up1]
  next down1 =>
    split
    next up0 => simp [up0]
    next down0 => simp [down1, down0]

theorem eth_setMbox (r : Route) (m : Mailbox) : (s.setMbox r m).eth = s.eth := by cases r <;> rfl

/-- A packet that is sent keeps its connection but the port and the tick of the last packet, and the ids chosen. -/
theorem conn_fdtSend (k type flags : Nat) (psn msg : Word32) (off : Nat) (header data : List Byte) :
    let t := s.fdtSend k type flags psn msg off header data
    t.eth.ids = s.eth.ids ∧ ∃ p h, t.conn k = { s.conn k with lastPort := p, lastHeard := h } := by
  dsimp only
  unfold State.fdtSend State.sendFrame
  dsimp only
  split
  · exact ⟨rfl, _, _, rfl⟩
  · have sent (i : Nat) : (s.onConn k fun c => { c with lastPort := i, lastHeard := s.now }).conn k =
        { s.conn k with lastPort := i, lastHeard := s.now } := conn_onConn_same _ _ _
    split <;> exact ⟨rfl, _, _, sent _⟩

theorem conn_fdtOpening (r : Route) (b : List Byte) (mtu : Nat) : (s.fdtOpening r b mtu).conn (le b 0 1) =
    { (s.conn (le b 0 1)).fresh with
      state := .opening, localId := s.newId.1, remote := le b 16 16, ports := le b 32 1, mtu := mtu, openRoute := some r
      timer := some s.now } := conn_onConn_same _ _ _

theorem pickPort_fdtOpening_isNone_iff (r : Route) (b : List Byte) (mtu : Nat) :
    ((s.fdtOpening r b mtu).pickPort ((s.fdtOpening r b mtu).conn (le b 0 1))).isNone = true ↔
      ∀ i, i < 2 → bitOf (le b 32 1) i = true → (s.ethPort i).state ≠ 1 := by
  rw [pickPort_isNone_iff _ (by rw [conn_fdtOpening]; rfl), conn_fdtOpening]
  exact Iff.rfl

theorem state_connStop (k : Nat) (st : ConnState) : ((s.connStop k st).conn k).state = st := by
  unfold State.connStop
  rw [conn_onConn_same]

end

end Sys2Proof.Machine
end

section
/-! VQUANT and VEFQ (R107, R112, R190): the blocks of 32 lanes that they work on, and what each writes. -/

namespace Sys2Proof.Machine

open Sys2Proof.Laws

/-! ### Blocks of lanes -/

theorem piecesOf_eq {α : Type} (k n : Nat) (l : List α) : piecesOf k n l = (List.range n).map fun i => (l.drop (k * i)).take k := by
  induction n generalizing l with
  | zero => rfl
  | succ n ih =>
    rw [piecesOf, ih, List.range_succ_eq_map, List.map_cons, List.map_map]
    simp only [Function.comp_def, List.drop_drop, Nat.mul_zero, List.drop_zero, Nat.mul_succ, Nat.add_comm]

theorem length_maskLanes {n : Nat} {a : List Bool} {l : List Word32} (ha : a.length = n) (hl : l.length = n) :
    (maskLanes a l).length = n := by simp [maskLanes, ha, hl]

/-- Lane i of a source whose inactive lanes take part as +0. -/
theorem getElem_maskLanes (x : JviCtx) {n : Nat} (w : Word64) (r : Nat) {i : Nat} (hi : i < n)
    (h : i < (maskLanes (x.act n w) (x.getV n r)).length) :
    (maskLanes (x.act n w) (x.getV n r))[i] = if x.acts n w i then x.lane n r i else 0 := by
  have act : (x.act n w)[i]'(by rw [length_act]; exact hi) = x.acts n w i := by
    rw [← getD_act x w hi, List.getD_eq_getElem]
  have lane : (x.getV n r)[i]'(by rw [length_getV]; exact hi) = x.lane n r i := by
    rw [JviCtx.lane, List.getD_eq_getElem]
  simp only [maskLanes, List.getElem_map, List.getElem_zip, act, lane]

/-- The blocks of a source register, as the format instructions take them (R190). -/
theorem piecesOf_maskLanes (v : JEnv) (w : Word64) (x : JviCtx) (r : Nat) :
    piecesOf 32 (v.vlen / 32) (maskLanes (x.act v.vlen w) (x.getV v.vlen r)) =
      (List.range (v.vlen / 32)).map fun b => (List.range 32).map fun k => blockLane v w x r b k := by
  have len : (maskLanes (x.act v.vlen w) (x.getV v.vlen r)).length = v.vlen := length_maskLanes (length_act _ _ _) (length_getV _ _ _)
  rw [piecesOf_eq]
  refine List.map_congr_left fun b hb => ?_
  rw [List.mem_range] at hb
  refine List.ext_getElem (by simp [len]; omega) fun k h1 h2 => ?_
  simp only [List.length_map, List.length_range] at h2
  rw [List.getElem_take, List.getElem_drop, getElem_maskLanes x w r (by omega)]
  simp [blockLane]

/-- What a function gives for each block with its number. -/
theorem map_zipIdx_range {α β : Type} (g : Nat → α) (h : α × Nat → β) (m : Nat) :
    ((List.range m).map g).zipIdx.map h = (List.range m).map fun b => h (g b, b) := List.ext_getElem (by simp) (by simp)

section
variable {f : Nat → List Word32} {m : Nat} (hf : ∀ b, b < m → (f b).length = 32)
include hf

theorem length_flatMap_blocks : ((List.range m).flatMap f).length = 32 * m := by
  have each : (List.range m).map (fun b => (f b).length) = (List.range m).map fun _ => 32 :=
    List.map_congr_left fun b hb => hf b (List.mem_range.1 hb)
  rw [List.length_flatMap, each]
  simp [Nat.mul_comm]

/-- Lane i of blocks of 32 lanes that stand one after another. -/
theorem getD_flatMap_blocks {i : Nat} (hi : i < 32 * m) : ((List.range m).flatMap f).getD i 0 = (f (i / 32)).getD (i % 32) 0 := by
  induction m with
  | zero => omega
  | succ m ih =>
    have before : ∀ b, b < m → (f b).length = 32 := fun b hb => hf b (by omega)
    have len := length_flatMap_blocks before
    rw [List.range_succ, List.flatMap_append, List.flatMap_singleton]
    by_cases h : i < 32 * m
    · rw [List.getD_append _ _ _ _ (by omega), ih before h]
    · rw [List.getD_append_right _ _ _ _ (by omega), len, show i / 32 = m by omega, show i % 32 = i - 32 * m by omega]

end

/-! ### Quantised blocks -/

/-- A block keeps a code and a clamp bit for each input (R107). -/
theorem length_quantiseBlock (y : List Fp) (lo hi : Nat) (f : Elem) (sr : Bool) (r : Nat → Nat) :
    (quantiseBlock y lo hi f sr r).codes.length = y.length ∧ (quantiseBlock y lo hi f sr r).clamped.length = y.length := by
  have shape {c : Prop} [Decidable c] {p q : Quant} (hp : p.codes.length = y.length ∧ p.clamped.length = y.length)
      (hq : q.codes.length = y.length ∧ q.clamped.length = y.length) :
      (if c then p else q).codes.length = y.length ∧ (if c then p else q).clamped.length = y.length := by
    split
    · exact hp
    · exact hq
  have zeros : (y.map fun _ => 0).length = y.length ∧ (y.map fun _ => false).length = y.length := ⟨List.length_map _, List.length_map _⟩
  exact shape zeros (shape zeros ⟨(List.length_map _).trans List.length_zipIdx, List.length_map _⟩)

theorem length_vquantBlock (v : JEnv) (w : Word64) (x : JviCtx) (b : Nat) :
    (vquantBlock v w x b).codes.length = 32 ∧ (vquantBlock v w x b).clamped.length = 32 := by
  obtain ⟨codes, clamped⟩ := length_quantiseBlock ((List.range 32).map fun k => decode32 (blockLane v w x (jA w) b k))
    (bitsOf (jImm w) 7 7) (bitsOf (jImm w) 0 7) (elemOf (bitsOf (jImm w) 14 2)) (bitsOf (jImm w) 16 2 == 2) fun k =>
      srHash v.step ((x.getS (jB w)).setWidth 32) (x.getS (jC w) + BitVec.ofNat 64 (32 * b + k)) v.k0 v.k1
  exact ⟨codes.trans (by simp), clamped.trans (by simp)⟩

theorem length_vefqBlock (v : JEnv) (w : Word64) (x : JviCtx) (b : Nat) :
    ((vefqBlock v w x b).1.codes.length = 32 ∧ (vefqBlock v w x b).1.clamped.length = 32) ∧ (vefqBlock v w x b).2.length = 32 := by
  simp [vefqBlock, efBlock, efRound, residOf, length_quantiseBlock]

section
variable {q : Quant} (h : q.codes.length = 32 ∧ q.clamped.length = 32)
include h

theorem length_quantLanes : (quantLanes q).length = 32 := by simp [quantLanes, h]

theorem getD_quantLanes {k : Nat} (hk : k < 32) : (quantLanes q).getD k 0 = quantLane q k := by
  simp [quantLanes, quantLane, List.getD_eq_getElem?_getD, h, hk]

end

/-! ### The two instructions -/

theorem quantRound_odd_iff (w : Word64) : bitsOf (jImm w) 16 2 % 2 = 1 ↔ bitsOf (jImm w) 16 1 = 1 := by
  unfold bitsOf
  omega

section
variable (v : JEnv) {w : Word64} (x : JviCtx)

theorem jVquant_bad (h : quantImmOk w = false ∨ bitsOf (jImm w) 16 1 = 1) : jVquant v w x = .bad :=
  if_pos (by rw [quantRound_odd_iff]; simpa using h)

theorem jVquant_ok (h : quantImmOk w = true) (hr : bitsOf (jImm w) 16 1 = 0) : jVquant v w x =
    .next (x.putV v.vlen w (jD w) ((List.range (v.vlen / 32)).flatMap fun b => quantLanes (vquantBlock v w x b)))
      ((List.range (v.vlen / 32)).any fun b => (vquantBlock v w x b).nonfinite) := by
  have even : ¬bitsOf (jImm w) 16 2 % 2 = 1 := by rw [quantRound_odd_iff]; omega
  unfold jVquant
  dsimp only
  rw [if_neg (by simp [h, even]), piecesOf_maskLanes, map_zipIdx_range]
  simp only [List.flatMap_map, List.any_map, List.map_map]
  rfl

theorem jVefq_bad (h : quantImmOk w = false ∨ bitsOf (jImm w) 16 2 ≠ 0) : jVefq v w x = .bad := if_pos (by simpa using h)

theorem jVefq_ok (h : quantImmOk w = true) (hr : bitsOf (jImm w) 16 2 = 0) : jVefq v w x =
    .next ((x.putV v.vlen w (jD w) ((List.range (v.vlen / 32)).flatMap fun b => quantLanes (vefqBlock v w x b).1)).putV v.vlen w
        ((jD w + 1) % 32) ((List.range (v.vlen / 32)).flatMap fun b => (vefqBlock v w x b).2.map (·.setWidth 32)))
      ((List.range (v.vlen / 32)).any fun b => (vefqBlock v w x b).1.nonfinite) := by
  unfold jVefq
  dsimp only
  rw [if_neg (by simp [h, hr]), piecesOf_maskLanes, piecesOf_maskLanes, List.zip_map']
  simp only [List.flatMap_map, List.any_map, List.map_map]
  rfl

end

/-! ### Steps that write lanes -/

/-- The vector lengths are whole blocks. -/
theorem vlen_blocks (s : State) (c : Ctx) : 32 * (s.vlen c / 32) = s.vlen c := by cases c <;> simp [State.vlen, State.jenv]

section
variable {s : State} {c : Ctx} {w : Word64}

/-- One step of a register instruction with the flag that its quantiser left (R116). -/
theorem jvi_next_marked {op : Nat} {f : JEnv → Word64 → JviCtx → JRes} {y : JviCtx} {nf : Bool} (h : s.AtOp c w op)
    (hf : f (s.jenv c) w (s.ctx c).tick = .next y nf) : s.jvi c op f = .next ((s.markNonfinite nf).jput c y) := by
  simp only [State.jvi, jfetch_of_atOp h, hf]
  rfl

/-- The flag touches no context. -/
theorem ctx_markNonfinite (nf : Bool) : (s.markNonfinite nf).ctx c = s.ctx c := by cases nf <;> rfl
theorem vlen_markNonfinite (nf : Bool) : (s.markNonfinite nf).vlen c = s.vlen c := by cases c <;> rfl

theorem wroteV_putV_marked (nf : Bool) {d : Nat} {new : List Word32} {val : Nat → Word32} (hb : (s.ctx c).busy = true)
    (hp : (s.ctx c).pc + 1 < (s.ctx c).code.length) (hl : new.length = s.vlen c) (hv : ∀ i, i < s.vlen c → new.getD i 0 = val i) :
    (s.markNonfinite nf).WroteV ((s.markNonfinite nf).jput c ((s.ctx c).tick.putV (s.vlen c) w d new)) c w d val := by
  have kept := ctx_markNonfinite (s := s) (c := c) nf
  have wrote := wroteV_putV (s := s.markNonfinite nf) (c := c) (w := w) (d := d) (new := new) (val := val)
  rw [kept, vlen_markNonfinite] at wrote
  exact wrote hb hp hl hv

/-- Lane i of a register after a write of the active lanes. -/
theorem lane_putV (x : JviCtx) {n d i : Nat} {new : List Word32} (hl : new.length = n) (hi : i < n) :
    (x.putV n w d new).lane n d i = if x.acts n w i then new.getD i 0 else x.lane n d i := by
  unfold JviCtx.lane JviCtx.putV
  rw [getV_setV_same (length_merge (length_act _ _ _) (length_getV _ _ _) hl),
    getD_merge (length_act _ _ _) (length_getV _ _ _) hl hi, getD_act _ _ hi]

/-- A step that writes the active lanes of two registers. -/
theorem jput_putV_putV (nf : Bool) {d d' : Nat} {new new' : List Word32} (hd : d ≠ d') (hb : (s.ctx c).busy = true)
    (hp : (s.ctx c).pc + 1 < (s.ctx c).code.length) (hl : new.length = s.vlen c) (hl' : new'.length = s.vlen c) :
    let t := (s.markNonfinite nf).jput c (((s.ctx c).tick.putV (s.vlen c) w d new).putV (s.vlen c) w d' new')
    t = (s.markNonfinite nf).setCtx c { (s.ctx c).tick with v := (t.ctx c).v } ∧
      (∀ j, j ≠ d → j ≠ d' → (t.ctx c).getV (s.vlen c) j = (s.ctx c).getV (s.vlen c) j) ∧
      ∀ i, i < s.vlen c →
        (t.ctx c).lane (s.vlen c) d i = (if (s.ctx c).acts (s.vlen c) w i then new.getD i 0 else (s.ctx c).lane (s.vlen c) d i) ∧
        (t.ctx c).lane (s.vlen c) d' i = (if (s.ctx c).acts (s.vlen c) w i then new'.getD i 0 else (s.ctx c).lane (s.vlen c) d' i) := by
  have stays : (s.markNonfinite nf).jput c (((s.ctx c).tick.putV (s.vlen c) w d new).putV (s.vlen c) w d' new') =
      (s.markNonfinite nf).setCtx c (((s.ctx c).tick.putV (s.vlen c) w d new).putV (s.vlen c) w d' new') := if_pos hp
  dsimp only
  rw [stays, ctx_setCtx _ (by rw [ctx_markNonfinite, hb])]
  refine ⟨rfl, fun j hj hj' => ?_, fun i hi => ⟨?_, ?_⟩⟩
  · exact (getV_setV_other _ _ _ hj').trans (getV_setV_other _ _ _ hj)
  · exact (congrArg (·.getD i 0) (getV_setV_other _ _ _ hd)).trans (lane_putV _ hl hi)
  · refine (lane_putV _ hl' hi).trans (if_congr Iff.rfl rfl ?_)
    exact congrArg (·.getD i 0) (getV_setV_other _ _ _ hd.symm)

end

end Sys2Proof.Machine
end

section
/-! What the work of the queues leaves as it was (R157, R158, R174 to R187): fetching, completion, aborts and replay write the queues with
what they run and report, and neither the registers of the PCIe link nor HOST_LOST. One mask over the state, and one lemma per operation
in the order in which the model defines them. -/

namespace Sys2Proof.Machine

open Sys2Proof.Laws

/-- The host interface without what its traffic writes: pending bits, requests that wait, the write log, watches, host memory. -/
@[reducible] def Hst.sansTraffic (h : Hst) : Hst := { h with
  pba := [], wait := [], wlog := [], wlogPos := 0, handed := 0, lastAddr := none, watch := [], mem := [] }

/-- The state without what the work of the queues writes. -/
def State.sansWork (s : State) : State := { s with
  boot := { s.boot with smbAlert := false, faulted := false }
  tiles := [], streams := { Reset.streams with hostLost := s.streams.hostLost }, sync := Reset.sync, scales := Reset.scales, job := Reset.job
  grp := Reset.grp, grpStats := Reset.grpStats, comp := Reset.comp, mem := Reset.mem, chd := Reset.chd, hst := s.hst.sansTraffic
  pwrRegs := { s.pwrRegs with thrNow := 0, thrEvents := [] }, alm := Reset.alm, out := [] }

/-- A part of the state that the mask keeps is the same wherever the masked states are. -/
theorem field_of_sansWork {s t : State} (h : t.sansWork = s.sansWork) {α : Type} (f : State → α)
    (hf : ∀ x : State, f x.sansWork = f x := by exact fun _ => rfl) : f t = f s :=
  ((hf t).symm.trans (congrArg f h)).trans (hf s)

theorem State.Notices.sansWork {s t : State} (h : s.Notices t) : t.sansWork = s.sansWork := h.field State.sansWork

@[simp] theorem sansWork_ite (c : Prop) [Decidable c] (s t : State) :
    (if c then s else t).sansWork = if c then s.sansWork else t.sansWork := apply_ite State.sansWork c s t

section
variable (s : State)

/-! ### Parts of the state -/

@[simp] theorem sansWork_onStreams {f : Streams → Streams} (h : ∀ x, (f x).hostLost = x.hostLost) :
    (s.onStreams f).sansWork = s.sansWork :=
  congrArg (fun b => { s.sansWork with streams := { Reset.streams with hostLost := b } }) (h s.streams)
@[simp] theorem sansWork_onHst {f : Hst → Hst} (h : ∀ x, (f x).sansTraffic = x.sansTraffic) : (s.onHst f).sansWork = s.sansWork :=
  congrArg (fun x => { s.sansWork with hst := x }) (h s.hst)
@[simp] theorem sansWork_onSync (f : Sync → Sync) : (s.onSync f).sansWork = s.sansWork := rfl
@[simp] theorem sansWork_onScales (f : Scales → Scales) : (s.onScales f).sansWork = s.sansWork := rfl
@[simp] theorem sansWork_onJob (f : Job → Job) : (s.onJob f).sansWork = s.sansWork := rfl
@[simp] theorem sansWork_onGrp (f : Grp → Grp) : (s.onGrp f).sansWork = s.sansWork := rfl
@[simp] theorem sansWork_onGrpStats (f : GrpStats → GrpStats) : (s.onGrpStats f).sansWork = s.sansWork := rfl
@[simp] theorem sansWork_onComp (f : Comp → Comp) : (s.onComp f).sansWork = s.sansWork := rfl
@[simp] theorem sansWork_onMem (f : Mem → Mem) : (s.onMem f).sansWork = s.sansWork := rfl
@[simp] theorem sansWork_onChd (f : Chd → Chd) : (s.onChd f).sansWork = s.sansWork := rfl
@[simp] theorem sansWork_onAlm (f : Alm → Alm) : (s.onAlm f).sansWork = s.sansWork := rfl
@[simp] theorem sansWork_onTile (p : Nat) (f : Tile → Tile) : (s.onTile p f).sansWork = s.sansWork := rfl
@[simp] theorem sansWork_emit (o : Out) : (s.emit o).sansWork = s.sansWork := rfl
@[simp] theorem sansWork_onQueue (q : Nat) (f : Queue → Queue) : (s.onQueue q f).sansWork = s.sansWork := rfl
@[simp] theorem sansWork_onChannel (c : Nat) (f : Channel → Channel) : (s.onChannel c f).sansWork = s.sansWork := rfl
@[simp] theorem sansWork_onLp (l : Nat) (f : LpChannel → LpChannel) : (s.onLp l f).sansWork = s.sansWork := rfl

theorem sansWork_setCtx (c : Ctx) (x : JviCtx) : (s.setCtx c x).sansWork = s.sansWork := by
  unfold State.setCtx
  split
  · rfl
  · split <;> rfl

/-! ### Messages, records and injections -/

@[simp] theorem sansWork_msix (v : Nat) : (s.msix v).sansWork = s.sansWork := (notices_msix s v).sansWork
@[simp] theorem sansWork_sendControl (x y : Nat) (b : List Byte) : (s.sendControl x y b).sansWork = s.sansWork :=
  (notices_sendControl s x y b).sansWork
@[simp] theorem sansWork_report (code : Nat) (sev : Severity) (kind index : Nat) (p : List Byte) :
    (s.report code sev kind index p).sansWork = s.sansWork := (notices_report s code sev kind index p).sansWork
@[simp] theorem sansWork_injEnd (kind index : Nat) : (s.injEnd kind index).sansWork = s.sansWork := rfl

@[simp] theorem sansWork_opportunity (det kind index tile : Nat) (ok : Nat → Bool) :
    (s.opportunity det kind index tile ok).2.sansWork = s.sansWork := by
  unfold State.opportunity
  refine foldl_proj (fun a : Option Nat × State => a.2.sansWork) (fun a k => ?_) _ _
  simp [apply_ite Prod.snd, State.disarm, State.setSlot, State.injBegin]

@[simp] theorem sansWork_fires (det kind index : Nat) : (s.fires det kind index).2.sansWork = s.sansWork := by simp [State.fires]

@[simp] theorem sansWork_issueHost (o : Out) : (s.issueHost o).sansWork = s.sansWork := by
  have stored (u : State) (off : Nat) (d : List Byte) : (u.storeG7 off d).sansWork = u.sansWork :=
    (sansWork_onMem _ _).trans (foldl_proj State.sansWork (fun v k => sansWork_onMem v _) (cwSpan off d.length) u)
  have logged (u : State) (w : HostWrite) : (u.logWrite w).sansWork = u.sansWork := by simp [State.logWrite, State.logStore, stored]
  unfold State.issueHost
  split <;> simp [logged]

@[simp] theorem sansWork_hostWrite (relaxed : Bool) (a : Nat) (d : List Byte) : (s.hostWrite relaxed a d).sansWork = s.sansWork := by
  simp [State.hostWrite, State.hostBound]

/-! ### G7, the slow tier and the scratchpads -/

theorem sansWork_lookAll {look : State → Nat → CwHealth × State} (h : ∀ s cw, (look s cw).2.sansWork = s.sansWork) (l : List Nat) :
    (lookAll look s l).2.2.sansWork = s.sansWork := by
  induction l generalizing s with
  | nil => rfl
  | cons cw l ih => exact (ih _).trans (h s cw)

@[simp] theorem sansWork_g7Look (cw : Nat) : (s.g7Look cw).2.sansWork = s.sansWork := by
  simp [State.g7Look, State.g7Ue, State.g7Ce, State.g7Retrain]
@[simp] theorem sansWork_slowLook (cw : Nat) : (s.slowLook cw).2.sansWork = s.sansWork := by
  simp [State.slowLook, State.slowUe, State.slowCe]
@[simp] theorem sansWork_padLook (p cw : Nat) : (s.padLook p cw).2.sansWork = s.sansWork := by simp [State.padLook, State.onTileMem]

@[simp] theorem sansWork_parkAll (off len : Nat) : (s.parkAll off len).sansWork = s.sansWork := by
  obtain ⟨l, h⟩ := parkAll_frame s off len
  rw [h]
  rfl

@[simp] theorem sansWork_readLoc (l : Loc) (len : Nat) : (s.readLoc l len).2.2.sansWork = s.sansWork := by
  unfold State.readLoc
  cases l with
  | g7 o => exact (sansWork_lookAll _ sansWork_g7Look _).trans (sansWork_parkAll s o len)
  | slow o => exact sansWork_lookAll s sansWork_slowLook _
  | pad e o =>
    dsimp only
    split
    · exact sansWork_lookAll s (fun u cw => sansWork_padLook u _ cw) _
    · rfl
  | acc e o => dsimp only; split <;> rfl
  | host | remote | reduce => rfl

@[simp] theorem sansWork_writeG7 (off : Nat) (d : List Byte) : (s.writeG7 off d).sansWork = s.sansWork :=
  (foldl_proj State.sansWork (fun u cw => by simp [State.writeG7Cw, State.setG7Health]) _ _).trans (sansWork_parkAll s _ _)
@[simp] theorem sansWork_storeSlow (off : Nat) (d : List Byte) : (s.storeSlow off d).sansWork = s.sansWork :=
  foldl_proj State.sansWork (fun u cw => by simp [State.writeSlowCw, State.setSlowHealth]) _ s

/-! ### Fetching (R174, R175, R184) -/

@[simp] theorem sansWork_settle (q : Nat) : (s.settle q).sansWork = s.sansWork := rfl

theorem sansWork_jnlRing (pos : Nat) (x : List Byte) : (s.jnlRing pos x).sansWork = s.sansWork := by
  unfold State.jnlRing
  split <;> simp

theorem sansWork_jnlCopied (pos : Nat) (x : List Byte) : (s.jnlCopied pos x).sansWork = s.sansWork := by
  unfold State.jnlCopied
  split
  · rfl
  · split <;> simp

@[simp] theorem sansWork_jnlAppend (q : Nat) (d block : List Byte) : (s.jnlAppend q d block).sansWork = s.sansWork := by
  simp [State.jnlAppend, jnlWrite_eq, sansWork_jnlRing, sansWork_jnlCopied]

@[simp] theorem sansWork_jnlStop (q : Nat) : (s.jnlStop q).sansWork = s.sansWork := by simp [State.jnlStop]

@[simp] theorem sansWork_fetchBlock (d : List Byte) : (s.fetchBlock d).2.sansWork = s.sansWork := by
  unfold State.fetchBlock
  split
  · rfl
  · split
    · rfl
    · split
      · rfl
      · dsimp only
        split <;> exact sansWork_readLoc s _ _

@[simp] theorem sansWork_fetchSlot (q : Nat) : (s.fetchSlot q).2.sansWork = s.sansWork := by
  unfold State.fetchSlot
  dsimp only
  split
  · simp
  · split
    · simp
    · split
      · simp
      · split
        · simp
        · split
          · simp
          · split <;> simp

@[simp] theorem sansWork_fetchFrom (q n : Nat) : (s.fetchFrom q n).sansWork = s.sansWork := by
  induction n generalizing s with
  | zero => rfl
  | succ n ih =>
    unfold State.fetchFrom
    dsimp only
    split
    · split <;> simp [ih, State.accept]
    · rfl

@[simp] theorem sansWork_fetch (q : Nat) : (s.fetch q).sansWork = s.sansWork := by simp [State.fetch]

/-! ### Sync counters and watches (R180 to R183, R286, R317) -/

@[simp] theorem sansWork_postVote (straggler : Bool) : (s.postVote straggler).sansWork = s.sansWork := by
  have quiet : (if straggler then (false, s) else s.fires 0x0A02 0 0 : Bool × State).2.sansWork = s.sansWork := by
    split <;> simp
  simp [State.postVote, quiet]

omit s in
/-- Stated for any watches: the kernel is not asked to compare those of a state with what is written to them. -/
theorem sansTraffic_watch (h : Hst) (l : Sparse Word64) : { h with watch := l }.sansTraffic = h.sansTraffic := rfl

theorem sansWork_watchFire (k : Nat) : (s.watchFire k).sansWork = s.sansWork := by
  unfold State.watchFire
  dsimp only
  split
  · exact (sansWork_msix _ _).trans (sansWork_onHst s fun _ => sansTraffic_watch _ _)
  · rfl

@[simp] theorem sansWork_watchAll (n : Nat) : (s.watchAll n).sansWork = s.sansWork :=
  foldl_proj State.sansWork (fun u kw => by simp [sansWork_watchFire]) _ s

@[simp] theorem sansWork_scFlags (n : Nat) (old new : Counter) (src : Nat) : (s.scFlags n old new src).sansWork = s.sansWork := by
  simp [State.scFlags]

@[simp] theorem sansWork_scOp (n : Nat) (op : ScOp) (v : Word32) (src : ScSource) : (s.scOp n op v src).sansWork = s.sansWork := by
  unfold State.scOp
  cases op <;> simp [State.setCounter, State.voteCheck]

@[simp] theorem sansWork_restoreCounters : s.restoreCounters.sansWork = s.sansWork :=
  (foldl_proj State.sansWork sansWork_watchAll _ _).trans
    (foldl_proj State.sansWork (fun u n => by simp [State.restoreOne, State.setCounter]) _ s)

/-! ### Completion and replay (R157, R158, R186, R187) -/

@[simp] theorem sansWork_writeRecord (a : Nat) (d : List Byte) : (s.writeRecord a d).sansWork = s.sansWork := by
  unfold State.writeRecord
  split <;> simp

@[simp] theorem sansWork_queueError (q : Nat) : (s.queueError q).sansWork = s.sansWork := by simp [State.queueError, apply_ite Streams.hostLost]

@[simp] theorem sansWork_releaseStop (q : Nat) : (s.releaseStop q).sansWork = s.sansWork := by
  unfold State.releaseStop
  split <;> rfl

@[simp] theorem sansWork_completeItem (q : Nat) (i : Item) (status : Word16) (outcome rows : Nat) :
    (s.completeItem q i status outcome rows).sansWork = s.sansWork := by
  unfold State.completeItem
  cases i.tally <;> simp [State.addTally, State.setScaleRec, State.markHost, State.onItem, State.pop, State.tryDisable]

@[simp] theorem sansWork_dropRun (q : Nat) (seq : Word32) : (s.dropRun q seq).sansWork = s.sansWork := by
  unfold State.dropRun
  by_cases h : q < 64 <;> cases s.ptile q <;> simp [h, State.markIdle, State.onTileRegs, State.onTileWork, sansWork_setCtx]

@[simp] theorem sansWork_abortRunning (q : Nat) (i : Item) : (s.abortRunning q i).sansWork = s.sansWork := by
  unfold State.abortRunning
  cases s.ptile q <;> simp [State.finish, State.onItem, State.cancelWrites, State.poisonBanks, State.onTileRegs]

@[simp] theorem sansWork_landWrites (q : Nat) (seq : Word32) : (s.landWrites q seq).sansWork = s.sansWork := by
  unfold State.landWrites
  refine (sansWork_onComp _ _).trans (foldl_proj State.sansWork (fun u k => foldl_proj State.sansWork (fun v y => ?_) _ u) _ s)
  dsimp only
  split
  · split <;> simp [State.readLocal]
  · rfl

theorem sansWork_abortStep (q : Nat) : (s.abortStep q).sansWork = s.sansWork := by
  unfold State.abortStep State.abortItems
  refine foldl_proj State.sansWork (fun u i => ?_) _ s
  split
  · split <;> simp
  · rfl

theorem sansWork_jnlPiece (pos n : Nat) : (s.jnlPiece pos n).2.sansWork = s.sansWork := by
  unfold State.jnlPiece
  split
  · rfl
  · dsimp only
    split
    · simp
    · split
      · simp
      · split <;> simp

theorem sansWork_replayQueue (q : Nat) : (s.replayQueue q).sansWork = s.sansWork := by
  have read (u : State) (e : JnlEntry) : (u.jnlRead e).2.sansWork = u.sansWork := by
    simp [State.jnlRead, apply_ite Prod.snd, sansWork_jnlPiece]
  have items : (s.replayItems q).2.sansWork = s.sansWork := by
    refine foldl_proj (fun a : List Item × State => a.2.sansWork) (fun a e => ?_) _ _
    dsimp only
    split
    · rfl
    · split <;> simp [read]
  simp [State.replayQueue, items]

@[simp] theorem sansWork_restartStreams (group : Bool) : (s.restartStreams group).sansWork = s.sansWork := by
  have requested (l : List Nat) (u : State) : (l.foldl State.requestWeights u).sansWork = u.sansWork :=
    foldl_proj State.sansWork (fun v w => foldl_proj State.sansWork (fun x _ => sansWork_sendControl x _ _ _) _ v) l u
  simp [State.restartStreams, requested]

@[simp] theorem sansWork_replayStep (cause : Nat) : (s.replayStep cause).sansWork = s.sansWork := by
  have aborted (l : List Nat) (u : State) : (l.foldl State.abortStep u).sansWork = u.sansWork :=
    foldl_proj State.sansWork sansWork_abortStep l u
  have replayed (l : List Nat) (u : State) : (l.foldl State.replayQueue u).sansWork = u.sansWork :=
    foldl_proj State.sansWork sansWork_replayQueue l u
  simp [State.replayStep, State.clearCounts, aborted, replayed]

end

end Sys2Proof.Machine
end

section
/-! The PCIe link without injections (R314, R315, R318 to R320): link down and up, the resets, the power states, flush reads. -/

namespace Sys2Proof.Machine

open Sys2Proof.Laws

/-! ### What the events leave of the registers of the link -/

section
variable (s : State)

theorem sansWork_abortWhere (q : Nat) (p : Item → Bool) : (s.abortWhere q p).sansWork = s.sansWork :=
  foldl_proj State.sansWork (fun u i => by simp) _ s

theorem sansWork_dropRing (q : Nat) : (s.dropRing q).sansWork = s.sansWork := by simp [State.dropRing, sansWork_abortWhere]

/-- The outstanding copies are aborted; then HOST_LOST is raised, and what was under way to the host is dropped. -/
def State.copiesAborted (s : State) : State := (List.range 76).foldl (fun s q => s.abortWhere q fun i => isHostCopy i.desc) s
def State.hostDropped (s : State) (layers : Nat) : State :=
  ((s.onStreams fun t => { t with hostLost := true, jnlFail := if bitsOf t.jnlFail.toNat 60 4 = 4 then 0 else t.jnlFail }).onJob
    fun j => { j with finalGiven := false, switched := layers }).onHst fun h => { h with
      wlog := [], wait := [], flushOut := false, lastAddr := none, replaceList := true, downSince := 0 }

theorem hostReset_eq : s.hostReset =
    let u := s.copiesAborted.hostDropped s.hostLayers
    let t := (List.range 76).foldl State.dropRing
      (u.report 0x0501 .warn 0x0C 0 (leBytes 4 u.stepNo ++ leBytes 2 s.hostCopies ++ leBytes 2 s.hostLayers))
    if t.jobRuns then t.replayStep 2 else t := rfl

/-- A host reset raises HOST_LOST, drops the flush read and ends a link down; the other registers of the link stay (R320). -/
theorem sansWork_hostReset : s.hostReset.sansWork = (s.hostDropped 0).sansWork := by
  have aborted : s.copiesAborted.sansWork = s.sansWork := foldl_proj State.sansWork (fun u q => sansWork_abortWhere u q _) _ s
  have dropped (l : List Nat) (u : State) : (l.foldl State.dropRing u).sansWork = u.sansWork :=
    foldl_proj State.sansWork sansWork_dropRing l u
  have replayed (u : State) : (if u.jobRuns then u.replayStep 2 else u).sansWork = u.sansWork := by simp
  have raised (u : State) (layers : Nat) (h : u.sansWork = s.sansWork) : (u.hostDropped layers).sansWork = (s.hostDropped 0).sansWork := by
    have masked := congrArg (fun x : State => (x.hostDropped 0).sansWork) h
    exact masked
  rw [hostReset_eq, replayed, dropped, sansWork_report, raised _ _ aborted]

theorem sansWork_linkRecord (n : Nat) : (s.linkRecord n).sansWork = s.sansWork := by simp [State.linkRecord]

theorem sansWork_drainHostFrom (l : List Out) : (s.drainHostFrom l).sansWork = s.sansWork := by
  induction l generalizing s with
  | nil => exact sansWork_onHst s fun _ => rfl
  | cons o l ih => simp [State.drainHostFrom, ih]

theorem sansWork_hostResume : s.hostResume.sansWork = s.sansWork :=
  (foldl_proj State.sansWork sansWork_fetch _ _).trans (sansWork_drainHostFrom s _)

/-- A logged write is issued again (R318). -/
def State.rewriteOne (s : State) (w : HostWrite) : State :=
  match w.msix with
  | some v => s.emit (.msix v)
  | none => (s.onHst fun h => { h with mem := Memory.write h.mem w.addr w.data }).emit (.hostWrite w.relaxed w.addr w.data)

/-- The link is in L0 with n rewritten writes counted; the outstanding flush read, which covers them, is issued again. -/
def State.rewriteDone (s : State) (n : Nat) : State := s.onHst fun h => { h with
  link := .l0, replayed := addW h.replayed n, wlog := if h.flushOut then h.wlog.map (fun w => { w with covered := true }) else h.wlog }
def State.flushReissued (s : State) : State :=
  match s.hst.flushOut, s.hst.lastAddr with
  | true, some a => s.emit (.hostRead a 4)
  | _, _ => s

theorem linkRewrite_eq : s.linkRewrite =
    let n := s.hst.wlog.length
    ((((s.hst.wlog.foldl State.rewriteOne s).rewriteDone n).flushReissued.linkRecord n).onHst fun h => { h with downSince := 0 }).hostResume :=
  rfl

theorem sansWork_flushReissued : s.flushReissued.sansWork = s.sansWork := by
  unfold State.flushReissued
  split <;> rfl

/-- The rewrite counts every logged write, ends the link down and leaves the link in L0 (R318). -/
theorem sansWork_linkRewrite : s.linkRewrite.sansWork = (s.onHst fun h => { h with
    link := .l0, replayed := addW h.replayed s.hst.wlog.length, downSince := 0 }).sansWork := by
  have rewritten : (s.hst.wlog.foldl State.rewriteOne s).sansWork = s.sansWork :=
    foldl_proj State.sansWork (fun u w => by unfold State.rewriteOne; split <;> simp) _ s
  have recorded (u : State) (n : Nat) : ((u.rewriteDone n).flushReissued.linkRecord n).sansWork = (u.rewriteDone n).sansWork :=
    (sansWork_linkRecord _ n).trans (sansWork_flushReissued _)
  have ended {t u : State} (h : t.sansWork = u.sansWork) :
      (t.onHst fun h => { h with downSince := 0 }).sansWork = (u.onHst fun h => { h with downSince := 0 }).sansWork := by
    have masked := congrArg (fun x : State => (x.onHst fun h => { h with downSince := 0 }).sansWork) h
    exact masked
  have counted (n : Nat) {u : State} (h : u.sansWork = s.sansWork) : (u.rewriteDone n).sansWork = (s.rewriteDone n).sansWork := by
    have masked := congrArg (fun x : State => (x.rewriteDone n).sansWork) h
    exact masked
  rw [linkRewrite_eq, sansWork_hostResume, ended ((recorded _ _).trans (counted _ rewritten))]
  rfl

end

/-! ### Link down and up (R318, R319) -/

/-- The registers of a link that has gone down. -/
def State.linkGone (s : State) : State := s.onHst fun h => { h with
  link := .down, gen := 0, width := 0, linkDowns := inc h.linkDowns, downSince := s.now + 1 }

theorem linkDown_eq (s : State) :
    s.linkDown = if s.linkGone.hst.wlogSize = 0 then (s.linkGone.linkRecord 0).hostReset else s.linkGone := rfl

theorem hostReset_keeps (s : State) : s.hostReset.hst.link = s.hst.link ∧ s.hostReset.hst.linkDowns = s.hst.linkDowns ∧
    s.hostReset.hst.bme = s.hst.bme := by
  have link := field_of_sansWork (sansWork_hostReset s) fun x => x.hst.link
  have downs := field_of_sansWork (sansWork_hostReset s) fun x => x.hst.linkDowns
  have bme := field_of_sansWork (sansWork_hostReset s) fun x => x.hst.bme
  exact ⟨link, downs, bme⟩

theorem hostLost_hostReset (s : State) : s.hostReset.streams.hostLost = true := by
  have reset := field_of_sansWork (sansWork_hostReset s) fun x => x.streams.hostLost
  exact reset

/-- A link down takes the link down and counts it; without a log it is a host reset too. -/
theorem linkDown_hst (s : State) : s.linkDown.hst.link = .down ∧ s.linkDown.hst.linkDowns = s.hst.linkDowns + 1 := by
  have recorded := sansWork_linkRecord s.linkGone 0
  rw [linkDown_eq]
  split
  · obtain ⟨link, downs, -⟩ := hostReset_keeps (s.linkGone.linkRecord 0)
    rw [link, downs, field_of_sansWork recorded fun x => x.hst.link, field_of_sansWork recorded fun x => x.hst.linkDowns]
    exact ⟨rfl, rfl⟩
  · exact ⟨rfl, rfl⟩

section
variable {s : State} {gen width : Nat} (hm : s.boot.mainOn = true) (hl : s.hst.link = .down) (h4 : 4 ≤ gen) (h6 : gen ≤ 6)
  (hw : width = 4 ∨ width = 8 ∨ width = 16)
include hm hl h4 h6 hw

theorem exec_pcieLinkUp : exec (.pcieLinkUp gen width) s = .next (s.onHst fun h => { h with gen := gen, width := width }).linkBack := by
  have can : (decide (4 ≤ gen) && decide (gen ≤ 6) && (width == 4 || width == 8 || width == 16)) = true := by simpa [h4, h6, or_assoc] using hw
  exact congrArg Host.Outcome.next (if_pos ⟨hm, hl, can⟩)

end

/-- The link is in L0 again where no link down lasted (R318). -/
theorem linkBack_first {s : State} (h : s.hst.downSince = 0) :
    s.linkBack.sansWork = (s.onHst fun h => { h with link := .l0 }).sansWork := by
  unfold State.linkBack
  rw [if_pos h, sansWork_hostResume]

/-- After a link down it waits for Bus Master Enable, and rewrites then. -/
theorem linkBack_waits {s : State} (h : s.hst.downSince ≠ 0) (hb : s.hst.bme = false) :
    s.linkBack = s.onHst fun h => { h with link := .rewrite } := by
  unfold State.linkBack
  rw [if_neg h, if_neg (by simp [hb])]

theorem linkBack_rewrites {s : State} (h : s.hst.downSince ≠ 0) (hb : s.hst.bme = true) : s.linkBack = s.linkRewrite := by
  unfold State.linkBack
  rw [if_neg h, if_pos hb]

/-- The link that comes back keeps its speed and width; after a link down it waits for Bus Master Enable, or has rewritten the whole log. -/
theorem linkBack_hst (s : State) : s.linkBack.hst.gen = s.hst.gen ∧ s.linkBack.hst.width = s.hst.width ∧
    (s.hst.downSince = 0 → s.linkBack.hst.link = .l0) ∧
    (s.hst.downSince ≠ 0 → s.hst.bme = false → s.linkBack.hst.link = .rewrite) ∧
    (s.hst.downSince ≠ 0 → s.hst.bme = true → s.linkBack.hst.link = .l0 ∧ s.linkBack.hst.downSince = 0 ∧
      s.linkBack.hst.replayed = s.hst.replayed + BitVec.ofNat 64 s.hst.wlog.length) := by
  by_cases hd : s.hst.downSince = 0
  case pos =>
    have kept := linkBack_first hd
    have gen := field_of_sansWork kept fun x => x.hst.gen
    have width := field_of_sansWork kept fun x => x.hst.width
    have link := field_of_sansWork kept fun x => x.hst.link
    exact ⟨gen, width, fun _ => link, fun h => absurd hd h, fun h => absurd hd h⟩
  case neg =>
    cases hb : s.hst.bme with
    | false =>
      rw [linkBack_waits hd hb]
      exact ⟨rfl, rfl, fun h => absurd h hd, fun _ _ => rfl, nofun⟩
    | true =>
      rw [linkBack_rewrites hd hb]
      have kept := sansWork_linkRewrite s
      have gen := field_of_sansWork kept fun x => x.hst.gen
      have width := field_of_sansWork kept fun x => x.hst.width
      have link := field_of_sansWork kept fun x => x.hst.link
      have down := field_of_sansWork kept fun x => x.hst.downSince
      have replayed := field_of_sansWork kept fun x => x.hst.replayed
      exact ⟨gen, width, fun h => absurd h hd, nofun, fun _ _ => ⟨link, down, replayed⟩⟩

theorem exec_linkDownLimitExpiry {s : State} (hl : s.hst.link = .down) (hd : s.hst.downSince ≠ 0) :
    exec .linkDownLimitExpiry s = .next ((s.passTo (s.hst.downSince - 1 + s.downLimit)).linkRecord 0).hostReset :=
  if_neg (by simp [hl, hd])

/-! ### The resets and the power states (R315, R320) -/

theorem exec_hostReset {s : State} (hm : s.boot.mainOn = true) :
    exec .hostReset s = .next (s.functionReset.onHst fun h => { h with link := .down, gen := 0, width := 0 }).hostReset :=
  congrArg Host.Outcome.next (if_pos hm)

section
variable {s : State} (q : s.Quiet) (hl : s.linkUp = true)
include q hl

theorem exec_functionLevelReset : exec .functionLevelReset s = .next s.functionReset :=
  congrArg Host.Outcome.next ((if_pos hl).trans (by rw [q.tlp]))

theorem exec_d3hotEntry : exec .d3hotEntry s = .next s.toD3hot := congrArg Host.Outcome.next ((if_pos hl).trans (by rw [q.tlp]))

omit q in
theorem exec_pcieLinkDown : exec .pcieLinkDown s = .next s.linkDown := congrArg Host.Outcome.next (if_pos hl)

variable (hdr : Word64)

omit q hl in
theorem exec_configRequest (fn : Nat) (op : CfgOp) : exec (.configRequest hdr fn op) s = execConfigRequest hdr fn op s := rfl

/-- A configuration request of another function is refused (Table 11-7 row 3). -/
theorem exec_configRequest_other {fn : Nat} (hf : fn ≠ 0) (op : CfgOp) :
    exec (.configRequest hdr fn op) s = .next (s.unsupported.hostViol 3 hdr) := by
  rw [exec_configRequest]
  simp [execConfigRequest, hl, q.tlp, hf]

theorem exec_configRequest_busMaster : exec (.configRequest hdr 0 (.busMaster true)) s =
    .next (if s.hst.link = .rewrite then (s.onHst fun h => { h with bme := true }).linkRewrite
      else (s.onHst fun h => { h with bme := true }).hostResume) := by
  rw [exec_configRequest]
  simp [execConfigRequest, hl, q.tlp]

theorem exec_configRequest_msixEnable (on : Bool) :
    exec (.configRequest hdr 0 (.msixEnable on)) s = .next (s.onHst fun h => { h with msixEn := on }) := by
  rw [exec_configRequest]
  simp [execConfigRequest, hl, q.tlp]

theorem exec_configRequest_power : exec (.configRequest hdr 0 (.power true)) s = .next s.toD3hot := by
  rw [exec_configRequest]
  simp [execConfigRequest, hl, q.tlp]

theorem exec_configRequest_read (n : Nat) : exec (.configRequest hdr 0 (.read n)) s =
    .next (s.emit (.completion false (leBytes 4 (s.configDword n).toNat))) := by
  rw [exec_configRequest]
  simp [execConfigRequest, hl, q.tlp]

end

theorem bme_hostResume (s : State) : s.hostResume.hst.bme = s.hst.bme := field_of_sansWork (sansWork_hostResume s) fun x => x.hst.bme

theorem bme_linkRewrite (s : State) : s.linkRewrite.hst.bme = s.hst.bme := by
  have rewritten := field_of_sansWork (sansWork_linkRewrite s) fun x => x.hst.bme
  exact rewritten

/-- A violation by the host leaves Bus Master Enable. -/
theorem bme_hostViol (s : State) (row : Nat) (hdr : Word64) : (s.hostViol row hdr).hst.bme = s.hst.bme := by
  simpa [State.sansReports] using congrArg (fun x : State => x.hst.bme) (onlyReports_hostViol s row hdr).rest

/-! ### Flush reads (R314) -/

theorem exec_flushReadIssue {s : State} {a : Nat} (ha : s.hst.lastAddr = some a) (hf : s.hst.flushOut = false) (ho : s.hostOpen = true) :
    exec .flushReadIssue s = .next ((if s.hostFence ∨ s.logHalf then s else s.passTo (s.hst.flushTick + s.flushPeriod)).flushIssue a) := by
  show execFlushReadIssue s = _
  unfold execFlushReadIssue
  rw [ha]
  exact if_neg (by simp [hf, ho])

/-- The flush read that is issued covers the whole log. -/
theorem covered_flushIssue (s : State) (a : Nat) : ∀ w ∈ (s.flushIssue a).hst.wlog, w.covered = true := by
  intro w hw
  obtain ⟨x, -, rfl⟩ := List.mem_map.1 hw
  rfl

theorem exec_flushReadComplete {s : State} (hf : s.hst.flushOut = true) (hm : s.boot.mainOn = true) (hl : s.hst.link = .l0) :
    exec .flushReadComplete s = .next s.flushDone := congrArg Host.Outcome.next (if_pos ⟨hf, hm, hl⟩)

/-- With nothing that waits the completion acknowledges the covered writes and no more. -/
theorem flushDone_of_no_wait {s : State} (h : s.hst.wait = []) :
    s.flushDone = s.onHst fun h => { h with flushOut := false, wlog := h.wlog.filter fun w => !w.covered, wait := [] } := by
  unfold State.flushDone State.drainHost
  rw [show (s.onHst fun h => { h with flushOut := false, wlog := h.wlog.filter fun w => !w.covered }).hst.wait = [] from h]
  rfl

end Sys2Proof.Machine
end

section
/-! The derivation of the scales (R121 to R123): the record of a tensor that counted, and what awaits the derivation. -/

namespace Sys2Proof.Machine

open Sys2Proof.Laws

section
variable (s : State)

theorem scales_report (code : Nat) (sev : Severity) (kind index : Nat) (p : List Byte) :
    (s.report code sev kind index p).scales = s.scales := (notices_report s code sev kind index p).field State.scales

/-! ### One record -/

section
variable (b : Boundary) (i : Nat) (r : ScaleRec)

/-- The steps that record i has spent in FALLEN, with the step that ended (Table 04-9). -/
def State.spentFallen : Nat := Sparse.get 0 s.scales.fallenSteps i + (if recState r = 3 then 1 else 0)

/-- The events of the derivation of record i, reported before anything is written. -/
def State.deriveEvents : State :=
  let row := rowFor b i r
  let t := transition row r
  let lay := leBytes 2 i ++ leBytes 2 (recLayer r)
  let s' := if row = .fall then s.report 0x0401 .note 0x12 i (lay ++ leBytes 4 (recSat r) ++ leBytes 4 (recBlocks r)) else s
  let s' := if t.2 then s'.report 0x0403 .info 0x12 i (lay ++ leBytes 4 (s.spentFallen i r)) else s'
  if row = .saturated ∧ recExtra r < recExtra t.1 then
    s'.report 0x0404 .info 0x12 i (lay ++ leBytes 1 (recExtra t.1) ++ leBytes 3 0 ++ leBytes 4 (recSat r)) else s'

theorem scales_deriveEvents : (s.deriveEvents b i r).scales = s.scales := by
  simp [State.deriveEvents, apply_ite State.scales, scales_report]

/-- What the derivation of record i counts besides the record: its steps in FALLEN, and whether the layer probes. -/
def State.deriveCounts : State :=
  let row := rowFor b i r
  (s.deriveEvents b i r).onScales fun c => { c with
    fallenSteps := Sparse.put 0 c.fallenSteps i (if recState (transition row r).1 = 3 ∧ row ≠ .fall then s.spentFallen i r else 0)
    probed := c.probed || row == .probe }

theorem deriveRec_eq : s.deriveRec b i r =
    let u := s.deriveCounts b i r
    u.setScaleRec i { deriveTop r (transition (rowFor b i r) r).1 with w2 := (u.scaleRec i).w2, w3 := (u.scaleRec i).w3 } := rfl

theorem scaleRec_deriveCounts (k : Nat) : (s.deriveCounts b i r).scaleRec k = s.scaleRec k := by
  simp [State.scaleRec, State.deriveCounts, State.onScales, scales_deriveEvents]

/-- The derived record takes its transition and its window; what the next step has counted stays. -/
theorem scaleRec_deriveRec : (s.deriveRec b i r).scaleRec i =
    { deriveTop r (transition (rowFor b i r) r).1 with w2 := (s.scaleRec i).w2, w3 := (s.scaleRec i).w3 } := by
  rw [deriveRec_eq, scaleRec_setScaleRec_same, scaleRec_deriveCounts]

theorem applying_deriveRec : (s.deriveRec b i r).scales.applying = s.scales.applying := by
  have kept := congrArg Scales.applying (scales_deriveEvents s b i r)
  exact kept

end

/-! ### The whole derivation -/

theorem exec_scaleDerive (h : s.cpReady = true) : exec .scaleDerive s = .next s.derive := congrArg Host.Outcome.next (if_pos h)

/-- The event of a broad saturation (0x0402), and the probe of the step before ended. -/
def State.deriveStart (n : Word32) : State :=
  let b := s.boundary
  (if b.broad then s.report 0x0402 .note 0 0 (leBytes 4 n.toNat ++ leBytes 2 b.asking.length ++ leBytes 2 b.layers.length)
    else s).onScales fun c => { c with probed := false }

theorem scales_deriveStart (n : Word32) : (s.deriveStart n).scales = { s.scales with probed := false } := by
  simp [State.deriveStart, State.onScales, apply_ite State.scales, scales_report]

theorem scaleRec_deriveStart (n : Word32) (k : Nat) : (s.deriveStart n).scaleRec k = s.scaleRec k := by
  simp [State.scaleRec, scales_deriveStart]

theorem applying_deriveStart (n : Word32) : (s.deriveStart n).scales.applying = s.scales.applying := by
  rw [scales_deriveStart]

/-- A write to a record leaves what the derivation awaits. -/
theorem awaits_setScaleRec (i : Nat) (r : ScaleRec) :
    ((s.setScaleRec i r).scales.due, (s.setScaleRec i r).scales.ended) = (s.scales.due, s.scales.ended) := rfl

theorem awaits_putScaleWrites (ws : List (Nat × ScaleRec)) :
    ((s.putScaleWrites ws).scales.due, (s.putScaleWrites ws).scales.ended) = (s.scales.due, s.scales.ended) :=
  foldl_proj (fun x : State => (x.scales.due, x.scales.ended)) (fun u _ => awaits_setScaleRec u _ _) ws s

/-- The step that ended has been derived; its writes follow. -/
def State.derived : State := (s.onScales fun c => { c with due := none, ended := [] }).applyDerived

theorem awaits_derived : (s.derived.scales.due, s.derived.scales.ended) = (none, []) := awaits_putScaleWrites _ _

theorem scaleRec_derived (h : s.scales.applying = []) (k : Nat) : s.derived.scaleRec k = s.scaleRec k := by
  unfold State.derived State.applyDerived
  rw [show (s.onScales fun c => { c with due := none, ended := [] }).scales.applying = [] from h]
  rfl

variable {s} {n : Word32} (due : s.scales.due = some n)
include due

theorem derive_eq : s.derive = (s.endedRecs.foldl (fun u k => u.deriveRec s.boundary k.1 k.2) (s.deriveStart n)).derived := by
  unfold State.derive
  rw [due]
  rfl

/-- Nothing awaits a derivation any more. -/
theorem awaits_derive : s.derive.scales.due = none ∧ s.derive.scales.ended = [] := by
  rw [derive_eq due]
  exact Prod.mk.inj (awaits_derived _)

/-- Where one record counted, and no write waits, the derivation of the step is that of the record. -/
theorem scaleRec_derive {k : Nat} {e : ScaleRec} (ended : s.scales.ended = [(k, e)]) (applying : s.scales.applying = []) :
    s.derive.scaleRec k =
      { deriveTop (s.endedRec k) (transition (rowFor s.boundary k (s.endedRec k)) (s.endedRec k)).1 with
        w2 := (s.scaleRec k).w2, w3 := (s.scaleRec k).w3 } := by
  have recs : s.endedRecs = [(k, s.endedRec k)] := by simp [State.endedRecs, ended]
  have none_waits : ((s.deriveStart n).deriveRec s.boundary k (s.endedRec k)).scales.applying = [] := by
    rw [applying_deriveRec, applying_deriveStart, applying]
  rw [derive_eq due, recs, List.foldl_cons, List.foldl_nil, scaleRec_derived _ none_waits, scaleRec_deriveRec, scaleRec_deriveStart]

end

end Sys2Proof.Machine
end

section
/-! The statements on the number formats, the reads and writes of configuration, and the PCIe link. -/

namespace Sys2Proof.Proofs

open Sys2Proof.Machine Sys2Proof.Laws

/-- Settles O10: the lanes that each instruction writes are its blocks of 32, one after another. -/
theorem jviQuantisers : Obligations.JviQuantisers := by
  intro s c w
  have whole := vlen_blocks s c
  have length {f : Nat → List Word32} (hf : ∀ b, (f b).length = 32) :
      ((List.range (s.vlen c / 32)).flatMap f).length = s.vlen c := (length_flatMap_blocks fun b _ => hf b).trans whole
  have lane {f : Nat → List Word32} (hf : ∀ b, (f b).length = 32) (i : Nat) (hi : i < s.vlen c) :
      ((List.range (s.vlen c / 32)).flatMap f).getD i 0 = (f (i / 32)).getD (i % 32) 0 :=
    getD_flatMap_blocks (fun b _ => hf b) (by omega)
  refine ⟨fun h hok hr => ?vquant, fun h hb => jvi_bad h (jVquant_bad _ _ hb), fun h hok hr => ?vefq, fun h hb => jvi_bad h (jVefq_bad _ _ hb)⟩
  case vquant =>
    obtain ⟨hat, hend⟩ := h
    have sized (b : Nat) := length_vquantBlock (s.jenv c) w (s.ctx c) b
    have sizedLanes (b : Nat) := length_quantLanes (sized b)
    exact ⟨_, jvi_next_marked hat (jVquant_ok _ _ hok hr), wroteV_putV_marked _ hat.1 hend (length sizedLanes) fun i hi =>
      (lane sizedLanes i hi).trans (getD_quantLanes (sized _) (Nat.mod_lt i (by decide)))⟩
  case vefq =>
    obtain ⟨hat, hend⟩ := h
    have apart : jD w ≠ (jD w + 1) % 32 := by
      have : jD w < 32 := Nat.mod_lt _ (by decide)
      omega
    have sized (b : Nat) := length_vefqBlock (s.jenv c) w (s.ctx c) b
    have sizedLanes (b : Nat) : (quantLanes (vefqBlock (s.jenv c) w (s.ctx c) b).1).length = 32 :=
      length_quantLanes (sized b).1
    have sizedResid (b : Nat) : ((vefqBlock (s.jenv c) w (s.ctx c) b).2.map (·.setWidth 32)).length = 32 :=
      (List.length_map _).trans (sized b).2
    obtain ⟨ctx, others, lanes⟩ := jput_putV_putV (w := w)
      ((List.range (s.vlen c / 32)).any fun b => (vefqBlock (s.jenv c) w (s.ctx c) b).1.nonfinite) apart hat.1 hend
      (length sizedLanes) (length sizedResid)
    refine ⟨_, jvi_next_marked hat (jVefq_ok _ _ hok hr), ctx, others, fun i hi => ?_⟩
    obtain ⟨value, resid⟩ := lanes i hi
    refine ⟨value.trans (if_congr Iff.rfl ?_ rfl), resid.trans (if_congr Iff.rfl ?_ rfl)⟩
    · exact (lane sizedLanes i hi).trans (getD_quantLanes (sized _).1 (Nat.mod_lt i (by decide)))
    · exact (lane sizedResid i hi).trans (List.getD_map _ (0 : Word16) (BitVec.setWidth 32))

/-- Settles O18: each clause is one branch of its command's effect. -/
theorem stavmonReads : Obligations.StavmonReads := by
  intro s r
  refine ⟨fun h => ⟨fun h1 h2 h3 => ?scales, fun hb => ?scalesBad⟩,
    fun h => ⟨fun hg hl => completes_of_done h rfl (updGroupReadCmd_ok hg hl), fun hb => completes_of_done h rfl (updGroupReadCmd_bad hb)⟩,
    fun h => ⟨fun hi => completes_of_done h rfl (secIdentityCmd_ok hi), fun hi => completes_of_done h rfl (secIdentityCmd_bad hi)⟩,
    fun h => ⟨fun h0 h1 h2 => completes_of_done h rfl (almReadCmd_ring r h0 h1 h2), fun hb => completes_of_done h rfl (almReadCmd_bad r hb)⟩⟩
  case scales => exact completes_of_done h rfl (cfgScaleReadCmd_ok (scaleRange_eq_true_iff.2 ⟨h1, h2, h3⟩))
  case scalesBad =>
    have outside : scaleRange (s.payload r) = false := by rw [← Bool.not_eq_true, scaleRange_eq_true_iff]; omega
    exact completes_of_done h rfl (cfgScaleReadCmd_bad outside)

/-- Settles O25: each clause is one branch of its command's effect; an FDT connection that opens finds a port exactly where one that
the payload names is UP. -/
theorem configurationCommands : Obligations.ConfigurationCommands := by
  intro s r
  refine ⟨fun h => ⟨fun hb => completes_of_done h rfl (cfgMcbWriteCmd_bad r hb),
      fun hl hc hb => completes_of_done h rfl (cfgMcbWriteCmd_busy r hl hc hb), fun hl hc hw hn => ⟨fun hf => ?mcb, fun hf => ?mcbLater⟩⟩,
    fun h hb => completes_of_done h rfl (cfgScaleWriteCmd_bad hb),
    fun h hs hl => ⟨fun hj => ?scalesWait, fun hj => ?scalesNow⟩,
    fun h hi hd hg hg' ht ht' ha ha' => completes_of_done h rfl (cfgFdtPortCmd_ok hi hd ⟨hg, hg'⟩ ⟨ht, ht'⟩ ⟨ha, ha'⟩),
    fun h hk hm hp hp' => ⟨fun hb => completes_of_done h rfl (cfgFdtOpenCmd_busy r ⟨hk, hm, hp, hp'⟩ hb), fun hc => ?opens⟩,
    fun h => ⟨fun hk => completes_of_done h rfl (cfgFdtCloseCmd_bad hk),
      fun hk hc => completes_of_done h rfl (cfgFdtCloseCmd_closed hk hc), fun hk hc => ?closes, fun hk hc => ?closesLost⟩⟩
  case mcb => exact runsBefore_of_pending h rfl ((cfgMcbWriteCmd_ok r hl hc hw hn).trans (if_neg (by simp [hf])))
  case mcbLater => exact runsBefore_of_pending h rfl ((cfgMcbWriteCmd_ok r hl hc hw hn).trans (if_pos hf))
  case scalesWait =>
    exact completes_of_done h rfl ((cfgScaleWriteCmd_ok hs hl).trans (congrArg (CmdResult.done stOk []) (if_pos hj)))
  case scalesNow =>
    exact completes_of_done h rfl ((cfgScaleWriteCmd_ok hs hl).trans (congrArg (CmdResult.done stOk []) (if_neg (by simp [hj]))))
  case opens =>
    obtain ⟨mtu, hcmd⟩ := cfgFdtOpenCmd_opens r ⟨hk, hm, hp, hp'⟩ hc
    have noPort := pickPort_fdtOpening_isNone_iff s r (s.payload r) mtu
    refine ⟨fun ⟨i, hi, hbit, hup⟩ => ?_, fun hdown => ?_⟩
    · have running : s.RunsOn (.cfgFdtOpen r) r _ := runsOn_of_running h rfl (hcmd.trans (if_neg fun hn => noPort.1 hn i hi hbit hup))
      obtain ⟨hids, p, tick, hconn⟩ := conn_fdtSend (s.fdtOpening r (s.payload r) mtu) (le (s.payload r) 0 1) ftOpen 0 0 0 0 [] []
      refine ⟨_, running, by rw [mbox_setMbox_same], ?_⟩
      unfold State.conn at hconn ⊢
      rw [eth_setMbox, hconn, hids, ← State.conn, conn_fdtOpening]
      exact ⟨rfl, rfl, rfl, rfl, rfl⟩
    · exact ⟨_, completes_of_done h rfl (hcmd.trans (if_pos (noPort.2 hdown))), state_connStop _ _ _⟩
  case closes =>
    have live : (s.conn (le (s.payload r) 0 1)).state ≠ .closed ∧ (s.conn (le (s.payload r) 0 1)).state ≠ .lost := by
      rcases hc with hc | hc <;> simp [hc]
    exact completes_of_done h rfl ((cfgFdtCloseCmd_ok hk live.1).trans (by rw [if_neg live.2]))
  case closesLost =>
    exact completes_of_done h rfl ((cfgFdtCloseCmd_ok hk (by simp [hc])).trans (by rw [if_pos hc]))

/-- Settles O58: each event is one effect on the registers of the link, which the copies, the records and the replay that follow it
leave as they are; the derivation writes the record last. -/
theorem hostEvents : Obligations.HostEvents := by
  intro s hdr q
  refine ⟨fun hl => ⟨⟨_, exec_pcieLinkDown hl, linkDown_hst s⟩,
      ⟨_, exec_functionLevelReset q hl, rfl, rfl, rfl, rfl, rfl, rfl⟩, ⟨_, exec_d3hotEntry q hl, rfl, rfl, rfl⟩,
      ⟨_, exec_configRequest_busMaster q hl hdr, ?master⟩, fun on => ⟨_, exec_configRequest_msixEnable q hl hdr on, rfl⟩,
      ⟨_, exec_configRequest_power q hl hdr, rfl⟩, exec_configRequest_read q hl hdr,
      fun fn op hf => ⟨_, exec_configRequest_other q hl hdr hf op, hostViol_viol _ _ _, bme_hostViol _ _ _⟩⟩,
    fun gen width hm hd h4 h6 hw => ⟨_, exec_pcieLinkUp hm hd h4 h6 hw, ?up⟩,
    fun hd hs => ⟨_, exec_linkDownLimitExpiry hd hs, hostLost_hostReset _⟩,
    fun hm => ⟨_, exec_hostReset hm, hostLost_hostReset _, ?reset⟩,
    fun a ha hf ho => ⟨_, exec_flushReadIssue ha hf ho, rfl, rfl, covered_flushIssue _ a⟩,
    fun hf hm hl hn => ⟨_, exec_flushReadComplete hf hm hl, ?flushed⟩,
    fun n hn hc => ⟨_, exec_scaleDerive s hc, (awaits_derive hn).1, (awaits_derive hn).2, fun k e => scaleRec_derive hn⟩⟩
  case master =>
    split
    · exact bme_linkRewrite _
    · exact bme_hostResume _
  case up => exact linkBack_hst (s.onHst fun h => { h with gen := gen, width := width })
  case reset =>
    obtain ⟨link, -, bme⟩ := hostReset_keeps (s.functionReset.onHst fun h => { h with link := .down, gen := 0, width := 0 })
    exact ⟨link, bme⟩
  case flushed =>
    rw [flushDone_of_no_wait hn]
    exact ⟨rfl, rfl⟩

end Sys2Proof.Proofs
end

section
/-! Instructions that apply one function to every lane of a register (R189, R190), and the functions and derivatives among them. -/

namespace Sys2Proof.Machine

open Sys2Proof.Laws

/-- Lane i of what a function makes of a register. -/
theorem getD_map_getV (x : JviCtx) {n : Nat} (r : Nat) (g : Word32 → Word32) {i : Nat} (hi : i < n) :
    ((x.getV n r).map g).getD i 0 = g (x.lane n r i) := by
  have inside : i < (x.getV n r).length := by rwa [length_getV]
  rw [JviCtx.lane, List.getD_eq_getElem _ _ inside, List.getD_eq_getElem _ _ (by rwa [List.length_map]), List.getElem_map]

/-- One step of an instruction that writes v[D] := g v[A] lane by lane. -/
theorem jvi_writes_unary {s : State} {c : Ctx} {w : Word64} {op : Nat} {f : JEnv → Word64 → JviCtx → JRes} {g : Word32 → Word32}
    (h : s.InKernel c w op) (hf : f (s.jenv c) w (s.ctx c).tick = jUnary g (s.vlen c) w (s.ctx c).tick) :
    ∃ t, s.jvi c op f = .next t ∧ s.WroteV t c w (jD w) fun i => g ((s.ctx c).lane (s.vlen c) (jA w) i) := by
  obtain ⟨hat, hend⟩ := h
  have length : (((s.ctx c).getV (s.vlen c) (jA w)).map g).length = s.vlen c := (List.length_map _).trans (length_getV _ _ _)
  exact ⟨_, jvi_next hat hf, wroteV_putV hat.1 hend length fun i hi => getD_map_getV _ _ g hi⟩

section
variable (v : JEnv) {w : Word64} (x : JviCtx)

/-! FN 9 to 15 of DERIV and DCODE are refused (R137). -/

theorem jVderiv_ok (h : jImm w % 16 < 9) : jVderiv v w x = jUnary (deriv (jImm w % 16)) v.vlen w x := if_neg (by omega)
theorem jVderiv_bad (h : 9 ≤ jImm w % 16) : jVderiv v w x = .bad := if_pos h

theorem jVdcode_ok (h : jImm w % 16 < 9) :
    jVdcode v w x = jUnary (fun a => BitVec.ofNat 32 (dcode (jImm w % 16) a)) v.vlen w x := if_neg (by omega)
theorem jVdcode_bad (h : 9 ≤ jImm w % 16) : jVdcode v w x = .bad := if_pos h

end

end Sys2Proof.Machine
end

section
/-! The statement on the functions, conversions and derivatives of JVI. -/

namespace Sys2Proof.Proofs

open Sys2Proof.Machine Sys2Proof.Laws

/-- Settles O4: each instruction applies one function to the lanes of v[A]; DERIV and DCODE do so for the functions that R137 allows. -/
theorem jviFunctionLanes : Obligations.JviFunctionLanes := by
  intro s c w
  refine ⟨?functions,
    fun h => ⟨fun hfn => jvi_writes_unary h (jVderiv_ok _ _ hfn), fun hfn => jvi_bad h.1 (jVderiv_bad _ _ hfn)⟩,
    fun h => ⟨fun hfn => jvi_writes_unary h (jVdcode_ok _ _ hfn), fun hfn => jvi_bad h.1 (jVdcode_bad _ _ hfn)⟩⟩
  case functions =>
    simp only [fnOps, List.forall_mem_cons]
    exact ⟨fun h => jvi_writes_unary (f := jVexp2) h rfl,
      fun h => jvi_writes_unary (f := jVsqrt) h rfl,
      fun h => jvi_writes_unary (f := jVrecip) h rfl,
      fun h => jvi_writes_unary (f := jVrsqrt) h rfl,
      fun h => jvi_writes_unary (f := jVlog2) h rfl,
      fun h => jvi_writes_unary (f := jVdq) h rfl,
      fun h => jvi_writes_unary (f := jVrb16) h rfl, List.forall_mem_nil _⟩

end Sys2Proof.Proofs
end

section
/-! Registers as lists over the lane numbers (R188, R189), and the instructions that write v[D] lane by lane: what each computes is stated
once, and a step of any of them writes its lanes or, past the last instruction, ends the VECTOR (R190). -/

namespace Sys2Proof.Machine

open Sys2Proof.Laws

/-! ### Registers, lane by lane -/

theorem list_eq_map_getD {α : Type} {l : List α} {n : Nat} (d : α) (h : l.length = n) : l = (List.range n).map fun i => l.getD i d := by
  subst h
  exact List.ext_getElem (by simp) fun i h1 _ => by simp [h1]

theorem getD_map_range {α : Type} {n i : Nat} (f : Nat → α) (d : α) (h : i < n) : ((List.range n).map f).getD i d = f i := by simp [h]

theorem getV_eq_lanes (x : JviCtx) (n r : Nat) : x.getV n r = (List.range n).map (x.lane n r) := list_eq_map_getD 0 (length_getV x n r)
theorem getP_eq_planes (x : JviCtx) (n r : Nat) : x.getP n r = (List.range n).map (x.plane n r) := list_eq_map_getD false (length_getP x n r)
theorem act_eq_acts (x : JviCtx) (n : Nat) (w : Word64) : x.act n w = (List.range n).map (x.acts n w) := by
  rw [JviCtx.act, getP_eq_planes, List.map_map]
  rfl

theorem merge_map {α : Type} (l : List Nat) (p : Nat → Bool) (f g : Nat → α) :
    merge (l.map p) (l.map f) (l.map g) = l.map fun i => if p i then g i else f i := by
  rw [merge, List.zip_map', List.zip_map', List.map_map]
  rfl

theorem replicate_eq_map_range {α : Type} (n : Nat) (a : α) : List.replicate n a = (List.range n).map fun _ => a := by simp

/-- A list of lanes cut or filled up to a length. -/
theorem lanesOf_map_range {α : Type} (d : α) (n m : Nat) (f : Nat → α) :
    lanesOf d n ((List.range m).map f) = (List.range n).map fun i => if i < m then f i else d := by
  refine List.ext_getElem (by simp [length_lanesOf]) fun i h1 h2 => ?_
  simp only [lanesOf, List.getElem_append, List.getElem_map, List.getElem_range, List.getElem_take, List.getElem_replicate,
    List.length_take, List.length_map, List.length_range]
  simp only [List.length_map, List.length_range] at h2
  by_cases h : i < m
  · simp [h, h2]
  · simp [h, h2]

/-- A piece of a list over lane numbers. -/
theorem piece_map_range {α : Type} {n k b : Nat} (f : Nat → α) (h : k * b + k ≤ n) :
    (((List.range n).map f).drop (k * b)).take k = (List.range k).map fun j => f (k * b + j) :=
  List.ext_getElem (by simp; omega) fun j h1 h2 => by simp

theorem piecesOf_map_range {α : Type} {n k m : Nat} (f : Nat → α) (h : k * m ≤ n) :
    piecesOf k m ((List.range n).map f) = (List.range m).map fun b => (List.range k).map fun j => f (k * b + j) := by
  rw [piecesOf_eq]
  refine List.map_congr_left fun b hb => piece_map_range f ?_
  have : k * (b + 1) ≤ k * m := Nat.mul_le_mul_left k (List.mem_range.1 hb)
  rw [Nat.mul_succ] at this
  omega

/-- Blocks of k lanes one after another are the lanes in their order. -/
theorem flatMap_blocks {α : Type} {k : Nat} (hk : 0 < k) (m : Nat) (f : Nat → Nat → α) :
    ((List.range m).flatMap fun b => (List.range k).map (f b)) = (List.range (k * m)).map fun i => f (i / k) (i % k) := by
  induction m with
  | zero => rfl
  | succ m ih =>
    rw [List.range_succ, List.flatMap_append, List.flatMap_singleton, ih, Nat.mul_succ, List.range_add, List.map_append, List.map_map]
    refine congrArg _ (List.map_congr_left fun j hj => ?_)
    have hj : j < k := List.mem_range.1 hj
    simp only [Function.comp_apply, Nat.mul_add_mod, Nat.mod_eq_of_lt hj, Nat.mul_add_div hk, Nat.div_eq_of_lt hj, Nat.add_zero]

/-! ### Steps that write v[D], p[D] or s[D] -/

section
variable {s : State} {c : Ctx} {w : Word64} {op : Nat} {f : JEnv → Word64 → JviCtx → JRes}

/-- The step of an instruction that writes a value in each lane of v[D]. -/
theorem jvi_writes_lanes {val : Nat → Word32} (h : s.InKernel c w op)
    (hf : f (s.jenv c) w (s.ctx c).tick = jGo ((s.ctx c).tick.putV (s.vlen c) w (jD w) ((List.range (s.vlen c)).map val))) :
    ∃ t, s.jvi c op f = .next t ∧ s.WroteV t c w (jD w) val := by
  obtain ⟨hat, hend⟩ := h
  exact ⟨_, jvi_next hat hf, wroteV_putV hat.1 hend (by simp) fun _ hi => getD_map_range _ _ hi⟩

theorem jvi_writes_predicate {val : Nat → Bool} (h : s.InKernel c w op)
    (hf : f (s.jenv c) w (s.ctx c).tick = jGo ((s.ctx c).tick.putP (s.vlen c) w ((List.range (s.vlen c)).map val))) :
    ∃ t, s.jvi c op f = .next t ∧ s.WroteP t c w (jD w % 8) val := by
  obtain ⟨hat, hend⟩ := h
  exact ⟨_, jvi_next hat hf, wroteP_putP hat.1 hend (by simp) fun _ hi => getD_map_range _ _ hi⟩

theorem jvi_writes_scalar {v : Word64} (h : s.InKernel c w op)
    (hf : f (s.jenv c) w (s.ctx c).tick = jGo ((s.ctx c).tick.setS (jD w) v)) :
    ∃ t, s.jvi c op f = .next t ∧ s.WroteS t c (jD w) v := by
  obtain ⟨hat, hend⟩ := h
  exact ⟨_, jvi_next hat hf, wroteS_setS hat.1 hend⟩

/-- An instruction that goes on past the kernel's last one ends the VECTOR (R190). -/
theorem jvi_runs_past {y : JviCtx} (h : s.AtOp c w op) (hend : (s.ctx c).pc + 1 = (s.ctx c).code.length)
    (hf : f (s.jenv c) w (s.ctx c).tick = jGo y)
    (hy : y.pc = (s.ctx c).pc + 1 ∧ y.code = (s.ctx c).code ∧ y.queue = (s.ctx c).queue ∧ y.seq = (s.ctx c).seq) :
    s.jvi c op f = .next (s.refuseVector c) := by
  obtain ⟨hpc, hcode, hq, hseq⟩ := hy
  rw [jvi_next h hf, State.jput, if_neg (by rw [hpc, hcode]; omega), hq, hseq, State.refuseVector]

end

/-! ### Lane-wise instructions -/

/-- The command of a lane-wise form runs f, which writes the form's value in every lane of v[D]. -/
structure LaneOp.Computes (o : LaneOp) (f : JEnv → Word64 → JviCtx → JRes) : Prop where
  runs : ∀ c s, exec (o.cmd c) s = s.jvi c o.op f
  lanes : ∀ (v : JEnv) (w : Word64) (x : JviCtx), 32 ∣ v.vlen → f v w x.tick = jGo (x.tick.putV v.vlen w (jD w) ((List.range v.vlen).map (o.val v w x)))

section
variable {op : Nat} {cmd : Ctx → Instr} {f : JEnv → Word64 → JviCtx → JRes}

theorem computes_lane1 {g : Word64 → Word32 → Word32} (hr : ∀ c s, exec (cmd c) s = s.jvi c op f)
    (hf : ∀ v w x, f v w x = jUnary (g w) v.vlen w x) : (lane1 op cmd g).Computes f where
  runs := hr
  lanes v w x _ := by
    rw [hf, jUnary, getV_eq_lanes, List.map_map]
    rfl

theorem computes_lane2 {g : Word32 → Word32 → Word32} (hr : ∀ c s, exec (cmd c) s = s.jvi c op f)
    (hf : ∀ v w x, f v w x = jBinary g v.vlen w x) : (lane2 op cmd g).Computes f where
  runs := hr
  lanes v w x _ := by
    rw [hf, jBinary, getV_eq_lanes, getV_eq_lanes, List.zip_map', List.map_map]
    rfl

/-- An instruction whose lanes are one scalar. -/
theorem computes_splat {g : JEnv → Word64 → JviCtx → Word32} (hr : ∀ c s, exec (cmd c) s = s.jvi c op f)
    (hf : ∀ (v : JEnv) (w : Word64) (x : JviCtx), f v w x.tick = jGo (x.tick.putV v.vlen w (jD w) (List.replicate v.vlen (g v w x)))) :
    (⟨op, cmd, fun v w x _ => g v w x⟩ : LaneOp).Computes f where
  runs := hr
  lanes v w x _ := by rw [hf, replicate_eq_map_range]

end

theorem fpOps_compute : ∀ o ∈ fpOps, ∃ f, o.Computes f := by
  simp only [fpOps, List.forall_mem_cons]
  refine ⟨⟨jVadd, computes_lane2 (fun _ _ => rfl) fun _ _ _ => rfl⟩, ⟨jVsub, computes_lane2 (fun _ _ => rfl) fun _ _ _ => rfl⟩,
    ⟨jVmul, computes_lane2 (fun _ _ => rfl) fun _ _ _ => rfl⟩, ⟨jVfma, fun _ _ => rfl, fun v w x _ => ?fma⟩,
    ⟨jVmin, computes_lane2 (fun _ _ => rfl) fun _ _ _ => rfl⟩, ⟨jVmax, computes_lane2 (fun _ _ => rfl) fun _ _ _ => rfl⟩,
    ⟨jVabs, computes_lane1 (fun _ _ => rfl) fun _ _ _ => rfl⟩, ⟨jVneg, computes_lane1 (fun _ _ => rfl) fun _ _ _ => rfl⟩,
    ⟨jVsel, fun _ _ => rfl, fun v w x _ => ?sel⟩, ⟨jVbcast, computes_splat (fun _ _ => rfl) fun _ _ _ => rfl⟩,
    ⟨jVimm, computes_splat (g := fun _ w _ => BitVec.ofNat 32 (jImm w)) (fun _ _ => rfl) fun _ _ _ => rfl⟩,
    ⟨jVrsubi, computes_lane1 (fun _ _ => rfl) fun _ _ _ => rfl⟩,
    ⟨jVmuli, computes_lane1 (fun _ _ => rfl) fun _ _ _ => rfl⟩, List.forall_mem_nil _⟩
  case fma =>
    simp only [jVfma, getV_eq_lanes, List.zip_map', List.map_map]
    rfl
  case sel =>
    simp only [jVsel, getV_eq_lanes, getP_eq_planes, merge_map]
    rfl

theorem fnOps_compute : ∀ o ∈ fnOps, ∃ f, o.Computes f := by
  simp only [fnOps, List.forall_mem_cons]
  exact ⟨⟨jVexp2, computes_lane1 (fun _ _ => rfl) fun _ _ _ => rfl⟩, ⟨jVsqrt, computes_lane1 (fun _ _ => rfl) fun _ _ _ => rfl⟩,
    ⟨jVrecip, computes_lane1 (fun _ _ => rfl) fun _ _ _ => rfl⟩, ⟨jVrsqrt, computes_lane1 (fun _ _ => rfl) fun _ _ _ => rfl⟩,
    ⟨jVlog2, computes_lane1 (fun _ _ => rfl) fun _ _ _ => rfl⟩, ⟨jVdq, computes_lane1 (fun _ _ => rfl) fun _ _ _ => rfl⟩,
    ⟨jVrb16, computes_lane1 (fun _ _ => rfl) fun _ _ _ => rfl⟩, List.forall_mem_nil _⟩

theorem intOps_compute : ∀ o ∈ intOps, ∃ f, o.Computes f := by
  simp only [intOps, List.forall_mem_cons]
  exact ⟨⟨jViadd, computes_lane2 (fun _ _ => rfl) fun _ _ _ => rfl⟩, ⟨jVisub, computes_lane2 (fun _ _ => rfl) fun _ _ _ => rfl⟩,
    ⟨jVimul, computes_lane2 (fun _ _ => rfl) fun _ _ _ => rfl⟩, ⟨jViand, computes_lane2 (fun _ _ => rfl) fun _ _ _ => rfl⟩,
    ⟨jVior, computes_lane2 (fun _ _ => rfl) fun _ _ _ => rfl⟩, ⟨jVixor, computes_lane2 (fun _ _ => rfl) fun _ _ _ => rfl⟩,
    ⟨jVishl, computes_lane2 (fun _ _ => rfl) fun _ _ _ => rfl⟩, ⟨jVishr, computes_lane2 (fun _ _ => rfl) fun _ _ _ => rfl⟩,
    ⟨jVisra, computes_lane2 (fun _ _ => rfl) fun _ _ _ => rfl⟩, ⟨jVcvtf, computes_lane1 (fun _ _ => rfl) fun _ _ _ => rfl⟩,
    ⟨jVcvti, computes_lane1 (fun _ _ => rfl) fun _ _ _ => rfl⟩, ⟨jVlane, fun _ _ => rfl, fun _ _ _ _ => rfl⟩, List.forall_mem_nil _⟩

/-! ### Reductions (R190, R191) -/

/-- A group of a reduction divides the lanes. -/
theorem crossScope_dvd (v : JEnv) (w : Word64) (h : 32 ∣ v.vlen) : crossScope v w ∣ v.vlen := by
  unfold crossScope
  split
  · exact h
  · exact Nat.dvd_refl _

theorem jReduce_lanes (g : Word32 → Word32 → Word32) (unit : Word32) (v : JEnv) (w : Word64) (x : JviCtx) (h : 32 ∣ v.vlen) :
    jReduce g unit v w x.tick =
      jGo (x.tick.putV v.vlen w (jD w) ((List.range v.vlen).map fun i => tree g 9 (groupOf v w x unit i))) := by
  have dvd := crossScope_dvd v w h
  have group (i : Nat) : groupOf v w x unit i = (List.range (crossScope v w)).map fun j =>
      if x.acts v.vlen w (crossScope v w * (i / crossScope v w) + j)
      then x.lane v.vlen (jA w) (crossScope v w * (i / crossScope v w) + j) else unit := rfl
  rw [jReduce, act_eq_acts, getV_eq_lanes]
  rw [List.zip_map', List.map_map, piecesOf_map_range _ (Nat.mul_div_le _ _), List.flatMap_map]
  simp only [replicate_eq_map_range]
  congr 2
  obtain h0 | hpos := Nat.eq_zero_or_pos (crossScope v w)
  · obtain ⟨m, hm⟩ := dvd
    simp [hm, h0]
  · rw [flatMap_blocks hpos, Nat.mul_div_cancel' dvd]
    exact List.map_congr_left fun i _ => congrArg (tree g 9) (group i).symm

theorem computes_reduce {op : Nat} {cmd : Ctx → Instr} {f : JEnv → Word64 → JviCtx → JRes} {g : Word32 → Word32 → Word32} {unit : Word32}
    (hr : ∀ c s, exec (cmd c) s = s.jvi c op f) (hf : f = jReduce g unit) :
    (⟨op, cmd, fun v w x i => tree g 9 (groupOf v w x unit i)⟩ : LaneOp).Computes f where
  runs := hr
  lanes v w x h := by
    rw [hf, jReduce_lanes g unit v w x h]

theorem crossOps_compute : ∀ o ∈ crossOps, ∃ f, o.Computes f := by
  simp only [crossOps, List.forall_mem_cons]
  refine ⟨⟨jVsumr, computes_reduce (fun _ _ => rfl) rfl⟩, ⟨jVmaxr, computes_reduce (fun _ _ => rfl) rfl⟩,
    ⟨jVbrd, computes_splat (g := fun v w x => x.lane v.vlen (jA w) ((x.getS (jB w)).toNat % v.vlen)) (fun _ _ => rfl) fun _ _ _ => rfl⟩,
    ⟨jVperm, fun _ _ => rfl, fun v w x _ => ?perm⟩, ⟨jVhash, fun _ _ => rfl, fun v w x _ => ?hash⟩, List.forall_mem_nil _⟩
  case perm =>
    rw [jVperm]
    dsimp only
    rw [getV_eq_lanes _ _ (jB w), List.map_map]
    rfl
  case hash =>
    rw [jVhash, getV_eq_lanes, List.map_map]
    rfl

section
variable {s : State} {c : Ctx} {w : Word64} {o : LaneOp}

/-- The vector lengths are multiples of 32. -/
theorem dvd_vlen (s : State) (c : Ctx) : 32 ∣ (s.jenv c).vlen := ⟨_, (vlen_blocks s c).symm⟩

/-- The step of a lane-wise instruction inside the kernel. -/
theorem exec_lanes (ho : ∃ f, o.Computes f) (h : s.InKernel c w o.op) :
    ∃ t, exec (o.cmd c) s = .next t ∧ s.WroteV t c w (jD w) (o.val (s.jenv c) w (s.ctx c)) := by
  obtain ⟨f, runs, lanes⟩ := ho
  rw [runs]
  exact jvi_writes_lanes h (lanes _ _ _ (dvd_vlen s c))

/-- The step of one that stands last in the kernel. -/
theorem exec_lanes_last (ho : ∃ f, o.Computes f) (h : s.AtOp c w o.op) (hend : (s.ctx c).pc + 1 = (s.ctx c).code.length) :
    exec (o.cmd c) s = .next (s.refuseVector c) := by
  obtain ⟨f, runs, lanes⟩ := ho
  rw [runs]
  exact jvi_runs_past h hend (lanes _ _ _ (dvd_vlen s c)) ⟨rfl, rfl, rfl, rfl⟩

end

end Sys2Proof.Machine
end

section
/-! The statements on the lane-wise and cross-lane instructions. -/

namespace Sys2Proof.Proofs

open Sys2Proof.Machine Sys2Proof.Laws

/-- Settles O3: each instruction computes its lanes from those of A, B and C. -/
theorem jviFpLanes : Obligations.JviFpLanes := fun _ _ _ o ho => exec_lanes (fpOps_compute o ho)

/-- Settles O5: each instruction computes its lanes from those of A and B. -/
theorem jviIntegerLanes : Obligations.JviIntegerLanes := fun _ _ _ o ho => exec_lanes (intOps_compute o ho)

/-- Settles O6: a group of a reduction is one piece of the register, and the groups stand one after another. -/
theorem jviCrossLanes : Obligations.JviCrossLanes := fun _ _ _ o ho => exec_lanes (crossOps_compute o ho)

end Sys2Proof.Proofs
end

section
/-! Compares, scalar instructions, branches (R189, R190), and how a kernel ends (R165, R190). -/

namespace Sys2Proof.Machine

open Sys2Proof.Laws

/-! ### Compares -/

theorem cmpOps_compute : ∀ o ∈ cmpOps, ∃ f : JEnv → Word64 → JviCtx → JRes,
    (∀ c s, exec (o.2.1 c) s = s.jvi c o.1 f) ∧ ∀ v w x, f v w x = jCompare o.2.2 v.vlen w x := by
  simp only [cmpOps, List.forall_mem_cons]
  exact ⟨⟨jVcmplt, fun _ _ => rfl, fun _ _ _ => rfl⟩, ⟨jVcmple, fun _ _ => rfl, fun _ _ _ => rfl⟩,
    ⟨jVcmpeq, fun _ _ => rfl, fun _ _ _ => rfl⟩, ⟨jVicmplt, fun _ _ => rfl, fun _ _ _ => rfl⟩,
    ⟨jVicmpeq, fun _ _ => rfl, fun _ _ _ => rfl⟩, List.forall_mem_nil _⟩

theorem jCompare_lanes (g : Word32 → Word32 → Bool) (n : Nat) (w : Word64) (x : JviCtx) :
    jCompare g n w x = jGo (x.putP n w ((List.range n).map fun i => g (x.lane n (jA w) i) (x.lane n (jB w) i))) := by
  rw [jCompare, getV_eq_lanes, getV_eq_lanes, List.zip_map', List.map_map]
  rfl

/-- A write of a predicate or of a scalar leaves the pc, the kernel and the VECTOR of a context. -/
theorem putP_keeps (x : JviCtx) (n : Nat) (w : Word64) (l : List Bool) :
    (x.putP n w l).pc = x.pc ∧ (x.putP n w l).code = x.code ∧ (x.putP n w l).queue = x.queue ∧ (x.putP n w l).seq = x.seq := by
  unfold JviCtx.putP JviCtx.setP
  split <;> exact ⟨rfl, rfl, rfl, rfl⟩

theorem setS_keeps (x : JviCtx) (i : Nat) (v : Word64) :
    (x.setS i v).pc = x.pc ∧ (x.setS i v).code = x.code ∧ (x.setS i v).queue = x.queue ∧ (x.setS i v).seq = x.seq := by
  unfold JviCtx.setS
  split <;> exact ⟨rfl, rfl, rfl, rfl⟩

/-! ### Scalar instructions -/

theorem boolWord_decide (p : Prop) [Decidable p] : boolWord (decide p) = if p then 1 else 0 := by
  simp [boolWord]

theorem scalarOps_compute : ∀ o ∈ scalarOps, ∃ f : JEnv → Word64 → JviCtx → JRes,
    (∀ c s, exec (o.2.1 c) s = s.jvi c o.1 f) ∧
      ∀ v w x, f v w x = jGo (x.setS (jD w) (o.2.2 (jImm w) (x.getS (jA w)) (x.getS (jB w)))) := by
  simp only [scalarOps, List.forall_mem_cons]
  refine ⟨⟨jSadd, fun _ _ => rfl, fun _ _ _ => rfl⟩, ⟨jSsub, fun _ _ => rfl, fun _ _ _ => rfl⟩,
    ⟨jSmul, fun _ _ => rfl, fun _ _ _ => rfl⟩, ⟨jSand, fun _ _ => rfl, fun _ _ _ => rfl⟩, ⟨jSor, fun _ _ => rfl, fun _ _ _ => rfl⟩,
    ⟨jSxor, fun _ _ => rfl, fun _ _ _ => rfl⟩, ⟨jSshl, fun _ _ => rfl, fun _ _ _ => rfl⟩, ⟨jSshr, fun _ _ => rfl, fun _ _ _ => rfl⟩,
    ⟨jSsra, fun _ _ => rfl, fun _ _ _ => rfl⟩, ⟨jSlui, fun _ _ => rfl, fun _ _ _ => rfl⟩,
    ⟨jScmplt, fun _ _ => rfl, fun v w x => ?less⟩, ⟨jScmpeq, fun _ _ => rfl, fun v w x => ?same⟩,
    ⟨jScmplts, fun _ _ => rfl, fun v w x => ?lessSigned⟩, List.forall_mem_nil _⟩
  case less => rw [jScmplt, jScalar, boolWord_decide]
  case same => rw [jScmpeq, jScalar, beq_eq_decide, boolWord_decide]
  case lessSigned => rw [jScmplts, jScalar, boolWord_decide]

/-- SRD reads the registers of Table 06-13, numbered from 0. -/
theorem jSrd_ok (v : JEnv) {w : Word64} (x : JviCtx) (h : jImm w < 5) : jSrd v w x =
    jGo (x.setS (jD w) ([BitVec.ofNat 64 v.vlen, BitVec.ofNat 64 v.core, BitVec.ofNat 64 v.engine, v.step.setWidth 64,
      v.seq.setWidth 64].getD (jImm w) 0)) := by
  unfold jSrd
  generalize jImm w = m at h
  match m, h with
  | 0, _ | 1, _ | 2, _ | 3, _ | 4, _ => rfl

theorem jSrd_bad (v : JEnv) {w : Word64} (x : JviCtx) (h : 5 ≤ jImm w) : jSrd v w x = .bad := by
  unfold jSrd
  generalize jImm w = m at h
  match m, h with
  | _ + 5, _ => rfl

theorem jenv_step_seq (s : State) (c : Ctx) : (s.jenv c).step = (s.ctx c).step ∧ (s.jenv c).seq = (s.ctx c).seq := by
  cases c <;> exact ⟨rfl, rfl⟩

/-! ### Branches -/

section
variable {s : State} {c : Ctx} {w : Word64} {op : Nat} {f : JEnv → Word64 → JviCtx → JRes}

/-- A branch of a context that is of the VECTOR and the kernel it was of. -/
theorem jvi_branches {taken : Bool} {y : JviCtx} (h : s.AtOp c w op) (hf : f (s.jenv c) w (s.ctx c).tick = jBranch taken w y)
    (hq : y.queue = (s.ctx c).queue) (hseq : y.seq = (s.ctx c).seq) : s.jvi c op f = .next (s.branchTo c w taken y) := by
  have refused : s.refuseVector c = s.endVector y.queue y.seq stBadOpcode := by rw [State.refuseVector, hq, hseq]
  cases taken with
  | false =>
    rw [jvi_next h (y := y) (hf.trans (if_pos rfl)), State.branchTo, refused]
    simp only [Bool.false_eq_true, if_false, State.jput, Nat.cast_lt, Int.toNat_natCast, Int.natCast_nonneg, true_and]
  | true =>
    by_cases ht : 0 ≤ (y.pc : Int) + jSext w ∧ (y.pc : Int) + jSext w < y.code.length
    · have inside : ((y.pc : Int) + jSext w).toNat < y.code.length := by omega
      rw [jvi_next h (y := { y with pc := ((y.pc : Int) + jSext w).toNat }) (hf.trans (if_pos ht)), State.branchTo]
      exact congrArg Host.Outcome.next ((if_pos inside).trans (if_pos ht).symm)
    · rw [jvi_bad h (hf.trans (if_neg ht)), State.branchTo]
      exact congrArg Host.Outcome.next (if_neg ht).symm

end

/-! ### How a kernel ends -/

section
variable {s : State} {c : Ctx} {w : Word64}

theorem exec_jEnd (h : s.AtOp c w 0x00) : exec (.jEnd c) s =
    let s1 := s.setCtx c { Reset.jvi with copies := (s.ctx c).copies }
    .next (if (List.finRange 32).any fun k =>
        let y := s1.ctx (.core k)
        y.busy && y.queue == (s.ctx c).queue && y.seq == (s.ctx c).seq
      then s1 else s1.finish (s.ctx c).queue (s.ctx c).seq stOk 0 0) := by
  have fetched := jfetch_of_atOp h
  show execJEnd c s = _
  simp only [execJEnd, fetched]

theorem exec_vectorStepLimit (hb : (s.ctx c).busy = true) (hl : (s.ctx c).limit ≠ 0) (hs : (s.ctx c).limit ≤ (s.ctx c).steps) :
    exec (.vectorStepLimit c) s = .next (s.endVector (s.ctx c).queue (s.ctx c).seq stTimeout) :=
  congrArg Host.Outcome.next (if_pos (by simp [JviCtx.spent, hb, hl, hs]))

theorem exec_unassignedOpcode {op : Nat} (h : s.AtOp c w op) (ho : jviAssigned op = false) :
    exec (.unassignedOpcode c) s = .next (s.refuseVector c) := by
  obtain ⟨hb, hs, hw, hop⟩ := h
  show execUnassignedOpcode c s = _
  simp only [execUnassignedOpcode, hw, hop, hb, hs, ho, Bool.not_false, Bool.and_self, if_true]
  rfl

end

end Sys2Proof.Machine
end

section
/-! The statements on compares, scalar instructions, branches and the ends of kernels. -/

namespace Sys2Proof.Proofs

open Sys2Proof.Machine Sys2Proof.Laws

/-- Settles O7: each compare makes a predicate lane from the lanes of A and B. -/
theorem jviCompares : Obligations.JviCompares := by
  intro s c w o ho h
  obtain ⟨f, runs, compares⟩ := cmpOps_compute o ho
  rw [runs]
  exact jvi_writes_predicate h ((compares _ _ _).trans (jCompare_lanes _ _ _ _))

/-- Settles O8: each instruction writes its value to s[D]; SRD has five registers. -/
theorem jviScalars : Obligations.JviScalars := by
  intro s c w
  refine ⟨fun o ho h => ?scalar, fun h hi => ?srd, fun h hi => jvi_bad (f := jSrd) h.1 (jSrd_bad _ _ hi),
    fun h => jvi_writes_scalar (f := jVext) h rfl⟩
  case scalar =>
    obtain ⟨f, runs, computes⟩ := scalarOps_compute o ho
    rw [runs]
    exact jvi_writes_scalar h (computes _ _ _)
  case srd =>
    obtain ⟨step, seq⟩ := jenv_step_seq s c
    rw [← step, ← seq]
    exact jvi_writes_scalar (f := jSrd) h (jSrd_ok _ _ hi)

/-- Settles O9: a branch that is not taken goes on to the next pc, which the same bound of the kernel holds for. -/
theorem jviBranches : Obligations.JviBranches := by
  intro s c w
  refine ⟨?branches, fun h => ?loop, fun ⟨hat, hend⟩ => ?nop⟩
  case branches =>
    simp only [branchOps, List.forall_mem_cons]
    exact ⟨fun h => jvi_branches (f := jJmp) h rfl rfl rfl, fun h => jvi_branches (f := jBz) h rfl rfl rfl,
      fun h => jvi_branches (f := jBnz) h rfl rfl rfl, List.forall_mem_nil _⟩
  case loop =>
    obtain ⟨-, -, queue, seq⟩ := setS_keeps (s.ctx c).tick (jA w) ((s.ctx c).getS (jA w) - 1)
    exact jvi_branches (f := jLoop) h rfl queue seq
  case nop => exact (jvi_next (f := jNop) hat rfl).trans (congrArg Host.Outcome.next (if_pos hend))

/-- Settles O15: END looks for another context of its VECTOR; every other instruction that stands last leaves the pc at the kernel's
length. -/
theorem jviEnds : Obligations.JviEnds := by
  refine ⟨fun s c w => ⟨fun h => ⟨fun last => ?last, fun ⟨k, hk, hq, hs⟩ => ?more⟩, exec_vectorStepLimit, fun op h => exec_unassignedOpcode h⟩,
    fun s c w hend => ⟨fun o ho h => ?lanes, fun o ho h => ?compares, fun o ho h => ?scalars⟩⟩
  case last =>
    rw [exec_jEnd h]
    refine congrArg Host.Outcome.next (if_neg ?_)
    simp only [List.any_eq_true, Bool.and_eq_true, beq_iff_eq, not_exists]
    exact fun k ⟨_, ⟨hk, hq⟩, hs⟩ => last k hk ⟨hq, hs⟩
  case more =>
    rw [exec_jEnd h]
    refine congrArg Host.Outcome.next (if_pos ?_)
    simp only [List.any_eq_true, Bool.and_eq_true, beq_iff_eq]
    exact ⟨k, List.mem_finRange k, ⟨hk, hq⟩, hs⟩
  case lanes =>
    have computes : ∃ f, o.Computes f := by
      simp only [List.mem_append, or_assoc] at ho
      rcases ho with hfp | hfn | hint | hcross
      · exact fpOps_compute o hfp
      · exact fnOps_compute o hfn
      · exact intOps_compute o hint
      · exact crossOps_compute o hcross
    exact exec_lanes_last computes h hend
  case compares =>
    obtain ⟨f, runs, compares⟩ := cmpOps_compute o ho
    rw [runs]
    exact jvi_runs_past h hend (compares _ _ _) (putP_keeps _ _ _ _)
  case scalars =>
    obtain ⟨f, runs, computes⟩ := scalarOps_compute o ho
    rw [runs]
    exact jvi_runs_past h hend (computes _ _ _) (setS_keeps _ _ _)

end Sys2Proof.Proofs
end

section
/-! VPACK, VUNPACK and VSPILL (R77, R190). -/

namespace Sys2Proof.Machine

open Sys2Proof.Laws

section
variable (v : JEnv) {w : Word64} (x : JviCtx)

/-- Two codes make a byte. -/
theorem jVpack_codes (h : jImm w = 0) : jVpack v w x = jGo (x.putV v.vlen w (jD w) ((List.range v.vlen).map fun i =>
    if i < v.vlen / 2 then BitVec.ofNat 32 ((x.lane v.vlen (jA w) (2 * i)).toNat % 16 + 16 * ((x.lane v.vlen (jA w) (2 * i + 1)).toNat % 16))
    else 0)) := by
  simp only [jVpack, h, getV_eq_lanes, piecesOf_map_range _ (Nat.mul_div_le v.vlen 2), List.map_map, Function.comp_def, lanesOf_map_range,
    Nat.mul_comm 16]
  rfl

/-- The scale byte of a block stands in its first lane. -/
theorem jVpack_scales (h : jImm w = 1) : jVpack v w x = jGo (x.putV v.vlen w (jD w) ((List.range v.vlen).map fun i =>
    if i < v.vlen / 32 then BitVec.ofNat 32 (bitsOf (x.lane v.vlen (jA w) (32 * i)).toNat 8 8) else 0)) := by
  simp only [jVpack, h, getV_eq_lanes, piecesOf_map_range _ (Nat.mul_div_le v.vlen 32), List.map_map, Function.comp_def, lanesOf_map_range]
  rfl

theorem jVpack_bad (h : 2 ≤ jImm w) : jVpack v w x = .bad := by
  unfold jVpack
  generalize jImm w = m at h
  match m, h with
  | _ + 2, _ => rfl

theorem jVunpack_nibbles (w : Word64) : jVunpack v w x = jGo (x.putV v.vlen w (jD w) ((List.range v.vlen).map fun i =>
    BitVec.ofNat 32 (bitsOf (x.lane v.vlen (jA w) (i / 2)).toNat (4 * (i % 2)) 4))) := by
  have nibbles (a : Word32) : [BitVec.ofNat 32 (bitsOf a.toNat 0 4), BitVec.ofNat 32 (bitsOf a.toNat 4 4)] =
      (List.range 2).map fun k => BitVec.ofNat 32 (bitsOf a.toNat (4 * k) 4) := rfl
  simp only [jVunpack, nibbles, getV_eq_lanes, List.flatMap_map, flatMap_blocks Nat.two_pos, lanesOf_map_range]
  congr 2
  refine List.map_congr_left fun i hi => if_pos ?_
  have := List.mem_range.1 hi
  omega

/-- The sums of VSPILL: the wide value of v[d] and the register after it, and the lane of A. -/
def spillLane (n : Nat) (w : Word64) (x : JviCtx) (i : Nat) : Wide :=
  spill ⟨x.lane n (jD w) i, x.lane n ((jD w + 1) % 32) i⟩ (x.lane n (jA w) i)

theorem jVspill_pair (w : Word64) : jVspill v w x =
    jGo ((x.putV v.vlen w (jD w) ((List.range v.vlen).map fun i => (spillLane v.vlen w x i).hi)).putV v.vlen w ((jD w + 1) % 32)
      ((List.range v.vlen).map fun i => (spillLane v.vlen w x i).lo)) := by
  simp only [jVspill, getV_eq_lanes, List.zip_map', List.map_map]
  rfl

end

end Sys2Proof.Machine
end

section
/-! The statement on packing and spilling. -/

namespace Sys2Proof.Proofs

open Sys2Proof.Machine Sys2Proof.Laws

/-- Settles O11: VPACK and VUNPACK make one register lane by lane; VSPILL writes the two registers of a wide value. -/
theorem jviPacking : Obligations.JviPacking := by
  intro s c w
  refine ⟨fun h hi => jvi_writes_lanes (f := jVpack) h (jVpack_codes _ _ hi),
    fun h hi => jvi_writes_lanes (f := jVpack) h (jVpack_scales _ _ hi), fun h hi => jvi_bad (f := jVpack) h (jVpack_bad _ _ hi),
    fun h => jvi_writes_lanes (f := jVunpack) h (jVunpack_nibbles _ _ _), fun ⟨hat, hend⟩ => ?spill⟩
  have apart : jD w ≠ (jD w + 1) % 32 := by
    have : jD w < 32 := Nat.mod_lt _ (by decide)
    omega
  obtain ⟨ctx, others, lanes⟩ := jput_putV_putV (s := s) (c := c) (w := w) false apart hat.1 hend
    (new := (List.range (s.vlen c)).map fun i => (spillLane (s.vlen c) w (s.ctx c) i).hi)
    (new' := (List.range (s.vlen c)).map fun i => (spillLane (s.vlen c) w (s.ctx c) i).lo) (by simp) (by simp)
  refine ⟨_, jvi_next (f := jVspill) hat (jVspill_pair _ _ _), ctx, others, fun i hi => ?_⟩
  obtain ⟨high, low⟩ := lanes i hi
  exact ⟨high.trans (if_congr Iff.rfl (by simp [hi, spillLane]) rfl), low.trans (if_congr Iff.rfl (by simp [hi, spillLane]) rfl)⟩

end Sys2Proof.Proofs
end

section
/-! Loads and stores of a context (class 0x7 of Table 06-18): the addresses of the active lanes, what a load makes of each, and the bytes
that a store leaves in the context's memory. -/

namespace Sys2Proof.Machine

open Sys2Proof.Laws

/-! ### The addresses of the active lanes -/

theorem laneAddrs_eq (form : LaneForm) (size : Nat) (v : JEnv) (w : Word64) (x : JviCtx) :
    laneAddrs form size v.vlen w x = ((List.range v.vlen).filter (x.acts v.vlen w)).map fun i => (i, lanePlace v form size w x i) := by
  have zipped : ((List.range v.vlen).map (x.acts v.vlen w)).zipIdx = (List.range v.vlen).map fun i => (x.acts v.vlen w i, i) :=
    (List.map_id _).symm.trans (map_zipIdx_range (x.acts v.vlen w) id v.vlen)
  rw [laneAddrs, act_eq_acts, zipped, List.filter_map, List.map_map, List.map_map]
  rfl

section
variable {form : LaneForm} {size : Nat} {v : JEnv} {w : Word64} {x : JviCtx}

theorem laneAddrs_any_outside (room : Nat) : ((laneAddrs form size v.vlen w x).any fun p => decide (room < p.2 + size)) = true ↔
    ∃ i, i < v.vlen ∧ x.acts v.vlen w i = true ∧ room < lanePlace v form size w x i + size := by
  simp [laneAddrs_eq]

/-- The address of an active lane. -/
theorem find?_laneAddrs {i : Nat} (hi : i < v.vlen) (ha : x.acts v.vlen w i = true) :
    (laneAddrs form size v.vlen w x).find? (fun p => p.1 == i) = some (i, lanePlace v form size w x i) := by
  obtain ⟨p, hp⟩ : ∃ p, (laneAddrs form size v.vlen w x).find? (fun p => p.1 == i) = some p := by
    rw [← Option.isSome_iff_exists, List.find?_isSome, laneAddrs_eq]
    exact ⟨(i, lanePlace v form size w x i), List.mem_map.2 ⟨i, List.mem_filter.2 ⟨List.mem_range.2 hi, ha⟩, rfl⟩, by simp⟩
  have found : p.1 = i := by simpa using List.find?_some hp
  have listed := List.mem_of_find?_eq_some hp
  rw [laneAddrs_eq, List.mem_map] at listed
  obtain ⟨j, -, rfl⟩ := listed
  rw [hp, ← found]

end

/-! ### Loads -/

section
variable {s : State} {c : Ctx} {w : Word64}

/-- Lanes that take no part keep their value, whatever the instruction computes for them. -/
theorem State.WroteV.congr {t : State} {d : Nat} {val val' : Nat → Word32} (h : s.WroteV t c w d val)
    (he : ∀ i, i < s.vlen c → (s.ctx c).acts (s.vlen c) w i = true → val i = val' i) : s.WroteV t c w d val' := by
  obtain ⟨ctx, others, lanes⟩ := h
  refine ⟨ctx, others, fun i hi => (lanes i hi).trans ?_⟩
  by_cases ha : (s.ctx c).acts (s.vlen c) w i = true
  · rw [if_pos ha, if_pos ha, he i hi ha]
  · rw [if_neg ha, if_neg ha]

variable {op : Nat} {form : LaneForm} {size : Nat}

theorem jload_outside (h : s.AtOp c w op) (ho : ∃ i, i < s.vlen c ∧ (s.ctx c).acts (s.vlen c) w i = true ∧
    ctxRoom c < lanePlace (s.jenv c) form size w (s.ctx c) i + size) : s.jload c op form size = .next (s.refuseVector c) := by
  simp only [State.jload, jfetch_of_atOp h]
  exact if_pos ((laneAddrs_any_outside (ctxRoom c)).2 ho)

theorem jload_inside (h : s.InKernel c w op)
    (hi : ∀ i, i < s.vlen c → (s.ctx c).acts (s.vlen c) w i = true → lanePlace (s.jenv c) form size w (s.ctx c) i + size ≤ ctxRoom c)
    (hl : s.ctxLook c ((laneAddrs form size (s.vlen c) w (s.ctx c)).map (·.2)) size = (false, s)) :
    ∃ t, s.jload c op form size = .next t ∧ s.WroteV t c w (jD w) fun i =>
      BitVec.ofNat 32 (s.ctxLoad c (lanePlace (s.jenv c) form size w (s.ctx c) i) size) := by
  obtain ⟨hat, hend⟩ := h
  have inside : ¬((laneAddrs form size (s.jenv c).vlen w (s.ctx c)).any fun p => decide (ctxRoom c < p.2 + size)) = true := by
    intro outside
    obtain ⟨i, hlt, ha, hr⟩ := (laneAddrs_any_outside (ctxRoom c)).1 outside
    have := hi i hlt ha
    omega
  unfold State.vlen at hl
  simp only [State.jload, jfetch_of_atOp hat, if_neg inside, hl, Bool.false_eq_true, if_false]
  refine ⟨_, rfl, (wroteV_putV hat.1 hend (by simp [State.vlen]) fun _ hlt => getD_map_range _ _ hlt).congr ?_⟩
  intro i hlt ha
  simp only [find?_laneAddrs (v := s.jenv c) hlt ha]

theorem execJSld_outside (h : s.AtOp c w 0x7A) (ho : ctxRoom c < jBase w (s.ctx c) + 8) : execJSld c s = .next (s.refuseVector c) := by
  simp only [execJSld, jfetch_of_atOp h]
  exact if_pos ho

theorem execJSld_inside (h : s.InKernel c w 0x7A) (hi : jBase w (s.ctx c) + 8 ≤ ctxRoom c)
    (hl : s.ctxLook c [jBase w (s.ctx c)] 8 = (false, s)) :
    ∃ t, execJSld c s = .next t ∧ s.WroteS t c (jD w) (BitVec.ofNat 64 (s.ctxLoad c (jBase w (s.ctx c)) 8)) := by
  obtain ⟨hat, hend⟩ := h
  simp only [execJSld, jfetch_of_atOp hat, hl]
  exact ⟨_, if_neg (by omega), wroteS_setS hat.1 hend⟩

end

theorem loadOps_load : ∀ o ∈ loadOps, ∀ c s, exec (o.2.1 c) s = s.jload c o.1 o.2.2.1 o.2.2.2 := by
  simp only [loadOps, List.forall_mem_cons]
  exact ⟨fun _ _ => rfl, fun _ _ => rfl, fun _ _ => rfl, fun _ _ => rfl, fun _ _ => rfl, List.forall_mem_nil _⟩

end Sys2Proof.Machine
end

section
/-! The statement on loads. -/

namespace Sys2Proof.Proofs

open Sys2Proof.Machine Sys2Proof.Laws

/-- Settles O12: the list of addresses holds one for each active lane. -/
theorem jviLoads : Obligations.JviLoads := by
  intro s c w
  refine ⟨fun o ho h => ?_, fun h => ⟨execJSld_inside h, execJSld_outside h.1⟩⟩
  simp only [loadOps_load o ho]
  exact ⟨jload_inside h, jload_outside h.1⟩

end Sys2Proof.Proofs
end

section
/-! Stores of a context (R191, Table 06-18): one codeword, one lane, all lanes; after them each byte holds what the last lane that covers
it stores. -/

namespace Sys2Proof.Machine

open Sys2Proof.Laws

/-! ### The scratchpad -/

/-- From s to t only bytes of the scratchpad of tile p may differ. -/
structure State.PadStored (s t : State) (p : Nat) : Prop where
  rest : t = { s with tiles := t.tiles }
  others : ∀ q, q ≠ p → t.tile q = s.tile q
  here : t.tile p = { s.tile p with mem := { (s.tile p).mem with pad := (t.tile p).mem.pad } }

section
variable {s t u : State} {p : Nat}

theorem State.PadStored.refl (s : State) (p : Nat) : s.PadStored s p := ⟨rfl, fun _ _ => rfl, rfl⟩

theorem State.PadStored.trans (h : s.PadStored t p) (k : t.PadStored u p) : s.PadStored u p where
  rest := by rw [k.rest, h.rest]
  others q hq := (k.others q hq).trans (h.others q hq)
  here := by rw [k.here, h.here]

theorem State.PadStored.badPad (h : s.PadStored t p) : (t.tile p).mem.badPad = (s.tile p).mem.badPad := by rw [h.here]

theorem mem_cwSpan_of_byte {off n j : Nat} (h : off ≤ j) (hj : j < off + n) : j / 32 ∈ cwSpan off n := by
  rw [cwSpan, if_neg (by omega)]
  exact List.mem_map.2 ⟨j / 32 - off / 32, List.mem_range.2 (by omega), by omega⟩

variable (off : Nat) (d : List Byte)

/-- A write to one codeword that is not bad merges its part (R224). -/
theorem writePadCw_clean (h : (s.tile p).mem.badPad = []) (cw : Nat) : s.PadStored (s.writePadCw p off d cw) p ∧
    ∀ j, Memory.read ((s.writePadCw p off d cw).tile p).mem.pad j =
      if j / 32 = cw ∧ off ≤ j ∧ j < off + d.length then d.getD (j - off) 0 else Memory.read (s.tile p).mem.pad j := by
  have kept : Sparse.put CwHealth.good (s.tile p).mem.badPad cw .good = (s.tile p).mem.badPad := by rw [h]; rfl
  have good : (Sparse.get CwHealth.good (s.tile p).mem.badPad cw).isBad = false := by rw [h]; rfl
  have written : s.writePadCw p off d cw = s.onTileMem p fun m => { m with
      pad := Memory.write m.pad (cwPart off d.length cw).1
        ((d.drop ((cwPart off d.length cw).1 - off)).take (cwPart off d.length cw).2)
      badPad := Sparse.put .good m.badPad cw .good } := if_neg (by simp [good])
  rw [written]
  refine ⟨⟨rfl, fun q hq => tile_onTile_other s _ hq.symm, ?_⟩, fun j => ?_⟩
  · rw [State.onTileMem, tile_onTile_same, kept]
  · rw [State.onTileMem, tile_onTile_same]
    simp only [read_write, cwPart, List.length_take, List.length_drop, List.getD_eq_getElem?_getD]
    by_cases hj : j / 32 = cw ∧ off ≤ j ∧ j < off + d.length
    · rw [if_pos hj, if_pos (by omega), List.getElem?_take_of_lt (by omega), List.getElem?_drop]
      congr 2
      omega
    · rw [if_neg hj, if_neg (by omega)]

theorem foldl_writePadCw (l : List Nat) : ∀ {s : State}, (s.tile p).mem.badPad = [] →
    s.PadStored (l.foldl (fun s cw => s.writePadCw p off d cw) s) p ∧
    ∀ j, Memory.read ((l.foldl (fun s cw => s.writePadCw p off d cw) s).tile p).mem.pad j =
      if j / 32 ∈ l ∧ off ≤ j ∧ j < off + d.length then d.getD (j - off) 0 else Memory.read (s.tile p).mem.pad j := by
  induction l with
  | nil => exact fun _ => ⟨.refl _ _, fun j => by simp⟩
  | cons cw l ih =>
    intro s h
    obtain ⟨stored, reads⟩ := writePadCw_clean off d h cw
    obtain ⟨stored', reads'⟩ := ih (stored.badPad.trans h)
    refine ⟨stored.trans stored', fun j => (reads' j).trans ?_⟩
    rw [reads j]
    by_cases covered : off ≤ j ∧ j < off + d.length
    · by_cases later : j / 32 ∈ l <;> simp [covered, later]
    · simp [covered]

theorem writePad_clean (h : (s.tile p).mem.badPad = []) : s.PadStored (s.writePad p off d) p ∧
    ∀ j, Memory.read ((s.writePad p off d).tile p).mem.pad j =
      if off ≤ j ∧ j < off + d.length then d.getD (j - off) 0 else Memory.read (s.tile p).mem.pad j := by
  obtain ⟨stored, reads⟩ := foldl_writePadCw off d (cwSpan off d.length) h
  refine ⟨stored, fun j => (reads j).trans (if_congr ?_ rfl rfl)⟩
  exact ⟨And.right, fun hj => ⟨mem_cwSpan_of_byte hj.1 hj.2, hj⟩⟩

end

/-! ### The memory of a context -/

/-- The context has a memory: an engine's has a tile. -/
def State.hasRoom (s : State) : Ctx → Prop
  | .engine e => (s.ptile e.val).isSome = true
  | .core _ => True

theorem hasRoom_of_busy {s : State} {c : Ctx} (h : (s.ctx c).busy = true) : s.hasRoom c := by
  cases c with
  | core k => trivial
  | engine e =>
    simp only [State.ctx] at h
    simp only [State.hasRoom]
    cases hp : s.ptile e.val with
    | none => simp [hp, Reset.jvi] at h
    | some p => rfl

theorem storedOnly_trans {s u t : State} {c : Ctx} {y : JviCtx} (h : s.StoredOnly u c (s.ctx c)) (k : u.StoredOnly t c y) :
    s.StoredOnly t c y := by
  obtain ⟨ctx, h⟩ := h
  obtain ⟨ctx', k⟩ := k
  refine ⟨ctx', ?_⟩
  cases c with
  | core n =>
    obtain ⟨rest, others⟩ := h
    obtain ⟨rest', others'⟩ := k
    refine ⟨by rw [rest', rest], fun j hj => ⟨(others' j hj).1.trans (others j hj).1, (others' j hj).2.trans (others j hj).2⟩⟩
  | engine e =>
    obtain ⟨rest, tiles⟩ := h
    obtain ⟨rest', tiles'⟩ := k
    have same : u.ptile e.val = s.ptile e.val := ptile_of_tileMap (by rw [rest]) _
    rw [same] at tiles'
    refine ⟨by rw [rest', rest], fun q => ⟨fun hq => ?_, fun hq => ((tiles' q).2 hq).trans ((tiles q).2 hq)⟩⟩
    rw [(tiles' q).1 hq, (tiles q).1 hq]

theorem storedOnly_refl {s : State} {c : Ctx} : s.StoredOnly s c (s.ctx c) := by
  refine ⟨rfl, ?_⟩
  cases c with
  | core n => exact ⟨rfl, fun _ _ => ⟨rfl, rfl⟩⟩
  | engine e =>
    refine ⟨rfl, fun q => ⟨fun hq => ?_, fun _ => rfl⟩⟩
    simp only [State.ctx, hq]

/-- The context goes on; its memory stays. -/
theorem storedOnly_setCtx {s : State} {c : Ctx} (h : (s.ctx c).busy = true) (y : JviCtx) :
    s.StoredOnly (s.setCtx c y) c y ∧ ∀ a, (s.setCtx c y).ctxByte c a = s.ctxByte c a := by
  refine ⟨⟨ctx_setCtx y h, ?_⟩, fun a => ?_⟩
  · cases c with
    | core n => exact ⟨rfl, fun j hj => ⟨get_put_other _ _ _ (Ne.symm hj), rfl⟩⟩
    | engine e =>
      simp only [State.setCtx]
      cases hp : s.ptile e.val with
      | none => simp [State.ctx, hp, Reset.jvi] at h
      | some p =>
        refine ⟨rfl, fun q => ⟨fun hq => ?_, fun hq => tile_onTile_other s _ fun e => hq (by rw [e])⟩⟩
        obtain rfl : p = q := Option.some.inj hq
        rw [tile_onTile_same]
  · cases c with
    | core n => rfl
    | engine e =>
      simp only [State.ctxByte, State.ctxLoad, State.setCtx]
      cases hp : s.ptile e.val with
      | none => simp only [hp]
      | some p => simp only [show (s.onTile p fun t => { t with vec := y }).ptile e.val = some p from hp, tile_onTile_same]

/-- A store to the memory of a context. -/
theorem ctxStore_clean {s : State} {c : Ctx} (hc : s.padClean c) (hr : s.hasRoom c) (off : Nat) (d : List Byte) :
    s.StoredOnly (s.ctxStore c off d) c (s.ctx c) ∧ (s.ctxStore c off d).padClean c ∧
    ∀ j, (s.ctxStore c off d).ctxByte c j =
      if off ≤ j ∧ j < off + d.length then (d.getD (j - off) 0).toNat else s.ctxByte c j := by
  have byte (m : List Host.Cell) (j : Nat) : leNat (Memory.bytes m j 1) = (Memory.read m j).toNat := by
    simp [Memory.bytes, leNat]
  cases c with
  | core k =>
    have stored : (s.writeLocal k.val off d).localMem k.val = Memory.write (s.localMem k.val) off d := get_put_same _ _ _ _
    refine ⟨⟨rfl, rfl, fun j hj => ⟨rfl, get_put_other _ _ _ (Ne.symm hj)⟩⟩, fun p hp => (Option.some_ne_none p hp.symm).elim, fun j => ?_⟩
    simp only [State.ctxByte, State.ctxLoad, State.ctxStore, byte, stored, read_write]
    split <;> rfl
  | engine e =>
    obtain ⟨p, hp⟩ := Option.isSome_iff_exists.1 hr
    obtain ⟨stored, reads⟩ := writePad_clean (s := s) off d (hc p hp)
    have store : s.ctxStore (.engine e) off d = s.writePad p off d := by simp only [State.ctxStore, hp]
    have map : (s.writePad p off d).ptile e.val = some p := (ptile_of_tileMap (by rw [stored.rest]) _).trans hp
    rw [store]
    refine ⟨⟨?_, stored.rest, fun q => ⟨fun hq => ?_, fun hq => stored.others q fun h => hq (by rw [hp, h])⟩⟩, fun q hq => ?_, fun j => ?_⟩
    · simp only [State.ctx, hp, map]
      rw [stored.here]
    · obtain rfl : p = q := Option.some.inj (hp.symm.trans hq)
      simp only [State.ctx, hp, stored.badPad]
      exact stored.here
    · obtain rfl : p = q := Option.some.inj (map.symm.trans hq)
      exact stored.badPad.trans (hc p hp)
    · simp only [State.ctxByte, State.ctxLoad, hp, map, byte, reads]
      split <;> rfl

theorem hasRoom_of_storedOnly {s t : State} {c : Ctx} {y : JviCtx} (h : s.StoredOnly t c y) (hr : s.hasRoom c) : t.hasRoom c := by
  cases c with
  | core k => trivial
  | engine e =>
    obtain ⟨-, rest, -⟩ := h
    simp only [State.hasRoom] at hr ⊢
    rwa [ptile_of_tileMap (by rw [rest])]

/-! ### The lanes of a store -/

/-- Lanes store one after another: the last one that covers a byte decides it. -/
theorem foldl_ctxStore {s : State} {c : Ctx} (hc : s.padClean c) (hr : s.hasRoom c) (place : Nat → Nat) (size : Nat) (val : Nat → Nat)
    (l : List Nat) :
    let t := l.foldl (fun s i => s.ctxStore c (place i) (leBytes size (val i))) s
    s.StoredOnly t c (s.ctx c) ∧ t.padClean c ∧ ∀ a, t.ctxByte c a =
      ((l.reverse.find? fun i => decide (place i ≤ a) && decide (a < place i + size)).map fun i =>
        val i / 256 ^ (a - place i) % 256).getD (s.ctxByte c a) := by
  induction l using List.reverseRecOn with
  | nil => exact ⟨storedOnly_refl, hc, fun _ => rfl⟩
  | append_singleton l i ih =>
    obtain ⟨stored, clean, bytes⟩ := ih
    rw [List.foldl_append, List.foldl_cons, List.foldl_nil]
    obtain ⟨stored', clean', bytes'⟩ := ctxStore_clean clean (hasRoom_of_storedOnly stored hr) (place i) (leBytes size (val i))
    rw [stored.1] at stored'
    refine ⟨storedOnly_trans stored stored', clean', fun a => (bytes' a).trans ?_⟩
    rw [List.reverse_append, List.reverse_singleton, List.singleton_append, List.find?_cons, length_leBytes]
    by_cases h : place i ≤ a ∧ a < place i + size
    · rw [if_pos h, getD_leBytes _ (by omega)]
      simp [h]
    · rw [if_neg h, bytes a]
      have : (decide (place i ≤ a) && decide (a < place i + size)) = false := by simpa using h
      rw [this]

section
variable {s : State} {c : Ctx} {w : Word64} {op : Nat} {form : LaneForm} {size : Nat}

/-- What a store leaves at a byte: the highest active lane that covers it. -/
def State.storedByte (s : State) (c : Ctx) (w : Word64) (form : LaneForm) (size a : Nat) : Nat :=
  let place := lanePlace (s.jenv c) form size w (s.ctx c)
  (((List.range (s.vlen c)).reverse.find? fun i =>
      (s.ctx c).acts (s.vlen c) w i && decide (place i ≤ a) && decide (a < place i + size)).map fun i =>
    ((s.ctx c).lane (s.vlen c) (jD w) i).toNat / 256 ^ (a - place i) % 256).getD (s.ctxByte c a)

theorem jstore_outside (h : s.AtOp c w op) (ho : ∃ i, i < s.vlen c ∧ (s.ctx c).acts (s.vlen c) w i = true ∧
    ctxRoom c < lanePlace (s.jenv c) form size w (s.ctx c) i + size) : s.jstore c op form size = .next (s.refuseVector c) := by
  simp only [State.jstore, jfetch_of_atOp h]
  exact if_pos ((laneAddrs_any_outside (ctxRoom c)).2 ho)

/-- A context that has stored goes on to its next instruction. -/
theorem jput_stored {t : State} (h : s.InKernel c w op) (stored : s.StoredOnly t c (s.ctx c)) :
    s.StoredOnly (t.jput c (s.ctx c).tick) c (s.ctx c).tick ∧ ∀ a, (t.jput c (s.ctx c).tick).ctxByte c a = t.ctxByte c a := by
  obtain ⟨hat, hend⟩ := h
  obtain ⟨goes, bytes⟩ := storedOnly_setCtx (s := t) (c := c) (by rw [stored.1]; exact hat.1) (s.ctx c).tick
  rw [show t.jput c (s.ctx c).tick = t.setCtx c (s.ctx c).tick from if_pos hend]
  exact ⟨storedOnly_trans stored goes, bytes⟩

theorem jstore_inside (hc : s.padClean c) (h : s.InKernel c w op)
    (hi : ∀ i, i < s.vlen c → (s.ctx c).acts (s.vlen c) w i = true → lanePlace (s.jenv c) form size w (s.ctx c) i + size ≤ ctxRoom c) :
    ∃ t, s.jstore c op form size = .next t ∧ s.StoredOnly t c (s.ctx c).tick ∧ ∀ a, t.ctxByte c a = s.storedByte c w form size a := by
  have inside : ¬((laneAddrs form size (s.jenv c).vlen w (s.ctx c)).any fun p => decide (ctxRoom c < p.2 + size)) = true := by
    intro outside
    obtain ⟨i, hlt, ha, hr⟩ := (laneAddrs_any_outside (ctxRoom c)).1 outside
    have := hi i hlt ha
    omega
  obtain ⟨stored, -, bytes⟩ := foldl_ctxStore hc (hasRoom_of_busy h.1.1) (lanePlace (s.jenv c) form size w (s.ctx c)) size
    (fun i => ((s.ctx c).lane (s.vlen c) (jD w) i).toNat) ((List.range (s.vlen c)).filter ((s.ctx c).acts (s.vlen c) w))
  obtain ⟨goes, kept⟩ := jput_stored h stored
  refine ⟨_, ?_, goes, fun a => (kept a).trans ((bytes a).trans ?_)⟩
  · simp only [State.jstore, jfetch_of_atOp h.1]
    rw [if_neg inside, laneAddrs_eq, List.foldl_map]
    rfl
  · rw [← List.filter_reverse, List.find?_filter]
    simp only [State.storedByte, Bool.decide_and, Bool.decide_eq_true, Bool.and_assoc]

theorem execJSst_outside (h : s.AtOp c w 0x7B) (ho : ctxRoom c < jBase w (s.ctx c) + 8) : execJSst c s = .next (s.refuseVector c) := by
  simp only [execJSst, jfetch_of_atOp h]
  exact if_pos ho

theorem execJSst_inside (hc : s.padClean c) (h : s.InKernel c w 0x7B) (hi : jBase w (s.ctx c) + 8 ≤ ctxRoom c) :
    ∃ t, execJSst c s = .next t ∧ s.StoredOnly t c (s.ctx c).tick ∧ ∀ b, t.ctxByte c b =
      if jBase w (s.ctx c) ≤ b ∧ b < jBase w (s.ctx c) + 8 then ((s.ctx c).getS (jD w)).toNat / 256 ^ (b - jBase w (s.ctx c)) % 256
      else s.ctxByte c b := by
  obtain ⟨stored, -, bytes⟩ := ctxStore_clean hc (hasRoom_of_busy h.1.1) (jBase w (s.ctx c)) (leBytes 8 ((s.ctx c).getS (jD w)).toNat)
  obtain ⟨goes, kept⟩ := jput_stored h stored
  refine ⟨_, ?_, goes, fun b => (kept b).trans ((bytes b).trans ?_)⟩
  · simp only [execJSst, jfetch_of_atOp h.1]
    exact if_neg (by omega)
  · rw [length_leBytes]
    refine ite_congr rfl (fun hb => ?_) fun _ => rfl
    rw [getD_leBytes _ (by omega)]
    simp

end

theorem storeOps_store : ∀ o ∈ storeOps, ∀ c s, exec (o.2.1 c) s = s.jstore c o.1 o.2.2.1 o.2.2.2 := by
  simp only [storeOps, List.forall_mem_cons]
  exact ⟨fun _ _ => rfl, fun _ _ => rfl, fun _ _ => rfl, fun _ _ => rfl, fun _ _ => rfl, List.forall_mem_nil _⟩

end Sys2Proof.Machine
end

section
/-! The statement on stores. -/

namespace Sys2Proof.Proofs

open Sys2Proof.Machine Sys2Proof.Laws

/-- Settles O13: the lanes store in rising order, so that the highest one that covers a byte decides it. -/
theorem jviStores : Obligations.JviStores := by
  intro s c w hc
  refine ⟨fun o ho h => ?_, fun h => ⟨execJSst_inside hc h, execJSst_outside h.1⟩⟩
  simp only [storeOps_store o ho]
  refine ⟨fun hi => ?_, jstore_outside h.1⟩
  obtain ⟨t, hexec, stored, bytes⟩ := jstore_inside hc h hi
  refine ⟨t, hexec, stored, fun a => (bytes a).trans ?_⟩
  unfold State.storedByte
  dsimp only
  split <;> rename_i found <;> rw [found] <;> rfl

end Sys2Proof.Proofs
end

section
/-! Sends over Ethernet: what they leave of the state (R321 to R327). -/

namespace Sys2Proof.Machine

open Sys2Proof.Laws

/-- From s to t only the Ethernet interface and what the module sent may differ. -/
def State.OnlyEth (s t : State) : Prop := t = { s with eth := t.eth, out := t.out }

section
variable {s t u : State}

theorem State.OnlyEth.refl (s : State) : s.OnlyEth s := rfl

theorem State.OnlyEth.trans (h : s.OnlyEth t) (k : t.OnlyEth u) : s.OnlyEth u := by
  unfold State.OnlyEth at *
  rw [k, h]

/-- A part of the state that is neither. -/
theorem State.OnlyEth.field (h : s.OnlyEth t) {α : Type} (f : State → α)
    (hf : ∀ (x : State) (e : Eth) (o : List Out), f { x with eth := e, out := o } = f x := by exact fun _ _ _ => rfl) : f t = f s :=
  (congrArg f h).trans (hf _ _ _)

variable (s : State)

theorem onlyEth_onConn (k : Nat) (f : Conn → Conn) : s.OnlyEth (s.onConn k f) := rfl

theorem onlyEth_sendFrame (port remote source : Nat) (b : List Byte) : s.OnlyEth (s.sendFrame port remote source b) := by
  unfold State.sendFrame
  dsimp only
  split <;> rfl

theorem onlyEth_fdtSend (k type flags : Nat) (psn msg : Word32) (off : Nat) (header data : List Byte) :
    s.OnlyEth (s.fdtSend k type flags psn msg off header data) := by
  unfold State.fdtSend
  dsimp only
  split
  · exact .refl s
  · exact (onlyEth_onConn s k _).trans (onlyEth_sendFrame _ _ _ _ _)

theorem onlyEth_fdtTransmit (k : Nat) (psn : Word32) (p : FdtPart) (retx : Bool) : s.OnlyEth (s.fdtTransmit k psn p retx) :=
  (onlyEth_fdtSend s k _ _ _ _ _ _ _).trans (onlyEth_onConn _ k _)

theorem onlyEth_fdtPumpFrom (k : Nat) (l : List FdtPart) (s : State) : s.OnlyEth (s.fdtPumpFrom k l) := by
  induction l generalizing s with
  | nil => exact onlyEth_onConn s k _
  | cons p l ih =>
    unfold State.fdtPumpFrom
    dsimp only
    split
    · exact ((onlyEth_fdtTransmit s k _ p false).trans (onlyEth_onConn _ k _)).trans (ih _)
    · exact onlyEth_onConn s k _

theorem onlyEth_fdtMessage (k kind : Nat) (post : List Byte) (addr : Nat) (data : List Byte) (owner : FdtOwner) :
    s.OnlyEth (s.fdtMessage k kind post addr data owner) := (onlyEth_onConn s k _).trans (onlyEth_fdtPumpFrom k _ _)

theorem onlyEth_fdtControl (k : Nat) (b : List Byte) : s.OnlyEth (s.fdtControl k b) := by
  unfold State.fdtControl
  split
  · exact onlyEth_fdtMessage s k _ _ _ _ _
  · exact .refl s

end

end Sys2Proof.Machine
end

section
/-! SCADD, SCWAIT and the stream instructions (R161, R180, R189 to R192). -/

namespace Sys2Proof.Machine

open Sys2Proof.Laws

section
variable {s : State} {c : Ctx} {w : Word64}

/-- A context whose pc stays inside its kernel goes on. -/
theorem jput_inside {y : JviCtx} (h : y.pc < y.code.length) (s : State) (c : Ctx) : s.jput c y = s.setCtx c y := if_pos h

theorem exec_jScadd (h : s.InKernel c w 0x90) : exec (.jScadd c) s =
    .next ((s.scOp (jCounter w (s.ctx c)) .add (((s.ctx c).getS (jB w)).setWidth 32) (ctxSource c)).setCtx c (s.ctx c).tick) := by
  obtain ⟨hat, hend⟩ := h
  show execJScadd c s = _
  simp only [execJScadd, jfetch_of_atOp hat]
  rw [jput_inside (y := (s.ctx c).tick) hend]

theorem exec_jScwait (h : s.InKernel c w 0x91) : exec (.jScwait c) s =
    .next (if ((s.ctx c).getS (jB w)).toNat % 2 ^ 32 ≤ (s.counter (jCounter w (s.ctx c))).value.toNat
      then s.setCtx c (s.ctx c).tick else s) := by
  obtain ⟨hat, hend⟩ := h
  show execJScwait c s = _
  simp only [execJScwait, jfetch_of_atOp hat, BitVec.toNat_setWidth, State.sc]
  rw [jput_inside (y := (s.ctx c).tick) hend]

/-! ### Streams -/

/-- An engine has no stream unit (Table 06-14). -/
theorem jstream_engine {e : Fin 64} {op : Nat} (h : s.AtOp (.engine e) w op) (f : Fin 32 → Word64 → JviCtx → State) :
    s.jstream (.engine e) op f = .next (s.refuseVector (.engine e)) := by
  simp only [State.jstream, jfetch_of_atOp h]
  rfl

theorem jstream_core {k : Fin 32} {op : Nat} (h : s.AtOp (.core k) w op) (f : Fin 32 → Word64 → JviCtx → State) :
    s.jstream (.core k) op f = .next (f k w (s.ctx (.core k))) := by
  simp only [State.jstream, jfetch_of_atOp h]

theorem exec_jTrd : exec (.jTrd c) s = s.jstream c 0x80 fun k w x => s.startCopy k w x .trd := rfl
theorem exec_jTwr : exec (.jTwr c) s =
    s.jstream c 0x81 fun k w x => s.startCopy k w x fun a l n => .twr a l n x.queue x.seq := rfl

theorem exec_jTfdt : exec (.jTfdt c) s = execJTfdt c s := rfl
theorem exec_jTwait : exec (.jTwait c) s = execJTwait c s := rfl

theorem streamOk_iff (x : JviCtx) : streamOk w x = true ↔ (x.getS (jC w)).toNat % 32 = 0 ∧
    (locRange (x.getS (jA w)).toNat (x.getS (jC w)).toNat Loc.isSlow).isSome = true ∧
    (x.getS (jB w)).toNat + (x.getS (jC w)).toNat ≤ localSize := by
  simp only [streamOk, Bool.and_eq_true, beq_iff_eq, decide_eq_true_eq, and_assoc]

variable {k : Fin 32} (copy : Nat → Nat → Nat → StreamCopy)

theorem startCopy_ok (hok : streamOk w (s.ctx (.core k)) = true) (hend : (s.ctx (.core k)).pc + 1 < (s.ctx (.core k)).code.length) :
    s.startCopy k w (s.ctx (.core k)) copy = s.setCtx (.core k) { (s.ctx (.core k)).tick with
      copies := (s.ctx (.core k)).copies ++ [copy (((s.ctx (.core k)).getS (jA w)).toNat % 2 ^ 40) ((s.ctx (.core k)).getS (jB w)).toNat
        ((s.ctx (.core k)).getS (jC w)).toNat] } := by
  have low (n : Nat) : bitsOf n 0 40 = n % 2 ^ 40 := by simp [bitsOf]
  rw [State.startCopy, if_neg (by simp [hok]), low]
  exact if_pos hend

theorem startCopy_bad (h : ((s.ctx (.core k)).getS (jC w)).toNat % 32 ≠ 0 ∨
    localSize < ((s.ctx (.core k)).getS (jB w)).toNat + ((s.ctx (.core k)).getS (jC w)).toNat) :
    s.startCopy k w (s.ctx (.core k)) copy = s.refuseVector (.core k) := by
  have bad : streamOk w (s.ctx (.core k)) = false := by
    rw [← Bool.not_eq_true, streamOk_iff]
    omega
  exact if_pos (by simp [bad])

/-- The context after an instruction that starts a copy. -/
def JviCtx.copying (x : JviCtx) (y : StreamCopy) : JviCtx := { x.tick with copies := x.copies ++ [y] }

/-- TFDT hands the message over and goes on. -/
theorem exec_jTfdt_sends (h : s.InKernel (.core k) w 0x82) (hn : ((s.ctx (.core k)).getS (jC w)).toNat ≠ 0)
    (hl : ((s.ctx (.core k)).getS (jB w)).toNat + ((s.ctx (.core k)).getS (jC w)).toNat ≤ localSize)
    (ho : (s.conn (jImm w % 64)).state = .open_) {d : List Byte}
    (hr : s.readLocal k.val ((s.ctx (.core k)).getS (jB w)).toNat ((s.ctx (.core k)).getS (jC w)).toNat = (d, false, s)) :
    ∃ t, exec (.jTfdt (.core k)) s = .next t ∧
      t.ctx (.core k) = (s.ctx (.core k)).copying (.tfdt (jImm w % 64) (s.conn (jImm w % 64)).nextMsg .open_) := by
  obtain ⟨hat, hend⟩ := h
  have open' : ¬(s.conn (jImm w % 64)).state ≠ .open_ := by simp [ho]
  have allowed : ¬(localSize < ((s.ctx (.core k)).getS (jB w)).toNat + ((s.ctx (.core k)).getS (jC w)).toNat ∨
      ((s.ctx (.core k)).getS (jC w)).toNat = 0) := by omega
  let u := (s.setCtx (.core k) ((s.ctx (.core k)).copying (.tfdt (jImm w % 64) (s.conn (jImm w % 64)).nextMsg .open_))).fdtMessage
    (jImm w % 64) 0 [] ((s.ctx (.core k)).getS (jA w)).toNat d (.core k.val)
  have kept : u.ctx (.core k) = _ :=
    ((onlyEth_fdtMessage _ _ _ _ _ _ _).field fun x => x.ctx (.core k)).trans (ctx_setCtx _ hat.1)
  have run : exec (.jTfdt (.core k)) s = .next (u.jput (.core k) (u.ctx (.core k))) := by
    rw [exec_jTfdt, execJTfdt, jstream_core hat]
    simp only [if_neg allowed, if_neg open', hr, Bool.false_eq_true, if_false]
    rfl
  have goes : u.jput (.core k) (u.ctx (.core k)) = u.setCtx (.core k) (u.ctx (.core k)) := jput_inside (by rw [kept]; exact hend) u _
  exact ⟨_, run.trans (congrArg _ goes), (ctx_setCtx _ (by rw [kept]; exact hat.1)).trans kept⟩

theorem exec_jTwait_done (h : s.InKernel (.core k) w 0x83) (hc : (s.ctx (.core k)).copies = []) :
    exec (.jTwait (.core k)) s = .next (s.setCtx (.core k) (s.ctx (.core k)).tick) := by
  obtain ⟨hat, hend⟩ := h
  rw [exec_jTwait, execJTwait, jstream_core hat]
  simp only [hc, List.any_nil, Bool.false_eq_true, if_false, List.isEmpty_nil, if_true]
  rw [jput_inside (y := (s.ctx (.core k)).tick) hend]

/-! ### STREAM_COPY_DONE -/

variable {rest : List StreamCopy} {u : State} {d : List Byte} {a l n : Nat}

theorem exec_streamCopyDone_trd (hc : (s.ctx (.core k)).copies = .trd a l n :: rest)
    (hr : (s.setCtx (.core k) { s.ctx (.core k) with copies := rest }).readSlow a n = (d, false, u)) :
    exec (.streamCopyDone k) s = .next (u.writeLocal k.val l d) := by
  show execStreamCopyDone k s = _
  simp only [execStreamCopyDone, hc, copyDue, hr, Bool.false_eq_true, if_false]

theorem exec_streamCopyDone_twr {q : Nat} {seq : Word32} (hc : (s.ctx (.core k)).copies = .twr a l n q seq :: rest)
    (hr : (s.setCtx (.core k) { s.ctx (.core k) with copies := rest }).readLocal k.val l n = (d, false, u)) :
    exec (.streamCopyDone k) s = .next (u.storeSlow a d) := by
  show execStreamCopyDone k s = _
  simp only [execStreamCopyDone, hc, copyDue, hr, Bool.false_eq_true, if_false]

end

end Sys2Proof.Machine
end

section
/-! The statement on synchronisation and streams. -/

namespace Sys2Proof.Proofs

open Sys2Proof.Machine Sys2Proof.Laws

/-- Settles O14: each instruction is one step of its context; a copy that has finished moves its bytes. -/
theorem jviSyncAndStreams : Obligations.JviSyncAndStreams := by
  refine ⟨fun s c w => ⟨exec_jScadd, exec_jScwait, ?engine, ?core⟩,
    fun s u k a l n q seq rest d => ⟨exec_streamCopyDone_trd, exec_streamCopyDone_twr⟩⟩
  case engine =>
    rintro e rfl
    simp only [List.forall_mem_cons]
    exact ⟨fun h => by rw [exec_jTrd, jstream_engine h], fun h => by rw [exec_jTwr, jstream_engine h],
      fun h => by rw [exec_jTfdt, execJTfdt, jstream_engine h], fun h => by rw [exec_jTwait, execJTwait, jstream_engine h],
      List.forall_mem_nil _⟩
  case core =>
    rintro k rfl
    refine ⟨fun hn hr hl => ?starts, fun hb => ?refused, fun h hn hl ho hr => ?tfdt, exec_jTwait_done⟩
    case starts =>
      have allowed := streamOk_iff _ |>.2 ⟨hn, hr, hl⟩
      refine ⟨fun h => ?_, fun h => ?_⟩
      · rw [exec_jTrd, jstream_core h.1, startCopy_ok _ allowed h.2]
      · rw [exec_jTwr, jstream_core h.1, startCopy_ok _ allowed h.2]
    case refused =>
      refine ⟨fun h => ?_, fun h => ?_⟩
      · rw [exec_jTrd, jstream_core h, startCopy_bad _ hb]
      · rw [exec_jTwr, jstream_core h, startCopy_bad _ hb]
    case tfdt =>
      obtain ⟨t, hexec, hctx⟩ := exec_jTfdt_sends h hn hl ho hr
      exact ⟨t, hexec, by rw [hctx]; rfl, by rw [hctx]; exact List.getLast?_concat⟩

end Sys2Proof.Proofs
end

section
/-! Operations on the synchronisation counters (R180, R183, R194, R286, R317), and the counters when the main domain comes up. -/

namespace Sys2Proof.Machine

open Sys2Proof.Laws

/-! ### One operation -/

/-- What decides of a counter and of the vote that it may release. -/
def State.counting (s : State) : Sync × Job × Grp := (s.sync, s.job, s.grp)

theorem State.Notices.counting {s t : State} (h : s.Notices t) : t.counting = s.counting := h.field State.counting

section
variable (s : State)

theorem notices_scFlags (n : Nat) (old new : Counter) (src : Nat) : s.Notices (s.scFlags n old new src) := by
  unfold State.scFlags
  dsimp only
  split
  · refine .trans ?_ (notices_msix _ 277)
    split
    · exact .refl s
    · exact notices_report s _ _ _ _ _
  · exact .refl s

/-- Stated for any update: the kernel is not asked to compare the watches with what is written to them. -/
theorem counting_onHst (f : Hst → Hst) : (s.onHst f).counting = s.counting := rfl

theorem counting_watchAll (n : Nat) : (s.watchAll n).counting = s.counting := by
  have fire (u : State) (k : Nat) : (u.watchFire k).counting = u.counting := by
    unfold State.watchFire
    dsimp only
    rw [apply_ite State.counting, (notices_msix _ _).counting, counting_onHst, ite_self]
  exact foldl_proj State.counting (fun u kw => by rw [apply_ite State.counting, fire, ite_self]) _ s

/-- The state in which an operation has written its counter, with its records and messages. -/
def State.scWritten (n : Nat) (op : ScOp) (v : Word32) (src : ScSource) : State :=
  let u := s.setCounter n (scResult (s.counter n) op v false)
  let u := if isExternal src then
      u.onSync fun y => { y with ext := Sparse.put ⟨none, 0⟩ y.ext n (extResult (Sparse.get ⟨none, 0⟩ y.ext n) op v) }
    else u
  (u.scFlags n (s.counter n) (scResult (s.counter n) op v false) (srcByte src)).injEnd 0x13 n

theorem scOp_of_quiet {s : State} (q : s.Quiet) (n : Nat) (op : ScOp) (v : Word32) (src : ScSource) :
    s.scOp n op v src = ((s.scWritten n op v src).watchAll n).voteCheck n := by
  have none (f : Nat → Bool) : s.opportunity 0x0604 0x13 n 0 f = (none, s) := opportunity_of_slots_nil q.1 _ _ _ _ _
  cases op <;> simp only [State.scOp, none] <;> rfl

theorem counting_scWritten (n : Nat) (op : ScOp) (v : Word32) (src : ScSource) : ∃ ext, (s.scWritten n op v src).counting =
    ({ s.sync with sc := Sparse.put Reset.counter s.sync.sc n (scResult (s.counter n) op v false), ext := ext }, s.job, s.grp) := by
  unfold State.scWritten
  dsimp only
  cases isExternal src with
  | false => exact ⟨s.sync.ext, (notices_scFlags _ _ _ _ _).counting⟩
  | true => exact ⟨_, (notices_scFlags _ _ _ _ _).counting⟩

variable {s}

/-- The counter that VOTE_SC names releases a vote while a job runs, and no other does (R286). -/
theorem voteCheck_of_no_vote {n : Nat} (h : s.jobRuns = false ∨ n ≠ s.grp.cfg.voteSc) : s.voteCheck n = s := by
  refine if_neg fun hc => ?_
  obtain h | h := h
  · exact Bool.false_ne_true (h.symm.trans hc.1)
  · exact h hc.2.2.1

/-- An operation writes its counter and no other. -/
theorem counter_scOp (q : s.Quiet) {n : Nat} (h : s.jobRuns = false ∨ n ≠ s.grp.cfg.voteSc) (op : ScOp) (v : Word32) (src : ScSource) :
    (∀ m, m ≠ n → (s.scOp n op v src).counter m = s.counter m) ∧ (s.scOp n op v src).counter n = scResult (s.counter n) op v false := by
  obtain ⟨ext, written⟩ := counting_scWritten s n op v src
  have counting := (counting_watchAll (s.scWritten n op v src) n).trans written
  have sync : ((s.scWritten n op v src).watchAll n).sync = _ := congrArg Prod.fst counting
  have job : ((s.scWritten n op v src).watchAll n).job = s.job := congrArg (·.2.1) counting
  have grp : ((s.scWritten n op v src).watchAll n).grp = s.grp := congrArg (·.2.2) counting
  have noVote : ((s.scWritten n op v src).watchAll n).jobRuns = false ∨ n ≠ ((s.scWritten n op v src).watchAll n).grp.cfg.voteSc := by
    rwa [State.jobRuns, job, grp]
  rw [scOp_of_quiet q, voteCheck_of_no_vote noVote]
  simp only [State.counter, sync]
  exact ⟨fun m hm => get_put_other _ _ _ hm.symm, get_put_same _ _ _ _⟩

/-- The command of a source whose command arrives. -/
theorem scCommand_arrives (q : s.Quiet) {src : ScSource} (h : src = .pcie ∧ s.linkUp = true ∨ src ≠ .pcie ∧ s.boot.mainOn = true)
    (n : Fin 16384) (op : ScOp) (v : Word32) : s.scCommand n op v src = s.scOp n.val op v src := by
  obtain ⟨rfl, hl⟩ | ⟨hs, hm⟩ := h
  · simp only [State.scCommand, hl, q.tlp, if_true]
  · cases src with
    | pcie => exact absurd rfl hs
    | chord _ | fdt _ | queue _ | engine _ | core _ | landing _ => simp only [State.scCommand, hm, if_true]

/-- A register of three fields. The places stand for any, so that the kernel meets no large power. -/
theorem regOf_three (a b c i j k : Nat) : regOf [(a, i), (b, j), (c, k)] = BitVec.ofNat 64 (a * 2 ^ i + (b * 2 ^ j + c * 2 ^ k)) := by
  simp only [regOf, List.map_cons, List.map_nil, List.sum_cons, List.sum_nil, Nat.add_zero]

theorem toNat_scReg (c : Counter) : (scReg c).toNat = c.value.toNat + 2 ^ 32 * bit c.ovf + 2 ^ 33 * bit c.unf := by
  have value := c.value.isLt
  have flag (b : Bool) : bit b ≤ 1 := by cases b <;> decide
  have ovf := flag c.ovf
  have unf := flag c.unf
  rw [scReg, regOf_three, BitVec.toNat_ofNat, Nat.mod_eq_of_lt (by omega)]
  omega

/-- A read of a counter's register shows its value and its flags. -/
theorem bar0Read_counter (n : Fin 16384) : (s.bar0Read (0x100000 + 8 * n.val)).toNat =
    (s.counter n).value.toNat + 2 ^ 32 * bit (s.counter n).ovf + 2 ^ 33 * bit (s.counter n).unf := by
  have inside := n.isLt
  have index : (0x100000 + 8 * n.val - 0x100000) / 8 = n.val := by omega
  have place : s.bar0Read (0x100000 + 8 * n.val) = scReg (s.counter n.val) := by
    unfold State.bar0Read
    rw [if_neg (by omega), if_neg (by omega), if_neg (by omega), if_pos (by omega), index]
  rw [place, toNat_scReg]

end

/-! ### The main domain comes up (R180, R418) -/

/-- The main domain's power and the counters. -/
def State.mainCounters (s : State) : Bool × Sync := (s.boot.mainOn, s.sync)

theorem State.Notices.mainCounters {s t : State} (h : s.Notices t) : t.mainCounters = s.mainCounters := h.field State.mainCounters

section
variable (s : State)

theorem mainCounters_setRegime (g : Regime) : (s.setRegime g).mainCounters = s.mainCounters := by
  unfold State.setRegime
  split
  · rfl
  · exact (notices_report _ _ _ _ _ _).mainCounters

theorem mainCounters_setGoal (v : Nat) : (s.setGoal v).mainCounters = s.mainCounters := by
  unfold State.setGoal
  split
  · rfl
  · split <;> rfl

theorem mainCounters_powerSettle : s.powerSettle.mainCounters = s.mainCounters := by
  have follows (u : State) : ((u.setRegime u.runRegime).holdWinter).mainCounters = u.mainCounters := by
    rw [State.holdWinter, apply_ite State.mainCounters, mainCounters_setGoal, ite_self, mainCounters_setRegime]
  unfold State.powerSettle
  dsimp only
  rw [apply_ite State.mainCounters, follows, ite_self, (notices_throttle _).mainCounters]
  rfl

theorem State.OnlyAnswers.mainCounters {s t : State} {r : Route} (h : s.OnlyAnswers t r) : t.mainCounters = s.mainCounters := by
  rw [h.1]
  rfl

theorem mainCounters_endWaiter (st : Word16) : (s.endWaiter st).mainCounters = s.mainCounters := by
  have answered : (s.endCommand s.boot.waiter st []).mainCounters = s.mainCounters := by
    unfold State.endCommand
    split
    · split
      · exact (respond_answers s _ st []).1.mainCounters
      · rfl
    · rfl
  exact answered

variable {s}

theorem exec_startupRails_good (gen width : Nat) (hp : s.boot.phase = 4) (hs : s.boot.springHeld = false) (ho : s.boot.offUntil = none) :
    ∃ t, exec (.startupRails none gen width) s = .next t ∧ t.mainCounters = (true, Reset.sync) := by
  have goes : ¬(s.boot.phase ≠ 4 ∨ s.boot.springHeld = true ∨ s.boot.offUntil.isSome = true) := by simp [hp, hs, ho]
  exact ⟨_, if_neg goes, (mainCounters_endWaiter _ _).trans ((mainCounters_powerSettle _).trans (mainCounters_setRegime _ _))⟩

end

theorem State.OnlyReports.sync {s t : State} (h : s.OnlyReports t) : t.sync = s.sync := by
  simpa [State.sansReports] using congrArg State.sync h.rest

theorem sync_hostViol (s : State) (row : Nat) (hdr : Word64) : (s.hostViol row hdr).sync = s.sync := (onlyReports_hostViol s row hdr).sync

end Sys2Proof.Machine
end

section
/-! The statement on the counters' operations. -/

namespace Sys2Proof.Proofs

open Sys2Proof.Machine Sys2Proof.Laws

/-- Settles O43: each command is one operation, whose records, messages and watches touch no counter. -/
theorem counterOperations : Obligations.CounterOperations := by
  intro s n v src hdr x q arrives noVote
  have operation (op : ScOp) (v : Word32) := counter_scOp q noVote op v src
  have run (op : ScOp) (v : Word32) : (.next (s.scCommand n op v src) : Host.Outcome State Fault Refusal) = .next (s.scOp n.val op v src) :=
    congrArg Host.Outcome.next (scCommand_arrives q arrives n op v)
  refine ⟨⟨_, run .add v, (operation .add v).1, (operation .add v).2.trans ?add⟩, ⟨_, run .sub v, (operation .sub v).1, (operation .sub v).2.trans ?sub⟩,
    ⟨_, run .set v, operation .set v⟩, ⟨_, run .clear 0, operation .clear 0⟩, bar0Read_counter n, fun gen width hp hs ho => ?rails,
    ?flr, fun hl hx => ⟨?undefined, sync_hostViol s 8 hdr⟩⟩
  case add => simp [scResult]
  case sub => simp [scResult]
  case rails =>
    obtain ⟨t, hexec, up⟩ := exec_startupRails_good gen width hp hs ho
    obtain ⟨main, sync⟩ := Prod.ext_iff.1 up
    exact ⟨t, hexec, main, fun m => by rw [State.counter, show t.sync = Reset.sync from sync]; rfl⟩
  case flr =>
    by_cases hl : s.linkUp = true
    · exact ⟨_, exec_functionLevelReset q hl, fun _ => rfl⟩
    · exact ⟨s, congrArg Host.Outcome.next (if_neg hl), fun _ => rfl⟩
  case undefined => exact congrArg Host.Outcome.next ((if_pos ⟨hl, hx⟩).trans (by rw [q.tlp]))

end Sys2Proof.Proofs
end

section
/-! The statement on reset values. -/

namespace Sys2Proof.Proofs

open Sys2Proof.Machine Sys2Proof.Laws

/-- Settles O46: an array of the reset state lists no entry, so that each of its entries is the default. -/
theorem resetValues : Obligations.ResetValues := by
  refine ⟨Nat.le_refl _, fun _ => rfl, fun _ => rfl, fun _ => rfl, fun _ => ⟨rfl, rfl⟩, rfl, rfl, rfl, fun _ => rfl, rfl, rfl, rfl,
    rfl, rfl, rfl, rfl, rfl, rfl, fun r => ?_, rfl⟩
  cases r <;> rfl

end Sys2Proof.Proofs
end

/-! ### Work items: a copy to the host marks its queue (R170) -/
section
namespace Sys2Proof.Machine
open Sys2Proof.Laws Sys2Proof.Tests

/-- The tail of a DMA descriptor that fills one byte at host address 0 with zero: DST in space 0x4, LEN 1, ZERO set (Table 06-9). -/
def zeroHostByte : List Byte := List.replicate 15 0 ++ [0x40, 1, 0, 0, 0, 2]
/-- That DMA, alone in the window of DMA queue 64, on a module whose link carries host-bound requests. -/
def zeroItem : Item := itemOf (desc 3 zeroHostByte) []
def zeroing : State := queued 64 (desc 3 zeroHostByte) []

theorem zeroing_takes : zeroing.Takes 64 zeroItem .dma := by
  unfold State.Takes; decide
theorem zeroing_idle : ∀ x ∈ (zeroing.queue 64).window, x.running = false := by decide
theorem zeroing_copy : (zeroing.take 64 zeroItem).dmaCopy zeroItem.desc = some ⟨none, .host 0, 1⟩ := by decide
theorem zeroing_open : zeroing.hostOpen = true := by decide
theorem zeroing_unparked : (zeroing.take 64 zeroItem).copyParked ⟨none, .host 0, 1⟩ = false := by decide

/-- A copy of zeros to the host that can be issued leaves the queue's mark at the writes handed over so far. -/
theorem doCopy_zeros_host (s : State) (q : Nat) (i : Item) (a len : Nat) (hopen : s.hostOpen = true)
    (hpark : s.copyParked ⟨none, .host a, len⟩ = false) :
    s.doCopy q i ⟨none, .host a, len⟩ =
      ((s.copyTo (dStep i.desc) (.host a) (List.replicate len 0)).markHost q).finish q i.seq stOk 0 0 := by
  simp [State.doCopy, hopen, hpark, Loc.isHost]

/-- With no item of the queue running, the copy of a DMA that is taken is carried out. -/
theorem exec_dma_of_takes {s : State} {d : Fin 8} {q : Nat} {i : Item} {c : Copy} (hq : 64 + d.val = q) (ht : s.Takes q i .dma)
    (idle : ∀ x ∈ (s.queue q).window, x.running = false) (hc : (s.take q i).dmaCopy i.desc = some c) :
    exec (.dma d) s = .next ((s.take q i).doCopy q i c) := by
  have none_runs : ((s.queue q).window.find? fun x => x.running && dKind x.desc == some .dma) = none := by
    rw [List.find?_eq_none]
    intro x hx
    simp [idle x hx]
  show Host.Outcome.next (s.runCopy (64 + d.val) _ _) = _
  rw [hq, State.runCopy, none_runs]
  dsimp only
  rw [runKind_of_takes ht, hc]

/-- The zeros as they stand in host memory, before the item finishes. -/
def zeroed : State := (zeroing.take 64 zeroItem).copyTo (dStep zeroItem.desc) (.host 0) (List.replicate 1 0)

theorem exec_zeroing : exec (.dma 0) zeroing = .next ((zeroed.markHost 64).finish 64 zeroItem.seq stOk 0 0) :=
  (exec_dma_of_takes (d := 0) rfl zeroing_takes zeroing_idle zeroing_copy).trans
    (congrArg Host.Outcome.next (doCopy_zeros_host _ 64 zeroItem 0 1 zeroing_open zeroing_unparked))

/-- The copy handed one host-bound write over, and the queue's mark says so. -/
theorem zeroed_marked : (((zeroed.markHost 64).finish 64 zeroItem.seq stOk 0 0).queue 64).hostMark = 1 := by decide
/-- Without `markHost` the mark stands where it stood. -/
theorem zeroed_unmarked : ((zeroed.finish 64 zeroItem.seq stOk 0 0).queue 64).hostMark = 0 := by decide

end Sys2Proof.Machine
end

section
namespace Sys2Proof.Proofs
open Sys2Proof.Machine Sys2Proof.Laws Sys2Proof.Tests

/-- Refutes O49: a DMA that zeroes host memory also moves the mark of the host writes that a later FENCE of its queue waits for (R170),
which the statement's end state leaves out. The counterexample is `zeroing`, one byte of zeros for host address 0. -/
theorem not_workItems : ¬ Obligations.WorkItems := by
  intro h
  obtain ⟨-, -, -, -, -, -, -, -, -, -, copies, -⟩ := h zeroing 64 0 0 zeroItem
  obtain ⟨-, zeros, -⟩ := copies zeroing_idle
  have claimed : exec (.dma 0) zeroing = .next (zeroed.finish 64 zeroItem.seq stOk 0 0) :=
    zeros zeroing_takes ⟨none, .host 0, 1⟩ zeroing_copy rfl (fun _ => zeroing_open) zeroing_unparked
  have same : (zeroed.markHost 64).finish 64 zeroItem.seq stOk 0 0 = zeroed.finish 64 zeroItem.seq stOk 0 0 :=
    Host.Outcome.next.inj (exec_zeroing.symm.trans claimed)
  have unmarked := zeroed_marked
  rw [same, zeroed_unmarked] at unmarked
  exact absurd unmarked (by decide)

end Sys2Proof.Proofs
end

/-! ### VECTOR kernels, commits and completion records (R157, R165, R173, R205) -/
section
namespace Sys2Proof.Machine
open Sys2Proof.Laws

/-! The contexts that a VECTOR enters. -/

/-- Reading and checking an image leaves the tile map. -/
theorem sansWork_fetchImage (s : State) (q a : Nat) : (s.fetchImage q a).2.2.sansWork = s.sansWork := by
  unfold State.fetchImage
  split
  · rfl
  · dsimp only
    split
    · exact sansWork_readLoc s _ _
    · split
      · exact sansWork_readLoc s _ _
      · split
        · exact sansWork_readLoc s _ _
        · split <;> simp

theorem ptile_fetchImage (s : State) (q a e : Nat) : (s.fetchImage q a).2.2.ptile e = s.ptile e :=
  ptile_of_tileMap (field_of_sansWork (sansWork_fetchImage s q a) State.tileMap) e

theorem pc_setS (x : JviCtx) (i : Nat) (v : Word64) : (x.setS i v).pc = x.pc := by
  unfold JviCtx.setS
  split <;> rfl

/-- Scalars 1 to n written in order: each reads back. -/
theorem getS_foldl_setS (v : Nat → Word64) (x : JviCtx) (n k : Nat) (h : k < n) :
    ((List.range n).foldl (fun (r : JviCtx) j => r.setS (j + 1) (v j)) x).getS (k + 1) = v k := by
  induction n with
  | zero => exact absurd h (Nat.not_lt_zero k)
  | succ n ih =>
    rw [List.range_succ, List.foldl_append]
    show (JviCtx.setS _ (n + 1) (v n)).getS (k + 1) = v k
    rw [getS_setS]
    by_cases hk : k = n
    · rw [if_pos ⟨by omega, by omega⟩, hk]
    · rw [if_neg (by omega)]
      exact ih (by omega)

/-- A context stands at the first instruction of a kernel, with the argument block in s1 to s16. -/
structure JviCtx.Entered (x : JviCtx) (i : Item) (code : List Word64) : Prop where
  busy : x.busy = true
  pc : x.pc = 0
  code : x.code = code
  seq : x.seq = i.seq
  args : ∀ k, k < 16 → x.getS (k + 1) = BitVec.ofNat 64 (le i.block (8 * k) 8)

theorem entered_enter (x : JviCtx) (q : Nat) (i : Item) (code : List Word64) : (x.enter q i code).Entered i code := by
  have args := getS_foldl_setS (fun j => BitVec.ofNat 64 (le i.block (8 * j) 8)) Reset.jvi 16
  have pc := foldl_proj JviCtx.pc (fun r k => pc_setS r (k + 1) (BitVec.ofNat 64 (le i.block (8 * k) 8))) (List.range 16) Reset.jvi
  unfold JviCtx.enter
  dsimp only at args ⊢
  generalize List.foldl (fun (r : JviCtx) k => r.setS (k + 1) (BitVec.ofNat 64 (le i.block (8 * k) 8))) Reset.jvi (List.range 16) = r at args pc ⊢
  exact { busy := rfl, pc := pc, code := rfl, seq := rfl, args := args }

theorem ctx_setCtx_core (s : State) (k j : Fin 32) (x : JviCtx) :
    (s.setCtx (.core k) x).ctx (.core j) = if k = j then x else s.ctx (.core j) := by
  by_cases h : k = j
  · subst h
    rw [if_pos rfl]
    exact get_put_same _ _ _ _
  · rw [if_neg h]
    exact get_put_other _ _ _ fun e => h (Fin.ext e)

theorem ctx_setCtx_engine {s : State} {e : Fin 64} (h : (s.ptile e.val).isSome = true) (x : JviCtx) :
    (s.setCtx (.engine e) x).ctx (.engine e) = x := by
  obtain ⟨p, hp⟩ := Option.isSome_iff_exists.1 h
  simp only [State.ctx, State.setCtx, hp]
  have same : (s.onTile p fun t => { t with vec := x }).ptile e.val = some p := hp
  rw [same]
  exact congrArg Tile.vec (tile_onTile_same s p _)

/-- VECTOR enters its contexts in turn. -/
def State.enterAll (s : State) (q : Nat) (i : Item) (code : List Word64) (l : List Ctx) : State :=
  l.foldl (fun s c => s.setCtx c ((s.ctx c).enter q i code)) s

/-- A core that has entered the kernel, or is still to enter it, has entered it at the end. -/
theorem entered_enterAll_cores (q : Nat) (i : Item) (code : List Word64) (j : Fin 32) (l : List (Fin 32)) (s : State)
    (h : j ∈ l ∨ (s.ctx (.core j)).Entered i code) : ((s.enterAll q i code (l.map Ctx.core)).ctx (.core j)).Entered i code := by
  induction l generalizing s with
  | nil => exact h.resolve_left (by simp)
  | cons k l ih =>
    apply ih
    rw [ctx_setCtx_core]
    by_cases hk : k = j
    · rw [if_pos hk]
      exact .inr (entered_enter _ q i code)
    · rw [if_neg hk]
      exact h.imp_left fun hm => (List.mem_cons.1 hm).resolve_left (Ne.symm hk)

theorem entered_enterAll (s : State) (q : Nat) (i : Item) (code : List Word64) {x : Ctx} (hx : x ∈ vectorCtxs q i.desc)
    (hp : ∀ e : Fin 64, x = .engine e → (s.ptile e).isSome = true) :
    ((s.enterAll q i code (vectorCtxs q i.desc)).ctx x).Entered i code := by
  unfold vectorCtxs at hx ⊢
  by_cases hq : q < 64
  · rw [dif_pos hq] at hx ⊢
    obtain rfl := List.mem_singleton.1 hx
    rw [State.enterAll, List.foldl_cons, List.foldl_nil, ctx_setCtx_engine (hp _ rfl)]
    exact entered_enter _ q i code
  · rw [dif_neg hq] at hx ⊢
    obtain ⟨j, hj, rfl⟩ := List.mem_map.1 hx
    exact entered_enterAll_cores q i code j _ s (.inl hj)

section
variable {s : State} {q : Fin 76} {i : Item} (ht : s.Takes q.val i .vector) (hb : i.block.length = 128)
include ht hb

/-- The kernel of a VECTOR that is taken: refused by its check, or entered. -/
theorem exec_vector : exec (.vector q) s = .next
    (let f := (s.take q i).fetchImage q (dAddr i.desc 40)
     if f.1 ≠ stOk then f.2.2.finish q i.seq f.1 0 0 else f.2.2.enterAll q i f.2.1 (vectorCtxs q i.desc)) := by
  show Host.Outcome.next (s.runKind q.val .vector _) = _
  rw [runKind_of_takes ht, if_neg (not_not_intro hb)]
  rfl

theorem exec_vector_refused (h : ((s.take q i).fetchImage q (dAddr i.desc 40)).1 ≠ stOk) : exec (.vector q) s =
    .next (((s.take q i).fetchImage q (dAddr i.desc 40)).2.2.finish q i.seq ((s.take q i).fetchImage q (dAddr i.desc 40)).1 0 0) :=
  (exec_vector ht hb).trans (congrArg _ (if_pos h))

theorem exec_vector_enters (h : ((s.take q i).fetchImage q (dAddr i.desc 40)).1 = stOk) : exec (.vector q) s =
    .next (((s.take q i).fetchImage q (dAddr i.desc 40)).2.2.enterAll q i ((s.take q i).fetchImage q (dAddr i.desc 40)).2.1
      (vectorCtxs q i.desc)) :=
  (exec_vector ht hb).trans (congrArg _ (if_neg (not_not_intro h)))

end

/-! Commits that end at once or begin (Table 07-7). -/

section
variable {s : State} {c : Fin 4} {i : Item} (ht : s.Takes (72 + c) i .commit)
include ht

/-- A COMMIT that is taken carries out its plan, where the plan can be carried out. -/
theorem exec_commit (may : s.planMay (commitReq (72 + c) i.desc) (s.commitPlan (commitReq (72 + c) i.desc)) = true) :
    exec (.commit c) s = .next
      (match (s.take (72 + c) i).runPlan (s.commitPlan (commitReq (72 + c) i.desc)) with
       | (some e, t) => (((t.payEnded s (commitReq (72 + c) i.desc).queue).finish (72 + c) i.seq e.1 e.2 0).noteCommitted
           (commitReq (72 + c) i.desc).step).settleStep
       | (none, t) => t) := by
  obtain ⟨ready, kind, order⟩ := ht
  show execCommit c s = _
  unfold execCommit
  dsimp only
  rw [ready]
  dsimp only
  rw [if_pos ⟨kind, .inl may⟩, runKind_of_takes ⟨ready, kind, order⟩] <;> rfl

theorem exec_commit_ends {st : Word16} {o : Nat} (plan : s.commitPlan (commitReq (72 + c) i.desc) = .ends st o none)
    (voted : s.votedFor (commitReq (72 + c) i.desc) = true) :
    exec (.commit c) s = .next (((((s.take (72 + c) i).payEnded s (commitReq (72 + c) i.desc).queue).finish (72 + c) i.seq st o 0).noteCommitted
      (commitReq (72 + c) i.desc).step).settleStep) := by
  rw [exec_commit ht (by rw [plan]; exact voted), plan]
  rfl

theorem exec_commit_begins {x : CommitRun} (plan : s.commitPlan (commitReq (72 + c) i.desc) = .begins x)
    (may : s.planMay (commitReq (72 + c) i.desc) (.begins x) = true) (begun : ((s.take (72 + c) i).beginCommit x).1 = none) :
    exec (.commit c) s = .next ((s.take (72 + c) i).beginCommit x).2 := by
  rw [exec_commit ht (by rw [plan]; exact may), plan]
  unfold State.runPlan
  dsimp only
  rw [begun]
  rfl

end

/-! UPD_COMMIT. -/

/-- The state in which UPD_COMMIT works: its own request no longer counts as waiting. -/
def State.unchecked (s : State) (r : Route) : State := s.setMbox r { s.mbox r with checked := false }

/-- What a commit comes to does not depend on the mailboxes. -/
theorem commitPlan_unchecked (s : State) (r : Route) (q : CommitReq) : (s.unchecked r).commitPlan q = s.commitPlan q := by
  cases r <;> rfl

/-- While a commit awaits its buddy no step settles. -/
theorem settleStep_of_commit {s : State} (h : s.comp.commit.isSome = true) : s.settleStep = s := by
  have held : s.comp.commit.isNone = false := by rw [Option.isNone_eq_false_iff]; exact h
  unfold State.settleStep
  dsimp only
  rw [if_neg (by simp [held])]

section
variable {s : State} {r : Route} (hw : s.Waits r 0x0706) (hd : s.deny r 0x0706 = none)
include hw hd

/-- UPD_COMMIT does what its effect on the request says, and then the step may settle. -/
theorem exec_updCommit (may : s.planMay (updCommitReq r (s.payload r)) (s.commitPlan (updCommitReq r (s.payload r))) = true) :
    exec (.updCommit r) s = .next
      ((match updCommitCmd r (s.payload r) s with
        | .done st resp s' => s'.respond r st resp
        | .running s' => s'.setMbox r { s'.mbox r with state := .running, reached := some stOk }
        | .pending s' => s'.setMbox r { s'.mbox r with state := .running, reached := none }).settleStep) := by
  obtain ⟨posted, checked, op, ready⟩ := hw
  show execUpdCommit r s = _
  unfold execUpdCommit State.command
  dsimp only
  rw [show mPayload (s.mbox r).request = s.payload r from rfl, if_pos may, if_pos ⟨posted, checked, op, ready⟩, hd] <;> rfl

theorem exec_updCommit_ends {st : Word16} {o : Nat} (plan : s.commitPlan (updCommitReq r (s.payload r)) = .ends st o none)
    (voted : s.votedFor (updCommitReq r (s.payload r)) = true) :
    exec (.updCommit r) s = .next
      ((((s.unchecked r).payEnded s none).noteCommitted (updCommitReq r (s.payload r)).step).respond r st []).settleStep := by
  have same : (s.unchecked r).payEnded (s.unchecked r) none = (s.unchecked r).payEnded s none := by cases r <;> rfl
  have cmd : updCommitCmd r (s.payload r) s =
      .done st [] (((s.unchecked r).payEnded s none).noteCommitted (updCommitReq r (s.payload r)).step) := by
    rw [← same]
    show (match (s.unchecked r).runPlan ((s.unchecked r).commitPlan _) with | (some _, _) => _ | (none, _) => _) = _
    rw [commitPlan_unchecked, plan]
    rfl
  rw [exec_updCommit hw hd (by rw [plan]; exact voted), cmd]

theorem exec_updCommit_begins {x : CommitRun} (plan : s.commitPlan (updCommitReq r (s.payload r)) = .begins x)
    (may : s.planMay (updCommitReq r (s.payload r)) (.begins x) = true) (begun : ((s.unchecked r).beginCommit x).1 = none)
    (waits : ((s.unchecked r).beginCommit x).2.comp.commit.isSome = true) :
    s.RunsOn (.updCommit r) r ((s.unchecked r).beginCommit x).2 := by
  have cmd : updCommitCmd r (s.payload r) s = .running ((s.unchecked r).beginCommit x).2 := by
    show (match (s.unchecked r).runPlan ((s.unchecked r).commitPlan _) with
      | (some _, _) => _ | (none, t) => if t.comp.commit.isSome then CmdResult.running t else _) = _
    rw [commitPlan_unchecked, plan]
    unfold State.runPlan
    dsimp only
    rw [begun]
    exact if_pos waits
  unfold State.RunsOn
  rw [exec_updCommit hw hd (by rw [plan]; exact may), cmd]
  generalize ((s.unchecked r).beginCommit x).2 = t at waits ⊢
  exact congrArg _ (settleStep_of_commit (by cases r <;> exact waits))

end

/-! Completion (R157). -/

theorem exec_descriptorComplete {s : State} {q : Fin 76} {i : Item} {st : Word16} {o rows : Nat} (hi : s.item q i.seq = some i)
    (hf : i.run = .finished st o rows) (landed : s.writesOut q i.seq = false) (clear : q.val < 72 ∨ s.d2dClear .control 1 = true)
    (calm : (s.completeItem q i st o rows).job.faultReplay = false) :
    exec (.descriptorComplete q i.seq) s = .next (s.completeItem q i st o rows) := by
  have open' : ¬(s.writesOut q i.seq = true ∨ 72 ≤ q.val ∧ (!s.d2dClear .control 1) = true) := by
    rw [landed]
    rintro (h | ⟨hq, h⟩)
    · exact Bool.noConfusion h
    · obtain c | c := clear
      · omega
      · rw [c] at h
        exact Bool.noConfusion h
  show execDescriptorComplete q i.seq s = _
  unfold execDescriptorComplete
  rw [hi]
  dsimp only
  rw [hf]
  dsimp only
  rw [if_neg open', State.faultReplay, if_neg fun h => by simp [calm] at h]

/-- The fields of a completion record (Table 06-3). -/
theorem fields_complBytes (s : State) (seq : Word32) (st : Word16) (o rows : Nat) :
    let b := s.complBytes seq st o rows
    b.length = 16 ∧ le b 0 4 = seq.toNat ∧ le b 4 2 = st.toNat ∧ le b 6 1 = o % 256 ∧ le b 8 2 = rows % 65536 ∧
      le b 10 6 = s.now % 2 ^ 48 := by
  intro b
  have field (off n v : Nat) (h : slice b off n = leBytes n v) : le b off n = v % 256 ^ n := by rw [le, h, leNat_leBytes]
  exact ⟨rfl, (field 0 4 _ rfl).trans (Nat.mod_eq_of_lt seq.isLt), (field 4 2 _ rfl).trans (Nat.mod_eq_of_lt st.isLt),
    field 6 1 o rfl, field 8 2 rows rfl, field 10 6 s.now rfl⟩

end Sys2Proof.Machine
end

section
namespace Sys2Proof.Proofs
open Sys2Proof.Machine Sys2Proof.Laws

/-- Settles O50: one lemma per kind of end. What a COMMIT comes to is its plan, which depends on no mailbox. -/
theorem kernelsAndCommits : Obligations.KernelsAndCommits := by
  intro s q c r i
  refine ⟨fun ht hb => ?vector, fun ht st o plan voted => exec_commit_ends ht plan voted,
    fun ht x plan may begun => exec_commit_begins ht plan may begun, fun hw hd st o plan voted => ?ends,
    fun hw hd x plan may begun waits => exec_updCommit_begins hw hd plan may begun waits,
    fun st o rows hi hf landed clear calm => exec_descriptorComplete hi hf landed clear calm, fields_complBytes s⟩
  case vector =>
    refine ⟨exec_vector_refused ht hb, fun good => ⟨_, exec_vector_enters ht hb good, fun x hx hp => ?_⟩⟩
    obtain ⟨busy, pc, code, seq, args⟩ := entered_enterAll ((s.take q i).fetchImage q (dAddr i.desc 40)).2.2 q i
      ((s.take q i).fetchImage q (dAddr i.desc 40)).2.1 hx fun e he => by rw [ptile_fetchImage, ptile_take]; exact hp e he
    exact ⟨busy, pc, code, seq, args⟩
  case ends =>
    obtain ⟨only, done, status, -⟩ := respond_answers (((s.unchecked r).payEnded s none).noteCommitted (updCommitReq r (s.payload r)).step) r st []
    exact ⟨_, exec_updCommit_ends hw hd plan voted, only, status, done⟩

end Sys2Proof.Proofs
end

/-! ### What memory accesses, records, frames and passing time leave as it was (R51, R222 to R232, R389 to R394) -/
section
namespace Sys2Proof.Machine
open Sys2Proof.Laws

/-- The state without what these write: module time, memories with their health, the Almanac with its injections, host-bound traffic,
Ethernet, counters of ticks, control messages that wait, free values and the output. -/
def State.sansUpkeep (s : State) : State := { s with
  boot := { s.boot with modCount := 0, smbAlert := false, faulted := false }
  tiles := [], mem := Reset.mem, alm := Reset.alm, hst := s.hst.sansTraffic, eth := Reset.eth
  chd := { s.chd with turn := [], ports := [], ctlIn := [] }, pwrRegs := Reset.pwrRegs, out := [], free := 0 }

/-- A part of the state that the mask keeps is the same wherever the masked states are. -/
theorem field_of_upkeep {s t : State} (h : t.sansUpkeep = s.sansUpkeep) {α : Type} (f : State → α)
    (hf : ∀ x : State, f x.sansUpkeep = f x := by exact fun _ => rfl) : f t = f s :=
  ((hf t).symm.trans (congrArg f h)).trans (hf s)

theorem State.Notices.upkeep {s t : State} (h : s.Notices t) : t.sansUpkeep = s.sansUpkeep := h.field State.sansUpkeep
theorem State.OnlyEth.upkeep {s t : State} (h : s.OnlyEth t) : t.sansUpkeep = s.sansUpkeep := h.field State.sansUpkeep

@[simp] theorem upkeep_ite (c : Prop) [Decidable c] (s t : State) :
    (if c then s else t).sansUpkeep = if c then s.sansUpkeep else t.sansUpkeep := apply_ite State.sansUpkeep c s t

section
variable (s : State)

/-! Parts of the state. -/

@[simp] theorem upkeep_onHst {f : Hst → Hst} (h : ∀ x, (f x).sansTraffic = x.sansTraffic) : (s.onHst f).sansUpkeep = s.sansUpkeep :=
  congrArg (fun x => { s.sansUpkeep with hst := x }) (h s.hst)
@[simp] theorem upkeep_onMem (f : Mem → Mem) : (s.onMem f).sansUpkeep = s.sansUpkeep := rfl
@[simp] theorem upkeep_onAlm (f : Alm → Alm) : (s.onAlm f).sansUpkeep = s.sansUpkeep := rfl
@[simp] theorem upkeep_onEthPort (i : Nat) (f : EthPort → EthPort) : (s.onEthPort i f).sansUpkeep = s.sansUpkeep := rfl
@[simp] theorem upkeep_onTileMem (p : Nat) (f : TileMem → TileMem) : (s.onTileMem p f).sansUpkeep = s.sansUpkeep := rfl
@[simp] theorem upkeep_onTileRegs (p : Nat) (f : TileRegs → TileRegs) : (s.onTileRegs p f).sansUpkeep = s.sansUpkeep := rfl
@[simp] theorem upkeep_onTileWork (p : Nat) (f : TileWork → TileWork) : (s.onTileWork p f).sansUpkeep = s.sansUpkeep := rfl
@[simp] theorem upkeep_onChannel (c : Nat) (f : Channel → Channel) : (s.onChannel c f).sansUpkeep = s.sansUpkeep := rfl
@[simp] theorem upkeep_onLp (l : Nat) (f : LpChannel → LpChannel) : (s.onLp l f).sansUpkeep = s.sansUpkeep := rfl
@[simp] theorem upkeep_emit (o : Out) : (s.emit o).sansUpkeep = s.sansUpkeep := rfl
@[simp] theorem upkeep_draw : s.draw.2.sansUpkeep = s.sansUpkeep := rfl

/-! Messages, records and injections. -/

@[simp] theorem upkeep_msix (v : Nat) : (s.msix v).sansUpkeep = s.sansUpkeep := (notices_msix s v).upkeep
@[simp] theorem upkeep_sendControl (x y : Nat) (b : List Byte) : (s.sendControl x y b).sansUpkeep = s.sansUpkeep :=
  (notices_sendControl s x y b).upkeep
@[simp] theorem upkeep_report (code : Nat) (sev : Severity) (kind index : Nat) (p : List Byte) :
    (s.report code sev kind index p).sansUpkeep = s.sansUpkeep := (notices_report s code sev kind index p).upkeep
@[simp] theorem upkeep_fdtControl (k : Nat) (b : List Byte) : (s.fdtControl k b).sansUpkeep = s.sansUpkeep :=
  (onlyEth_fdtControl s k b).upkeep
@[simp] theorem upkeep_injEnd (kind index : Nat) : (s.injEnd kind index).sansUpkeep = s.sansUpkeep := rfl

@[simp] theorem upkeep_opportunity (det kind index tile : Nat) (ok : Nat → Bool) :
    (s.opportunity det kind index tile ok).2.sansUpkeep = s.sansUpkeep := by
  unfold State.opportunity
  refine foldl_proj (fun a : Option Nat × State => a.2.sansUpkeep) (fun a k => ?_) _ _
  simp [apply_ite Prod.snd, State.disarm, State.setSlot, State.injBegin]

@[simp] theorem upkeep_fires (det kind index : Nat) : (s.fires det kind index).2.sansUpkeep = s.sansUpkeep := by simp [State.fires]

@[simp] theorem upkeep_issueHost (o : Out) : (s.issueHost o).sansUpkeep = s.sansUpkeep := by
  have stored (u : State) (off : Nat) (d : List Byte) : (u.storeG7 off d).sansUpkeep = u.sansUpkeep :=
    (upkeep_onMem _ _).trans (foldl_proj State.sansUpkeep (fun v k => upkeep_onMem v _) (cwSpan off d.length) u)
  have logged (u : State) (w : HostWrite) : (u.logWrite w).sansUpkeep = u.sansUpkeep := by simp [State.logWrite, State.logStore, stored]
  unfold State.issueHost
  split <;> simp [logged]

@[simp] theorem upkeep_hostWrite (relaxed : Bool) (a : Nat) (d : List Byte) : (s.hostWrite relaxed a d).sansUpkeep = s.sansUpkeep := by
  simp [State.hostWrite, State.hostBound]

/-! G7, the slow tier and the scratchpads. -/

theorem upkeep_lookAll {look : State → Nat → CwHealth × State} (h : ∀ s cw, (look s cw).2.sansUpkeep = s.sansUpkeep) (l : List Nat) :
    (lookAll look s l).2.2.sansUpkeep = s.sansUpkeep := by
  induction l generalizing s with
  | nil => rfl
  | cons cw l ih => exact (ih _).trans (h s cw)

@[simp] theorem upkeep_g7Look (cw : Nat) : (s.g7Look cw).2.sansUpkeep = s.sansUpkeep := by
  simp [State.g7Look, State.g7Ue, State.g7Ce, State.g7Retrain]
@[simp] theorem upkeep_slowLook (cw : Nat) : (s.slowLook cw).2.sansUpkeep = s.sansUpkeep := by
  simp [State.slowLook, State.slowUe, State.slowCe]
@[simp] theorem upkeep_padLook (p cw : Nat) : (s.padLook p cw).2.sansUpkeep = s.sansUpkeep := by simp [State.padLook]

@[simp] theorem upkeep_parkAll (off len : Nat) : (s.parkAll off len).sansUpkeep = s.sansUpkeep := by
  obtain ⟨l, h⟩ := parkAll_frame s off len
  rw [h]
  rfl

@[simp] theorem upkeep_readG7 (off len : Nat) : (s.readG7 off len).2.2.sansUpkeep = s.sansUpkeep :=
  (upkeep_lookAll _ upkeep_g7Look _).trans (upkeep_parkAll s off len)
@[simp] theorem upkeep_readSlow (off len : Nat) : (s.readSlow off len).2.2.sansUpkeep = s.sansUpkeep := upkeep_lookAll s upkeep_slowLook _
@[simp] theorem upkeep_readLocal (c off len : Nat) : (s.readLocal c off len).2.2.sansUpkeep = s.sansUpkeep := by simp [State.readLocal]

@[simp] theorem upkeep_readLoc (l : Loc) (len : Nat) : (s.readLoc l len).2.2.sansUpkeep = s.sansUpkeep := by
  unfold State.readLoc
  cases l with
  | g7 o => exact upkeep_readG7 s o len
  | slow o => exact upkeep_readSlow s o len
  | pad e o =>
    dsimp only
    split
    · exact upkeep_lookAll s (fun u cw => upkeep_padLook u _ cw) _
    · rfl
  | acc e o => dsimp only; split <;> rfl
  | host | remote | reduce => rfl

@[simp] theorem upkeep_writeG7 (off : Nat) (d : List Byte) : (s.writeG7 off d).sansUpkeep = s.sansUpkeep :=
  (foldl_proj State.sansUpkeep (fun u cw => by simp [State.writeG7Cw, State.setG7Health]) _ _).trans (upkeep_parkAll s _ _)
@[simp] theorem upkeep_writeSlow (off : Nat) (d : List Byte) : (s.writeSlow off d).sansUpkeep = s.sansUpkeep :=
  foldl_proj State.sansUpkeep (fun u cw => by simp [State.writeSlowCw, State.setSlowHealth]) _ s
@[simp] theorem upkeep_storeSlow (off : Nat) (d : List Byte) : (s.storeSlow off d).sansUpkeep = s.sansUpkeep := upkeep_writeSlow s _ _
@[simp] theorem upkeep_setDir (off v : Nat) : (s.setDir off v).sansUpkeep = s.sansUpkeep := upkeep_writeSlow s _ _

@[simp] theorem upkeep_writeRecord (a : Nat) (d : List Byte) : (s.writeRecord a d).sansUpkeep = s.sansUpkeep := by
  unfold State.writeRecord
  split <;> simp

theorem upkeep_jnlRing (pos : Nat) (x : List Byte) : (s.jnlRing pos x).sansUpkeep = s.sansUpkeep := by
  unfold State.jnlRing
  split <;> simp

theorem upkeep_jnlCopied (pos : Nat) (x : List Byte) : (s.jnlCopied pos x).sansUpkeep = s.sansUpkeep := by
  unfold State.jnlCopied
  split
  · rfl
  · split <;> simp

/-! Passing time. -/

theorem upkeep_setCount (v : Word64) : (s.onBoot fun b => { b with modCount := v }).sansUpkeep = s.sansUpkeep := rfl

theorem upkeep_epoch (k : Nat) : (s.epoch k).sansUpkeep = s.sansUpkeep := (upkeep_report _ _ _ _ _ _).trans (upkeep_setCount s _)

@[simp] theorem upkeep_endPause (i : Nat) : (s.endPause i).sansUpkeep = s.sansUpkeep := by
  rw [endPause_frame]
  rfl

@[simp] theorem upkeep_pass (n : Nat) : (s.pass n).sansUpkeep = s.sansUpkeep := by
  have wrapped (f : Nat → Nat) (l : List Nat) (u : State) : (l.foldl (fun s i => s.epoch (f i)) u).sansUpkeep = u.sansUpkeep :=
    foldl_proj State.sansUpkeep (fun v i => upkeep_epoch v (f i)) l u
  have counted : (s.countTicks n).sansUpkeep = s.sansUpkeep := rfl
  unfold State.pass
  split
  · rfl
  · dsimp only
    rw [upkeep_endPause, upkeep_endPause, upkeep_setCount, wrapped, counted]

@[simp] theorem upkeep_passTo (t : Nat) : (s.passTo t).sansUpkeep = s.sansUpkeep := by simp [State.passTo]

end

end Sys2Proof.Machine
end

/-! ### Queue control (R153, R154, R168, R174 to R176) -/
section
namespace Sys2Proof.Machine
open Sys2Proof.Laws

/-! The state of a queue after it settles. -/

/-- What `settle` makes of a queue at a time. -/
def Queue.settled (u : Queue) (now : Nat) : Queue :=
  let isWait : Bool := match u.window.head? with | some i => i.waiting && dKind i.desc == some .wait | none => false
  let u := { u with waitSince := if isWait then some (u.waitSince.getD now) else none }
  if u.state = .idle ∨ u.state = .run ∨ u.state = .replay then
    { u with state := if u.disabling then .run
                      else if u.replays then .replay
                      else if !u.enable then .disabled
                      else if u.window.isEmpty && !u.disabling then .idle else .run }
  else u

theorem queue_settle (s : State) (q : Nat) : (s.settle q).queue q = (s.queue q).settled s.now := queue_onQueue_same s q _

section
variable (u : Queue) (n : Nat)

theorem settled_frame : u.settled n = { u with state := (u.settled n).state, waitSince := (u.settled n).waitSince } := by
  unfold Queue.settled
  dsimp only
  split <;> rfl

@[simp] theorem enable_settled : (u.settled n).enable = u.enable := by rw [settled_frame]
@[simp] theorem window_settled : (u.settled n).window = u.window := by rw [settled_frame]
@[simp] theorem bell_settled : (u.settled n).bell = u.bell := by rw [settled_frame]
@[simp] theorem expect_settled : (u.settled n).expect = u.expect := by rw [settled_frame]
@[simp] theorem head_settled : (u.settled n).head = u.head := by rw [settled_frame]
@[simp] theorem attempts_settled : (u.settled n).attempts = u.attempts := by rw [settled_frame]

/-- A queue that polls, is stale, stopped or disabled stays so. -/
theorem state_settled_held (h : ¬(u.state = .idle ∨ u.state = .run ∨ u.state = .replay)) : (u.settled n).state = u.state := by
  unfold Queue.settled
  dsimp only
  rw [if_neg h]

/-- An enabled queue that neither replays nor is to be disabled is idle with an empty window and runs with another. -/
theorem state_settled_calm (h : u.state = .idle ∨ u.state = .run ∨ u.state = .replay) (on : u.enable = true) (stay : u.disabling = false)
    (fresh : u.replays = false) : (u.settled n).state = if u.window.isEmpty then .idle else .run := by
  refine (congrArg Queue.state (if_pos h)).trans ?_
  show (if u.disabling = true then QState.run else if u.replays = true then .replay else if (!u.enable) = true then .disabled
    else if (u.window.isEmpty && !u.disabling) = true then .idle else .run) = _
  rw [stay, fresh, on]
  simp

theorem state_settled_idle (h : u.state = .idle) (on : u.enable = true) (stay : u.disabling = false) (empty : u.window = []) :
    (u.settled n).state = .idle := by
  have fresh : u.replays = false := by rw [Queue.replays, empty]; rfl
  rw [state_settled_calm u n (.inl h) on stay fresh, empty]
  rfl

theorem state_settled_ne_stopped (h : u.state ≠ .stopped) : (u.settled n).state ≠ .stopped := by
  unfold Queue.settled
  dsimp only
  split
  · repeat' split
    all_goals simp
  · exact h

end

/-! What leaves the queues as they were. -/

/-- A change outside the queues of the streams, with any upkeep. -/
theorem queue_of_queues {s t : State} (h : t.streams.queues = s.streams.queues) (q : Nat) : t.queue q = s.queue q := by
  unfold State.queue
  rw [h]

theorem queue_of_upkeep {s t : State} (h : t.sansUpkeep = s.sansUpkeep) (q : Nat) : t.queue q = s.queue q :=
  queue_of_queues (congrArg Streams.queues (field_of_upkeep h State.streams)) q

section
variable (s : State)

theorem queues_report_injEnd (code : Nat) (sev : Severity) (kind index : Nat) (p : List Byte) (k : Nat) :
    ((s.report code sev kind index p).injEnd 3 k).streams = s.streams := field_of_upkeep (by simp) State.streams

theorem queue_queueError (k q : Nat) : (s.queueError k).queue q = s.queue q := by
  unfold State.queueError
  rw [queue_of_upkeep (upkeep_msix _ _)]
  split <;> rfl

theorem queue_passTo (n q : Nat) : (s.passTo n).queue q = s.queue q := queue_of_upkeep (upkeep_passTo s n) q

theorem queue_jnlAppend (k q : Nat) (d block : List Byte) : (s.jnlAppend k d block).queue q = s.queue q := by
  have ring (u : State) (pos : Nat) (x : List Byte) : ((u.jnlRing pos x).jnlCopied pos x).queue q = u.queue q :=
    queue_of_upkeep ((upkeep_jnlCopied _ pos x).trans (upkeep_jnlRing u pos x)) q
  have written (x : List Byte) : (s.jnlWrite x).queue q = s.queue q := by
    rw [jnlWrite_eq]
    dsimp only
    refine (queue_of_queues rfl q).trans ?_
    split
    · exact ring s _ _
    · exact (ring _ _ _).trans (ring s _ _)
  unfold State.jnlAppend
  split
  · rfl
  · exact (queue_of_queues rfl q).trans (written _)

theorem injEnd_of_no_keys (h : s.alm.injKeys = []) (kind index : Nat) : s.injEnd kind index = s := by
  have kept : s.alm.injKeys.filter (· != srcKey kind index) = s.alm.injKeys := by rw [h]; rfl
  show { s with alm := { s.alm with injKeys := s.alm.injKeys.filter (· != srcKey kind index) } } = s
  rw [kept]

/-- The window of a queue whose item is taken. -/
theorem window_take (q : Nat) (i : Item) : ((s.take q i).queue q).window =
    (s.queue q).window.map fun j => if j.seq = i.seq then { j with run := .running } else j := by
  have taken : (s.take q i).queue q = ((s.onItem q i.seq fun j => { j with run := .running }).onQueue q fun u => { u with
      lastStep := some (stepMark u.lastStep (dStep i.desc)) }).queue q := queue_of_queues rfl q
  rw [taken, queue_onQueue_same, State.onItem, queue_onQueue_same]

theorem window_finish (q : Nat) (seq : Word32) (st : Word16) (o rows : Nat) : ((s.finish q seq st o rows).queue q).window =
    (s.queue q).window.map fun j => if j.seq = seq then { j with run := .finished st o rows } else j := by
  rw [State.finish, State.onItem, queue_onQueue_same]

end

/-! Fetching. -/

/-- A queue without a doorbell, or whose doorbell it has reached, fetches nothing. -/
theorem mayFetch_of_bell_reached {s : State} {q : Nat} (h : ∀ d, (s.queue q).bell = some d → (s.queue q).expect = d) : s.mayFetch q = false := by
  unfold State.mayFetch
  dsimp only
  cases hb : (s.queue q).bell with
  | none => simp
  | some d => simp [bellAllows, h d hb]

theorem fetchFrom_of_not_mayFetch {s : State} {q : Nat} (h : s.mayFetch q = false) (n : Nat) : s.fetchFrom q n = s := by
  cases n with
  | zero => rfl
  | succ n =>
    unfold State.fetchFrom
    rw [h]
    rfl

/-- A queue that is allowed its next slot alone may fetch it. -/
theorem mayFetch_of_bell_next {s : State} {q : Nat} (on : (s.queue q).enable = true) (stay : (s.queue q).disabling = false)
    (may : s.mayRead q = true) (bell : (s.queue q).bell = some ((s.queue q).expect + 1)) (front : (s.queue q).head = (s.queue q).expect) :
    s.mayFetch q = true := by
  have next : bellAllows (s.queue q) ((s.queue q).expect + 1) = true := by
    have one : ((s.queue q).expect + 1 - (s.queue q).expect).toNat = 1 := by
      rw [BitVec.add_comm, BitVec.add_sub_cancel]
      rfl
    have room : 1 ≤ ringSlots (s.queue q) := Nat.one_le_two_pow
    have apart : (s.queue q).expect ≠ (s.queue q).expect + 1 := fun e => by
      rw [← e, BitVec.sub_self] at one
      exact absurd one (by decide)
    unfold bellAllows
    rw [one, decide_eq_true room, Bool.and_true]
    exact bne_iff_ne.2 apart
  unfold State.mayFetch
  dsimp only
  rw [on, stay, may, bell]
  show (true && bellAllows (s.queue q) ((s.queue q).expect + 1) && decide (((s.queue q).expect - (s.queue q).head).toNat < 32)) = true
  rw [next, front, BitVec.sub_self]
  rfl

theorem fetch_eq {s : State} {q : Nat} (h : (s.queue q).state = .idle ∨ (s.queue q).state = .run) : s.fetch q = (s.fetchFrom q 32).settle q :=
  if_pos (h.imp_right .inl)

theorem queue_accept (s : State) (q : Nat) (d block : List Byte) : (s.accept q d block).queue q =
    { s.queue q with
      expect := (s.queue q).expect + 1, attempts := 0, jnlFull := false, state := if (s.queue q).state = .stopped then .stopped else .run
      window := (s.queue q).window ++ [⟨dSeq d, d, block, firstRun q d, false, none⟩] } := by
  unfold State.accept
  rw [queue_onQueue_same, queue_jnlAppend]

section
variable {s x : State} {q : Nat}

/-- The slot that the doorbell allows holds a descriptor: it is accepted, and nothing more is allowed. -/
theorem fetchFrom_accepts {desc block : List Byte} (may : s.mayFetch q = true) (found : s.fetchSlot q = (.ok desc block, x))
    (calm : x.alm.injKeys = []) (room : x.jnlRoom block = true) (bell : (x.queue q).bell = some ((x.queue q).expect + 1)) (n : Nat) :
    s.fetchFrom q (n + 1) = x.accept q desc block := by
  unfold State.fetchFrom
  rw [may, if_pos rfl, found]
  dsimp only
  rw [injEnd_of_no_keys x calm, room, if_pos rfl]
  refine fetchFrom_of_not_mayFetch (mayFetch_of_bell_reached fun d hd => ?_) n
  rw [queue_accept] at hd ⊢
  exact Option.some.inj (bell.symm.trans hd)

/-- The slot that the doorbell allows is stale: the queue polls it. -/
theorem fetchFrom_stale {cause : Nat} {found : Word32} (may : s.mayFetch q = true) (stale : s.fetchSlot q = (.stale cause found, x)) (n : Nat) :
    s.fetchFrom q (n + 1) = x.onQueue q fun u => { u with state := if u.state = .stopped then .stopped else .repoll, attempts := 0 } := by
  unfold State.fetchFrom
  rw [may, if_pos rfl, stale]

end

/-! QCTRL (Table 06-16). -/

section
variable {s : State} (quiet : s.Quiet) (up : s.linkUp = true) (q : Fin 76) {v : Word64}
include quiet up

theorem exec_queueEnable (on : fld v 63 1 = 1) (off : (s.queue q).enable = false) : exec (.queueEnable q v) s = .next (s.writeQctrl q v) := by
  show Host.Outcome.next (if _ then s.tlp.writeQctrl q v else s) = _
  rw [if_pos ⟨up, on, by rw [off]; rfl⟩, quiet.tlp]

theorem exec_queueDisable (off : fld v 63 1 = 0) (on : (s.queue q).enable = true) : exec (.queueDisable q v) s = .next (s.writeQctrl q v) := by
  show Host.Outcome.next (if _ then s.tlp.writeQctrl q v else s) = _
  rw [if_pos ⟨up, off, on⟩, quiet.tlp]

theorem exec_queueResume (on : fld v 63 1 = 1) (resume : fld v 40 1 = 1) (stopped : (s.queue q).state = .stopped) :
    exec (.queueResume q v) s = .next (s.writeQctrl q v) := by
  show Host.Outcome.next (if _ then s.tlp.writeQctrl q v else s) = _
  rw [if_pos ⟨up, on, resume, stopped⟩, quiet.tlp]

end

/-- The queue as a write of QCTRL to a disabled queue programs it. -/
def Queue.programmed (u : Queue) (v : Word64) : Queue := { u with log2n := fld v 32 5, seqStart := BitVec.ofNat 32 (fld v 0 32) }

section
variable {s : State} {q : Nat} {v : Word64}

theorem writeQctrl_of_disabled (off : (s.queue q).enable = false) : s.writeQctrl q v =
    if (!(fld v 63 1 == 1)) = true then s.onQueue q fun _ => (s.queue q).programmed v
    else if enableRefused ((s.queue q).programmed v) then (s.onQueue q fun _ => (s.queue q).programmed v).queueError q
    else (s.onQueue q fun _ => (s.queue q).programmed v).onQueue q fun u => { u with
      enable := true, expect := u.seqStart, head := u.seqStart, state := .idle, window := [], bell := none, lastStep := none, doneAhead := []
      attempts := 0, disabling := false, waitSince := none, jnlFull := false } :=
  if_neg (by rw [off]; exact Bool.false_ne_true)

theorem writeQctrl_enable (on : fld v 63 1 = 1) (off : (s.queue q).enable = false) (good : enableRefused ((s.queue q).programmed v) = false) :
    s.writeQctrl q v = (s.onQueue q fun _ => (s.queue q).programmed v).onQueue q fun u => { u with
      enable := true, expect := u.seqStart, head := u.seqStart, state := .idle, window := [], bell := none, lastStep := none, doneAhead := []
      attempts := 0, disabling := false, waitSince := none, jnlFull := false } := by
  rw [writeQctrl_of_disabled off, on, good]
  rfl

theorem writeQctrl_refused (on : fld v 63 1 = 1) (off : (s.queue q).enable = false) (bad : enableRefused ((s.queue q).programmed v) = true) :
    s.writeQctrl q v = (s.onQueue q fun _ => (s.queue q).programmed v).queueError q := by
  rw [writeQctrl_of_disabled off, on, bad]
  rfl

theorem writeQctrl_disable (off : fld v 63 1 = 0) (on : (s.queue q).enable = true) :
    s.writeQctrl q v = ((s.onQueue q fun u => { u with disabling := true, state := .run, attempts := 0 }).tryDisable q).settle q := by
  unfold State.writeQctrl
  dsimp only
  rw [on, off]
  rfl

theorem writeQctrl_resume (on : fld v 63 1 = 1) (enabled : (s.queue q).enable = true) (resume : fld v 40 1 = 1)
    (stopped : (s.queue q).state = .stopped) :
    s.writeQctrl q v = (((s.onQueue q fun u => { u with state := .run }).settle q).fetch q).settle q := by
  refine (if_pos enabled).trans ((if_neg ?_).trans (if_pos ⟨resume, stopped⟩))
  rw [on]
  decide

/-- With nothing running the queue to be disabled is disabled. -/
theorem queue_tryDisable (h : (s.queue q).disabling = true) (still : ∀ i ∈ (s.queue q).window, i.run = .waiting ∨ i.run = .complete) :
    (s.tryDisable q).queue q = { s.queue q with
      enable := false, disabling := false, state := .disabled, window := [], doneAhead := [], bell := none, jnlFull := false, attempts := 0 } := by
  have none_runs : ((s.queue q).window.any fun i => i.running || i.finished) = false := by
    rw [List.any_eq_false]
    intro i hi
    obtain w | c := still i hi
    · simp [Item.running, Item.finished, w]
    · simp [Item.running, Item.finished, c]
  unfold State.tryDisable
  dsimp only
  rw [if_pos ⟨h, by rw [none_runs]; rfl⟩, queue_onQueue_same]

/-- A queue without a doorbell that does not stand still settles when it fetches. -/
theorem queue_fetch_of_no_bell (h : (s.queue q).bell = none) :
    (s.fetch q).queue q = s.queue q ∨ (s.fetch q).queue q = (s.queue q).settled s.now := by
  unfold State.fetch
  dsimp only
  split
  · rw [fetchFrom_of_not_mayFetch (mayFetch_of_bell_reached (by simp [h])), queue_settle]
    exact .inr rfl
  · exact .inl rfl

end

/-! Doorbells. -/

section
variable {s : State} (quiet : s.Quiet) (up : s.linkUp = true) (q : Fin 76) {d : Word32}
include quiet up

theorem exec_qdoorbell : exec (.qdoorbell q d) s = .next (s.writeBell q d) := by
  show Host.Outcome.next (if _ then s.tlp.writeBell q d else s) = _
  rw [if_pos up, quiet.tlp]

end

section
variable {s : State} (quiet : s.Quiet) {q : Nat} {d : Word32} (on : (s.queue q).enable = true)
include quiet on

theorem writeBell_out (out : bellOut (s.queue q) d = true) : ∃ p, s.writeBell q d =
    ((s.onStreams fun t => { t with dbViolations := inc t.dbViolations }).report 0x0602 .warn 3 q p).injEnd 3 q := by
  unfold State.writeBell
  dsimp only
  rw [on, quiet.fires, if_neg (by decide)]
  exact ⟨_, if_pos (.inr out)⟩

/-- A doorbell in range of an idle queue is noted; a new one fetches. -/
theorem writeBell_in (inRange : bellOut (s.queue q) d = false) (idle : (s.queue q).state = .idle) : s.writeBell q d =
    if (s.queue q).bell != some d then (s.onQueue q fun x => { x with bell := some d }).fetch q
    else s.onQueue q fun x => { x with bell := some d } := by
  unfold State.writeBell
  dsimp only
  rw [on, quiet.fires, if_neg (by decide), idle, if_neg (by simp [inRange])]

end

/-! Polling again and WAIT_TIMEOUT. -/

section
variable {s x : State} {q : Fin 76} {cause : Nat} {found : Word32} (repoll : (s.queue q).state = .repoll) (may : s.mayRead q = true)
  (stale : (s.pass (pollWait ((s.queue q).attempts + 1))).poll q = (.stale cause found, x))
include repoll may stale

theorem exec_descriptorRepoll_again (more : (s.queue q).attempts < 63) :
    exec (.descriptorRepoll q) s = .next (x.onQueue q fun u => { u with attempts := (s.queue q).attempts + 1 }) := by
  show execDescriptorRepoll q s = _
  unfold execDescriptorRepoll
  dsimp only
  rw [if_neg (by simp [repoll, may]), stale]
  exact if_pos (by omega)

/-- Attempt 64 makes the queue stale. -/
theorem exec_descriptorRepoll_stale (last : 63 ≤ (s.queue q).attempts) :
    ∃ t, exec (.descriptorRepoll q) s = .next t ∧ (t.queue q).state = .stale := by
  have ended (u : State) (code : Nat) (sev : Severity) (p : List Byte) (h : (u.queue q).state = .stale) :
      ((((u.queueError q).report code sev 3 q p).injEnd 3 q).queue q).state = .stale := by
    rw [queue_of_queues (congrArg Streams.queues (queues_report_injEnd _ _ _ _ _ _ _)), queue_queueError, h]
  have run : ∃ p, exec (.descriptorRepoll q) s = .next (((((x.onQueue q fun u => { u with attempts := (s.queue q).attempts + 1 }).onQueue q fun u =>
      { u with state := .stale, staleCount := u.staleCount + 1 }).queueError q).report 0x0601 .warn 3 q p).injEnd 3 q) := by
    show ∃ p, execDescriptorRepoll q s = _
    unfold execDescriptorRepoll
    dsimp only
    rw [if_neg (by simp [repoll, may]), stale]
    exact ⟨_, if_neg (by omega)⟩
  obtain ⟨p, run⟩ := run
  refine ⟨_, run, ended _ _ _ _ ?_⟩
  rw [queue_onQueue_same]

end

/-- A WAIT at the front whose time is over ends with ST_TIMEOUT and stops its queue. -/
theorem exec_waitTimeout {s : State} {q : Fin 76} {i : Item} {k : Nat} (front : (s.queue q).window.head? = some i)
    (since : (s.queue q).waitSince = some k) (going : (s.queue q).state ≠ .stopped) (stay : (s.queue q).disabling = false)
    (timed : le i.desc 44 4 ≠ 0) (waiting : i.waiting = true) (kind : dKind i.desc = some .wait) (turn : i.replay = true ∨ s.replays = false)
    (unmet : (s.passTo (k + le i.desc 44 4)).ticketsMet i.desc = false) :
    exec (.waitTimeout q) s = .next ((((s.passTo (k + le i.desc 44 4)).take q i).finish q i.seq stTimeout 0 0).onQueue q fun u =>
      { u with state := .stopped }) := by
  have due : ¬(le i.desc 44 4 = 0 ∨ (!i.waiting) = true ∨ dKind i.desc ≠ some .wait ∨ (s.queue q).state = .stopped ∨
      (s.queue q).disabling = true ∨ (!i.replay && s.replays) = true) := by
    have turn' : (!i.replay && s.replays) = false := by
      obtain h | h := turn <;> rw [h] <;> simp
    simp [timed, waiting, kind, going, stay, turn']
  show execWaitTimeout q s = _
  unfold execWaitTimeout
  dsimp only
  rw [front, since]
  dsimp only
  rw [if_neg due, unmet]
  rfl

theorem mem_window_timed_out {s : State} {q : Nat} {i : Item} (front : (s.queue q).window.head? = some i) :
    ∃ j ∈ (((s.take q i).finish q i.seq stTimeout 0 0).queue q).window, j.seq = i.seq ∧ j.run = .finished stTimeout 0 0 := by
  have mem : i ∈ (s.queue q).window := List.mem_of_mem_head? front
  refine ⟨{ i with run := .finished stTimeout 0 0 }, ?_, rfl, rfl⟩
  rw [window_finish, window_take, List.map_map, List.mem_map]
  exact ⟨i, mem, by simp⟩

/-! The slot that a doorbell allows. -/

section
variable {s x : State} {q : Nat} {d : Word32}

/-- A doorbell that allows the next slot of an empty queue alone lets the queue fetch. -/
theorem mayFetch_rung (on : (s.queue q).enable = true) (stay : (s.queue q).disabling = false) (front : (s.queue q).head = (s.queue q).expect)
    (next : (s.queue q).expect + 1 = d) (may : s.mayRead q = true) : (s.onQueue q fun x => { x with bell := some d }).mayFetch q = true := by
  have may' : (s.onQueue q fun x => { x with bell := some d }).mayRead q = true := by
    rw [← may]
    unfold State.mayRead
    rw [queue_onQueue_same]
    rfl
  apply mayFetch_of_bell_next <;> try rw [queue_onQueue_same]
  · exact on
  · exact stay
  · exact may'
  · exact congrArg some next.symm
  · exact front

variable (rung : x.queue q = (s.onQueue q fun x => { x with bell := some d }).queue q) (idle : (s.queue q).state = .idle)
  (empty : (s.queue q).window = [])
include rung idle empty

/-- A queue that accepted the slot it was allowed runs with one descriptor. -/
theorem queue_accepted {desc block : List Byte} (on : (s.queue q).enable = true) (stay : (s.queue q).disabling = false) :
    let u := ((x.accept q desc block).settle q).queue q
    u.window = [⟨dSeq desc, desc, block, firstRun q desc, false, none⟩] ∧ u.expect = (s.queue q).expect + 1 ∧
      u.head = (s.queue q).head ∧ u.state = .run := by
  have accepted : (x.accept q desc block).queue q = { s.queue q with
      bell := some d, expect := (s.queue q).expect + 1, attempts := 0, jnlFull := false, state := .run
      window := [⟨dSeq desc, desc, block, firstRun q desc, false, none⟩] } := by
    rw [queue_accept, rung, queue_onQueue_same]
    dsimp only
    rw [if_neg (by rw [idle]; decide), empty]
    rfl
  rw [queue_settle, accepted]
  refine ⟨by simp, by simp, by simp, ?_⟩
  exact state_settled_calm _ _ (.inr (.inl rfl)) on stay rfl

/-- A queue whose slot is stale polls it. -/
theorem queue_stale :
    let u := ((x.onQueue q fun u => { u with state := if u.state = .stopped then .stopped else .repoll, attempts := 0 }).settle q).queue q
    u.window = [] ∧ u.expect = (s.queue q).expect ∧ u.state = .repoll ∧ u.attempts = 0 := by
  have polled : (x.onQueue q fun u => { u with state := if u.state = .stopped then .stopped else .repoll, attempts := 0 }).queue q =
      { s.queue q with bell := some d, state := .repoll, attempts := 0 } := by
    rw [queue_onQueue_same, rung, queue_onQueue_same]
    dsimp only
    rw [if_neg (by rw [idle]; decide)]
  rw [queue_settle, polled]
  exact ⟨by simp [empty], by simp, state_settled_held _ _ (by simp), by simp⟩

end

end Sys2Proof.Machine
end

section
namespace Sys2Proof.Proofs
open Sys2Proof.Machine Sys2Proof.Laws

/-- Settles O51: what each operation does to its queue, by the queue that it leaves. -/
theorem queueControl : Obligations.QueueControl := by
  intro s q v d quiet up u
  refine ⟨fun on off aligned fits => ?enable, fun on off bad => ?refused, fun off on still => ?disable,
    fun on resume stopped enabled noBell => ?resume, fun on out => ?out, fun on inRange stay idle reached empty => ?reached,
    fun on inRange stay idle empty front next new may => ?rung,
    fun repoll may cause found x stale => ⟨exec_descriptorRepoll_again repoll may stale, exec_descriptorRepoll_stale repoll may stale⟩,
    fun i k front since going stay timed waiting kind turn unmet => ?timeout⟩
  case enable =>
    have good : enableRefused (u.programmed v) = false := by
      have ring : (locRange u.base.toNat (80 * ringSlots (u.programmed v)) Loc.isG7OrHost).isNone = false := by
        rw [Option.isNone_eq_false_iff]
        exact fits
      show (u.base.toNat % 4096 != 0 || (locRange u.base.toNat (80 * ringSlots (u.programmed v)) Loc.isG7OrHost).isNone) = false
      rw [aligned, ring]
      rfl
    refine ⟨_, (exec_queueEnable quiet up q on off).trans (congrArg _ (writeQctrl_enable on off good)), ?_⟩
    rw [queue_onQueue_same, queue_onQueue_same]
    refine ⟨rfl, rfl, rfl, rfl, rfl, rfl, fun p hp => ?_⟩
    rw [queue_onQueue_other _ _ (Ne.symm hp), queue_onQueue_other _ _ (Ne.symm hp)]
  case refused =>
    have refuses : enableRefused (u.programmed v) = true := Bool.or_eq_true_iff.2 (.inl (bne_iff_ne.2 bad))
    refine ⟨_, (exec_queueEnable quiet up q on off).trans (congrArg _ (writeQctrl_refused on off refuses)), ?_⟩
    rw [queue_queueError, queue_onQueue_same]
    exact off
  case disable =>
    refine ⟨_, (exec_queueDisable quiet up q off on).trans (congrArg _ (writeQctrl_disable off on)), ?_⟩
    rw [queue_settle, queue_tryDisable (by rw [queue_onQueue_same]) (by rw [queue_onQueue_same]; exact still)]
    exact ⟨enable_settled _ _, state_settled_held _ _ (by simp), window_settled _ _⟩
  case resume =>
    refine ⟨_, (exec_queueResume quiet up q on resume stopped).trans (congrArg _ (writeQctrl_resume on enabled resume stopped)), ?_⟩
    have going : ((s.onQueue q fun u => { u with state := .run }).queue q).state ≠ .stopped := by rw [queue_onQueue_same]; simp
    have fetched := queue_fetch_of_no_bell (s := (s.onQueue q fun u => { u with state := .run }).settle q) (q := q)
      (by rw [queue_settle, bell_settled, queue_onQueue_same]; exact noBell)
    have kept : ((((s.onQueue q fun u => { u with state := .run }).settle q).fetch q).queue q).state ≠ .stopped ∧
        ((((s.onQueue q fun u => { u with state := .run }).settle q).fetch q).queue q).enable = true := by
      obtain h | h := fetched <;> rw [h, queue_settle]
      · exact ⟨state_settled_ne_stopped _ _ going, by rw [enable_settled, queue_onQueue_same]; exact enabled⟩
      · exact ⟨state_settled_ne_stopped _ _ (state_settled_ne_stopped _ _ going),
          by rw [enable_settled, enable_settled, queue_onQueue_same]; exact enabled⟩
    rw [queue_settle, enable_settled]
    exact ⟨state_settled_ne_stopped _ _ kept.1, kept.2⟩
  case out =>
    obtain ⟨p, rings⟩ := writeBell_out quiet on out
    refine ⟨_, (exec_qdoorbell quiet up q).trans (congrArg _ rings), ?_⟩
    rw [queues_report_injEnd]
    exact ⟨rfl, rfl⟩
  case reached =>
    refine ⟨_, (exec_qdoorbell quiet up q).trans (congrArg _ (writeBell_in quiet on inRange idle)), ?_⟩
    split
    · rw [fetch_eq (by rw [queue_onQueue_same]; exact .inl idle), fetchFrom_of_not_mayFetch (mayFetch_of_bell_reached fun b hb => ?_), queue_settle,
        queue_onQueue_same]
      · exact ⟨bell_settled _ _, state_settled_idle _ _ idle on stay empty⟩
      · rw [queue_onQueue_same] at hb ⊢
        exact reached.trans (Option.some.inj hb)
    · rw [queue_onQueue_same]
      exact ⟨rfl, idle⟩
  case rung =>
    let s1 := s.onQueue q fun x => { x with bell := some d }
    have rings : s.writeBell q d = (s1.fetchFrom q 32).settle q := by
      rw [writeBell_in quiet on inRange idle, if_pos (bne_iff_ne.2 new), fetch_eq (by rw [queue_onQueue_same]; exact .inl idle)]
    have allowed : s1.mayFetch q = true := mayFetch_rung on stay front next may
    refine ⟨fun desc block x found kept room calm => ?_, fun cause what x stale kept => ?_⟩
    · have bell : (x.queue q).bell = some ((x.queue q).expect + 1) := by
        rw [kept, queue_onQueue_same]
        exact congrArg some next.symm
      refine ⟨_, (exec_qdoorbell quiet up q).trans (congrArg _ (rings.trans (congrArg (State.settle · q)
        (fetchFrom_accepts allowed found calm room bell 31)))), ?_⟩
      obtain ⟨window, expect, head, state⟩ := queue_accepted kept idle empty (desc := desc) (block := block) on stay
      exact ⟨window, expect.trans next, head, state⟩
    · exact ⟨_, (exec_qdoorbell quiet up q).trans (congrArg _ (rings.trans (congrArg (State.settle · q)
        (fetchFrom_stale allowed stale 31)))), queue_stale kept idle empty⟩
  case timeout =>
    have ended := mem_window_timed_out (s := s.passTo (k + le i.desc 44 4)) (q := q) (i := i) (by rw [queue_passTo]; exact front)
    refine ⟨_, exec_waitTimeout front since going stay timed waiting kind turn unmet, ?_⟩
    rw [queue_onQueue_same]
    refine ⟨rfl, ?_⟩
    dsimp only
    exact ended

end Sys2Proof.Proofs
end

/-! ### What the work of a step leaves of the group's course (R277, R280, R293, R297 to R301, R422)

The deadline, the Apex's epoch, the groups and their slots, the recovery with its failed modules, the positions to come and the writes
that wait for the boundary: one record of them, and one lemma per operation that does not decide on them. -/
section
namespace Sys2Proof.Machine
open Sys2Proof.Laws

/-- What the group's messages and commands decide. -/
structure Course where
  deadline : Word64
  epoch : Word16
  groups : List Nat
  slots : List Nat
  phase : Nat
  recCase : Nat
  recStep : Word32
  newPos : Option (List Word64)
  failed : List Nat
  waiting : List Waiting

@[reducible] def courseOf (c : Chd) (g : Grp) (j : Job) : Course :=
  ⟨c.deadline, g.epoch, g.cfg.groups, g.slots, g.phase, g.recCase, g.recStep, g.newPos, g.failed, j.waiting⟩

def State.course (s : State) : Course := courseOf s.chd s.grp s.job

theorem course_of_upkeep {s t : State} (h : t.sansUpkeep = s.sansUpkeep) : t.course = s.course := field_of_upkeep h State.course

@[simp] theorem course_ite (c : Prop) [Decidable c] (s t : State) : (if c then s else t).course = if c then s.course else t.course :=
  apply_ite State.course c s t

section
variable (s : State)

/-! Parts of the state. -/

@[simp] theorem course_onBoot (f : Boot → Boot) : (s.onBoot f).course = s.course := rfl
@[simp] theorem course_onStreams (f : Streams → Streams) : (s.onStreams f).course = s.course := rfl
@[simp] theorem course_onSync (f : Sync → Sync) : (s.onSync f).course = s.course := rfl
@[simp] theorem course_onScales (f : Scales → Scales) : (s.onScales f).course = s.course := rfl
@[simp] theorem course_onComp (f : Comp → Comp) : (s.onComp f).course = s.course := rfl
@[simp] theorem course_onMem (f : Mem → Mem) : (s.onMem f).course = s.course := rfl
@[simp] theorem course_onHst (f : Hst → Hst) : (s.onHst f).course = s.course := rfl
@[simp] theorem course_onPwr (f : Pwr → Pwr) : (s.onPwr f).course = s.course := rfl
@[simp] theorem course_onPwrDyn (f : PwrDyn → PwrDyn) : (s.onPwrDyn f).course = s.course := rfl
@[simp] theorem course_onAlm (f : Alm → Alm) : (s.onAlm f).course = s.course := rfl
@[simp] theorem course_onD2d (f : D2d → D2d) : (s.onD2d f).course = s.course := rfl
@[simp] theorem course_onGrpStats (f : GrpStats → GrpStats) : (s.onGrpStats f).course = s.course := rfl
@[simp] theorem course_onQueue (q : Nat) (f : Queue → Queue) : (s.onQueue q f).course = s.course := rfl
@[simp] theorem course_onTileRegs (p : Nat) (f : TileRegs → TileRegs) : (s.onTileRegs p f).course = s.course := rfl
@[simp] theorem course_onTileWork (p : Nat) (f : TileWork → TileWork) : (s.onTileWork p f).course = s.course := rfl
@[simp] theorem course_onChannel (c : Nat) (f : Channel → Channel) : (s.onChannel c f).course = s.course := rfl
@[simp] theorem course_setScaleRec (i : Nat) (r : ScaleRec) : (s.setScaleRec i r).course = s.course := rfl
@[simp] theorem course_setCounter (n : Nat) (c : Counter) : (s.setCounter n c).course = s.course := rfl
@[simp] theorem course_draw : s.draw.2.course = s.course := rfl

@[simp] theorem course_onChd {f : Chd → Chd} (h : (f s.chd).deadline = s.chd.deadline) : (s.onChd f).course = s.course :=
  congrArg (fun d => { s.course with deadline := d }) h
@[simp] theorem course_onJob {f : Job → Job} (h : (f s.job).waiting = s.job.waiting) : (s.onJob f).course = s.course :=
  congrArg (fun w => { s.course with waiting := w }) h
@[simp] theorem course_onGrp {f : Grp → Grp} (h : courseOf s.chd (f s.grp) s.job = courseOf s.chd s.grp s.job) :
    (s.onGrp f).course = s.course := h

@[simp] theorem course_setCtx (c : Ctx) (x : JviCtx) : (s.setCtx c x).course = s.course := by
  unfold State.setCtx
  split
  · rfl
  · split <;> rfl

/-! Messages, records, memories, time. -/

@[simp] theorem course_msix (v : Nat) : (s.msix v).course = s.course := course_of_upkeep (by simp)
@[simp] theorem course_sendControl (x y : Nat) (b : List Byte) : (s.sendControl x y b).course = s.course := course_of_upkeep (by simp)
@[simp] theorem course_report (code : Nat) (sev : Severity) (kind index : Nat) (p : List Byte) :
    (s.report code sev kind index p).course = s.course := course_of_upkeep (by simp)
@[simp] theorem course_groupReport (code : Nat) (sev : Severity) (p : List Byte) : (s.groupReport code sev p).course = s.course :=
  course_report s _ _ _ _ _
@[simp] theorem course_fdtControl (k : Nat) (b : List Byte) : (s.fdtControl k b).course = s.course := course_of_upkeep (by simp)
@[simp] theorem course_injEnd (kind index : Nat) : (s.injEnd kind index).course = s.course := rfl
@[simp] theorem course_opportunity (det kind index tile : Nat) (ok : Nat → Bool) :
    (s.opportunity det kind index tile ok).2.course = s.course := course_of_upkeep (by simp)
@[simp] theorem course_fires (det kind index : Nat) : (s.fires det kind index).2.course = s.course := course_of_upkeep (by simp)
@[simp] theorem course_readLoc (l : Loc) (len : Nat) : (s.readLoc l len).2.2.course = s.course := course_of_upkeep (by simp)
@[simp] theorem course_readLocal (c off len : Nat) : (s.readLocal c off len).2.2.course = s.course := course_of_upkeep (by simp)
@[simp] theorem course_slowLook (cw : Nat) : (s.slowLook cw).2.course = s.course := course_of_upkeep (by simp)
@[simp] theorem course_writeSlow (off : Nat) (d : List Byte) : (s.writeSlow off d).course = s.course := course_of_upkeep (by simp)
@[simp] theorem course_storeSlow (off : Nat) (d : List Byte) : (s.storeSlow off d).course = s.course := course_of_upkeep (by simp)
@[simp] theorem course_setDir (off v : Nat) : (s.setDir off v).course = s.course := course_of_upkeep (by simp)
@[simp] theorem course_writeRecord (a : Nat) (d : List Byte) : (s.writeRecord a d).course = s.course := course_of_upkeep (by simp)
@[simp] theorem course_passTo (t : Nat) : (s.passTo t).course = s.course := course_of_upkeep (by simp)
@[simp] theorem course_throttle : s.throttle.course = s.course := course_of_upkeep (notices_throttle s).upkeep

@[simp] theorem course_route (vc st off : Nat) (dest : Nat × Nat) (late : Bool) (b : List Byte) :
    (s.route vc st off dest late b).course = s.course := by
  rw [route_frame]
  rfl

/-! Sync counters, watches and the vote (R180 to R183, R286, R317). -/

@[simp] theorem course_postVote (straggler : Bool) : (s.postVote straggler).course = s.course := by
  have fired : (if straggler then (false, s) else s.fires 0x0A02 0 0 : Bool × State).2.course = s.course := by
    split
    · rfl
    · exact course_fires s _ _ _
  unfold State.postVote
  dsimp only
  split
  · rfl
  · split
    · rfl
    · generalize (if straggler = true then (false, s) else s.fires 0x0A02 0 0 : Bool × State) = i at fired ⊢
      split
      · exact fired
      · split
        · exact (course_sendControl _ _ _ _).trans ((course_sendControl _ _ _ _).trans fired)
        · exact (course_sendControl _ _ _ _).trans fired

theorem course_watchFire (k : Nat) : (s.watchFire k).course = s.course := by
  unfold State.watchFire
  dsimp only
  rw [course_ite, course_msix, course_onHst, ite_self]

@[simp] theorem course_watchAll (n : Nat) : (s.watchAll n).course = s.course :=
  foldl_proj State.course (fun u kw => by rw [course_ite, course_watchFire, ite_self]) _ s

@[simp] theorem course_scFlags (n : Nat) (old new : Counter) (src : Nat) : (s.scFlags n old new src).course = s.course := by
  simp [State.scFlags]

@[simp] theorem course_scOp (n : Nat) (op : ScOp) (v : Word32) (src : ScSource) : (s.scOp n op v src).course = s.course := by
  unfold State.scOp State.voteCheck
  cases op <;> simp

@[simp] theorem course_restoreCounters : s.restoreCounters.course = s.course := by
  have restored (l : List Nat) (u : State) : (l.foldl State.restoreOne u).course = u.course :=
    foldl_proj State.course (fun v n => by simp [State.restoreOne]) l u
  have watched (l : List Nat) (u : State) : (l.foldl (fun s n => s.watchAll n) u).course = u.course := foldl_proj State.course course_watchAll l u
  simp [State.restoreCounters, restored, watched]

/-! Fetching (R174, R175, R184). -/

@[simp] theorem course_settle (q : Nat) : (s.settle q).course = s.course := rfl
@[simp] theorem course_jnlRing (pos : Nat) (x : List Byte) : (s.jnlRing pos x).course = s.course := course_of_upkeep (upkeep_jnlRing s pos x)
@[simp] theorem course_jnlCopied (pos : Nat) (x : List Byte) : (s.jnlCopied pos x).course = s.course :=
  course_of_upkeep (upkeep_jnlCopied s pos x)
@[simp] theorem course_jnlAppend (q : Nat) (d block : List Byte) : (s.jnlAppend q d block).course = s.course := by
  simp [State.jnlAppend, jnlWrite_eq]
@[simp] theorem course_jnlStop (q : Nat) : (s.jnlStop q).course = s.course := by simp [State.jnlStop]

@[simp] theorem course_fetchBlock (d : List Byte) : (s.fetchBlock d).2.course = s.course := by
  unfold State.fetchBlock
  split
  · rfl
  · split
    · rfl
    · split
      · rfl
      · dsimp only
        split <;> exact course_readLoc s _ _

@[simp] theorem course_fetchSlot (q : Nat) : (s.fetchSlot q).2.course = s.course := by
  unfold State.fetchSlot
  dsimp only
  split
  · simp
  · split
    · simp
    · split
      · simp
      · split
        · simp
        · split
          · simp
          · split <;> simp

@[simp] theorem course_fetchFrom (q n : Nat) : (s.fetchFrom q n).course = s.course := by
  induction n generalizing s with
  | zero => rfl
  | succ n ih =>
    unfold State.fetchFrom
    dsimp only
    split
    · split
      · exact course_fetchSlot s q
      · exact course_fetchSlot s q
      · split
        · rw [ih, State.accept]
          simp
        · simp
    · rfl

@[simp] theorem course_fetch (q : Nat) : (s.fetch q).course = s.course := by simp [State.fetch]

/-! Completion, aborts and replay (R157, R158, R186, R187). -/

@[simp] theorem course_queueError (q : Nat) : (s.queueError q).course = s.course := by simp [State.queueError]

@[simp] theorem course_releaseStop (q : Nat) : (s.releaseStop q).course = s.course := by
  unfold State.releaseStop
  split <;> simp

@[simp] theorem course_onItem (q : Nat) (seq : Word32) (f : Item → Item) : (s.onItem q seq f).course = s.course := rfl
@[simp] theorem course_finish (q : Nat) (seq : Word32) (st : Word16) (o r : Nat) : (s.finish q seq st o r).course = s.course := rfl
@[simp] theorem course_pop (q : Nat) : (s.pop q).course = s.course := rfl
@[simp] theorem course_tryDisable (q : Nat) : (s.tryDisable q).course = s.course := by simp [State.tryDisable]

@[simp] theorem course_completeItem (q : Nat) (i : Item) (status : Word16) (outcome rows : Nat) :
    (s.completeItem q i status outcome rows).course = s.course := by
  unfold State.completeItem
  cases i.tally <;> simp [State.addTally, State.markHost]

@[simp] theorem course_abortRunning (q : Nat) (i : Item) : (s.abortRunning q i).course = s.course := by
  have dropped (u : State) : (u.dropRun q i.seq).course = u.course := by
    unfold State.dropRun
    by_cases h : q < 64 <;> cases u.ptile q <;> simp [h, State.markIdle]
  unfold State.abortRunning
  cases s.ptile q <;> simp [dropped, State.cancelWrites, State.poisonBanks]

@[simp] theorem course_landWrites (q : Nat) (seq : Word32) : (s.landWrites q seq).course = s.course := by
  unfold State.landWrites
  refine (course_onComp _ _).trans (foldl_proj State.course (fun u k => foldl_proj State.course (fun v y => ?_) _ u) _ s)
  dsimp only
  split
  · split <;> simp
  · rfl

@[simp] theorem course_abortItems (q : Nat) (which : Item → Bool) : (s.abortItems q which).course = s.course := by
  unfold State.abortItems
  refine foldl_proj State.course (fun u i => ?_) _ s
  split
  · split <;> simp
  · rfl

@[simp] theorem course_abortStep (q : Nat) : (s.abortStep q).course = s.course := course_abortItems s q _

theorem course_jnlPiece (pos n : Nat) : (s.jnlPiece pos n).2.course = s.course := by
  unfold State.jnlPiece
  split
  · rfl
  · dsimp only
    split
    · simp
    · split
      · simp
      · split <;> simp

theorem course_replayItems (q : Nat) : (s.replayItems q).2.course = s.course := by
  unfold State.replayItems
  refine foldl_proj (fun a : List Item × State => a.2.course) (fun a e => ?_) _ _
  have read (u : State) : (u.jnlRead e).2.course = u.course := by simp [State.jnlRead, apply_ite Prod.snd, course_jnlPiece]
  dsimp only
  split
  · rfl
  · split <;> exact read _

theorem course_replayQueue (q : Nat) : (s.replayQueue q).course = s.course := by simp [State.replayQueue, course_replayItems]

@[simp] theorem course_restartStreams (group : Bool) : (s.restartStreams group).course = s.course := by
  have requested (l : List Nat) (u : State) : (l.foldl State.requestWeights u).course = u.course :=
    foldl_proj State.course (fun v w => foldl_proj State.course (fun x _ => course_sendControl x _ _ _) _ v) l u
  unfold State.restartStreams
  dsimp only
  split
  · rfl
  · split
    · rfl
    · exact (requested _ _).trans rfl

@[simp] theorem course_clearCounts : s.clearCounts.course = s.course := rfl

@[simp] theorem course_replayStep (cause : Nat) : (s.replayStep cause).course = s.course := by
  have aborted (l : List Nat) (u : State) : (l.foldl State.abortStep u).course = u.course := foldl_proj State.course course_abortStep l u
  have replayed (l : List Nat) (u : State) : (l.foldl State.replayQueue u).course = u.course := foldl_proj State.course course_replayQueue l u
  unfold State.replayStep
  dsimp only
  split
  · rfl
  · refine (course_report _ _ _ _ _ _).trans ((course_onGrp _ rfl).trans ((course_onJob _ rfl).trans ?_))
    rw [course_restartStreams, replayed, course_clearCounts, course_restoreCounters, aborted]

end

end Sys2Proof.Machine
end

/-! ### What the step boundary and the phases of a recovery do to the group's course (R277, R290, R298 to R301, R422) -/
section
namespace Sys2Proof.Machine
open Sys2Proof.Laws

section
variable (s : State)

/-! Counts and derivations (R118 to R123). -/

theorem course_putScaleWrites (l : List (Nat × ScaleRec)) : (s.putScaleWrites l).course = s.course :=
  foldl_proj State.course (fun u _ => course_setScaleRec u _ _) l s

theorem course_deriveRec (b : Boundary) (i : Nat) (r : ScaleRec) : (s.deriveRec b i r).course = s.course := by
  unfold State.deriveRec
  dsimp only
  rw [course_setScaleRec, course_onScales, course_ite, course_report, ite_self, course_ite, course_report, ite_self, course_ite, course_report,
    ite_self]

@[simp] theorem course_derive : s.derive.course = s.course := by
  have derived (b : Boundary) (l : List (Nat × ScaleRec)) (u : State) : (l.foldl (fun s k => s.deriveRec b k.1 k.2) u).course = u.course := by
    refine foldl_proj State.course (fun v k => ?_) l u
    exact course_deriveRec v b k.1 k.2
  unfold State.derive
  split
  · rfl
  · unfold State.applyDerived
    refine (course_onScales _ _).trans ((course_putScaleWrites _ _).trans ((course_onScales _ _).trans ((derived _ _ _).trans ?_)))
    refine (course_onScales _ _).trans ?_
    rw [course_ite, course_report, ite_self]

@[simp] theorem course_endCounts : s.endCounts.course = s.course := (course_onScales _ _).trans (course_derive s)
@[simp] theorem course_applyScaleWrites : s.applyScaleWrites.course = s.course := (course_onScales _ _).trans (course_putScaleWrites s _)

/-! The other work of a boundary (R184, R236, R296, R320, R422). -/

@[simp] theorem course_abandonReplay : s.abandonReplay.course = s.course := by
  unfold State.abandonReplay
  split
  · rfl
  · have aborted (f : Queue → Queue) (l : List Nat) (u : State) : (l.foldl (fun s q => (s.abortStep q).onQueue q f) u).course = u.course :=
      foldl_proj State.course (fun v q => (course_onQueue _ q f).trans (course_abortStep v q)) l u
    have forgot (u : State) : (u.onChd fun c => { c with late := [] }).course = u.course := rfl
    rw [forgot, aborted]

@[simp] theorem course_endHostLost : s.endHostLost.course = s.course := by
  unfold State.endHostLost
  split
  · exact (course_report _ _ _ _ _ _).trans rfl
  · rfl

@[simp] theorem course_remapSwitch : s.remapSwitch.course = s.course := by
  have disarmed (u : State) (k : Nat) : (u.disarm k 3).course = u.course := by
    unfold State.disarm
    dsimp only
    split
    · rfl
    · exact course_report _ _ _ _ _ _
  have retired (u : State) (c : Nat) : (u.channelRetired c).course = u.course :=
    foldl_proj State.course (fun v k => by rw [course_ite, disarmed, ite_self]) _ u
  unfold State.remapSwitch State.setChState State.setRemap
  split
  · rfl
  · dsimp only
    rw [course_throttle, course_ite, retired, ite_self, course_report]
    rfl

@[simp] theorem course_trimJournal : s.trimJournal.course = s.course := by
  unfold State.trimJournal
  exact (foldl_proj State.course (fun u q => by rw [course_ite, course_fetch, course_onQueue, ite_self]) _ _).trans rfl

@[simp] theorem course_clearStep : s.clearStep.course = s.course := rfl
@[simp] theorem course_snapshotCounters : s.snapshotCounters.course = s.course := rfl

@[simp] theorem course_sendApexState : s.sendApexState.course = s.course := by
  unfold State.sendApexState
  dsimp only
  split
  · rfl
  · exact course_sendControl s _ _ _

/-! What a module sends of its shard (R213, R216, R302). -/

@[simp] theorem course_sendMirror (stream cw : Nat) (dest : Nat × Nat) (d : List Byte) : (s.sendMirror stream cw dest d).course = s.course :=
  foldl_proj State.course (fun u _ => course_route u _ _ _ _ _ _) _ s

@[simp] theorem course_sendSlow (stream cw : Nat) (dest : Nat × Nat) (off len : Nat) : (s.sendSlow stream cw dest off len).course = s.course := by
  have out (u : State) (a b : Nat) (d : List Byte) : (u.mirrorOut a b dest d).course = u.course := by
    unfold State.mirrorOut
    rw [course_ite, course_route, State.d2dWait, course_onD2d, ite_self]
  have word (u : State) (cw : Nat) : (u.slowWord cw).2.course = u.course := by
    unfold State.slowWord
    exact course_slowLook u cw
  have words (k : Nat) (l : List Nat) (a : List Byte × State) :
      (l.foldl (fun (a : List Byte × State) j => let r := a.2.slowWord (k + j); (a.1 ++ r.1, r.2)) a).2.course = a.2.course := by
    refine foldl_proj (fun a : List Byte × State => a.2.course) (fun a j => ?_) l a
    exact word a.2 (k + j)
  have flits (k n c : Nat) (l : List Nat) (u : State) : (l.foldl (fun s i =>
      let m := min 27 (n - 27 * i)
      let w := (List.range m).foldl (fun (a : List Byte × State) j =>
        let r := a.2.slowWord (k + 27 * i + j)
        (a.1 ++ r.1, r.2)) ([], s)
      w.2.mirrorOut stream (c + 27 * i) dest w.1) u).course = u.course :=
    foldl_proj State.course (fun v i => (out _ _ _ _).trans (words _ _ _)) l u
  exact flits _ _ _ _ s

theorem course_sendBlock (stream : Nat) (dest : Nat × Nat) (bank b : Nat) : (s.sendBlock stream dest bank b).course = s.course := by
  simp [State.sendBlock]

@[simp] theorem course_sendBlocks (stream : Nat) (dest : Nat × Nat) (groups : List Nat) : (s.sendBlocks stream dest groups).course = s.course :=
  foldl_proj State.course (fun u _ => foldl_proj State.course (fun v b => course_sendBlock v _ _ _ b) _ u) groups s

@[simp] theorem course_sendShard (dest : Nat × Nat) : (s.sendShard dest).course = s.course :=
  foldl_proj State.course (fun u b => course_sendBlock u _ _ _ b) _ s

@[simp] theorem course_sendGrads (c : CommitRun) : (s.sendGrads c).course = s.course := by
  have sent (d : Nat × Nat) (l : List Nat) (u : State) : (l.foldl (fun s g => (List.range (s.pg g).tied).foldl (fun s p =>
      let off := placeOff s.pg g p
      s.sendSlow 1 (off / 32) d (s.region dKgrad 0 0 + off) (4224 * (s.pg g).count)) s) u).course = u.course :=
    foldl_proj State.course (fun v g => foldl_proj State.course (fun x p => course_sendSlow x _ _ _ _ _) _ v) l u
  unfold State.sendGrads
  split
  · rfl
  · dsimp only
    split
    · exact sent _ _ _
    · exact (course_onComp _ _).trans ((course_sendMirror _ _ _ _ _).trans (sent _ _ _))

/-! The power of a spare (R341). -/

@[simp] theorem course_parkSpare (on : Bool) : (s.parkSpare on).course = s.course := by
  have goal (u : State) (v : Nat) : (u.setGoal v).course = u.course := by
    unfold State.setGoal
    split
    · rfl
    · split <;> rfl
  have regime (u : State) (g : Regime) : (u.setRegime g).course = u.course := by
    unfold State.setRegime
    rw [course_ite, course_report, course_onPwr, ite_self]
  have winter (u : State) : u.holdWinter.course = u.course := by rw [State.holdWinter, course_ite, goal, ite_self]
  have settled (u : State) : u.powerSettle.course = u.course := by
    unfold State.powerSettle
    dsimp only
    rw [course_ite, winter, regime, ite_self, course_throttle, course_onPwr]
  have halted (u : State) (q : Nat) (b : Bool) : (u.haltQuarter q b).course = u.course :=
    foldl_proj State.course (fun v i => by split <;> rfl) _ u
  have followed (u : State) (old : BitVec 4) : (u.followParked old).course = u.course := by
    unfold State.followParked
    split
    · rfl
    · refine foldl_proj State.course (fun v q => ?_) _ u
      dsimp only
      split
      · exact (halted _ _ _).trans rfl
      · split <;> rfl
  exact (settled _).trans ((followed _ _).trans rfl)

end

/-! ### Writes that waited and positions that move -/

/-- A course without the failed modules and the writes that wait, which CHD_POS and a boundary change. -/
def Course.lasting (c : Course) : Course := { c with failed := [], waiting := [] }
/-- What not even a boundary changes. -/
def Course.standing (c : Course) : Word64 × Word16 × List Nat × List Nat := (c.deadline, c.epoch, c.groups, c.slots)

section
variable (s : State)

theorem lasting_applyWaiting (w : Waiting) : (s.applyWaiting w).course.lasting = s.course.lasting := by
  unfold State.applyWaiting
  cases w with
  | pgd g b => exact congrArg Course.lasting ((course_onScales _ _).trans (course_writeSlow s _ _))
  | schedule k b => exact congrArg Course.lasting (course_writeSlow s _ _)
  | _ => rfl

theorem lasting_movePos (vals : List Word64) : (s.movePos vals).course.lasting = s.course.lasting := by
  have put := lasting_applyWaiting s (.chdPos vals)
  unfold State.movePos
  dsimp only
  generalize s.applyWaiting (.chdPos vals) = u at put ⊢
  rw [← put]
  refine congrArg Course.lasting ?_
  split <;> simp

/-- With no positions to come, none come in force. -/
theorem takePos_of_none {s : State} (h : s.grp.newPos = none) : s.takePos = s := by
  unfold State.takePos
  rw [h]

end

end Sys2Proof.Machine
end

/-! ### Boundaries, results and phases: what each makes of the course -/
section
namespace Sys2Proof.Machine
open Sys2Proof.Laws

/-! The boundary (R422). -/

theorem standing_of_lasting {c d : Course} (h : c.lasting = d.lasting) : c.standing = d.standing := by
  show c.lasting.standing = d.lasting.standing
  rw [h]
theorem phase_of_lasting {c d : Course} (h : c.lasting = d.lasting) : c.phase = d.phase := by
  show c.lasting.phase = d.lasting.phase
  rw [h]
theorem newPos_of_lasting {c d : Course} (h : c.lasting = d.lasting) : c.newPos = d.newPos := by
  show c.lasting.newPos = d.lasting.newPos
  rw [h]

section
variable (s : State)

@[simp] theorem course_toEveryone (b : List Byte) : (s.toEveryone b).course = s.course :=
  foldl_proj State.course (fun u _ => course_sendControl u _ _ b) s.everyone s

@[simp] theorem course_mbCommand (dest : Nat × Nat) (op : Nat) (payload : List Byte) : (s.mbCommand dest op payload).course = s.course := by
  have counted (u : State) : (u.onGrp fun g => { g with mbSeq := g.mbSeq + 1 }).course = u.course := rfl
  have sent (f : Nat → List Byte) (l : List Nat) (u : State) : (l.foldl (fun s i => s.sendControl dest.1 dest.2 (f i)) u).course = u.course :=
    foldl_proj State.course (fun v i => course_sendControl v _ _ (f i)) l u
  unfold State.mbCommand
  dsimp only
  rw [counted, sent]

theorem standing_quiesceReturn : s.quiesceReturn.course.standing = s.course.standing := by
  unfold State.quiesceReturn
  dsimp only
  generalize hu : State.msix (State.onGrp _ _) 275 = u
  have held : u.course.standing = s.course.standing := by
    rw [← hu, course_msix]
    rfl
  split
  · rw [course_sendApexState, course_mbCommand, held]
  · rw [course_ite, course_sendApexState, ite_self, held]

theorem standing_takePos : s.takePos.course.standing = s.course.standing := by
  unfold State.takePos
  split
  · rfl
  · rename_i v _
    have moved : ((s.onGrp fun g => { g with newPos := none }).movePos v).course.standing = s.course.standing :=
      (standing_of_lasting (lasting_movePos (s.onGrp fun g => { g with newPos := none }) v)).trans rfl
    dsimp only
    split
    · exact (standing_quiesceReturn _).trans moved
    · exact moved

/-- In a recovery the substitution comes in force, and nothing quiesces anew. -/
theorem lasting_takePos {s : State} (h : s.grp.phase ≠ 5) : s.takePos.course.lasting = { s.course with newPos := none }.lasting := by
  unfold State.takePos
  split
  · rename_i none'
    have same : s.course = { s.course with newPos := none } := congrArg (fun p => { s.course with newPos := p }) none'
    exact congrArg Course.lasting same
  · rename_i v _
    dsimp only
    rw [if_neg (by simp [h])]
    exact lasting_movePos (s.onGrp fun g => { g with newPos := none }) v

/-- The counts of the step that ends and the writes that waited for its end. -/
def State.boundaryWrites (commit : Bool) : State :=
  let u := s.abandonReplay
  let u := if commit then u.endCounts else u.derive.clearCounts.applyScaleWrites
  u.job.waiting.foldl State.applyWaiting (u.onJob fun j => { j with waiting := [] })

/-- The job after step n, committed or skipped. -/
def Job.passed (n : Word32) (commit : Bool) : Job → Job := fun j => { j with
  step := n + 1, committed := if commit then j.committed + 1 else j.committed, verdict := 0, replaying := false, faultReplay := false
  lastCommit := if commit then some n else j.lastCommit, lastSkip := if commit then j.lastSkip else some n }

/-- The step counts on. -/
def State.boundaryCount (n : Word32) (commit : Bool) : State :=
  let s := s.endHostLost.remapSwitch.trimJournal.clearStep
  let s := s.onJob (Job.passed n commit)
  if commit ∧ s.grp.phase = 5 then s.onGrp fun g => { g with noDeadline := false, substitute := false } else s

theorem stepBoundary_eq (commit : Bool) : s.stepBoundary commit =
    let u := (s.boundaryWrites commit).boundaryCount s.job.step commit
    let u := (if u.grp.phase = 5 then u.takePos else u).snapshotCounters
    if commit ∧ u.isApex then u.sendApexState else u := by
  unfold State.stepBoundary State.boundaryWrites State.boundaryCount Job.passed
  dsimp only

theorem course_boundaryCounts (commit : Bool) :
    (if commit then s.abandonReplay.endCounts else s.abandonReplay.derive.clearCounts.applyScaleWrites).course = s.course := by simp

theorem lasting_boundaryWrites (commit : Bool) : (s.boundaryWrites commit).course.lasting = s.course.lasting := by
  have written (l : List Waiting) (u : State) : (l.foldl State.applyWaiting u).course.lasting = u.course.lasting :=
    foldl_proj (fun u : State => u.course.lasting) lasting_applyWaiting l u
  have emptied (u : State) : (u.onJob fun j => { j with waiting := [] }).course.lasting = u.course.lasting := rfl
  exact (written _ _).trans ((emptied _).trans (congrArg Course.lasting (course_boundaryCounts s commit)))

theorem course_boundaryWrites {s : State} (h : s.job.waiting = []) (commit : Bool) : (s.boundaryWrites commit).course = s.course := by
  have counts := course_boundaryCounts s commit
  unfold State.boundaryWrites
  dsimp only
  generalize (if commit = true then s.abandonReplay.endCounts else s.abandonReplay.derive.clearCounts.applyScaleWrites) = u at counts ⊢
  have none_waits : u.job.waiting = [] := (congrArg Course.waiting counts).trans h
  rw [none_waits, List.foldl_nil, course_onJob _ none_waits.symm, counts]

theorem course_boundaryCount (n : Word32) (commit : Bool) : (s.boundaryCount n commit).course = s.course := by
  have calm (u : State) : (u.onGrp fun g => { g with noDeadline := false, substitute := false }).course = u.course := rfl
  have counted (u : State) : (u.onJob (Job.passed n commit)).course = u.course := rfl
  unfold State.boundaryCount
  dsimp only
  rw [course_ite, calm, ite_self, counted]
  simp

theorem standing_stepBoundary (commit : Bool) : (s.stepBoundary commit).course.standing = s.course.standing := by
  rw [stepBoundary_eq]
  dsimp only
  rw [course_ite, course_sendApexState, ite_self, course_snapshotCounters, course_ite, apply_ite Course.standing, standing_takePos, ite_self,
    course_boundaryCount]
  exact standing_of_lasting (lasting_boundaryWrites s commit)

/-- With no positions to come the boundary leaves the recovery alone. -/
theorem lasting_stepBoundary {s : State} (h : s.grp.newPos = none) (commit : Bool) :
    (s.stepBoundary commit).course.lasting = s.course.lasting := by
  have writes := lasting_boundaryWrites s commit
  have none_comes : ((s.boundaryWrites commit).boundaryCount s.job.step commit).grp.newPos = none :=
    (newPos_of_lasting ((congrArg Course.lasting (course_boundaryCount _ _ _)).trans writes)).trans h
  rw [stepBoundary_eq]
  dsimp only
  rw [takePos_of_none none_comes, ite_self, course_ite, course_sendApexState, ite_self, course_snapshotCounters, course_boundaryCount]
  exact writes

/-- With no write waiting either it leaves all of the course alone. -/
theorem course_stepBoundary {s : State} (h : s.grp.newPos = none) (hw : s.job.waiting = []) (commit : Bool) :
    (s.stepBoundary commit).course = s.course := by
  have writes := course_boundaryWrites hw commit
  have none_comes : ((s.boundaryWrites commit).boundaryCount s.job.step commit).grp.newPos = none :=
    (congrArg Course.newPos ((course_boundaryCount _ _ _).trans writes)).trans h
  rw [stepBoundary_eq]
  dsimp only
  rw [takePos_of_none none_comes, ite_self, course_ite, course_sendApexState, ite_self, course_snapshotCounters, course_boundaryCount]
  exact writes

end

/-! Steps that may settle, and results (R207, R290). -/

/-- The course of t is that of s, or what one boundary makes of it. -/
def State.Turns (s t : State) : Prop :=
  ∃ u : State, u.course = s.course ∧ (t.course = u.course ∨ ∃ commit, t.course = (u.stepBoundary commit).course)

/-- The same with another deadline before it, where a result came. -/
def State.Issues (s t : State) : Prop := t.course = s.course ∨ ∃ (u : State) (d : Word64), u.course = { s.course with deadline := d } ∧ u.Turns t

/-- The Apex's epoch, the groups and their slots. -/
def Course.members (c : Course) : Word16 × List Nat × List Nat := (c.epoch, c.groups, c.slots)

section
variable {s t v : State}

theorem State.Turns.standing (h : s.Turns t) : t.course.standing = s.course.standing := by
  obtain ⟨u, hu, e | ⟨c, e⟩⟩ := h
  · rw [e, hu]
  · rw [e, standing_stepBoundary, hu]

theorem State.Turns.lasting (h : s.Turns t) (hp : s.course.newPos = none) : t.course.lasting = s.course.lasting := by
  obtain ⟨u, hu, e | ⟨c, e⟩⟩ := h
  · rw [e, hu]
  · rw [e, lasting_stepBoundary ((congrArg Course.newPos hu).trans hp), hu]

theorem State.Turns.course_eq (h : s.Turns t) (hp : s.course.newPos = none) (hw : s.course.waiting = []) : t.course = s.course := by
  obtain ⟨u, hu, e | ⟨c, e⟩⟩ := h
  · rw [e, hu]
  · rw [e, course_stepBoundary ((congrArg Course.newPos hu).trans hp) ((congrArg Course.waiting hu).trans hw), hu]

theorem State.Turns.of_course (h : s.Turns t) (e : v.course = t.course) : s.Turns v := by
  obtain ⟨u, hu, k⟩ := h
  exact ⟨u, hu, k.imp e.trans fun ⟨c, k⟩ => ⟨c, e.trans k⟩⟩

theorem State.Issues.of_course (h : s.Issues t) (e : v.course = t.course) : s.Issues v :=
  h.imp e.trans fun ⟨u, d, hu, k⟩ => ⟨u, d, hu, k.of_course e⟩

theorem State.Issues.after (h : s.Issues t) (e : s.course = v.course) : v.Issues t :=
  h.imp (·.trans e) fun ⟨u, d, hu, k⟩ => ⟨u, d, by rw [hu, e], k⟩

theorem State.Issues.members (h : s.Issues t) : t.course.members = s.course.members := by
  obtain e | ⟨u, d, hu, k⟩ := h
  · rw [e]
  · have same := congrArg Prod.snd k.standing
    rw [hu] at same
    exact same

theorem State.Issues.phase (h : s.Issues t) (hp : s.course.newPos = none) : t.course.phase = s.course.phase := by
  obtain e | ⟨u, d, hu, k⟩ := h
  · rw [e]
  · have same := phase_of_lasting (k.lasting (by rw [hu]; exact hp))
    rw [hu] at same
    exact same

theorem State.Issues.failed (h : s.Issues t) (hp : s.course.newPos = none) (hw : s.course.waiting = []) :
    t.course.failed = s.course.failed := by
  obtain e | ⟨u, d, hu, k⟩ := h
  · rw [e]
  · rw [k.course_eq (by rw [hu]; exact hp) (by rw [hu]; exact hw), hu]

end

section
variable (s : State)

theorem course_recordStep (n : Word32) : (s.recordStep n).course = s.course := by
  unfold State.recordStep
  dsimp only
  rw [course_ite, course_onComp, course_setDir, course_writeSlow, ite_self, course_ite, course_setDir, ite_self, course_setDir]

theorem turns_settleStep : s.Turns s.settleStep := by
  unfold State.settleStep
  dsimp only
  split
  · refine ⟨_, ?_, .inr ⟨true, rfl⟩⟩
    rw [course_ite, course_setDir, ite_self, course_ite, course_recordStep, ite_self]
  · exact ⟨s, rfl, .inl rfl⟩

/-- A verdict sets the deadline; COMMIT may settle the step, SKIP ends it. -/
theorem turns_applyResult (b : List Byte) (src : ScSource) :
    ∃ u : State, u.course = { s.course with deadline := BitVec.ofNat 64 (le b 16 8) } ∧ u.Turns (s.applyResult b src) := by
  have judged (v : Nat) : ((s.onChd fun c => { c with deadline := BitVec.ofNat 64 (le b 16 8) }).onJob fun j => { j with verdict := v }).course =
      { s.course with deadline := BitVec.ofNat 64 (le b 16 8) } := rfl
  unfold State.applyResult
  dsimp only
  split
  · refine ⟨_, ?_, turns_settleStep _⟩
    rw [course_scOp, judged]
  · refine ⟨_, ?_, _, rfl, .inr ⟨false, course_scOp _ _ _ _ _⟩⟩
    rw [course_groupReport]
    exact judged _

@[simp] theorem course_spreadResult (b : List Byte) : (s.spreadResult b).course = s.course := by
  unfold State.spreadResult
  split
  · rfl
  · exact foldl_proj State.course (fun u (p : Nat × Nat) => course_sendControl u p.1 p.2 b) _ s

theorem issues_issueResult (b : List Byte) : s.Issues (s.issueResult b) := by
  have spread (f : Nat → Nat) (l : List Nat) (u : State) : (l.foldl (fun s g => s.fdtControl (s.groupSlot g) b) u).course = u.course :=
    foldl_proj State.course (fun v g => course_fdtControl v _ b) l u
  have noted (u : State) : (u.onGrp fun g => { g with groupVotes := [], prevDeadline := le b 16 8 }).course = u.course := rfl
  unfold State.issueResult
  dsimp only
  obtain ⟨u, hu, k⟩ := turns_applyResult (State.spreadResult (State.onGrp (List.foldl (fun s g => s.fdtControl (s.groupSlot g) b) s
    ((List.range s.groups).filter (· ≠ s.groupNo))) fun g => { g with groupVotes := [], prevDeadline := le b 16 8 }) b) b (.chord 0)
  refine .inr ⟨u, BitVec.ofNat 64 (le b 16 8), ?_, k.of_course (course_sendApexState _)⟩
  rw [hu, course_spreadResult, noted, spread id]

theorem issues_refl : s.Issues s := .inl rfl

theorem issues_tryVerdict : s.Issues s.tryVerdict := by
  unfold State.tryVerdict
  dsimp only
  split
  · exact issues_refl s
  · split
    · exact issues_refl s
    · exact issues_issueResult s _

theorem issues_rollBack : s.Issues s.rollBack := by
  unfold State.rollBack
  split
  · exact issues_issueResult s _
  · exact issues_refl s

end

end Sys2Proof.Machine
end

/-! ### Failures, phases of a recovery and succession: what each makes of the course (R279 to R282, R297 to R301) -/
section
namespace Sys2Proof.Machine
open Sys2Proof.Laws

section
variable (s : State)

/-! A phase of a recovery (R298). -/

/-- In case 0 the step is voted anew. -/
def State.votesAnew : State :=
  if s.grp.recCase = 0 then s.onGrp fun g => { g with
    voted := false, rowVotes := [], colVotes := [], groupVotes := g.groupVotes.filter fun v => v.1 != s.groupNo } else s

theorem course_votesAnew : s.votesAnew.course = s.course := by
  unfold State.votesAnew
  split <;> rfl

theorem course_quiesce : s.quiesce.course = { s.course with deadline := 0 } := by
  have aborted (which : Item → Bool) (l : List Nat) (u : State) : (l.foldl (fun s q => s.abortItems q which) u).course = u.course :=
    foldl_proj State.course (fun v q => course_abortItems v q which) l u
  have stopped (u : State) : ((u.onChd fun c => { c with deadline := 0 }).onGrp fun g =>
      { g with noDeadline := true, prevDeadline := 0, voteStart := none }).course = { u.course with deadline := 0 } := rfl
  refine (course_votesAnew _).trans ((stopped _).trans ?_)
  rw [aborted]
  rfl

theorem course_takeSubst : s.takeSubst.course = s.takePos.course := by
  unfold State.takeSubst
  dsimp only
  split
  · rw [course_ite, course_sendGrads, ite_self]
  · rfl

theorem course_resumeRun : s.resumeRun.course = s.course := by
  have freed (u : State) (b : Bool) : ((u.onStreams fun t => { t with held := b }).onGrpStats fun g =>
      { g with recoveries := inc g.recoveries }).course = u.course := rfl
  have stepped (u : State) (n : Word32) : (u.onJob fun j => { j with step := n }).course = u.course := rfl
  unfold State.resumeRun
  dsimp only
  rw [course_ite, course_ite, course_replayStep, ite_self, course_ite, stepped, ite_self, ite_self, freed]

/-- A phase is noted, with what it recovers. -/
def State.phaseNoted (phase case : Nat) (step target : Word32) (failed : List Nat) : State :=
  let old := s.grp.phase
  let s := s.onGrp fun g => { g with
    phase := phase, recCase := case, recStep := step, recTarget := target, failed := failed
    recStart := if old = 5 ∧ phase < 5 then s.now else g.recStart, groupHeld := if phase = 5 then g.groupHeld.filter (· != s.groupNo) else g.groupHeld }
  if phase = 4 ∧ case = 3 then s.onComp fun t => { t with verdictDue := none, verdict := some (2, step) } else s

theorem enterPhase_eq (phase case : Nat) (step target : Word32) (failed : List Nat) : s.enterPhase phase case step target failed =
    let u := s.phaseNoted phase case step target failed
    let u := if phase = 1 then u.quiesce else u
    let u := if 3 ≤ phase then u.takeSubst else u
    let u := if phase = 5 ∧ s.grp.phase ≠ 5 then u.resumeRun else u
    if phase = s.grp.phase then u else u.msix 275 := by
  unfold State.enterPhase State.phaseNoted
  dsimp only

theorem course_phaseNoted (phase case : Nat) (step target : Word32) (failed : List Nat) :
    (s.phaseNoted phase case step target failed).course =
      { s.course with phase := phase, recCase := case, recStep := step, failed := failed } := by
  unfold State.phaseNoted
  dsimp only
  rw [course_ite, course_onComp, ite_self]
  rfl

/-- The course with a phase noted, and the deadline gone where the phase quiesces. -/
def Course.entered (c : Course) (phase case : Nat) (step : Word32) (failed : List Nat) : Course :=
  { c with deadline := if phase = 1 then 0 else c.deadline, phase := phase, recCase := case, recStep := step, failed := failed }

/-- The state of a module that enters a phase, before a substitution comes in force. -/
theorem course_quiesced (phase case : Nat) (step target : Word32) (failed : List Nat) :
    (if phase = 1 then (s.phaseNoted phase case step target failed).quiesce else s.phaseNoted phase case step target failed).course =
      s.course.entered phase case step failed := by
  rw [course_ite, course_quiesce, course_phaseNoted]
  unfold Course.entered
  split <;> rfl

theorem course_enterPhase_subst (phase case : Nat) (step target : Word32) (failed : List Nat) :
    ∃ u : State, u.course = s.course.entered phase case step failed ∧
      (s.enterPhase phase case step target failed).course = if 3 ≤ phase then u.takePos.course else u.course := by
  refine ⟨_, course_quiesced s phase case step target failed, ?_⟩
  rw [enterPhase_eq]
  dsimp only
  rw [course_ite, course_msix, ite_self, course_ite, course_resumeRun, ite_self, course_ite, course_takeSubst]

variable {s} in
/-- Without a substitution that comes in force. -/
theorem course_enterPhase {phase : Nat} (h : phase < 3 ∨ s.course.newPos = none) (case : Nat) (step target : Word32) (failed : List Nat) :
    (s.enterPhase phase case step target failed).course = s.course.entered phase case step failed := by
  obtain ⟨u, hu, e⟩ := course_enterPhase_subst s phase case step target failed
  rw [e]
  obtain h | h := h
  · rw [if_neg (by omega), hu]
  · rw [takePos_of_none ((congrArg Course.newPos hu).trans h), ite_self, hu]

variable {s} in
/-- With one. -/
theorem lasting_enterPhase {phase : Nat} (h3 : 3 ≤ phase) (h5 : phase ≠ 5) (case : Nat) (step target : Word32) (failed : List Nat) :
    (s.enterPhase phase case step target failed).course.lasting =
      { s.course.entered phase case step failed with newPos := none }.lasting := by
  obtain ⟨u, hu, e⟩ := course_enterPhase_subst s phase case step target failed
  have elsewhere : u.grp.phase ≠ 5 := (congrArg Course.phase hu).trans_ne h5
  rw [e, if_pos h3, lasting_takePos elsewhere, hu]

theorem epoch_enterPhase (phase case : Nat) (step target : Word32) (failed : List Nat) :
    (s.enterPhase phase case step target failed).course.epoch = s.course.epoch := by
  obtain ⟨u, hu, e⟩ := course_enterPhase_subst s phase case step target failed
  have kept : u.takePos.course.epoch = u.course.epoch := congrArg (fun x => x.2.1) (standing_takePos u)
  rw [e, apply_ite Course.epoch, kept, ite_self, hu]
  rfl

/-! The Apex announces a phase. -/

variable {s} in
theorem course_announce {phase : Nat} (h : phase < 3 ∨ s.course.newPos = none) :
    (s.announce phase).course = s.course.entered phase s.course.recCase s.course.recStep s.course.failed := by
  unfold State.announce
  dsimp only
  rw [course_sendApexState, course_enterPhase (by rw [course_toEveryone]; exact h), course_toEveryone]
  rfl

variable {s} in
theorem lasting_announce {phase : Nat} (h3 : 3 ≤ phase) (h5 : phase ≠ 5) : (s.announce phase).course.lasting =
    { s.course.entered phase s.course.recCase s.course.recStep s.course.failed with newPos := none }.lasting := by
  unfold State.announce
  dsimp only
  rw [course_sendApexState, lasting_enterPhase h3 h5, course_toEveryone]
  rfl

theorem epoch_announce (phase : Nat) : (s.announce phase).course.epoch = s.course.epoch := by
  unfold State.announce
  dsimp only
  rw [course_sendApexState, epoch_enterPhase, course_toEveryone]

/-! A recovery begins (R297). -/

theorem course_chooseCase (x y : Nat) : (s.chooseCase x y).2.course = s.course := by
  unfold State.chooseCase
  split <;> rfl

theorem issues_beginRecovery (x y : Nat) : ∃ (u : State) (c : Nat),
    u.course = s.course.entered 1 c s.job.step s.course.failed ∧ u.Issues (s.beginRecovery x y) := by
  have chosen : (if s.grp.phase = 5 then s.chooseCase x y else (s.grp.recCase, s)).2.course = s.course := by
    split
    · exact course_chooseCase s x y
    · rfl
  unfold State.beginRecovery
  dsimp only
  generalize (if s.grp.phase = 5 then s.chooseCase x y else (s.grp.recCase, s)) = c at chosen ⊢
  refine ⟨_, c.1, ?_, issues_rollBack _⟩
  rw [course_announce (.inl (by decide)), ← chosen]
  rfl

/-! Groups that are lost (R301). -/

theorem course_roleWatch : s.roleWatch.course = s.course := by
  have set (u : State) : u.setRole.course = u.course := rfl
  unfold State.roleWatch
  dsimp only
  rw [course_ite, course_msix, ite_self, set]

theorem issues_loseGroup (g cause : Nat) : ∃ u : State, s.Issues u ∧ (s.loseGroup g cause).course =
    { u.course with groups := u.grp.cfg.groups.eraseIdx g, slots := ((List.range u.groups).map u.groupSlot).eraseIdx g } := by
  unfold State.loseGroup
  dsimp only
  refine ⟨if s.job.verdict = 0 ∧ s.jobRuns = true then
      s.issueResult (resultBytes 1 s.grp.epoch s.job.step 2 s.groups 0 0 (s.nextDeadline false 0) 0xFF 0xFF) else s, ?_, ?_⟩
  · split
    · exact issues_issueResult s _
    · exact issues_refl s
  · rw [course_sendApexState, course_groupReport, course_roleWatch]
    rfl

theorem issues_ownLost (cause : Nat) : ∃ u : State, s.Issues u ∧ ((s.ownLost cause).course = u.course ∨ (s.ownLost cause).course =
    { u.course with groups := u.grp.cfg.groups.eraseIdx s.groupNo, slots := ((List.range u.groups).map u.groupSlot).eraseIdx s.groupNo }) := by
  have lost : (s.onGrp fun g => { g with lost := true, restoring := [] }).course = s.course := rfl
  unfold State.ownLost
  dsimp only
  split
  · obtain ⟨u, hu, e⟩ := issues_loseGroup (s.onGrp fun g => { g with lost := true, restoring := [] })
      (s.onGrp fun g => { g with lost := true, restoring := [] }).groupNo cause
    exact ⟨u, hu.after lost, .inr e⟩
  · exact ⟨s, issues_refl s, .inl (course_sendApexState _)⟩

/-! A module fails (R279, R282). -/

/-- A failure that is noted: what follows it. -/
def State.failureNoted (f cause : Nat) : State :=
  let s := s.onGrp fun g => { g with failed := f :: g.failed }
  s.groupReport 0x0A04 .warn (leBytes 4 s.stepNo ++ leBytes 1 f ++ leBytes 1 cause)

theorem course_failureNoted (f cause : Nat) : (s.failureNoted f cause).course = { s.course with failed := f :: s.course.failed } :=
  course_groupReport _ _ _ _

/-- A failure that is new to the Apex is noted, and then no more comes of it, or the group is lost, or a recovery begins. -/
theorem declareFailed_cases (f cause : Nat) : s.declareFailed f cause = s ∧ (s.isApex = true → f ∈ s.course.failed) ∨
    ∃ u, u = s.failureNoted f cause ∧ ((s.declareFailed f cause).course = u.course ∨ s.declareFailed f cause = u.ownLost 0 ∨
      ∃ x y, s.declareFailed f cause = u.beginRecovery x y) := by
  unfold State.declareFailed
  dsimp only
  split
  · rename_i h
    exact .inl ⟨rfl, fun apex => List.contains_iff_mem.1 (h.resolve_left (by simp [apex]))⟩
  · refine .inr ⟨_, rfl, ?_⟩
    split
    · refine .inl ?_
      rw [course_sendApexState, course_ite, course_groupReport, ite_self]
      rfl
    · split
      · exact .inr (.inl rfl)
      · exact .inr (.inr ⟨_, _, rfl⟩)

variable {s} in
theorem failed_ownLost (hp : s.course.newPos = none) (hw : s.course.waiting = []) (cause : Nat) :
    (s.ownLost cause).course.failed = s.course.failed := by
  obtain ⟨u, hu, e | e⟩ := issues_ownLost s cause
  · rw [e, hu.failed hp hw]
  · rw [e, ← hu.failed hp hw]

variable {s} in
theorem failed_beginRecovery (hp : s.course.newPos = none) (hw : s.course.waiting = []) (x y : Nat) :
    (s.beginRecovery x y).course.failed = s.course.failed := by
  obtain ⟨u, c, hu, k⟩ := issues_beginRecovery s x y
  rw [k.failed ((congrArg Course.newPos hu).trans hp) ((congrArg Course.waiting hu).trans hw), hu]
  rfl

variable {s} in
/-- With nothing to come in force at a boundary, what the Apex declares failed stays in the failed set. -/
theorem mem_failed_declareFailed (apex : s.isApex = true) (hp : s.course.newPos = none) (hw : s.course.waiting = []) (f cause : Nat) :
    f ∈ (s.declareFailed f cause).course.failed := by
  have noted := course_failureNoted s f cause
  have mem : f ∈ (s.failureNoted f cause).course.failed := by rw [noted]; exact List.mem_cons_self ..
  have hp' : (s.failureNoted f cause).course.newPos = none := by rw [noted]; exact hp
  have hw' : (s.failureNoted f cause).course.waiting = [] := by rw [noted]; exact hw
  obtain ⟨e, h⟩ | ⟨u, rfl, e | e | ⟨x, y, e⟩⟩ := declareFailed_cases s f cause
  · rw [e]
    exact h apex
  · rw [e]
    exact mem
  · rw [e, failed_ownLost hp' hw']
    exact mem
  · rw [e, failed_beginRecovery hp' hw']
    exact mem

/-! The Apex's epoch. -/

variable {s} in
theorem State.Issues.epoch {t : State} (h : s.Issues t) : t.course.epoch = s.course.epoch := congrArg Prod.fst h.members

theorem epoch_ownLost (cause : Nat) : (s.ownLost cause).course.epoch = s.course.epoch := by
  obtain ⟨u, hu, e | e⟩ := issues_ownLost s cause
  · rw [e, hu.epoch]
  · rw [e, ← hu.epoch]

theorem epoch_beginRecovery (x y : Nat) : (s.beginRecovery x y).course.epoch = s.course.epoch := by
  obtain ⟨u, c, hu, k⟩ := issues_beginRecovery s x y
  rw [k.epoch, hu]
  rfl

theorem epoch_declareFailed (f cause : Nat) : (s.declareFailed f cause).course.epoch = s.course.epoch := by
  have noted : (s.failureNoted f cause).course.epoch = s.course.epoch := by rw [course_failureNoted]
  obtain ⟨e, -⟩ | ⟨u, rfl, e | e | ⟨x, y, e⟩⟩ := declareFailed_cases s f cause
  · rw [e]
  · rw [e, noted]
  · rw [e, epoch_ownLost, noted]
  · rw [e, epoch_beginRecovery, noted]

theorem epoch_takeOver (f : Nat) : (s.takeOver f).course.epoch = s.course.epoch := by
  unfold State.takeOver
  split
  · split
    · rw [(issues_rollBack _).epoch, epoch_announce]
      rfl
    · rw [course_sendApexState]
  · rw [course_sendApexState, epoch_declareFailed]

theorem epoch_followApex (e : Word16) (k : Nat) : (s.followApex e k).course.epoch = e := by
  unfold State.followApex
  rw [course_roleWatch]
  rfl

/-- What is sent again changes nothing but messages and the epoch of the vote sent last. -/
theorem resend_proj {α : Type} (π : State → α) (sent : ∀ (u : State) x y b, π (u.sendControl x y b) = π u)
    (noted : ∀ (u : State) v, π (u.onGrp fun g => { g with lastVote := some v }) = π u) : π s.resend = π s := by
  unfold State.resend
  dsimp only
  have voted (o : Option Vote) (p : Nat × Nat) : π (match o with
      | some x => if x.step = s.job.step ∧ s.grp.voted = true then (s.onGrp fun g => { g with lastVote := some { x with epoch := s.grp.epoch } }).sendControl
          p.1 p.2 (voteBytes { x with epoch := s.grp.epoch }) else s
      | none => s) = π s := by
    cases o with
    | none => rfl
    | some x =>
      dsimp only
      rw [apply_ite π, sent, noted, ite_self]
  split
  · rw [apply_ite π, sent, ite_self]
    exact voted _ _
  · exact voted _ _

theorem course_resend : s.resend.course = s.course := resend_proj s State.course course_sendControl fun _ _ => rfl

theorem epoch_adoptState : s.adoptState.course.epoch = s.course.epoch := by
  unfold State.adoptState
  split <;> rfl

end

end Sys2Proof.Machine
end

/-! ### Messages of the group that are heard (R169, R213, R214, R263, R279 to R281) -/
section
namespace Sys2Proof.Machine
open Sys2Proof.Laws

/-! Fields of a message. -/

theorem getElem_slice (b : List Byte) (off n i : Nat) (h : i < (slice b off n).length) : (slice b off n)[i] = b.getD (off + i) 0 := by
  simp only [slice, List.getElem_append, List.getElem_take, List.getElem_drop, List.getElem_replicate, List.length_take, List.length_drop]
  rw [length_slice] at h
  split
  · rw [List.getD_eq_getElem _ _ (by omega)]
  · rw [List.getD_eq_default _ _ (by omega)]

theorem slice_padTo {b : List Byte} {n off k : Nat} (h : off + k ≤ n) : slice (padTo n b) off k = slice b off k := by
  refine List.ext_getElem (by rw [length_slice, length_slice]) fun i hi _ => ?_
  rw [length_slice] at hi
  rw [getElem_slice, getElem_slice, padTo, List.getD_eq_getElem _ _ (by rw [length_slice]; omega), getElem_slice, Nat.zero_add]

theorem le_padTo {b : List Byte} {n off k : Nat} (h : off + k ≤ n) : le (padTo n b) off k = le b off k := congrArg leNat (slice_padTo h)

theorem leNat_lt : ∀ b : List Byte, leNat b < 256 ^ b.length
  | [] => by decide
  | x :: b => by
    have rest := leNat_lt b
    have first := x.isLt
    rw [leNat, List.length_cons, Nat.pow_succ]
    omega

theorem le_lt (b : List Byte) (off n : Nat) : le b off n < 256 ^ n := by
  have h := leNat_lt (slice b off n)
  rwa [length_slice] at h

/-! A fresh message is heard and taken. -/

section
variable {s : State} {m : CtlMsg} {p : Fin 8} {k : Nat}

theorem fdtFrom_of_port (h : m.port = some p) : s.fdtFrom m = none := by simp [State.fdtFrom, h]
theorem takeMsg_of_port (h : m.port = some p) : s.takeMsg m = s.takeCtl m := by simp [State.takeMsg, h]

theorem State.Fresh.port (h : s.Fresh m p k) : m.port = some p := h.1
theorem State.Fresh.hears (h : s.Fresh m p k) (on : s.boot.mainOn = true) : s.hears m k = true := by
  obtain ⟨-, kind, -⟩ := h
  simp [State.hears, on, kind]
theorem State.Fresh.not_stale (h : s.Fresh m p k) : s.isStale m = false := by
  obtain ⟨port, -, epoch⟩ := h
  simp [State.isStale, fdtFrom_of_port port, epoch]

section
variable (h : s.Fresh m p k) (on : s.boot.mainOn = true)
include h on

/-- What a handler of the group does with a fresh message. -/
theorem State.Fresh.passes {α : Type} (drop stale take : α) : (if !s.hears m k then drop else if s.isStale m then stale else take) = take := by
  rw [h.hears on, h.not_stale]
  rfl

end

theorem exec_heartbeat (h : s.Fresh m p 0x13) (on : s.boot.mainOn = true) : ∃ row, exec (.heartbeat m) s =
    .next ((s.takeCtl m).onGrp fun g => { g with heard := placeKey m.srcX m.srcY :: row ++ g.heard }) :=
  ⟨_, (h.passes on _ _ _).trans (by rw [takeMsg_of_port h.port])⟩

theorem exec_apexState (h : s.Fresh m p 0x19) (on : s.boot.mainOn = true) : exec (.apexState m) s =
    .next ((s.takeCtl m).onGrp fun g => { g with apexState := some (padTo 32 m.bytes) }) :=
  (h.passes on _ _ _).trans (by rw [takeMsg_of_port h.port])

theorem exec_failSelf (h : s.Fresh m p 0x14) (on : s.boot.mainOn = true) : exec (.failSelf m) s =
    .next ((s.takeCtl m).declareFailed (s.phys (m.srcX, m.srcY)) 1) :=
  (h.passes on _ _ _).trans (by rw [takeMsg_of_port h.port])

theorem exec_apexClaim (h : s.Fresh m p 0x15) (on : s.boot.mainOn = true) (new : msgEpoch m.bytes ≠ s.grp.epoch ∨ le m.bytes 4 1 < s.grp.apexEntry) :
    exec (.apexClaim m) s = .next ((s.takeCtl m).followApex (msgEpoch m.bytes) (le m.bytes 4 1)).resend := by
  refine (h.passes on _ _ _).trans ?_
  dsimp only
  rw [takeMsg_of_port h.port]
  exact if_neg fun ⟨same, early⟩ => new.elim (· same) fun earlier => Nat.not_le.2 earlier early

theorem exec_weightRequest (h : s.Fresh m p 0x17) (on : s.boot.mainOn = true) (step : le m.bytes 4 4 = s.stepNo) (stream : le m.bytes 8 2 < 256)
    (place : le m.bytes 10 1 < 64) : exec (.weightRequest m) s =
      .next ((s.takeCtl m).weightTo (le m.bytes 8 2) (le m.bytes 10 1 % 8, le m.bytes 10 1 / 8)) := by
  refine (h.passes on _ _ _).trans ?_
  dsimp only
  rw [takeMsg_of_port h.port]
  exact congrArg _ (if_pos ⟨step, stream, place⟩)

theorem exec_recovery (h : s.Fresh m p 0x16) (on : s.boot.mainOn = true) (phase : le m.bytes 1 1 ≤ 5) : exec (.recovery m) s =
    .next ((s.takeCtl m).enterPhase (le m.bytes 1 1) (le m.bytes 8 1) (BitVec.ofNat 32 (le m.bytes 4 4))
      ((s.takeCtl m).caseTarget (le m.bytes 8 1) (BitVec.ofNat 32 (le m.bytes 4 4))) (set72 m.bytes 9)) := by
  show execRecovery m s = _
  unfold execRecovery
  rw [if_neg (by rw [h.hears on]; simpa using phase), if_neg (by simp [h.not_stale])]
  dsimp only
  rw [takeMsg_of_port h.port]
  rfl

/-! Messages to any module. -/

theorem exec_postMsg_add (on : s.boot.mainOn = true) (port : m.port = some p) (kind : le m.bytes 0 1 = 1)
    (add : (postTarget (slice m.bytes 1 7)).op = 1) : exec (.postMsg m) s =
    .next (((s.takeCtl m).scOp (postTarget (slice m.bytes 1 7)).sc .add (BitVec.ofNat 32 (postTarget (slice m.bytes 1 7)).value) (.chord p)).sendControl
      m.srcX m.srcY (leBytes 8 2 ++ slice m.bytes 8 4)) := by
  show execPostMsg m s = _
  unfold execPostMsg
  rw [if_neg (by simp [on, kind])]
  dsimp only
  rw [if_pos add, port]
  rfl

theorem exec_writeAck (on : s.boot.mainOn = true) (kind : le m.bytes 0 1 = 3) : exec (.writeAck m) s =
    .next ((s.takeCtl m).onStreams fun t => { t with wrAcked := Sparse.put 0 t.wrAcked (posKey m.srcX m.srcY) (le m.bytes 4 8) }) :=
  if_neg (by simp [on, kind])

theorem exec_gradAck {c : CommitRun} (on : s.boot.mainOn = true) (kind : le m.bytes 0 1 = 4) (which : le m.bytes 12 1 = 0)
    (runs : s.comp.commit = some c) (step : le m.bytes 4 8 = c.step.toNat) : exec (.gradAck m) s = .next ((s.takeCtl m).finishCommit c) := by
  show execGradAck m s = _
  unfold execGradAck
  rw [if_neg (by simp [on, kind, which])]
  dsimp only
  rw [show (s.takeCtl m).comp.commit = some c from runs]
  dsimp only
  rw [if_pos step]

theorem exec_mirrorAck (on : s.boot.mainOn = true) (kind : le m.bytes 0 1 = 4) (which : le m.bytes 12 1 = 1) : exec (.mirrorAck m) s =
    .next ((s.takeCtl m).setDir 0x28 (le m.bytes 4 8)) :=
  if_neg (by simp [on, kind, which])

/-! A POST whose last target has been applied. -/

/-- An item of a window, where each item with its number is replaced by one of that number. -/
theorem item_finish {q : Nat} {seq : Word32} {i : Item} (h : s.item q seq = some i) (st : Word16) (o r : Nat) :
    (s.finish q seq st o r).item q seq = some { i with run := .finished st o r } := by
  unfold State.item at h ⊢
  have numbered : (i.seq == seq) = true := List.find?_some (p := fun i : Item => i.seq == seq) h
  rw [window_finish, List.find?_map]
  have same : ((fun i : Item => i.seq == seq) ∘ fun j : Item => if j.seq = seq then { j with run := .finished st o r } else j) =
      fun i => i.seq == seq := by
    funext j
    dsimp only [Function.comp]
    split <;> rfl
  rw [same, h, Option.map_some, if_pos (eq_of_beq numbered)]

theorem exec_postApplied {q : Nat} {seq : Word32} {i : Item} (on : s.boot.mainOn = true) (kind : le m.bytes 0 1 = 2)
    (posts : s.streams.posts = [(q, seq)]) (queue : q = le m.bytes 8 1) (tag : seq.toNat % 2 ^ 24 = le m.bytes 9 3) (hi : s.item q seq = some i)
    (run : i.running = true) : exec (.postApplied m) s =
    .next (((s.takeCtl m).onStreams fun t => { t with posts := t.posts.erase (q, seq) }).finish q seq stOk 0 0) := by
  have found : (s.takeCtl m).streams.posts.find? (fun e => e.1 == le m.bytes 8 1 && e.2.toNat % 2 ^ 24 == le m.bytes 9 3) = some (q, seq) := by
    rw [show (s.takeCtl m).streams.posts = [(q, seq)] from posts, List.find?_cons_of_pos (by simp only [queue, tag, beq_self_eq_true, Bool.and_self])]
  have item : ((s.takeCtl m).onStreams fun t => { t with posts := t.posts.erase (q, seq) }).item q seq = some i := hi
  have settled : ((s.takeCtl m).onStreams fun t => { t with posts := t.posts.erase (q, seq) }).streams.posts = [] := by
    show s.streams.posts.erase (q, seq) = []
    rw [posts, List.erase_cons_head]
  show execPostApplied m s = _
  unfold execPostApplied
  rw [if_neg (by simp [on, kind])]
  dsimp only
  rw [found]
  dsimp only
  rw [item]
  dsimp only
  rw [if_pos run, State.postSettle, settled]
  rfl

/-! The layout directory (R197, R214). -/

/-- With no injection, a codeword that is not bad reads as it is. -/
theorem slowLook_of_quiet (q : s.Quiet) {cw : Nat} (good : (Sparse.get CwHealth.good s.mem.badSlow cw).isBad = false) :
    (s.slowLook cw).1.isBad = false ∧ (s.slowLook cw).2.mem.slow = s.mem.slow := by
  unfold State.slowLook
  dsimp only
  rw [q.fires, q.fires]
  dsimp only
  generalize Sparse.get CwHealth.good s.mem.badSlow cw = health at good ⊢
  rw [good]
  refine ⟨good, ?_⟩
  by_cases corrected : health = .correctable
  · rw [corrected]
    rfl
  · simp [good, corrected, State.injEnd]

/-- Bytes that are stored in part of a codeword that is not bad. -/
theorem slow_writeSlow_within (q : s.Quiet) {off cw : Nat} {d : List Byte} (low : 32 * cw ≤ off) (some' : 0 < d.length)
    (high : off + d.length ≤ 32 * cw + 32) (part : d.length ≠ 32) (good : (Sparse.get CwHealth.good s.mem.badSlow cw).isBad = false) :
    (s.writeSlow off d).mem.slow = Memory.write s.mem.slow off d := by
  obtain ⟨readable, same⟩ := slowLook_of_quiet q good
  unfold State.writeSlow
  rw [cwSpan_within low some' high, List.foldl_cons, List.foldl_nil]
  unfold State.writeSlowCw
  rw [cwPart_within low high]
  dsimp only
  have whole : (d.drop (off - off)).take d.length = d := by rw [Nat.sub_self off, List.drop_zero, List.take_length]
  generalize s.slowLook cw = look at readable same ⊢
  rw [whole, readable, ← same]
  exact congrArg (fun u : State => u.mem.slow) (if_neg part)

theorem bytes_write (m : List Host.Cell) (a : Nat) (d : List Byte) : Memory.bytes (Memory.write m a d) a d.length = d := by
  refine List.ext_getElem (by simp [Memory.bytes]) fun i _ hi => ?_
  simp [Memory.bytes, read_write_same d m a i hi]

/-- An entry of the directory that is set reads as set. -/
theorem dirAt_setDir (q : s.Quiet) {off cw : Nat} (low : 32 * cw ≤ off) (high : off + 8 ≤ 32 * cw + 32)
    (good : (Sparse.get CwHealth.good s.mem.badSlow cw).isBad = false) (v : Nat) : (s.setDir off v).dirAt off = v % 256 ^ 8 := by
  have len : (leBytes 8 v).length = 8 := length_leBytes 8 v
  have stored := slow_writeSlow_within q (d := leBytes 8 v) low (by omega) (by omega) (by omega) good
  have read := bytes_write s.mem.slow off (leBytes 8 v)
  rw [len] at read
  rw [State.dirAt, State.setDir, stored, read, leNat_leBytes]

/-- MIRROR_ACK notes the step that is mirrored. -/
theorem mirrorAcked_setDir (q : s.Quiet) (good : (Sparse.get CwHealth.good s.mem.badSlow 1).isBad = false) (b : List Byte) (off : Nat) :
    (s.setDir 0x28 (le b off 8)).mirrorAcked = le b off 8 := by
  rw [State.mirrorAcked, dirAt_setDir q (cw := 1) (by decide) (by decide) good, Nat.mod_eq_of_lt (le_lt b off 8)]

end

end Sys2Proof.Machine
end

/-! ### Succession, votes and limits of the group (R280, R281, R286 to R292, R297, R301) -/
section
namespace Sys2Proof.Machine
open Sys2Proof.Laws

/-! A new Apex (R280, R281). -/

section
variable {s : State}

theorem apexEntry_followApex (e : Word16) (k : Nat) : (s.followApex e k).grp.apexEntry = k := by
  unfold State.followApex State.roleWatch
  dsimp only
  rw [apply_ite (fun u : State => u.grp.apexEntry), field_of_upkeep (upkeep_msix _ _) (fun u => u.grp.apexEntry), ite_self]
  rfl

theorem apexEntry_resend : s.resend.grp.apexEntry = s.grp.apexEntry :=
  resend_proj s (fun u => u.grp.apexEntry) (fun u x y b => field_of_upkeep (upkeep_sendControl u x y b) (fun u => u.grp.apexEntry)) fun _ _ => rfl

theorem epoch_resend : s.resend.grp.epoch = s.grp.epoch := congrArg Course.epoch (course_resend s)

/-- A claim that is taken up raises the epoch by one. -/
theorem exec_apexClaimTimer {k : Nat} (due : s.grp.claimDue = some k) (sound : s.boot.faulted = false) (ready : s.cpReady = true) :
    ∃ t, exec .apexClaimTimer s = .next t ∧ t.grp.epoch = s.grp.epoch + 1 := by
  have passed : (s.passTo k).grp.epoch = s.grp.epoch := congrArg Course.epoch (course_passTo s k)
  refine ⟨?t, ?eq, ?_⟩
  case eq =>
    show execApexClaimTimer s = _
    unfold execApexClaimTimer
    rw [due]
    dsimp only
    rw [if_neg (by simp [sound, ready])]
  rw [← passed]
  refine (epoch_takeOver _ _).trans ((congrArg Course.epoch (course_resend _)).trans ((epoch_adoptState _).trans ?_))
  exact (congrArg Course.epoch (course_groupReport _ _ _ _)).trans (epoch_followApex _ _ _)

end

/-! The Equinox vote (R286 to R289). -/

section
variable {s : State} {m : CtlMsg} {p : Fin 8}

/-- A vote of its row that a Vertex hears. -/
theorem exec_vote_row {x : Nat} (h : s.Fresh m p 0x10) (on : s.boot.mainOn = true) (role : s.grp.role = .vertex) (pos : s.grp.pos = some (x, m.srcY))
    (hx : m.srcX < 8) (hy : m.srcY < 8) (step : s.stepNo ≤ (voteOf m.bytes).step.toNat) (epoch : (voteOf m.bytes).epoch = s.grp.epoch) :
    exec (.vote m) s = .next ((s.takeCtl m).rowVote m.srcX m.srcY (voteOf m.bytes)) := by
  have vertex : (s.takeCtl m).isApex = false := by
    show (s.grp.role == .apex || s.grp.role == .leadApex) = false
    rw [role]
    decide
  refine (h.passes on _ _ _).trans ?_
  dsimp only
  rw [takeMsg_of_port h.port, fdtFrom_of_port h.port]
  refine (if_neg (Nat.not_lt.2 step)).trans ?_
  dsimp only [Option.map_none]
  refine (if_neg ?_).trans ?_
  · rintro (old | farX | farY)
    · exact old epoch
    · omega
    · omega
  rw [show (s.takeCtl m).grp.pos = some (x, m.srcY) from pos]
  dsimp only
  rw [vertex, if_neg Bool.false_ne_true, if_pos ⟨beq_self_eq_true _, .inr role⟩]

/-- A row that is not complete keeps its votes. -/
theorem rowVote_of_open {x : Nat} {v : Vote} (h : combined (Sparse.ins x v (Sparse.del x s.grp.rowVotes)) v.step = none) (y : Nat) :
    s.rowVote x y v = s.onGrp fun g => { g with rowVotes := Sparse.ins x v (Sparse.del x g.rowVotes) } := by
  unfold State.rowVote
  dsimp only
  rw [show (s.onGrp fun g => { g with rowVotes := Sparse.ins x v (Sparse.del x g.rowVotes) }).grp.rowVotes =
    Sparse.ins x v (Sparse.del x s.grp.rowVotes) from rfl, h]

theorem exec_voteGraceExpiry {k : Nat} (span : s.grp.spanStart = some k) (expired : s.grp.expired = true) (open_ : s.grp.voted = false)
    (runs : s.jobRuns = true) (pos : s.grp.pos.isSome = true) : exec .voteGraceExpiry s =
    .next ((s.passTo (k + s.chd.deadline.toNat + s.grp.cfg.voteGrace)).postVote true) := by
  show execVoteGraceExpiry s = _
  unfold execVoteGraceExpiry
  rw [span]
  obtain ⟨place, hp⟩ := Option.isSome_iff_exists.1 pos
  exact if_neg (by simp [hp, expired, open_, runs])

/-- The ring is still open: the vote is held. -/
theorem postVote_of_ringOpen (open_ : s.grp.voted = false) (ring : s.ringOpen = true) : s.postVote true = s.onGrp fun g => { g with voteHeld := some true } := by
  unfold State.postVote
  rw [open_, ring]
  rfl

/-- A straggler's vote goes out once the ring has completed. -/
theorem voted_postVote (open_ : s.grp.voted = false) (ring : s.ringOpen = false) : (s.postVote true).grp.voted = true := by
  have sent (u : State) (x y : Nat) (b : List Byte) : (u.sendControl x y b).grp.voted = u.grp.voted :=
    field_of_upkeep (upkeep_sendControl u x y b) fun u => u.grp.voted
  unfold State.postVote
  rw [open_, ring]
  dsimp only
  rw [if_neg Bool.false_ne_true, if_neg Bool.false_ne_true, if_pos rfl]
  dsimp only
  rw [if_neg Bool.false_ne_true, apply_ite (fun u : State => u.grp.voted), sent, sent]
  split
  · exact sent _ _ _ _
  · rfl

/-! Silent members (R288). -/

/-- Whether a vote of step n from place k is there. -/
def hasVote (n : Word32) (l : Sparse Vote) (k : Nat) : Bool := l.any fun v => v.1 == k && v.2.step == n

/-- What one row adds to the silent positions. -/
def State.silentRow (n : Word32) (pos : Option (Nat × Nat)) (s : State) (a : List Nat × State) (y : Nat) : List Nat × State :=
  if hasVote n a.2.grp.colVotes y then a
  else if pos.map (·.2) = some y then
    (a.1 ++ ((List.range 8).filter fun x => !hasVote n a.2.grp.rowVotes x).map (fun x => s.phys (x, y)), a.2)
  else
    let r := a.2.draw
    let mask := 1 + r.1.toNat % 255
    (a.1 ++ ((List.range 8).filter fun x => bitOf mask x).map (fun x => s.phys (x, y)), r.2)

theorem silent_eq (s : State) : s.silent = (List.range 8).foldl (s.silentRow s.job.step s.grp.pos) ([], s) := rfl

/-- With the votes of all other rows there, the own row alone is silent. -/
theorem foldl_silentRow {n : Word32} {pos : Option (Nat × Nat)} {y : Nat} (own : pos.map (·.2) = some y) (l : List Nat) (b : List Nat)
    (cols : ∀ j ∈ l, hasVote n s.grp.colVotes j = true ↔ j ≠ y) : l.foldl (s.silentRow n pos) (b, s) =
    (b ++ (l.filter (· == y)).flatMap fun y => ((List.range 8).filter fun x => !hasVote n s.grp.rowVotes x).map fun x => s.phys (x, y), s) := by
  induction l generalizing b with
  | nil => simp
  | cons j l ih =>
    have here := cols j (List.mem_cons_self ..)
    have rest (b) := ih b fun i hi => cols i (List.mem_cons_of_mem _ hi)
    rw [List.foldl_cons]
    by_cases same : j = y
    · subst same
      have row : s.silentRow n pos (b, s) j =
          (b ++ ((List.range 8).filter fun x => !hasVote n s.grp.rowVotes x).map (fun x => s.phys (x, j)), s) :=
        (if_neg fun h => here.1 h rfl).trans (if_pos own)
      rw [row, rest, List.filter_cons_of_pos (p := (· == j)) (beq_self_eq_true j), List.flatMap_cons, List.append_assoc]
    · have row : s.silentRow n pos (b, s) j = (b, s) := if_pos (here.2 same)
      rw [row, rest, List.filter_cons_of_neg (by simpa using same)]

theorem filter_range_eight : ∀ x < 8, (List.range 8).filter (· == x) = [x] := by decide

/-- One position alone is silent where every other vote has come. -/
theorem silent_one {x y : Nat} (hx : x < 8) (hy : y < 8) (own : s.grp.pos.map (·.2) = some y)
    (cols : ∀ j, j < 8 → (hasVote s.job.step s.grp.colVotes j = true ↔ j ≠ y))
    (rows : ∀ j, j < 8 → (hasVote s.job.step s.grp.rowVotes j = true ↔ j ≠ x)) : s.silent = ([s.phys (x, y)], s) := by
  have row : (List.range 8).filter (fun j => !hasVote s.job.step s.grp.rowVotes j) = [x] := by
    rw [← filter_range_eight x hx]
    refine List.filter_congr fun j hj => ?_
    rw [Bool.eq_iff_iff, Bool.not_eq_true', ← Bool.not_eq_true, rows j (List.mem_range.1 hj), not_not, beq_iff_eq]
  rw [silent_eq, foldl_silentRow own _ _ fun j hj => cols j (List.mem_range.1 hj), filter_range_eight y hy, row]
  rfl

/-- The Apex declares silent members failed. -/
theorem exec_voteLimitExpiry {k : Nat} (start : s.grp.voteStart = some k) (apex : s.isApex = true) (run : 5 ≤ s.grp.phase) (step : s.job.verdict = 0)
    (votes : s.grp.groupVotes = []) : exec .voteLimitExpiry s = .next
      (let r := ((s.passTo (k + s.grp.cfg.voteLimit)).onGrp fun g => { g with voteStart := none }).silent
       r.1.foldl (fun s f => s.declareFailed f 3) r.2) := by
  show execVoteLimitExpiry s = _
  unfold execVoteLimitExpiry
  rw [start]
  exact if_neg (by simp [apex, step, votes, run])

/-! A group that is lost (R289, R301). -/

theorem exec_xvoteLimitExpiry {g : Fin 28} (lead : s.isLead = true) (known : g.val < s.groups) (other : g.val ≠ s.groupNo)
    (votes : s.grp.groupVotes = []) : exec (.xvoteLimitExpiry g) s =
    .next ((s.passTo (Sparse.get 0 s.grp.groupHeard g - 1 + s.grp.cfg.xvoteLimit)).loseGroup g 2) :=
  if_neg (by simp [lead, known, other, votes])

theorem upkeep_sendApexState (s : State) : s.sendApexState.sansUpkeep = s.sansUpkeep := by
  unfold State.sendApexState
  dsimp only
  split
  · rfl
  · exact upkeep_sendControl s _ _ _

theorem groupVotes_loseGroup (s : State) (g cause : Nat) : (s.loseGroup g cause).grp.groupVotes = [] := by
  have watched (u : State) : u.roleWatch.grp.groupVotes = u.grp.groupVotes := by
    unfold State.roleWatch
    dsimp only
    rw [apply_ite (fun u : State => u.grp.groupVotes), field_of_upkeep (upkeep_msix _ _) (fun u => u.grp.groupVotes), ite_self]
    rfl
  unfold State.loseGroup
  dsimp only
  rw [field_of_upkeep (upkeep_sendApexState _) (fun u => u.grp.groupVotes), State.groupReport,
    field_of_upkeep (upkeep_report _ _ _ _ _ _) (fun u => u.grp.groupVotes), watched]
  rfl

/-- The group leaves the list, and those after it move up. -/
theorem members_loseGroup (s : State) (g cause : Nat) : (s.loseGroup g cause).grp.cfg.groups = s.grp.cfg.groups.eraseIdx g ∧
    (s.loseGroup g cause).grp.slots = ((List.range s.groups).map s.groupSlot).eraseIdx g := by
  obtain ⟨u, issued, e⟩ := issues_loseGroup s g cause
  have same := issued.members
  have groups : u.grp.cfg.groups = s.grp.cfg.groups := congrArg (fun c => c.2.1) same
  have slots : u.grp.slots = s.grp.slots := congrArg (fun c => c.2.2) same
  have listed : (List.range u.groups).map u.groupSlot = (List.range s.groups).map s.groupSlot := by
    unfold State.groups State.groupSlot
    rw [groups, slots]
  refine ⟨(congrArg Course.groups e).trans ?_, (congrArg Course.slots e).trans ?_⟩
  · rw [groups]
  · rw [listed]

/-! Results and digests (R290, R292). -/

theorem exec_voteResult (h : s.Fresh m p 0x11) (on : s.boot.mainOn = true) (step : le m.bytes 4 4 = s.stepNo) (open_ : s.job.verdict = 0)
    (runs : s.jobRuns = true) : exec (.voteResult m) s = .next
      (let t := ((s.takeCtl m).spreadResult (padTo 32 m.bytes)).applyResult (padTo 32 m.bytes) (.chord p)
       if t.isApex then t.sendApexState else t) := by
  refine (h.passes on _ _ _).trans ?_
  dsimp only
  rw [takeMsg_of_port h.port, fdtFrom_of_port h.port, h.port]
  exact if_neg (by
    show ¬(le m.bytes 4 4 ≠ s.stepNo ∨ (s.job.verdict ≠ 0 ∧ le m.bytes 8 1 ≠ 3) ∨ (!s.jobRuns) = true)
    simp [step, open_, runs])

/-- The deadline of the next step comes with the result. -/
theorem deadline_voteResult (h : s.Fresh m p 0x11) (on : s.boot.mainOn = true) (step : le m.bytes 4 4 = s.stepNo) (open_ : s.job.verdict = 0)
    (runs : s.jobRuns = true) : ∃ t, exec (.voteResult m) s = .next t ∧ t.chd.deadline = BitVec.ofNat 64 (le m.bytes 16 8) := by
  refine ⟨_, exec_voteResult h on step open_ runs, ?_⟩
  obtain ⟨u, hu, turned⟩ := turns_applyResult ((s.takeCtl m).spreadResult (padTo 32 m.bytes)) (padTo 32 m.bytes) (.chord p)
  generalize ((s.takeCtl m).spreadResult (padTo 32 m.bytes)).applyResult (padTo 32 m.bytes) (.chord p) = t at turned ⊢
  have kept : (if t.isApex then t.sendApexState else t).course = t.course := by rw [course_ite, course_sendApexState, ite_self]
  have deadline : t.course.deadline = u.course.deadline := congrArg (fun c => c.1) turned.standing
  refine (congrArg Course.deadline kept).trans (deadline.trans ?_)
  rw [hu, le_padTo (by decide)]

/-- The digests of the group once one has come in. -/
def State.digestAdded (s : State) (k : Nat) (b : List Byte) : State :=
  s.onGrp fun g => { g with digests := Sparse.ins k b (Sparse.del k g.digests) }

theorem exec_digest (h : s.Fresh m p 0x12) (on : s.boot.mainOn = true) (role : s.grp.role = .apex) (hx : m.srcX < 8) (hy : m.srcY < 8) :
    exec (.digest m) s = .next (((s.takeCtl m).digestAdded (64 * s.groupNo + 8 * m.srcY + m.srcX) (padTo 32 m.bytes)).passDigests (le m.bytes 4 4)) := by
  have apex : (s.takeCtl m).isApex = true := by
    show (s.grp.role == .apex || s.grp.role == .leadApex) = true
    rw [role]
    decide
  have not_lead (u : State) (k : Nat) (b : List Byte) (hu : u.grp.role = .apex) : (u.digestAdded k b).isLead = false := by
    show (u.grp.role == .leadApex) = false
    rw [hu]
    decide
  refine (h.passes on _ _ _).trans ?_
  dsimp only
  rw [takeMsg_of_port h.port, fdtFrom_of_port h.port, apex]
  refine (if_neg (by decide)).trans ((if_neg (by decide)).trans ((if_neg (by omega)).trans ?_))
  rw [le_padTo (by decide)]
  exact congrArg _ (if_neg (by rw [← State.digestAdded, not_lead (s.takeCtl m) _ _ role]; decide))

/-- Digests that are not complete wait. -/
theorem passDigests_of_short {n : Nat} (h : (s.digestsOf s.groupNo n).length < 64) : s.passDigests n = s := if_pos h

/-! A phase of a recovery that the Apex announced (R298). -/

theorem entered_enterPhase {phase : Nat} (h : phase < 5 ∨ phase = 5 ∧ s.grp.newPos = none) (case : Nat) (step target : Word32) (failed : List Nat) :
    (s.enterPhase phase case step target failed).grp.phase = phase ∧ (s.enterPhase phase case step target failed).grp.recCase = case ∧
      (s.enterPhase phase case step target failed).grp.recStep = step := by
  by_cases early : phase < 3 ∨ s.grp.newPos = none
  · have e := course_enterPhase early case step target failed
    exact ⟨congrArg Course.phase e, congrArg Course.recCase e, congrArg Course.recStep e⟩
  · obtain ⟨late, subst⟩ := not_or.1 early
    have running : phase ≠ 5 := fun five => subst (h.resolve_left (by omega)).2
    have e := lasting_enterPhase (s := s) (Nat.not_lt.1 late) running case step target failed
    refine ⟨phase_of_lasting e, ?_, ?_⟩
    · exact congrArg (fun c : Course => c.recCase) e
    · exact congrArg (fun c : Course => c.recStep) e

end

end Sys2Proof.Machine
end

/-! ### The phases of a recovery as the Apex leads them (R277, R298), and the obligation of the group's events -/
section
namespace Sys2Proof.Machine
open Sys2Proof.Laws

section
variable (s : State)

variable {s} in
theorem phase_of_course {c : Course} (h : s.course = c) : s.grp.phase = c.phase := congrArg Course.phase h
variable {s} in
theorem newPos_of_course {c : Course} (h : s.course = c) : s.grp.newPos = c.newPos := congrArg Course.newPos h

theorem course_writePos (v : List Word64) : (s.writePos v).course = { s.course with newPos := some v } := by
  have told (l : List (Nat × Nat)) (u : State) : (l.foldl (fun s p => s.mbCommand p 0x0B05 (s.posBytes v)) u).course = u.course :=
    foldl_proj State.course (fun u p => course_mbCommand u p _ (u.posBytes v)) l u
  have put (u : State) : (u.onGrp fun g => { g with newPos := some v }).course = { u.course with newPos := some v } := rfl
  unfold State.writePos
  rw [put, told]

/-- Phase Q ends: the substitution is on its way. -/
theorem ended_quiesce (v : List Word64) : ((s.announce 2).writePos v).grp.phase = 2 ∧ ((s.announce 2).writePos v).grp.newPos = some v := by
  have e := course_writePos (s.announce 2) v
  rw [course_announce (s := s) (phase := 2) (.inl (by decide))] at e
  exact ⟨phase_of_course e, newPos_of_course e⟩

theorem course_restoreBy (dest : Nat × Nat) (restore : Bool) (payload : List Byte) : (s.restoreBy dest restore payload).course = s.course := by
  have awaited (u : State) (r : Word32 × Bool) : (u.onGrp fun g => { g with restoring := g.restoring ++ [r] }).course = u.course := rfl
  unfold State.restoreBy
  dsimp only
  rw [awaited, course_mbCommand]

theorem course_restoreAll (dest : State → Nat × Nat → Nat × Nat) (restore : Bool) (payload : State → Nat × Nat → List Byte) (l : List (Nat × Nat)) :
    (l.foldl (fun s p => s.restoreBy (dest s p) restore (payload s p)) s).course = s.course :=
  foldl_proj State.course (fun u p => course_restoreBy u (dest u p) restore (payload u p)) l s

theorem course_revertAll : s.revertAll.course = s.course := by
  unfold State.revertAll
  dsimp only
  exact course_restoreAll s (fun _ p => p) false _ _

theorem course_restorePhase (lost : List (Nat × Nat)) : (s.restorePhase lost).course = s.course := by
  unfold State.restorePhase
  dsimp only
  split
  · exact course_restoreAll s State.plusX true _ lost
  · split
    · exact course_restoreAll s (fun _ p => p) false _ lost
    · exact course_revertAll s

/-- Phase S ends: the substitution is in force, and C and R run. -/
theorem ended_endSubstitute : s.endSubstitute.grp.phase = 4 ∧ s.endSubstitute.grp.newPos = none := by
  have reported (f : State → (Nat × Nat) × Nat → List Byte) (l : List ((Nat × Nat) × Nat)) (u : State) :
      (l.foldl (fun s p => s.groupReport 0x0A05 .note (f s p)) u).course = u.course :=
    foldl_proj State.course (fun v p => course_groupReport v _ _ (f v p)) l u
  have ended : s.endSubstitute.course = ((s.announce 3).announce 4).course := (course_restorePhase _ _).trans (reported _ _ _)
  have e := lasting_announce (s := s.announce 3) (phase := 4) (by decide) (by decide)
  rw [← ended] at e
  exact ⟨phase_of_lasting e, newPos_of_lasting e⟩

variable {s} in
/-- The recovery ends: the group runs. -/
theorem phase_endRecovery (h : s.grp.newPos = none) : s.endRecovery.grp.phase = 5 := by
  have e := course_announce (s := s) (phase := 5) (.inr h)
  have run (u : State) (hu : u.course = (s.announce 5).course) : u.tryVerdict.grp.phase = 5 := by
    rw [e] at hu
    exact ((issues_tryVerdict u).phase ((congrArg Course.newPos hu).trans h)).trans (congrArg Course.phase hu)
  have returned (u : State) : (u.onGrp fun g => { g with returning := none }).course = u.course := rfl
  unfold State.endRecovery
  dsimp only
  split
  · exact run _ ((course_groupReport _ _ _ _).trans (returned _))
  · exact run _ (course_groupReport _ _ _ _)

end

/-! RECOVERY_PHASE_END. -/

section
variable {s : State}

theorem recoveryPhaseEnd_quiesced (apex : s.isApex = true) (lives : s.grp.lost = false) (h : s.grp.phase = 1) :
    exec .recoveryPhaseEnd s = .next ((s.announce 2).writePos s.substituted) := by
  show execRecoveryPhaseEnd s = _
  simp [execRecoveryPhaseEnd, apex, lives, h]

theorem recoveryPhaseEnd_substituted (apex : s.isApex = true) (lives : s.grp.lost = false) (h : s.grp.phase = 2) :
    exec .recoveryPhaseEnd s = .next s.endSubstitute := by
  show execRecoveryPhaseEnd s = _
  simp [execRecoveryPhaseEnd, apex, lives, h]

theorem recoveryPhaseEnd_restored (apex : s.isApex = true) (lives : s.grp.lost = false) (h : s.grp.phase = 4) (done : s.restored = true) :
    exec .recoveryPhaseEnd s = .next s.endRecovery := by
  show execRecoveryPhaseEnd s = _
  simp [execRecoveryPhaseEnd, apex, lives, h, done]

end

end Sys2Proof.Machine
end
section
namespace Sys2Proof.Proofs
open Sys2Proof.Machine Sys2Proof.Laws

/-- Settles O56: each message that is heard and each timer, by what it makes of the group's course. -/
theorem groupEvents : Obligations.GroupEvents := by
  intro s m p quiet on
  refine ⟨?postMsg, ?postApplied, ?writeAck, ?gradAck, ?mirrorAck, ?heartbeatPeriod, ?heartbeat, ?claimTimer, ?claim, ?apexState, ?vote, ?grace,
    ?voteLimit, ?xvoteLimit, ?recovering, ?result, ?digest, ?failSelf, ?recovery, ?phaseEnd, ?toItself, ?weights⟩
  case postMsg => exact fun port kind add => exec_postMsg_add on port kind add
  case postApplied =>
    intro q seq i kind posts queue tag hi run
    refine ⟨_, exec_postApplied on kind posts queue tag hi run, ?_, item_finish hi _ _ _⟩
    show s.streams.posts.erase (q, seq) = []
    rw [posts, List.erase_cons_head]
  case writeAck => exact fun kind => ⟨_, exec_writeAck on kind, get_put_same _ _ _ _⟩
  case gradAck => exact fun c kind which runs step => exec_gradAck on kind which runs step
  case mirrorAck =>
    intro kind which good
    have quiet' : (s.takeCtl m).Quiet := quiet
    exact ⟨_, exec_mirrorAck on kind which, mirrorAcked_setDir quiet' good m.bytes 4⟩
  case heartbeatPeriod => exact fun ready => ⟨_, if_neg (by simp [on, ready]), rfl⟩
  case heartbeat =>
    intro h
    obtain ⟨row, e⟩ := exec_heartbeat h on
    exact ⟨_, e, List.mem_cons_self ..⟩
  case claimTimer => exact fun k due sound ready => exec_apexClaimTimer due sound ready
  case claim =>
    intro h new
    refine ⟨_, exec_apexClaim h on new, ?_, ?_⟩
    · rw [epoch_resend]
      exact epoch_followApex _ _ _
    · rw [apexEntry_resend, apexEntry_followApex]
  case apexState => exact fun h => ⟨_, exec_apexState h on, rfl⟩
  case vote =>
    intro x h role pos hx hy v l step epoch waits
    have waits' : combined (Sparse.ins m.srcX v (Sparse.del m.srcX (s.takeCtl m).grp.rowVotes)) v.step = none := waits
    exact ⟨_, exec_vote_row h on role pos hx hy step epoch, by rw [rowVote_of_open waits']; rfl⟩
  case grace =>
    intro k span expired open_ runs pos
    have passed := upkeep_passTo s (k + s.chd.deadline.toNat + s.grp.cfg.voteGrace)
    generalize hu : s.passTo (k + s.chd.deadline.toNat + s.grp.cfg.voteGrace) = u at passed
    have open' : u.grp.voted = false := (field_of_upkeep passed fun u => u.grp.voted).trans open_
    have ring : u.ringOpen = s.ringOpen := field_of_upkeep passed State.ringOpen
    refine ⟨_, exec_voteGraceExpiry span expired open_ runs pos, ?_, ?_⟩ <;> rw [hu]
    · exact fun closed => voted_postVote open' (ring.trans closed)
    · intro still
      rw [postVote_of_ringOpen open' (ring.trans still)]
      exact ⟨open', rfl⟩
  case voteLimit =>
    intro k x y start apex run step votes own hx hy has cols rows subst waits
    refine ⟨_, exec_voteLimitExpiry start apex run step votes, ?_⟩
    have passed := upkeep_passTo s (k + s.grp.cfg.voteLimit)
    generalize s.passTo (k + s.grp.cfg.voteLimit) = t at passed ⊢
    generalize hu : (t.onGrp fun g => { g with voteStart := none }) = u
    have kept {α : Type} (f : State → α) (hf : ∀ x : State, f x.sansUpkeep = f x)
        (hs : ∀ x : State, f (x.onGrp fun g => { g with voteStart := none }) = f x) : f u = f s := by
      rw [← hu, hs, field_of_upkeep passed f hf]
    have place : u.phys (x, y) = s.phys (x, y) := kept (fun s => s.phys (x, y)) (fun _ => rfl) fun _ => rfl
    have alone : u.silent = ([s.phys (x, y)], u) := by
      rw [← place]
      refine silent_one hx hy ((kept (fun s => s.grp.pos.map (·.2)) (fun _ => rfl) fun _ => rfl).trans own) ?_ ?_
      · rw [kept (fun s => s.grp.colVotes) (fun _ => rfl) fun _ => rfl, kept (fun s => s.job.step) (fun _ => rfl) fun _ => rfl]
        exact cols
      · rw [kept (fun s => s.grp.rowVotes) (fun _ => rfl) fun _ => rfl, kept (fun s => s.job.step) (fun _ => rfl) fun _ => rfl]
        exact rows
    rw [alone]
    exact mem_failed_declareFailed ((kept State.isApex (fun _ => rfl) fun _ => rfl).trans apex)
      ((kept (fun s => s.grp.newPos) (fun _ => rfl) fun _ => rfl).trans subst)
      ((kept (fun s => s.job.waiting) (fun _ => rfl) fun _ => rfl).trans waits) _ _
  case xvoteLimit =>
    intro g lead known other votes
    have passed := upkeep_passTo s (Sparse.get 0 s.grp.groupHeard g - 1 + s.grp.cfg.xvoteLimit)
    obtain ⟨groups, slots⟩ := members_loseGroup (s.passTo (Sparse.get 0 s.grp.groupHeard g - 1 + s.grp.cfg.xvoteLimit)) g 2
    refine ⟨_, exec_xvoteLimitExpiry lead known other votes, ?_, ?_, groupVotes_loseGroup _ _ _⟩
    · rw [groups, field_of_upkeep passed fun u => u.grp.cfg.groups]
    · rw [slots, field_of_upkeep passed fun u => (List.range u.groups).map u.groupSlot]
  case recovering => exact fun role recovers lives => congrArg _ (if_pos ⟨role, recovers, by simp [lives]⟩)
  case result => exact fun h step open_ runs => deadline_voteResult h on step open_ runs
  case digest =>
    intro h role hx hy l short
    have short' : (((s.takeCtl m).digestAdded (64 * s.groupNo + 8 * m.srcY + m.srcX) (padTo 32 m.bytes)).digestsOf s.groupNo (le m.bytes 4 4)).length < 64 :=
      short
    exact ⟨_, exec_digest h on role hx hy, by rw [passDigests_of_short short']; rfl⟩
  case failSelf =>
    intro h apex subst waits
    have apex' : (s.takeCtl m).isApex = true := apex
    exact ⟨_, exec_failSelf h on, mem_failed_declareFailed apex' subst waits _ _⟩
  case recovery =>
    intro h phase
    have known : le m.bytes 1 1 ≤ 5 := phase.elim Nat.le_of_lt fun five => five.1.le
    have phase' : le m.bytes 1 1 < 5 ∨ le m.bytes 1 1 = 5 ∧ (s.takeCtl m).grp.newPos = none := phase
    exact ⟨_, exec_recovery h on known, entered_enterPhase phase' _ _ _ _⟩
  case phaseEnd =>
    refine fun apex lives => ⟨fun one => ?_, fun two => ?_, fun four done subst => ?_⟩
    · exact ⟨_, recoveryPhaseEnd_quiesced apex lives one, ended_quiesce s s.substituted⟩
    · exact ⟨_, recoveryPhaseEnd_substituted apex lives two, ended_endSubstitute s⟩
    · exact ⟨_, recoveryPhaseEnd_restored apex lives four done, phase_endRecovery subst⟩
  case toItself =>
    intro x y b own
    exact congrArg (fun u : State => u.chd.ctlIn) (if_pos own)
  case weights => exact fun h step stream place => exec_weightRequest h on step stream place

end Sys2Proof.Proofs
end

/-! ### Stores in a slow tier without a bad codeword, and the layout directory that UPD_LAYOUT writes there (R197, R224) -/
section
namespace Sys2Proof.Machine
open Sys2Proof.Laws

/-- No injection is set and no codeword of the slow tier is bad: each store leaves its bytes. -/
def State.SlowClean (s : State) : Prop := s.Quiet ∧ s.mem.badSlow = []

/-- From s to t the bytes of the layout directory are as they were. -/
def State.SameDirectory (s t : State) : Prop := ∀ j, j < 4096 → Memory.read t.mem.slow j = Memory.read s.mem.slow j

/-- The entry of the directory at an offset names a base beyond the directory. -/
def State.namesBase (s : State) (dir : Nat) : Prop := 4096 ≤ bitsOf (s.dirAt dir) 0 40

section
variable {s t : State}

/-! Stores. -/

section
variable (off : Nat) (d : List Byte)

theorem writeSlowCw_clean (c : s.SlowClean) (cw : Nat) : (s.writeSlowCw off d cw).SlowClean ∧
    ∀ j, Memory.read (s.writeSlowCw off d cw).mem.slow j =
      if j / 32 = cw ∧ off ≤ j ∧ j < off + d.length then d.getD (j - off) 0 else Memory.read s.mem.slow j := by
  obtain ⟨quiet, none_bad⟩ := c
  have good : Sparse.get CwHealth.good s.mem.badSlow cw = .good := by rw [none_bad]; rfl
  have look : s.slowLook cw = (.good, s) := by
    simp [State.slowLook, quiet.fires, quiet.injEnd, good, CwHealth.isBad]
  have written : s.writeSlowCw off d cw = (s.setSlowHealth cw .good).onMem fun m => { m with
      slow := Memory.write m.slow (cwPart off d.length cw).1
        ((d.drop ((cwPart off d.length cw).1 - off)).take (cwPart off d.length cw).2) } := by
    unfold State.writeSlowCw
    rw [look]
    exact ite_self _
  rw [written]
  refine ⟨⟨quiet, ?_⟩, fun j => ?_⟩
  · show Sparse.put CwHealth.good s.mem.badSlow cw .good = []
    rw [none_bad]
    rfl
  · show Memory.read (Memory.write s.mem.slow _ _) j = _
    simp only [read_write, cwPart, List.length_take, List.length_drop, List.getD_eq_getElem?_getD]
    by_cases hj : j / 32 = cw ∧ off ≤ j ∧ j < off + d.length
    · rw [if_pos hj, if_pos (by omega), List.getElem?_take_of_lt (by omega), List.getElem?_drop]
      congr 2
      omega
    · rw [if_neg hj, if_neg (by omega)]

theorem foldl_writeSlowCw (l : List Nat) : ∀ {s : State}, s.SlowClean →
    (l.foldl (fun s cw => s.writeSlowCw off d cw) s).SlowClean ∧
    ∀ j, Memory.read (l.foldl (fun s cw => s.writeSlowCw off d cw) s).mem.slow j =
      if j / 32 ∈ l ∧ off ≤ j ∧ j < off + d.length then d.getD (j - off) 0 else Memory.read s.mem.slow j := by
  induction l with
  | nil => exact fun c => ⟨c, fun j => by simp⟩
  | cons cw l ih =>
    intro s c
    obtain ⟨clean, reads⟩ := writeSlowCw_clean off d c cw
    obtain ⟨clean', reads'⟩ := ih clean
    refine ⟨clean', fun j => (reads' j).trans ?_⟩
    rw [reads j]
    by_cases later : j / 32 ∈ l <;> by_cases covered : off ≤ j ∧ j < off + d.length <;> simp [later, covered]

theorem slowClean_writeSlow (c : s.SlowClean) : (s.writeSlow off d).SlowClean := (foldl_writeSlowCw off d _ c).1

theorem read_writeSlow (c : s.SlowClean) (j : Nat) : Memory.read (s.writeSlow off d).mem.slow j =
    if off ≤ j ∧ j < off + d.length then d.getD (j - off) 0 else Memory.read s.mem.slow j :=
  ((foldl_writeSlowCw off d (cwSpan off d.length) c).2 j).trans
    (if_congr ⟨And.right, fun hj => ⟨mem_cwSpan_of_byte hj.1 hj.2, hj⟩⟩ rfl rfl)

end

theorem sameDirectory_writeSlow (c : s.SlowClean) {off : Nat} (h : 4096 ≤ off) (d : List Byte) : s.SameDirectory (s.writeSlow off d) :=
  fun j hj => (read_writeSlow off d c j).trans (if_neg (by omega))

/-! Entries of the directory. -/

theorem dirAt_congr {off : Nat} (h : ∀ i, i < 8 → Memory.read t.mem.slow (off + i) = Memory.read s.mem.slow (off + i)) :
    t.dirAt off = s.dirAt off :=
  congrArg leNat (List.map_congr_left fun i hi => h i (List.mem_range.1 hi))

theorem State.SameDirectory.dirAt (h : s.SameDirectory t) {off : Nat} (ho : off + 8 ≤ 4096) : t.dirAt off = s.dirAt off :=
  dirAt_congr fun i hi => h _ (by omega)

theorem State.SameDirectory.namesBase (h : s.SameDirectory t) {dir : Nat} (hd : dir + 8 ≤ 4096) (base : s.namesBase dir) :
    t.namesBase dir := by rwa [State.namesBase, h.dirAt hd]

theorem region_beyond {dir : Nat} (base : s.namesBase dir) (i size : Nat) : 4096 ≤ s.region dir i size :=
  Nat.le_add_right_of_le base

theorem slowClean_setDir (c : s.SlowClean) (off v : Nat) : (s.setDir off v).SlowClean := slowClean_writeSlow off _ c

theorem dirAt_setDir_same (c : s.SlowClean) {off : Nat} (aligned : off % 8 = 0) (v : Nat) : (s.setDir off v).dirAt off = v % 256 ^ 8 :=
  dirAt_setDir c.1 (cw := off / 32) (by omega) (by omega) (by rw [c.2]; rfl) v

theorem dirAt_setDir_other (c : s.SlowClean) {off dir : Nat} (apart : dir + 8 ≤ off ∨ off + 8 ≤ dir) (v : Nat) :
    (s.setDir off v).dirAt dir = s.dirAt dir :=
  dirAt_congr fun i hi => (read_writeSlow off _ c _).trans (if_neg (by rw [length_leBytes]; omega))

/-- A field of the bytes that a store writes at the start of the directory. -/
theorem dirAt_writeSlow_zero (c : s.SlowClean) {d : List Byte} {off : Nat} (h : off + 8 ≤ d.length) :
    (s.writeSlow 0 d).dirAt off = le d off 8 := by
  refine congrArg leNat (List.ext_getElem (by simp [Memory.bytes, length_slice]) fun i hi _ => ?_)
  have hi8 : i < 8 := by simpa [Memory.bytes] using hi
  simp only [Memory.bytes, List.getElem_map, List.getElem_range]
  rw [read_writeSlow 0 d c, if_pos (by omega), Nat.sub_zero, getElem_slice]

end

/-! Places of the regions (Table 07-1). -/

theorem placeRegions_bounds (l : List Nat) : ∀ at', at' ≤ (placeRegions at' l).2 ∧
    ∀ a ∈ (placeRegions at' l).1, at' ≤ a ∧ a ≤ (placeRegions at' l).2 := by
  induction l with
  | nil => exact fun at' => ⟨le_rfl, fun a ha => absurd ha List.not_mem_nil⟩
  | cons z l ih =>
    intro at'
    obtain ⟨stop, bases⟩ := ih ((at' + z + 4095) / 4096 * 4096)
    simp only [placeRegions, List.mem_cons]
    refine ⟨by omega, ?_⟩
    rintro a (rfl | ha)
    · omega
    · have := bases a ha
      omega

theorem length_placeRegions (l : List Nat) : ∀ at', (placeRegions at' l).1.length = l.length := by
  induction l with
  | nil => exact fun _ => rfl
  | cons z l ih => exact fun at' => congrArg Nat.succ (ih _)

/-- The entries of the regions stand in the directory behind those of its steps and counts. -/
theorem regionNeeds_offsets (b n : Nat) : ∀ z ∈ regionNeeds b n, z.1 % 8 = 0 ∧ 0x80 ≤ z.1 := by
  simp [regionNeeds, dPgt, dSched, dProg, dCrec, dMaster, dMom, dResid, dKgrad, dNgrad, dNpgt, dMirror, dMtag, dBdig, dDone, dGdig,
    dExport, dNscale]

/-! The stages of UPD_LAYOUT. -/

/-- Bytes of each region as UPD_LAYOUT places it, in the order of Table 07-1. -/
def layoutSizes (b : List Byte) : List Nat :=
  ((regionNeeds (le b 0 8) (le b 8 8)).zipIdx).map fun z => max z.1.2 (le b (24 + 8 * z.2) 8)

/-- The regions of a layout with the base of each. -/
def layoutEntries (b : List Byte) : List ((Nat × Nat) × Nat) :=
  (regionNeeds (le b 0 8) (le b 8 8)).zip (placeRegions 4096 (layoutSizes b)).1

/-- The directory is begun: UPD_LAYOUT has been run, with the counts of the payload. -/
def State.layoutBegun (s : State) (b : List Byte) : State := s.writeSlow 0 (leBytes 8 1 ++ slice b 0 24 ++ leBytes 48 0)
/-- The bases of regions are entered in the directory. -/
def State.entersBases (s : State) (l : List ((Nat × Nat) × Nat)) : State := l.foldl (fun s z => s.setDir z.1.1 z.2) s
/-- Every descriptor of PGT in a list is reset. -/
def State.resetGroups (s : State) (l : List Nat) : State := l.foldl (fun s g => s.writeSlow (s.region dPgt g 64) pgReset) s
/-- The commit records are cleared. -/
def State.clearRecords (s : State) : State := s.writeSlow (s.region dCrec 0 64) (List.replicate 4096 0)
/-- What UPD_LAYOUT reaches. -/
def State.layoutDone (s : State) (b : List Byte) : State :=
  (((s.layoutBegun b).entersBases (layoutEntries b)).resetGroups (List.range 4096)).clearRecords

section
variable {s : State} {b : List Byte}

theorem updLayoutCmd_busy (h : s.jobRuns = true) : updLayoutCmd b s = .done stBusy [] s := if_pos h

theorem updLayoutCmd_ok (h : s.jobRuns = false) (room : (placeRegions 4096 (layoutSizes b)).2 ≤ slowSize) :
    updLayoutCmd b s = .done stOk [] (s.layoutDone b) := (if_neg (by simp [h])).trans (if_neg (Nat.not_lt.2 room))

/-- The bases of a layout that has room lie beyond the directory and fit their 40 bits. -/
theorem layoutEntries_bounds (room : (placeRegions 4096 (layoutSizes b)).2 ≤ slowSize) :
    ∀ z ∈ layoutEntries b, z.1.1 % 8 = 0 ∧ 0x80 ≤ z.1.1 ∧ 4096 ≤ z.2 ∧ z.2 < 2 ^ 40 := by
  intro z hz
  obtain ⟨region, base⟩ := List.of_mem_zip (a := z.1) (b := z.2) hz
  obtain ⟨aligned, behind⟩ := regionNeeds_offsets _ _ _ region
  obtain ⟨low, high⟩ := (placeRegions_bounds (layoutSizes b) 4096).2 _ base
  have small : slowSize < 2 ^ 40 := by decide
  exact ⟨aligned, behind, low, by omega⟩

/-- Each region of Table 07-1 has its entry in a layout. -/
theorem offsets_layoutEntries (b : List Byte) : (layoutEntries b).map (·.1) = regionNeeds (le b 0 8) (le b 8 8) :=
  List.map_fst_zip (by rw [length_placeRegions, layoutSizes, List.length_map, List.length_zipIdx])

theorem mem_offsets_layoutEntries {dir : Nat} (h : dir ∈ (regionNeeds (le b 0 8) (le b 8 8)).map (·.1)) :
    ∃ z ∈ layoutEntries b, z.1.1 = dir := by
  rw [← offsets_layoutEntries, List.map_map] at h
  exact List.mem_map.1 h

/-- Bases that are entered leave the entries before them; an entry names a base where it did or where one is entered. -/
theorem entersBases_clean (l : List ((Nat × Nat) × Nat))
    (bounds : ∀ z ∈ l, z.1.1 % 8 = 0 ∧ 0x80 ≤ z.1.1 ∧ 4096 ≤ z.2 ∧ z.2 < 2 ^ 40) :
    ∀ {s : State}, s.SlowClean → (s.entersBases l).SlowClean ∧ (∀ off, off + 8 ≤ 0x80 → (s.entersBases l).dirAt off = s.dirAt off) ∧
      ∀ dir, dir % 8 = 0 → s.namesBase dir ∨ (∃ z ∈ l, z.1.1 = dir) → (s.entersBases l).namesBase dir := by
  induction l with
  | nil => exact fun c => ⟨c, fun _ _ => rfl, fun dir _ named => named.elim id fun ⟨z, hz, _⟩ => absurd hz List.not_mem_nil⟩
  | cons z l ih =>
    intro s c
    obtain ⟨aligned, behind, low, high⟩ := bounds z (List.mem_cons_self ..)
    obtain ⟨clean, before, named⟩ := ih (fun y hy => bounds y (List.mem_cons_of_mem _ hy)) (slowClean_setDir c z.1.1 z.2)
    have here : (s.setDir z.1.1 z.2).namesBase z.1.1 := by
      rw [State.namesBase, dirAt_setDir_same c aligned, bitsOf]
      omega
    refine ⟨clean, fun off ho => (before off ho).trans (dirAt_setDir_other c (by omega) _), fun dir hd hn => named dir hd ?_⟩
    by_cases same : z.1.1 = dir
    · exact .inl (same ▸ here)
    · rcases hn with base | ⟨y, hy, rfl⟩
      · exact .inl (by rwa [State.namesBase, dirAt_setDir_other c (by omega)])
      · exact .inr ⟨y, (List.mem_cons.1 hy).resolve_left fun e => same (e ▸ rfl), rfl⟩

theorem resetGroups_clean (l : List Nat) : ∀ {s : State}, s.SlowClean → s.namesBase dPgt →
    (s.resetGroups l).SlowClean ∧ s.SameDirectory (s.resetGroups l) := by
  induction l with
  | nil => exact fun c _ => ⟨c, fun _ _ => rfl⟩
  | cons g l ih =>
    intro s c base
    have same := sameDirectory_writeSlow c (region_beyond base g 64) pgReset
    obtain ⟨clean, same'⟩ := ih (slowClean_writeSlow (s.region dPgt g 64) pgReset c) (same.namesBase (by decide) base)
    exact ⟨clean, fun j hj => (same' j hj).trans (same j hj)⟩

theorem slice_append_left {x y : List Byte} {off n : Nat} (h : off + n ≤ x.length) : slice (x ++ y) off n = slice x off n := by
  refine List.ext_getElem (by rw [length_slice, length_slice]) fun i hi _ => ?_
  rw [length_slice] at hi
  rw [getElem_slice, getElem_slice, List.getD_append _ _ _ _ (by omega)]

theorem slice_append_beyond (x y : List Byte) (off n : Nat) : slice (x ++ y) (x.length + off) n = slice y off n := by
  refine List.ext_getElem (by rw [length_slice, length_slice]) fun i hi _ => ?_
  rw [getElem_slice, getElem_slice, List.getD_append_right _ _ _ _ (by omega)]
  congr 1
  omega

theorem dirAt_layoutBegun (c : s.SlowClean) (b : List Byte) :
    (s.layoutBegun b).dirAt 0 = 1 ∧ (s.layoutBegun b).dirAt 0x08 = le b 0 8 := by
  have length : (leBytes 8 1 ++ slice b 0 24 ++ leBytes 48 0).length = 80 := by simp [length_leBytes, length_slice]
  refine ⟨(dirAt_writeSlow_zero c (by omega)).trans ?_, (dirAt_writeSlow_zero c (by omega)).trans ?_⟩
  · rw [le, List.append_assoc, slice_append_left (by rw [length_leBytes])]
    rfl
  · rw [le, slice_append_left (by simp [length_leBytes, length_slice])]
    exact congrArg leNat ((slice_append_beyond (leBytes 8 1) (slice b 0 24) 0 8).trans (slice_padTo (by decide)))

/-- UPD_LAYOUT resets the descriptors and clears the records beyond the directory, which keeps what the payload gave. -/
theorem laidOut_layoutDone (c : s.SlowClean) (room : (placeRegions 4096 (layoutSizes b)).2 ≤ slowSize) :
    (s.layoutDone b).laidOut = true ∧ (s.layoutDone b).dirAt 0x08 = le b 0 8 := by
  obtain ⟨begun, blocks⟩ := dirAt_layoutBegun c b
  obtain ⟨clean, before, named⟩ := entersBases_clean (layoutEntries b) (layoutEntries_bounds room) (s := s.layoutBegun b)
    (slowClean_writeSlow 0 _ c)
  have pgt := named dPgt (by decide) (.inr (mem_offsets_layoutEntries (by simp [regionNeeds])))
  have crec := named dCrec (by decide) (.inr (mem_offsets_layoutEntries (by simp [regionNeeds])))
  obtain ⟨clean', groups⟩ := resetGroups_clean (List.range 4096) clean pgt
  have records := sameDirectory_writeSlow clean' (region_beyond (groups.namesBase (by decide) crec) 0 64) (List.replicate 4096 0)
  have kept (off : Nat) (ho : off + 8 ≤ 0x80) : (s.layoutDone b).dirAt off = (s.layoutBegun b).dirAt off :=
    ((records.dirAt (by omega)).trans (groups.dirAt (by omega))).trans (before off ho)
  exact ⟨by rw [State.laidOut, kept 0 (by decide), begun]; rfl, (kept 0x08 (by decide)).trans blocks⟩

end

end Sys2Proof.Machine
end

/-! ### The other UPD commands (R198, R201, R203, R215, R219 to R221) -/
section
namespace Sys2Proof.Machine
open Sys2Proof.Laws

section
variable {s : State} {b : List Byte}

/-! Groups, schedules, programs. -/

section
variable (hg : le b 0 2 < 4096) (hl : s.laidOut = true) (len : 56 ≤ b.length)
include hg hl len

theorem updGroupWriteCmd_ok (fixed : s.jobRuns = false ∨ pgFixed (slice b 8 64) = pgFixed (s.pgBytes (le b 0 2)))
    (free : s.namedByCommit (le b 0 2) = false) :
    updGroupWriteCmd b s = .done stOk [] (s.atBoundary (.pgd (le b 0 2) (slice b 8 64))) :=
  (if_neg (by simp [hl, hg, len])).trans (if_neg (by rcases fixed with h | h <;> simp [h, free]))

theorem updGroupWriteCmd_busy
    (held : s.jobRuns = true ∧ pgFixed (slice b 8 64) ≠ pgFixed (s.pgBytes (le b 0 2)) ∨ s.namedByCommit (le b 0 2) = true) :
    updGroupWriteCmd b s = .done stBusy [] s := (if_neg (by simp [hl, hg, len])).trans (if_pos held)

end

theorem updScheduleWriteCmd_ok (hk : le b 0 2 < 256) (hl : s.laidOut = true) (ok : scheduleOk (padTo 4160 (b.drop 8)) = true) :
    updScheduleWriteCmd b s = .done stOk [] (s.atBoundary (.schedule (le b 0 2) (padTo 4160 (b.drop 8)))) :=
  if_neg (by simpa [hl, ok] using hk)

theorem updScheduleWriteCmd_bad (bad : scheduleOk (padTo 4160 (b.drop 8)) = false) : updScheduleWriteCmd b s = .done stBadOpcode [] s :=
  if_pos (by simp [bad])

theorem updProgramLoadCmd_fails (bad : imageCheck (b.drop 8) false ≠ stOk) :
    updProgramLoadCmd b s = .done (imageCheck (b.drop 8) false) [] s := if_pos bad

theorem updProgramLoadCmd_bad (whole : imageCheck (b.drop 8) false = stOk)
    (bad : 64 ≤ le b 0 2 ∨ s.laidOut = false ∨ 4096 < (b.drop 8).length ∨ programOk (imageCode (b.drop 8)) = false) :
    updProgramLoadCmd b s = .done stBadOpcode [] s :=
  (if_neg (not_not.2 whole)).trans (if_pos (by simpa only [Bool.not_eq_true'] using bad))

theorem updProgramLoadCmd_ok (whole : imageCheck (b.drop 8) false = stOk) (hk : le b 0 2 < 64) (hl : s.laidOut = true)
    (len : (b.drop 8).length ≤ 4096) (ok : programOk (imageCode (b.drop 8)) = true) :
    updProgramLoadCmd b s = .done stOk [] (s.writeSlow (s.region dProg (le b 0 2) 4096) (padTo 4096 (b.drop 8))) :=
  (if_neg (not_not.2 whole)).trans (if_neg (by simpa [hl, ok, -List.length_drop] using ⟨hk, len⟩))

/-! UPD_RESTORE. -/

theorem updRestoreCmd_bad (h : s.laidOut = false ∨ s.nscaleOf ≠ le b 0 4) : updRestoreCmd b s = .done stFaulted [] s := by
  unfold updRestoreCmd
  dsimp only
  rw [if_pos (h.imp (fun shut => by simp [shut]) .inl)]
  rfl

theorem restoreNeed_of_holds {t x : Nat} (h : s.mirrorHolds t x = true) (g : Nat) : s.restoreNeed t g x = some false := if_pos h

/-- A mirror that holds the target step in each block has nothing to roll forward. -/
theorem rollAll_of_holds (recs : List ScaleRec) {t : Nat} (n : Nat) : ∀ (l : List (Nat × Nat)), (∀ x ∈ l, s.mirrorHolds t x.2 = true) →
    State.rollAll recs t l n s = some (n, s)
  | [], _ => rfl
  | (g, x) :: l, h => by
    rw [State.rollAll, restoreNeed_of_holds (h (g, x) (List.mem_cons_self ..))]
    exact rollAll_of_holds recs n l fun y hy => h y (List.mem_cons_of_mem _ hy)

theorem updRestoreCmd_ok (hl : s.laidOut = true) (step : s.nscaleOf = le b 0 4)
    (holds : ∀ x ∈ s.nBlocks, s.mirrorHolds (le b 0 4) x.2 = true) : ∃ t, updRestoreCmd b s = .done stOk [] t := by
  have known : (s.nBlocks.all fun x => (s.restoreNeed (le b 0 4) x.1 x.2).isSome) = true :=
    List.all_eq_true.2 fun x hx => by rw [restoreNeed_of_holds (holds x hx)]; rfl
  unfold updRestoreCmd
  dsimp only
  rw [if_neg (by simp [hl, step, known]), rollAll_of_holds _ _ _ holds]
  exact ⟨_, rfl⟩

/-! UPD_DIGEST_VERDICT. -/

/-- The verdict that is due has come. -/
def State.verdictCome (s : State) (v : Nat) (step : Word32) : State := s.onComp fun t => { t with verdictDue := none, verdict := some (v, step) }

section
variable (hv : le b 4 1 ≤ 2)
include hv

theorem updDigestVerdictCmd_notDue (h : s.comp.verdictDue ≠ some (BitVec.ofNat 32 (le b 0 4))) :
    updDigestVerdictCmd b s = .done stBadSeq [] s := (if_neg (Nat.not_lt.2 hv)).trans (if_pos h)

theorem updDigestVerdictCmd_agree (h : s.comp.verdictDue = some (BitVec.ofNat 32 (le b 0 4))) (agree : le b 4 1 = 0) :
    updDigestVerdictCmd b s = .done stOk [] (s.verdictCome 0 (BitVec.ofNat 32 (le b 0 4))) :=
  ((if_neg (Nat.not_lt.2 hv)).trans (if_neg (not_not.2 h))).trans ((if_pos agree).trans (by rw [agree]; rfl))

theorem updDigestVerdictCmd_differs (h : s.comp.verdictDue = some (BitVec.ofNat 32 (le b 0 4))) (differs : 1 ≤ le b 4 1) :
    ∃ p, updDigestVerdictCmd b s = .done stOk [] ((s.verdictCome (le b 4 1) (BitVec.ofNat 32 (le b 0 4))).draw.2.updReport 0x0706 .warn p) :=
  ⟨_, ((if_neg (Nat.not_lt.2 hv)).trans (if_neg (not_not.2 h))).trans (if_neg (by omega))⟩

end

theorem comp_updReport (s : State) (code : Nat) (sev : Severity) (p : List Byte) : (s.updReport code sev p).comp = s.comp :=
  field_of_upkeep (upkeep_report s code sev 0 0 p) fun u => u.comp

/-! Repairs and exports. -/

/-- A transfer of the whole shard that command route r asks for, nothing of it acknowledged. -/
def State.wholeShard (s : State) (r : Route) (b : List Byte) (step : Nat) : ExportRun :=
  ⟨le b 0 1, some r, BitVec.ofNat 32 step, 0, s.segments, 0⟩

section
variable (r : Route)

theorem updRepairCmd_closed (h : (s.conn (le b 0 1)).state ≠ .open_) : updRepairCmd r b s = .done stTimeout [] s := if_pos (.inl h)

section
variable (hk : le b 0 1 < 64) (conn : (s.conn (le b 0 1)).state = .open_)
include hk conn

theorem updRepairCmd_busy (h : s.comp.repair.isSome = true) : updRepairCmd r b s = .done stBusy [] s :=
  (if_neg (by simpa [conn] using hk)).trans (if_pos h)

theorem updRepairCmd_runs (idle : s.comp.repair = none) (hl : s.laidOut = true) (hc : s.comp.commit = none) :
    updRepairCmd r b s = .running (s.onComp fun t => { t with repair := some (s.wholeShard r b (le b 4 4)) }) :=
  ((if_neg (by simpa [conn] using hk)).trans (if_neg (by simp [idle]))).trans (if_neg (by simp [hl, hc]))

end

section
variable (hc : s.comp.commit = none) (idle : s.comp.export_ = none) (shut : s.exportOpen = false)
include hc idle shut

theorem updExportStartCmd_closed (h : (s.conn (le b 0 1)).state ≠ .open_) : updExportStartCmd r b s = .done stTimeout [] s := by
  unfold updExportStartCmd
  rw [idle]
  exact (if_neg (by simp [hc, shut])).trans (if_pos (.inl h))

theorem updExportStartCmd_runs (hk : le b 0 1 < 64) (conn : (s.conn (le b 0 1)).state = .open_) (segs : s.segments ≠ 0)
    (hl : s.laidOut = true) : updExportStartCmd r b s =
      .running (s.onComp fun t => { t with export_ := some (s.wholeShard r b s.committedStep) }).noteExport.exportNext := by
  unfold updExportStartCmd
  rw [idle]
  exact (((if_neg (by simp [hc, shut])).trans (if_neg (by simpa [conn] using hk))).trans (if_neg (by simp [shut]))).trans
    (if_neg (by simp [segs, hl]))

end

theorem updExportAbortCmd_idle (idle : s.comp.export_ = none) : updExportAbortCmd b s = .done stOk [] s.closeExport := by
  unfold updExportAbortCmd
  rw [idle]

end

end

end Sys2Proof.Machine
end

section
namespace Sys2Proof.Proofs
open Sys2Proof.Machine Sys2Proof.Laws

/-- Settles O26: each clause is one branch of its command's effect; what UPD_LAYOUT stores after it begins the directory leaves the
entries of the payload, because every region lies beyond the directory. -/
theorem updateCommands : Obligations.UpdateCommands := by
  intro s r
  refine ⟨fun h run => completes_of_done h rfl (updLayoutCmd_busy run),
    fun h run room => ⟨_, completes_of_done h rfl (updLayoutCmd_ok run room), fun quiet good => laidOut_layoutDone ⟨quiet, good⟩ room⟩,
    fun h hg hl len => ⟨fun fixed free => completes_of_done h rfl (updGroupWriteCmd_ok hg hl len fixed free),
      fun held => completes_of_done h rfl (updGroupWriteCmd_busy hg hl len held)⟩,
    fun h hk hl => ⟨fun ok => completes_of_done h rfl (updScheduleWriteCmd_ok hk hl ok),
      fun bad => completes_of_done h rfl (updScheduleWriteCmd_bad bad)⟩,
    fun h => ⟨fun bad => completes_of_done h rfl (updProgramLoadCmd_fails bad),
      fun whole hk hl len ok => completes_of_done h rfl (updProgramLoadCmd_ok whole hk hl len ok),
      fun whole bad => completes_of_done h rfl (updProgramLoadCmd_bad whole bad)⟩,
    fun h bad => completes_of_done h rfl (updRestoreCmd_bad bad), ?restored,
    fun h hv => ⟨fun other => completes_of_done h rfl (updDigestVerdictCmd_notDue hv other),
      fun due agree => completes_of_done h rfl (updDigestVerdictCmd_agree hv due agree), ?differs⟩,
    fun h => ⟨fun hk conn busy => completes_of_done h rfl (updRepairCmd_busy r hk conn busy),
      fun hk conn idle hl hc => runsOn_of_running h rfl (updRepairCmd_runs r hk conn idle hl hc),
      fun conn => completes_of_done h rfl (updRepairCmd_closed r conn)⟩,
    fun h hc idle shut => ⟨fun hk conn segs hl => runsOn_of_running h rfl (updExportStartCmd_runs r hc idle shut hk conn segs hl),
      fun conn => completes_of_done h rfl (updExportStartCmd_closed r hc idle shut conn)⟩,
    fun h idle => completes_of_done h rfl (updExportAbortCmd_idle idle)⟩
  case restored =>
    intro h hl step holds
    obtain ⟨t, answer⟩ := updRestoreCmd_ok hl step holds
    exact ⟨t, completes_of_done h rfl answer⟩
  case differs =>
    intro due differs
    obtain ⟨p, answer⟩ := updDigestVerdictCmd_differs hv due differs
    exact ⟨_, completes_of_done h rfl answer, by rw [comp_updReport]; exact ⟨rfl, rfl⟩⟩

end Sys2Proof.Proofs
end

section
/-! SUPPORT. The 288/256 code (R222). Multiplication in GF(2^8) is linear over XOR, and α^k multiplies as k doublings do; a multiple
of a byte by a power of α is zero only for the byte zero, and so is one by the difference of two powers below 36. No more of the
field is needed: a word is a polynomial, and the decoder's sums are its values at α^0 to α^3. -/

namespace Sys2Proof.Laws

open Sys2Proof.Machine

/-! ### Multiplication in GF(2^8) -/

theorem gfDouble_eq : ∀ a < 256, gfDouble a = 2 * a ^^^ (if a / 128 % 2 = 1 then 0x11D else 0) := by decide +kernel

theorem gfDouble_lt : ∀ a < 256, gfDouble a < 256 := by decide +kernel

/-- A term for a bit of a number is linear in the number over XOR. -/
theorem ite_odd_xor (m n c : Nat) : (if (m ^^^ n) % 2 = 1 then c else 0) =
    (if m % 2 = 1 then c else 0) ^^^ if n % 2 = 1 then c else 0 := by
  rw [Nat.xor_mod_two_eq, Nat.add_mod]
  obtain h | h := Nat.mod_two_eq_zero_or_one m <;> obtain k | k := Nat.mod_two_eq_zero_or_one n <;> simp [h, k]

theorem gfDouble_xor {a b : Nat} (ha : a < 256) (hb : b < 256) : gfDouble (a ^^^ b) = gfDouble a ^^^ gfDouble b := by
  have twice : 2 * (a ^^^ b) = 2 * a ^^^ 2 * b := by
    simpa [Nat.shiftLeft_eq, Nat.mul_comm] using @Nat.shiftLeft_xor_distrib 1 a b
  have top : (a ^^^ b) / 128 = a / 128 ^^^ b / 128 := Nat.xor_div_two_pow (n := 7)
  rw [gfDouble_eq _ (Nat.xor_lt_two_pow (n := 8) ha hb), gfDouble_eq a ha, gfDouble_eq b hb, twice, top, ite_odd_xor]
  ac_rfl

theorem gfMulFrom_lt {a : Nat} (ha : a < 256) (b n : Nat) : gfMulFrom a b n < 256 := by
  induction n generalizing a b with
  | zero => exact Nat.zero_lt_succ _
  | succ n ih => exact Nat.xor_lt_two_pow (n := 8) (by split <;> omega) (ih (gfDouble_lt a ha) _)

theorem gfMulFrom_xor_left {a b : Nat} (ha : a < 256) (hb : b < 256) (c n : Nat) :
    gfMulFrom (a ^^^ b) c n = gfMulFrom a c n ^^^ gfMulFrom b c n := by
  induction n generalizing a b c with
  | zero => simp [gfMulFrom]
  | succ n ih =>
    rw [gfMulFrom, gfMulFrom, gfMulFrom, gfDouble_xor ha hb, ih (gfDouble_lt a ha) (gfDouble_lt b hb)]
    split
    · ac_rfl
    · simp only [Nat.zero_xor]

theorem gfMulFrom_xor_right (a b c n : Nat) : gfMulFrom a (b ^^^ c) n = gfMulFrom a b n ^^^ gfMulFrom a c n := by
  induction n generalizing a b c with
  | zero => simp [gfMulFrom]
  | succ n ih =>
    rw [gfMulFrom, gfMulFrom, gfMulFrom, Nat.xor_div_two, ih, ite_odd_xor]
    ac_rfl

theorem gfMulFrom_gfDouble {a : Nat} (ha : a < 256) (b n : Nat) : gfMulFrom (gfDouble a) b n = gfDouble (gfMulFrom a b n) := by
  induction n generalizing a b with
  | zero => rfl
  | succ n ih =>
    have := gfDouble_lt a ha
    rw [gfMulFrom, gfMulFrom, ih this, gfDouble_xor (by split <;> omega) (gfMulFrom_lt this _ _)]
    split <;> rfl

/-- The term of the highest bit of the multiplier. -/
theorem gfMulFrom_succ (a b n : Nat) :
    gfMulFrom a b (n + 1) = gfMulFrom a b n ^^^ if b / 2 ^ n % 2 = 1 then gfDouble^[n] a else 0 := by
  induction n generalizing a b with
  | zero => simp [gfMulFrom]
  | succ n ih =>
    rw [gfMulFrom, ih, gfMulFrom, Nat.div_div_eq_div_mul, ← Nat.pow_succ', Nat.xor_assoc, Function.iterate_succ_apply]

/-- α^8 in powers below it: the field polynomial is zero at α (R222). -/
theorem gfMul_fieldPoly : ∀ a < 256, gfMul a 0x11D = gfDouble^[7] (gfDouble a) := by decide +kernel

theorem gfMul_gfDouble {a c : Nat} (ha : a < 256) (hc : c < 256) : gfMul a (gfDouble c) = gfDouble (gfMul a c) := by
  have shift : gfMul a (2 * c) = gfMulFrom (gfDouble a) c 7 := by simp [gfMul, gfMulFrom]
  have reduce : gfMul a (if c / 128 % 2 = 1 then 0x11D else 0) = if c / 128 % 2 = 1 then gfDouble^[7] (gfDouble a) else 0 := by
    rw [apply_ite (gfMul a), gfMul_fieldPoly a ha]
    simp [gfMul, gfMulFrom]
  calc gfMul a (gfDouble c)
    _ = gfMul a (2 * c) ^^^ gfMul a (if c / 128 % 2 = 1 then 0x11D else 0) := by
      rw [gfDouble_eq c hc]; exact gfMulFrom_xor_right ..
    _ = gfMulFrom (gfDouble a) c 8 := by rw [shift, reduce]; exact (gfMulFrom_succ _ c 7).symm
    _ = gfDouble (gfMul a c) := gfMulFrom_gfDouble ha c 8

/-! ### Bytes times powers of α -/

/-- A byte times a field element. -/
def byteMul (b : Byte) (c : Nat) : Byte := BitVec.ofNat 8 (gfMul b.toNat c)

/-- A byte times α^k. -/
def alphaMul (k : Nat) (b : Byte) : Byte := byteMul b (gfExp k)

theorem gfExp_lt : ∀ k, gfExp k < 256
  | 0 => by decide
  | k + 1 => gfDouble_lt _ (gfExp_lt k)

@[simp] theorem toNat_byteMul (b : Byte) (c : Nat) : (byteMul b c).toNat = gfMul b.toNat c :=
  Nat.mod_eq_of_lt (gfMulFrom_lt b.isLt c 8)

@[simp] theorem toNat_alphaMul (k : Nat) (b : Byte) : (alphaMul k b).toNat = gfMul b.toNat (gfExp k) := toNat_byteMul ..

theorem byteMul_xor (a b : Byte) (c : Nat) : byteMul (a ^^^ b) c = byteMul a c ^^^ byteMul b c :=
  BitVec.eq_of_toNat_eq (by simpa [gfMul] using gfMulFrom_xor_left a.isLt b.isLt c 8)

theorem byteMul_xor_right (b : Byte) (c d : Nat) : byteMul b (c ^^^ d) = byteMul b c ^^^ byteMul b d :=
  BitVec.eq_of_toNat_eq (by simpa [gfMul] using gfMulFrom_xor_right b.toNat c d 8)

theorem alphaMul_xor (k : Nat) (a b : Byte) : alphaMul k (a ^^^ b) = alphaMul k a ^^^ alphaMul k b := byteMul_xor ..

@[simp] theorem alphaMul_zero_left (b : Byte) : alphaMul 0 b = b :=
  BitVec.eq_of_toNat_eq (by simp [gfExp, gfMul, gfMulFrom])

theorem toNat_alphaMul_succ (k : Nat) (b : Byte) : (alphaMul (k + 1) b).toNat = gfDouble (alphaMul k b).toNat := by
  simpa [gfExp] using gfMul_gfDouble b.isLt (gfExp_lt k)

theorem alphaMul_add (k l : Nat) (b : Byte) : alphaMul (k + l) b = alphaMul k (alphaMul l b) := by
  induction k with
  | zero => simp
  | succ k ih => exact BitVec.eq_of_toNat_eq (by rw [Nat.succ_add, toNat_alphaMul_succ, ih, toNat_alphaMul_succ])

theorem alphaMul_comm (k l : Nat) (b : Byte) : alphaMul k (alphaMul l b) = alphaMul l (alphaMul k b) := by
  rw [← alphaMul_add, Nat.add_comm, alphaMul_add]

@[simp] theorem alphaMul_zero_right (k : Nat) : alphaMul k 0#8 = 0#8 := by simpa using alphaMul_xor k 0 0

theorem eq_zero_of_alphaMul_eq_zero {k : Nat} {b : Byte} (h : alphaMul k b = 0) : b = 0 := by
  have double : ∀ a < 256, gfDouble a = 0 → a = 0 := by decide +kernel
  induction k with
  | zero => simpa using h
  | succ k ih =>
    have := toNat_alphaMul_succ k b
    rw [h] at this
    exact ih (BitVec.eq_of_toNat_eq (double _ (BitVec.isLt _) this.symm))

/-- Exponents z with α^z = α^(k + 1) + 1, for k from 0 to 34 (Zech logarithms). -/
def zech : List Nat :=
  [25, 50, 223, 100, 138, 191, 112, 200, 120, 21, 245, 127, 99, 224, 33, 145, 68, 240, 92, 42, 10, 235, 196, 254, 1, 198, 104, 193,
    181, 66, 45, 35, 15, 136, 32]

theorem gfExp_zech : ∀ k < 35, gfExp (zech.getD k 0) = gfExp (k + 1) ^^^ 1 := by decide +kernel

/-- No byte but zero is fixed by a power of α below 36: the difference of α^k and 1 is itself a power of α. -/
theorem eq_zero_of_alphaMul_eq_self {k : Nat} {b : Byte} (h0 : 0 < k) (hk : k < 36) (h : alphaMul k b = b) : b = 0 := by
  obtain ⟨k, rfl⟩ := Nat.exists_eq_add_of_lt h0
  refine eq_zero_of_alphaMul_eq_zero (k := zech.getD k 0) ?_
  calc alphaMul (zech.getD k 0) b
    _ = alphaMul (k + 1) b ^^^ alphaMul 0 b := by
      rw [alphaMul, gfExp_zech k (by omega), byteMul_xor_right]; rfl
    _ = 0 := by rw [show k + 1 = 0 + k + 1 by omega, h]; simp

/-- The powers of α below 36 differ, and so do the multiples of a byte by them. -/
theorem exp_eq_of_alphaMul_eq {p q : Nat} {b : Byte} (hp : p < 36) (hq : q < 36) (hb : b ≠ 0) (h : alphaMul p b = alphaMul q b) :
    p = q := by
  wlog lt : p < q generalizing p q
  · exact (Nat.lt_or_eq_of_le (Nat.le_of_not_lt lt)).elim (fun gt => (this hq hp h.symm gt).symm) Eq.symm
  obtain ⟨d, rfl⟩ := Nat.exists_eq_add_of_lt lt
  rw [show p + d + 1 = (d + 1) + p by omega, alphaMul_add] at h
  exact absurd (eq_zero_of_alphaMul_eq_zero (eq_zero_of_alphaMul_eq_self d.succ_pos (by omega) h.symm)) hb

/-! ### The codeword polynomial -/

/-- The value at α^i of the polynomial whose coefficients are bytes, the highest first. -/
def evalAt (i : Nat) (w : List Byte) : Byte := w.foldl (fun s b => alphaMul i s ^^^ b) 0

theorem rsSyndrome_eq (w : List Byte) (i : Nat) : rsSyndrome w i = (evalAt i w).toNat :=
  List.foldl_hom BitVec.toNat (g₁ := fun s b => alphaMul i s ^^^ b) (init := 0) fun s b => by simp

@[simp] theorem evalAt_nil (i : Nat) : evalAt i [] = 0 := rfl

theorem evalAt_concat (i : Nat) (w : List Byte) (b : Byte) : evalAt i (w ++ [b]) = alphaMul i (evalAt i w) ^^^ b := by
  simp [evalAt]

theorem evalAt_append (i : Nat) (v w : List Byte) : evalAt i (v ++ w) = alphaMul (i * w.length) (evalAt i v) ^^^ evalAt i w := by
  induction w using List.reverseRecOn with
  | nil => simp
  | append_singleton w b ih =>
    rw [← List.append_assoc, evalAt_concat, ih, alphaMul_xor, ← alphaMul_add, evalAt_concat, List.length_append,
      List.length_singleton, Nat.mul_succ, Nat.add_comm, BitVec.xor_assoc]

/-- Byte j of a word in error by e. -/
def withError (w : List Byte) (j : Nat) (e : Byte) : List Byte := w.set j (w.getD j 0 ^^^ e)

@[simp] theorem length_withError (w : List Byte) (j : Nat) (e : Byte) : (withError w j e).length = w.length := List.length_set

theorem getD_withError_ne {j k : Nat} (h : j ≠ k) (w : List Byte) (e : Byte) : (withError w j e).getD k 0 = w.getD k 0 := by
  simp [withError, List.getElem?_set_ne h]

/-- The same error once more restores the byte. -/
theorem withError_withError_self {w : List Byte} {j : Nat} (hj : j < w.length) (e : Byte) : withError (withError w j e) j e = w := by
  simp [withError, hj]

theorem rsApply_one (w : List Byte) (j : Nat) (e : Byte) : rsApply w [(j, e.toNat)] = withError w j e := by
  simp [rsApply, withError]

/-- An error in byte j changes the value by its multiple by the power of that byte's place. -/
theorem evalAt_withError (i : Nat) {w : List Byte} {j : Nat} (hj : j < w.length) (e : Byte) :
    evalAt i (withError w j e) = evalAt i w ^^^ alphaMul (i * (w.length - 1 - j)) e := by
  obtain ⟨u, b, v, rfl, rfl⟩ : ∃ u b v, w = u ++ b :: v ∧ u.length = j :=
    ⟨w.take j, w[j], w.drop (j + 1), by simp, by simp; omega⟩
  have place : (u ++ b :: v).length - 1 - u.length = v.length := by simp
  have value (c : Byte) : evalAt i (u ++ c :: v) = alphaMul (i * v.length) (alphaMul i (evalAt i u) ^^^ c) ^^^ evalAt i v := by
    rw [List.append_cons, evalAt_append, evalAt_concat]
  have wrong : withError (u ++ b :: v) u.length e = u ++ (b ^^^ e) :: v := by simp [withError]
  rw [place, wrong, value, value, ← BitVec.xor_assoc, alphaMul_xor _ _ e]
  ac_rfl

/-! ### Check bytes -/

/-- The coefficients of the generator below x^4, as powers of α. -/
theorem generator_coeffs : 15 = gfExp 75 ∧ 54 = gfExp 249 ∧ 120 = gfExp 78 ∧ 64 = gfExp 6 := by decide +kernel

/-- The generator is zero at α^i for i from 0 to 3 (R222). -/
theorem generator_root : ∀ i < 4, gfExp (4 * i) =
    gfExp (3 * i + 75) ^^^ gfExp (2 * i + 249) ^^^ gfExp (i + 78) ^^^ gfExp 6 := by decide +kernel

/-- A state of the division as the numbers of the model. -/
def remNat (c : Byte × Byte × Byte × Byte) : Nat × Nat × Nat × Nat := (c.1.toNat, c.2.1.toNat, c.2.2.1.toNat, c.2.2.2.toNat)

/-- One step of the division on bytes. -/
def remStep (c : Byte × Byte × Byte × Byte) (b : Byte) : Byte × Byte × Byte × Byte :=
  let f := c.1 ^^^ b
  (c.2.1 ^^^ alphaMul 75 f, c.2.2.1 ^^^ alphaMul 249 f, c.2.2.2 ^^^ alphaMul 78 f, alphaMul 6 f)

/-- The remainder of data bytes, times x^4, by the generator. -/
def remOf (data : List Byte) : Byte × Byte × Byte × Byte := data.foldl remStep (0, 0, 0, 0)

theorem rsStep_remNat (c : Byte × Byte × Byte × Byte) (b : Byte) : rsStep (remNat c) b = remNat (remStep c b) := by
  obtain ⟨h3, h2, h1, h0⟩ := generator_coeffs
  simp only [rsStep, remNat, remStep, BitVec.toNat_xor, toNat_alphaMul, ← h3, ← h2, ← h1, ← h0]

theorem rsCheck_eq (data : List Byte) :
    rsCheck data = [(remOf data).1, (remOf data).2.1, (remOf data).2.2.1, (remOf data).2.2.2] := by
  have : data.foldl rsStep (0, 0, 0, 0) = remNat (remOf data) := List.foldl_hom remNat rsStep_remNat (init := (0, 0, 0, 0))
  simp [rsCheck, this, remNat]

/-- The value of a remainder at α^i. -/
def remAt (i : Nat) (c : Byte × Byte × Byte × Byte) : Byte :=
  alphaMul (3 * i) c.1 ^^^ alphaMul (2 * i) c.2.1 ^^^ alphaMul i c.2.2.1 ^^^ c.2.2.2

theorem remAt_remStep {i : Nat} (hi : i < 4) (c : Byte × Byte × Byte × Byte) (b : Byte) :
    remAt i (remStep c b) = alphaMul i (remAt i c) ^^^ alphaMul (4 * i) b := by
  have root (f : Byte) : alphaMul (4 * i) f =
      alphaMul (3 * i + 75) f ^^^ alphaMul (2 * i + 249) f ^^^ alphaMul (i + 78) f ^^^ alphaMul 6 f := by
    simp only [alphaMul, generator_root i hi, byteMul_xor_right]
  have first := root (c.1 ^^^ b)
  simp only [alphaMul_add, alphaMul_xor] at first
  have h4 : alphaMul (4 * i) c.1 = alphaMul i (alphaMul (3 * i) c.1) := by rw [← alphaMul_add]; congr 1; omega
  have h3 : alphaMul (3 * i) c.2.1 = alphaMul i (alphaMul (2 * i) c.2.1) := by rw [← alphaMul_add]; congr 1; omega
  have h2 : alphaMul (2 * i) c.2.2.1 = alphaMul i (alphaMul i c.2.2.1) := by rw [← alphaMul_add]; congr 1; omega
  simp only [remAt, remStep, alphaMul_xor]
  grind

theorem remAt_remOf {i : Nat} (hi : i < 4) (data : List Byte) : remAt i (remOf data) = alphaMul (4 * i) (evalAt i data) := by
  induction data using List.reverseRecOn with
  | nil => simp [remOf, remAt]
  | append_singleton data b ih =>
    have step : remOf (data ++ [b]) = remStep (remOf data) b := by simp [remOf]
    rw [step, remAt_remStep hi, ih, evalAt_concat, alphaMul_xor, ← alphaMul_add, ← alphaMul_add, Nat.add_comm]

theorem evalAt_rsCheck (i : Nat) (data : List Byte) : evalAt i (rsCheck data) = remAt i (remOf data) := by
  have h2 (b : Byte) : alphaMul i (alphaMul i b) = alphaMul (2 * i) b := by rw [← alphaMul_add]; congr 1; omega
  have h3 (b : Byte) : alphaMul i (alphaMul (2 * i) b) = alphaMul (3 * i) b := by rw [← alphaMul_add]; congr 1; omega
  simp [rsCheck_eq, evalAt, remAt, alphaMul_xor, h3, h2]

theorem evalAt_codeword {i : Nat} (hi : i < 4) (data : List Byte) : evalAt i (codeword data) = 0 := by
  rw [codeword, evalAt_append, evalAt_rsCheck, remAt_remOf hi, rsCheck_eq]
  simp [Nat.mul_comm]

@[simp] theorem length_codeword (data : List Byte) : (codeword data).length = data.length + 4 := by
  simp [codeword, rsCheck]

theorem take_codeword {data : List Byte} (h : data.length = 32) : (codeword data).take 32 = data := by
  rw [codeword, ← h, List.take_left]

/-! ### Decoding -/

/-- The coefficient of x^p accounts for all four values: the decoder takes it as the byte in error. -/
def locates (w : List Byte) (p : Nat) : Bool :=
  gfMul (rsSyndrome w 0) (gfExp p) == rsSyndrome w 1 && gfMul (rsSyndrome w 1) (gfExp p) == rsSyndrome w 2 &&
    gfMul (rsSyndrome w 2) (gfExp p) == rsSyndrome w 3

theorem locates_iff {w : List Byte} {p : Nat} : locates w p = true ↔
    alphaMul p (evalAt 0 w) = evalAt 1 w ∧ alphaMul p (evalAt 1 w) = evalAt 2 w ∧ alphaMul p (evalAt 2 w) = evalAt 3 w := by
  simp [locates, rsSyndrome_eq, ← BitVec.toNat_inj, and_assoc]

theorem rsDecode_of_located {w : List Byte} {p : Nat} (t : Nat) (found : (List.range w.length).find? (locates w) = some p)
    (h : evalAt 0 w ≠ 0) : rsDecode w t = .fixed [(w.length - 1 - p, (evalAt 0 w).toNat)] := by
  have h0 : rsSyndrome w 0 ≠ 0 := by rw [rsSyndrome_eq]; exact fun k => h (BitVec.eq_of_toNat_eq k)
  unfold locates at found
  simp only [rsDecode, found, h0, false_and, if_false]
  rw [rsSyndrome_eq]

theorem rsDecode_of_not_located {w : List Byte} (found : ∀ p < w.length, locates w p = false) (h : w ≠ []) : rsDecode w 1 = .bad := by
  have errors : ¬ (rsSyndrome w 0 = 0 ∧ rsSyndrome w 1 = 0 ∧ rsSyndrome w 2 = 0 ∧ rsSyndrome w 3 = 0) := by
    rintro ⟨h0, h1, h2, h3⟩
    have located : locates w 0 = true := by rw [locates, h0, h1, h2, h3]; rfl
    exact absurd (found 0 (List.length_pos_iff.2 h)) (by rw [located]; decide)
  have none : (List.range w.length).find? (locates w) = none := by
    rw [List.find?_eq_none]; simpa using found
  unfold locates at none
  simp [rsDecode, errors, none]

/-- The byte found is the one in error, as no other power of α below 36 takes the first value to the second. -/
theorem rsDecode_one_error {w : List Byte} {p : Nat} {e : Byte} (t : Nat) (len : w.length ≤ 36) (hp : p < w.length) (he : e ≠ 0)
    (values : ∀ i < 4, evalAt i w = alphaMul (i * p) e) : rsDecode w t = .fixed [(w.length - 1 - p, e.toNat)] := by
  have v0 : evalAt 0 w = e := by simpa using values 0 (by decide)
  have located : (List.range w.length).find? (locates w) = some p := by
    rw [List.find?_range_eq_some, locates_iff]
    refine ⟨?_, List.mem_range.2 hp, fun q hq => ?_⟩
    · simp only [values _ (show 0 < 4 by decide), values _ (show 1 < 4 by decide), values _ (show 2 < 4 by decide),
        values _ (show 3 < 4 by decide), ← alphaMul_add]
      exact ⟨by congr 1; omega, by congr 1; omega, by congr 1; omega⟩
    · rw [Bool.not_eq_true', Bool.eq_false_iff]
      intro h
      obtain ⟨first, -, -⟩ := locates_iff.1 h
      rw [v0, values 1 (by decide), Nat.one_mul] at first
      exact hq.ne (exp_eq_of_alphaMul_eq (by omega) (by omega) he first)
  rw [rsDecode_of_located t located (v0 ▸ he), v0]

theorem xor_exchange {a b c d : Byte} (h : a ^^^ b = c ^^^ d) : a ^^^ c = b ^^^ d := by
  calc a ^^^ c
    _ = a ^^^ b ^^^ b ^^^ c := by simp
    _ = c ^^^ (c ^^^ (b ^^^ d)) := by rw [h]; ac_rfl
    _ = b ^^^ d := by simp

/-- No byte accounts for the values of a word with errors at x^p and x^q: the multiples of e by α^r − α^p and of f by α^r − α^q
would agree, and again when the one is times α^p and the other times α^q; so both are zero. -/
theorem locates_two_errors {w : List Byte} {p q r : Nat} {e f : Byte} (hp : p < 36) (hq : q < 36) (hr : r < 36)
    (ne : p ≠ q) (he : e ≠ 0) (hf : f ≠ 0) (values : ∀ i < 4, evalAt i w = alphaMul (i * p) e ^^^ alphaMul (i * q) f) :
    locates w r = false := by
  rw [Bool.eq_false_iff, ne_eq, locates_iff, values 0 (by decide), values 1 (by decide), values 2 (by decide)]
  simp only [Nat.zero_mul, Nat.one_mul, Nat.two_mul, alphaMul_zero_left, alphaMul_xor, alphaMul_add]
  rintro ⟨first, second, -⟩
  rw [alphaMul_comm r p, alphaMul_comm r q] at second
  have same : alphaMul r e ^^^ alphaMul p e = alphaMul r f ^^^ alphaMul q f := xor_exchange first
  have scaled : alphaMul p (alphaMul r e ^^^ alphaMul p e) = alphaMul q (alphaMul r f ^^^ alphaMul q f) := by
    simpa only [alphaMul_xor] using xor_exchange second
  have zero : alphaMul r f ^^^ alphaMul q f = 0 := by
    by_contra nonzero
    exact ne (exp_eq_of_alphaMul_eq hp hq nonzero (same ▸ scaled))
  have rp : r = p := exp_eq_of_alphaMul_eq hr hp he (BitVec.xor_eq_zero_iff.1 (same.trans zero))
  have rq : r = q := exp_eq_of_alphaMul_eq hr hq hf (BitVec.xor_eq_zero_iff.1 zero)
  exact ne (rp.symm.trans rq)

/-! ### What the decoder of the 288/256 code reports -/

theorem ne_poisonWord_of_evalAt {w : List Byte} {i : Nat} (h : evalAt i w ≠ evalAt i poisonWord) : w ≠ poisonWord :=
  fun k => h (k ▸ rfl)

theorem decodeWord_codeword {data : List Byte} (h : data.length = 32) : decodeWord (codeword data) = (data, .good) := by
  have poison : codeword data ≠ poisonWord :=
    ne_poisonWord_of_evalAt (i := 1) (by rw [evalAt_codeword (by decide)]; decide +kernel)
  have clean : rsDecode (codeword data) 1 = .clean := by
    simp [rsDecode, rsSyndrome_eq, evalAt_codeword]
  rw [decodeWord, if_neg poison, clean, take_codeword h]

theorem evalAt_withError_codeword {data : List Byte} (h : data.length = 32) {i j : Nat} (hi : i < 4) (hj : j < 36) (e : Byte) :
    evalAt i (withError (codeword data) j e) = alphaMul (i * (35 - j)) e := by
  have len : (codeword data).length = 36 := by simp [h]
  rw [evalAt_withError i (len ▸ hj), evalAt_codeword hi, len]
  exact BitVec.zero_xor

/-- The poison word is no codeword with one byte in error: its value at 1 is zero. -/
theorem decodeWord_one_error {data : List Byte} (h : data.length = 32) {j : Nat} (hj : j < 36) {e : Byte} (he : e ≠ 0) :
    decodeWord (withError (codeword data) j e) = (data, .correctable) := by
  have len : (codeword data).length = 36 := by simp [h]
  have values (i : Nat) (hi : i < 4) := evalAt_withError_codeword h hi hj e
  have poison : withError (codeword data) j e ≠ poisonWord := by
    refine ne_poisonWord_of_evalAt (i := 0) ?_
    rw [values 0 (by decide), Nat.zero_mul, alphaMul_zero_left, show evalAt 0 poisonWord = 0 by decide +kernel]
    exact he
  have decoded : rsDecode (withError (codeword data) j e) 1 = .fixed [(j, e.toNat)] := by
    rw [rsDecode_one_error 1 (by simp [h]) (by simp [h]; omega) he values, length_withError, len,
      show 36 - 1 - (35 - j) = j by omega]
  have restored : rsApply (withError (codeword data) j e) [(j, e.toNat)] = codeword data := by
    rw [rsApply_one, withError_withError_self (len ▸ hj)]
  rw [decodeWord, if_neg poison, decoded]
  simp only [restored, take_codeword h]

theorem decodeWord_two_errors {data : List Byte} (h : data.length = 32) {j k : Nat} (hj : j < 36) (hk : k < 36) (ne : j ≠ k)
    {e f : Byte} (he : e ≠ 0) (hf : f ≠ 0) : (decodeWord (withError (withError (codeword data) j e) k f)).2.isBad = true := by
  have len : (withError (codeword data) j e).length = 36 := by simp [h]
  have values (i : Nat) (hi : i < 4) : evalAt i (withError (withError (codeword data) j e) k f) =
      alphaMul (i * (35 - j)) e ^^^ alphaMul (i * (35 - k)) f := by
    rw [evalAt_withError i (len ▸ hk), evalAt_withError_codeword h hi hj, len]
  have decoded : rsDecode (withError (withError (codeword data) j e) k f) 1 = .bad :=
    rsDecode_of_not_located
      (fun r hr => locates_two_errors (by omega) (by omega) (by simpa [h] using hr) (by omega) he hf values)
      (List.ne_nil_of_length_pos (by simp [h]))
  rw [decodeWord]
  split
  · rfl
  · rw [decoded]; rfl

end Sys2Proof.Laws
end

section
namespace Sys2Proof.Proofs
open Sys2Proof.Machine Sys2Proof.Laws

/-- Settles O42: a codeword's values at α^0 to α^3 are zero, those of one error are a multiple of e by powers of one power of α, and
those of two errors are of no such form. -/
theorem codewordCorrects : Obligations.CodewordCorrects := by
  intro data h
  refine ⟨by simp [h], take_codeword h, fun i hi => by rw [rsSyndrome_eq, evalAt_codeword hi]; rfl, rfl, by decide +kernel,
    fun off => cwSpan_within le_rfl (by decide) le_rfl, decodeWord_codeword h, fun j e hj he => decodeWord_one_error h hj he,
    fun j k e f hj hk ne he hf => ?_⟩
  have other : (withError (codeword data) j e).getD k 0 = (codeword data).getD k 0 := getD_withError_ne ne _ e
  have := decodeWord_two_errors h hj hk ne he hf
  rwa [withError, other] at this

end Sys2Proof.Proofs
end

/-! ### Chord flits that arrive (R251 to R258) -/
section
namespace Sys2Proof.Machine
open Sys2Proof.Laws Sys2Proof.Tests

/-- Without injections a good flit of a type that the row takes passes the checks; its corrected bytes count for their lanes. -/
theorem flitReceive_of_good {s : State} {p type : Nat} {bytes : List Byte} {ok : Nat → Bool} (q : s.Quiet) (on : s.boot.mainOn = true)
    (good : s.GoodFlit p bytes type) (takes : ok type = true) : s.flitReceive p bytes ok =
      .good none (flitFec (padTo 1024 bytes)).1 (s.countLane p (flitFec (padTo 1024 bytes)).2) := by
  obtain ⟨runs, crc, kind, even⟩ := good
  unfold State.flitReceive
  rw [if_neg (by simp [runs, State.mainUp, on, kind, takes])]
  simp [opportunity_of_slots_nil q.1, q.fires, crc, even]

/-- A DATA flit in order with its credits granted: what its header acknowledges and returns is taken, then the flit. -/
theorem exec_flitData_in_order {s v : State} {p : Fin 8} {bytes b : List Byte} {fixed : List Nat} {h : FlitHdr} (q : s.Quiet)
    (on : s.boot.mainOn = true) (good : s.GoodFlit p bytes 1) (fec : flitFec (padTo 1024 bytes) = (b, fixed)) (header : hdrOf b = h)
    (granted : (s.countLane p fixed).creditGranted p h.vc = true)
    (taken : (((s.countLane p fixed).takeAck p h.ack b).2).takeCredits p h.crVc h.crCount b = v) (next : h.seq = (v.port p).rxSeq + 1) :
    exec (.flitData p bytes) s = .next ((v.flitAccept p h b).portInjEnd p) := by
  show execFlitData p bytes s = _
  unfold execFlitData
  dsimp only
  rw [flitReceive_of_good q on good (by rfl), fec]
  dsimp only
  rw [header, taken, if_neg (by simp [granted]), if_neg (not_not.2 next)]

/-- Position (0, 0), the Apex of its group. Port 7, the one port of its direction that is UP, has its spare in use, and runs at half width
since a flit that took lanes 0 and 1 beyond 4,096 corrected bytes together: lane 0 failed with it, and lane 1 fails at the next (R258). -/
def lastLane : State := (up.onPort 7 fun o => { o with
  state := .up, dir := 3, lanes := 4, spareFor := 7, laneMap := [1, 2, 3, 4], laneErrs := [(1, List.replicate 513 (0, 8))]
  acked := 0, rxSeq := 0 }).onGrp fun g => { g with pos := some (0, 0) }

/-- The flit of the witnesses: a HEARTBEAT to (0, 0), SEQ 1. -/
def heartbeatFlit : List Byte := frame dataFront 936 dataEnd

theorem flitFec_heartbeatFlit : flitFec (padTo 1024 heartbeatFlit) = (heartbeatFlit, []) :=
  frame_fec framed_data.1 framed_data.2.2.1 framed_data.2.2.2
theorem hdrOf_heartbeatFlit : hdrOf heartbeatFlit = hdrOf dataFront := hdrOf_frame framed_data.2.1
theorem flitCw_heartbeatFlit : flitCw heartbeatFlit 0 = slice dataFront 16 36 := frame_slice (by decide)

theorem lastLane_quiet : lastLane.Quiet := by unfold State.Quiet; decide
theorem lastLane_good : lastLane.GoodFlit 7 heartbeatFlit 1 :=
  (goodFlit (by decide) framed_data (by decide +kernel) (by decide) (by decide)).1

/-- Lane 1 fails, and with it the port and its direction; the flit is taken all the same. -/
def lastLaneTaken : State :=
  (((lastLane.countLane 7 []).takeAck 7 (hdrOf dataFront).ack heartbeatFlit).2).takeCredits 7 (hdrOf dataFront).crVc
    (hdrOf dataFront).crCount heartbeatFlit

theorem exec_lastLane : exec (.flitData 7 heartbeatFlit) lastLane =
    .next ((lastLaneTaken.flitAccept 7 (hdrOf dataFront) heartbeatFlit).portInjEnd 7) :=
  exec_flitData_in_order (p := 7) lastLane_quiet (by decide) lastLane_good flitFec_heartbeatFlit hdrOf_heartbeatFlit (by decide +kernel) rfl
    (by decide +kernel)

/-- The message of FAULT CHD_DIRECTION_LOST, which the Apex has for itself, waits before the codeword of the flit. -/
theorem ctlIn_lastLane : ((lastLaneTaken.flitAccept 7 (hdrOf dataFront) heartbeatFlit).portInjEnd 7).chd.ctlIn.length = 2 := by
  decide +kernel

end Sys2Proof.Machine
end

section
namespace Sys2Proof.Proofs
open Sys2Proof.Machine Sys2Proof.Laws Sys2Proof.Tests

/-- Refutes O54: a flit whose corrected bytes fail the last port of its direction brings a FAULT too, whose message waits here where this
module is the Apex (R402, assumption 88); the control codeword of the flit then waits behind it, not alone. The counterexample is `lastLane`. -/
theorem not_chordLinks : ¬ Obligations.ChordLinks := by
  intro h
  obtain ⟨-, -, -, -, data, -⟩ := h lastLane 7 heartbeatFlit lastLane_quiet (by decide)
  rw [flitFec_heartbeatFlit, hdrOf_heartbeatFlit, flitCw_heartbeatFlit] at data
  obtain ⟨-, inOrder⟩ := data lastLane_good (by decide)
  obtain ⟨t, ran, -, waits⟩ := inOrder (by decide) (by decide) (by decide) (by decide) (by decide)
    ([19] ++ List.replicate 31 0) (by decide +kernel) (by decide)
  obtain rfl := Host.Outcome.next.inj (exec_lastLane.symm.trans ran)
  have two := ctlIn_lastLane
  rw [waits] at two
  exact absurd two (by decide)

end Sys2Proof.Proofs
end

/-! ### Reduce and weight streams (R267, R270, R271, R274) -/
section
namespace Sys2Proof.Machine
open Sys2Proof.Laws

/-! A hop of a reduce stream. -/

/-- This module's own contribution where no late one was folded (R294). -/
theorem ownBlock_of_block {s : State} {st blk : Nat} {b : List Byte × Byte} (own : blockFrom s.chd.own st blk = some b)
    (fresh : s.chd.fold.contains (rKey st blk) = false) : s.ownBlock st blk = some (blockF32 (rElem s st) b, s) := by
  unfold State.ownBlock
  rw [own]
  dsimp only
  rw [fresh]
  rfl

theorem ownBlock_of_none {s : State} {st blk : Nat} (own : blockFrom s.chd.own st blk = none) : s.ownBlock st blk = none := by
  unfold State.ownBlock
  rw [own]

section
variable (s : State) (st blk phase : Nat)

/-- What came in flits of a block for phase 1 or 2. -/
def State.arrived : Option (List Byte × Byte) := blockFrom s.chd.rin (1024 * phase + st) blk
/-- It carried LATE. -/
def State.arrivedLate : Bool := s.chd.rinLate.contains (rKey (1024 * phase + st) blk)
/-- The hop's partial has been taken in a state that came of s. -/
def State.tookPartial (x : State) : State := x.onChd fun c => { c with
  rin := if (s.arrived st blk phase).isSome then Sparse.put [] c.rin (rKey (1024 * phase + st) blk) [] else c.rin
  rinLate := c.rinLate.filter (· != rKey (1024 * phase + st) blk) }

end

/-- Phase 1 at this module: with its own block here the sum goes on (R271); without it the partial goes on with LATE once the deadline has
expired, and the block counts as late (R274); before that it waits. -/
def State.hopFirst (s : State) (st hop blk : Nat) (path : Path) (inc : List Byte × Byte) (late : Bool) : State :=
  match s.spanBegin.ownBlock st blk with
  | some (ys, u) =>
    let r := u.redSum st blk hop (List.zipWith fadd (blockF32 (rElem s st) inc) ys)
    (s.tookPartial st blk 1 (r.2.onGrp fun g => { g with lastOwn := u.now })).redOut st blk hop path r.1 late
  | none =>
    if s.grp.expired then (s.tookPartial st blk 1 (s.spanBegin.onChd fun c => { c with
      lateBlocks := c.lateBlocks + 1, late := if c.late.contains (rKey st blk) then c.late else rKey st blk :: c.late })).redOut
        st blk hop path inc true
    else s.spanBegin

/-- Phase 2 with the sum `own` of the owner's line: the sum of both goes on (R270, R271). -/
def State.hopLine (s : State) (st hop blk : Nat) (path : Path) (inc : List Byte × Byte) (own : List Byte) (late : Bool) : State :=
  let r := s.spanBegin.redSum st blk hop
    (List.zipWith fadd (blockF32 (rElem s st) inc) (blockF32 (rElem s st) (own.take 32, own.getD 32 0)))
  (s.tookPartial st blk 2 (r.2.onChd fun c => { c with
    partials := Sparse.put [] c.partials (rKey st blk) [], partLate := c.partLate.filter (· != rKey st blk) })).redOut st blk hop path r.1 late

section
variable {s : State} {st hop blk : Nat} {path : Path} {inc : List Byte × Byte} {late : Bool}

theorem hopFirst_of_block {b : List Byte × Byte} (own : blockFrom s.chd.own st blk = some b)
    (fresh : s.chd.fold.contains (rKey st blk) = false) : s.hopFirst st hop blk path inc late =
      let r := s.spanBegin.redSum st blk hop (List.zipWith fadd (blockF32 (rElem s st) inc) (blockF32 (rElem s st) b))
      (s.tookPartial st blk 1 (r.2.onGrp fun g => { g with lastOwn := s.now })).redOut st blk hop path r.1 late := by
  unfold State.hopFirst
  rw [ownBlock_of_block (s := s.spanBegin) own fresh]
  rfl

theorem hopFirst_of_expired (own : blockFrom s.chd.own st blk = none) (expired : s.grp.expired = true) :
    s.hopFirst st hop blk path inc late = (s.tookPartial st blk 1 (s.spanBegin.onChd fun c => { c with
      lateBlocks := c.lateBlocks + 1, late := if c.late.contains (rKey st blk) then c.late else rKey st blk :: c.late })).redOut
        st blk hop path inc true := by
  unfold State.hopFirst
  rw [ownBlock_of_none (s := s.spanBegin) own]
  exact if_pos expired

theorem hopFirst_of_waits (own : blockFrom s.chd.own st blk = none) (expired : s.grp.expired = false) :
    s.hopFirst st hop blk path inc late = s.spanBegin := by
  unfold State.hopFirst
  rw [ownBlock_of_none (s := s.spanBegin) own]
  exact if_neg (by simp [expired])

end

section
variable {s : State} {st : Fin 1024} {hop blk : Nat} {path : Path} (on : s.boot.mainOn = true) (valid : rValid s st = true)
  (live : rFrozen s st = false) (inside : blk < s.rBlocks st) (route : s.redPath st blk = some path) (later : hop ≠ 0)
include on valid live inside route later

theorem exec_reduceHop_first (first : hop < path.n1) (turn : path.i1 = hop) (elems : List Byte) (scale : Byte) (late : Bool) :
    exec (.reduceHop st hop blk elems scale late) s = .next (s.hopFirst st hop blk path
      ((s.arrived st blk 1).getD (padTo 32 elems, scale)) (late || s.arrivedLate st blk 1)) := by
  show execReduceHop st hop blk elems scale late s = _
  unfold execReduceHop State.hopFirst
  rw [if_neg (by simp [on, State.mainUp, valid, live, inside]), route]
  dsimp only
  rw [if_neg (by simp [first, turn, later])]
  simp only [first, decide_true, if_true, Bool.not_true, Bool.false_and, Bool.or_false]
  cases s.spanBegin.ownBlock st blk with
  | some own => rfl
  | none => exact (apply_ite Host.Outcome.next _ _ _).symm

theorem exec_reduceHop_line (second : path.n1 ≤ hop) (line : path.line2 = true) (turn : path.i2 + (path.n1 - 1) = hop)
    (kept : Sparse.get [] s.chd.partials (rKey st blk) ≠ []) (elems : List Byte) (scale : Byte) (late : Bool) :
    exec (.reduceHop st hop blk elems scale late) s = .next (s.hopLine st hop blk path
      ((s.arrived st blk 2).getD (padTo 32 elems, scale)) (Sparse.get [] s.chd.partials (rKey st blk))
      (late || s.arrivedLate st blk 2 || s.chd.partLate.contains (rKey st blk))) := by
  have beyond : ¬hop < path.n1 := Nat.not_lt.2 second
  show execReduceHop st hop blk elems scale late s = _
  unfold execReduceHop
  rw [if_neg (by simp [on, State.mainUp, valid, live, inside]), route]
  dsimp only
  rw [if_neg (by simp [beyond, line, turn, later])]
  simp only [beyond, decide_false, Bool.false_eq_true, if_false, Bool.not_false, Bool.true_and]
  split
  · exact absurd ‹_› kept
  · rfl

end

/-! Landing (R267). -/

theorem wword_landEntry {s v : State} {w i : Nat} {x : Option LandEntry} (entry : s.landEntry w i = (x, v)) (u k : Nat) :
    v.wword u k = s.wword u k := by
  unfold State.landEntry at entry
  split at entry
  · rw [← (Prod.mk.inj entry).2]
  · rw [← (Prod.mk.inj entry).2]
    exact field_of_upkeep (upkeep_readLoc s _ _) (fun y => y.wword u k) fun _ => rfl

theorem mem_stopped_landRange (s : State) (w e i : Nat) : w ∈ (s.landRange w e i).chd.stopped := by
  have noted : (s.landRange w e i).chd.stopped = w :: s.chd.stopped := (notices_report _ _ _ _ _ _).field (fun x => x.chd.stopped) fun _ => rfl
  rw [noted]
  exact List.mem_cons_self

section
variable {s v : State} {w : Fin 256} {i : Nat} {x : LandEntry} (on : s.boot.mainOn = true) (listed : i < fld (s.wword w 1) 32 32)
  (runs : w.val ∉ s.chd.stopped) (fresh : i ∉ Sparse.get [] s.chd.landed w) (entry : s.landEntry w i = (some x, v))
include on listed runs fresh entry

/-- An entry whose slots do not hold it stops the stream. -/
theorem exec_wstreamLand_stops (bad : fld (s.wword w 2) 32 8 = 0 ∨ fld (s.wword w 2) 40 24 < 32 * x.count) :
    ∃ e, exec (.wstreamLand w i) s = .next (v.landRange w e i) := by
  show ∃ e, execWstreamLand w i s = _
  unfold execWstreamLand
  dsimp only
  rw [if_neg (by simp [on, State.mainUp, runs, fresh, listed]), entry]
  dsimp only
  rw [if_pos (by tauto)]
  exact ⟨_, rfl⟩

/-- An entry in a slot that no entry had before it lands once its codewords have come. -/
theorem exec_wstreamLand_lands (first : i < fld (s.wword w 2) 32 8) (size : 32 * x.count ≤ fld (s.wword w 2) 40 24)
    (room : fld (s.wword w 2) 0 32 + i % fld (s.wword w 2) 32 8 * fld (s.wword w 2) 40 24 + 32 * x.count ≤ padSize)
    (aligned : (fld (s.wword w 2) 0 32 + i % fld (s.wword w 2) 32 8 * fld (s.wword w 2) 40 24) % 32 = 0)
    (come : ∀ j, j < x.count → Sparse.get [] v.chd.wrecv (wKey w (x.start + j)) ≠ []) :
    ∃ u : State, exec (.wstreamLand w i) s =
      .next (u.onChd fun c => { c with landed := Sparse.put [] c.landed w (i :: Sparse.get [] c.landed w) }) := by
  have slots : fld (s.wword w 2) 32 8 ≠ 0 := Nat.ne_zero_of_lt first
  have held : ((List.range x.count).all fun j => !(Sparse.get [] v.chd.wrecv (wKey w (x.start + j))).isEmpty) = true :=
    List.all_eq_true.2 fun j hj => by simpa using come j (List.mem_range.1 hj)
  show ∃ u : State, execWstreamLand w i s = _
  unfold execWstreamLand
  dsimp only
  rw [if_neg (by simp [on, State.mainUp, runs, fresh, listed]), entry]
  dsimp only
  rw [wword_landEntry entry, if_neg slots, if_neg (by omega), if_neg (by simp [held]), if_neg (Nat.not_le.2 first), if_neg (Nat.not_lt_zero _)]
  exact ⟨_, rfl⟩

end

theorem mem_landed (u : State) (w : Nat) (i : Nat) : i ∈ Sparse.get []
    (u.onChd fun c => { c with landed := Sparse.put [] c.landed w (i :: Sparse.get [] c.landed w) }).chd.landed w := by
  rw [onChd_chd]
  dsimp only
  rw [get_put_same]
  exact List.mem_cons_self

/-! The deadline (R274): what a block that leaves this module does not change of it. -/

/-- The deadline of the step has expired. -/
def State.isExpired (s : State) : Bool := s.grp.expired

theorem expired_of_upkeep {s t : State} (h : t.sansUpkeep = s.sansUpkeep) : t.isExpired = s.isExpired :=
  field_of_upkeep h State.isExpired fun _ => rfl

@[simp] theorem expired_ite (c : Prop) [Decidable c] (s t : State) :
    (if c then s else t).isExpired = if c then s.isExpired else t.isExpired := apply_ite State.isExpired c s t

section
variable (s : State)

@[simp] theorem expired_onChd (f : Chd → Chd) : (s.onChd f).isExpired = s.isExpired := rfl
@[simp] theorem expired_onMem (f : Mem → Mem) : (s.onMem f).isExpired = s.isExpired := rfl
@[simp] theorem expired_onScales (f : Scales → Scales) : (s.onScales f).isExpired = s.isExpired := rfl
@[simp] theorem expired_onD2d (f : D2d → D2d) : (s.onD2d f).isExpired = s.isExpired := rfl
@[simp] theorem expired_onGrpStats (f : GrpStats → GrpStats) : (s.onGrpStats f).isExpired = s.isExpired := rfl
@[simp] theorem expired_onGrp {f : Grp → Grp} (h : (f s.grp).expired = s.grp.expired) : (s.onGrp f).isExpired = s.isExpired := h

@[simp] theorem expired_writeSlow (off : Nat) (d : List Byte) : (s.writeSlow off d).isExpired = s.isExpired := expired_of_upkeep (by simp)
@[simp] theorem expired_writeG7 (off : Nat) (d : List Byte) : (s.writeG7 off d).isExpired = s.isExpired := expired_of_upkeep (by simp)
@[simp] theorem expired_readG7 (off len : Nat) : (s.readG7 off len).2.2.isExpired = s.isExpired := expired_of_upkeep (by simp)
@[simp] theorem expired_sendControl (x y : Nat) (b : List Byte) : (s.sendControl x y b).isExpired = s.isExpired := expired_of_upkeep (by simp)
@[simp] theorem expired_fires (det kind index : Nat) : (s.fires det kind index).2.isExpired = s.isExpired := expired_of_upkeep (by simp)

@[simp] theorem expired_sendDir (d : Nat) (f : FlitOut) : (s.sendDir d f).isExpired = s.isExpired := by
  rw [sendDir_frame]
  rfl

@[simp] theorem expired_routeBy (o : Option Nat) (vc st off : Nat) (dest : Nat × Nat) (late : Bool) (b : List Byte) :
    (s.routeBy o vc st off dest late b).isExpired = s.isExpired := by
  unfold State.routeBy
  split
  · rfl
  · simp

@[simp] theorem expired_redSend (st blk hop : Nat) (o : Option Nat) (dest : Nat × Nat) (b : List Byte × Byte) (late : Bool) :
    (s.redSend st blk hop o dest b late).isExpired = s.isExpired := by simp [State.redSend]

/-! The cross-group ring (R303). -/

@[simp] theorem expired_ringSend (key : Nat) (d : List Byte) : (s.ringSend key d).isExpired = s.isExpired := by
  simp [State.ringSend, (onlyEth_fdtMessage s _ _ _ _ _ _).field State.isExpired fun _ _ _ => rfl]

@[simp] theorem expired_postVote (straggler : Bool) : (s.postVote straggler).isExpired = s.isExpired := by
  have fired : (if straggler then (false, s) else s.fires 0x0A02 0 0 : Bool × State).2.isExpired = s.isExpired := by split <;> simp
  unfold State.postVote
  dsimp only
  split
  · rfl
  · split
    · rfl
    · generalize (if straggler = true then (false, s) else s.fires 0x0A02 0 0 : Bool × State) = i at fired ⊢
      split
      · exact fired
      · split
        · exact (expired_sendControl _ _ _ _).trans ((expired_sendControl _ _ _ _).trans fired)
        · exact (expired_sendControl _ _ _ _).trans fired

@[simp] theorem expired_ringVote : s.ringVote.isExpired = s.isExpired := by
  unfold State.ringVote
  split <;> simp

@[simp] theorem expired_unitWrite (st u : Nat) (d : List Byte) : (s.unitWrite st u d).isExpired = s.isExpired := by
  unfold State.unitWrite
  split <;> simp

@[simp] theorem expired_ringFinal (st u : Nat) (d : List Byte) : (s.ringFinal st u d).isExpired = s.isExpired := by simp [State.ringFinal]

@[simp] theorem expired_redQuant (st blk hop : Nat) (ys : List Word32) : (s.redQuant st blk hop ys).2.isExpired = s.isExpired := by
  unfold State.redQuant
  dsimp only
  split
  · rfl
  · split
    · rfl
    · exact (foldl_proj State.isExpired (fun u r => expired_writeG7 u _ _) _ _).trans
        (foldl_proj (fun a : List Word16 × State => a.2.isExpired) (fun a k => expired_readG7 a.2 _ _) _ _)

@[simp] theorem expired_redSum (st blk hop : Nat) (ys : List Word32) : (s.redSum st blk hop ys).2.isExpired = s.isExpired := by
  simp [State.redSum]

@[simp] theorem expired_ringAdd (st u hop : Nat) (d : List Byte) : (s.ringAdd st u hop d).2.isExpired = s.isExpired := by
  unfold State.ringAdd
  exact foldl_proj (fun a : List (List Byte × Byte) × State => a.2.isExpired) (fun a i => expired_redSum a.2 _ _ _ _) _ _

@[simp] theorem expired_ringStep (st u : Nat) : (s.ringStep st u).isExpired = s.isExpired := by
  unfold State.ringStep
  dsimp only
  split
  · rfl
  · split
    · simp
    · split <;> simp

/-! A block that leaves. -/

@[simp] theorem expired_redLand (st blk : Nat) (b : List Byte × Byte) : (s.redLand st blk b).isExpired = s.isExpired := by
  unfold State.redLand
  dsimp only
  split
  · rfl
  · split <;> simp

@[simp] theorem expired_redFinal (st blk : Nat) (b : List Byte × Byte) : (s.redFinal st blk b).isExpired = s.isExpired := by
  simp [State.redFinal, State.d2dWait]

@[simp] theorem expired_redLine (st blk : Nat) (p : Path) (b : List Byte × Byte) (late : Bool) :
    (s.redLine st blk p b late).isExpired = s.isExpired := by simp [State.redLine]

@[simp] theorem expired_redOut (st blk hop : Nat) (p : Path) (b : List Byte × Byte) (late : Bool) :
    (s.redOut st blk hop p b late).isExpired = s.isExpired := by simp [State.redOut]

theorem expired_zeroStart (st blk : Nat) : (s.zeroStart st blk).isExpired = s.isExpired := by
  unfold State.zeroStart
  split
  · rfl
  · simp

end

/-- A deadline that is set expires once in a span, and stays so through the zero blocks that are sent (R274). -/
theorem exec_reduceDeadlineExpiry {s : State} {k : Nat} (span : s.grp.spanStart = some k) (set : s.chd.deadline ≠ 0)
    (open_ : s.grp.expired = false) : ∃ t, exec .reduceDeadlineExpiry s = .next t ∧ t.grp.expired = true := by
  show ∃ t, execReduceDeadlineExpiry s = .next t ∧ t.isExpired = true
  unfold execReduceDeadlineExpiry
  rw [span]
  dsimp only
  rw [if_neg (not_or.2 ⟨set, Bool.eq_false_iff.1 open_⟩)]
  exact ⟨_, rfl, foldl_proj State.isExpired (fun u st => foldl_proj State.isExpired (fun v b => expired_zeroStart v st b) _ u) _ _⟩

end Sys2Proof.Machine
end

section
namespace Sys2Proof.Proofs
open Sys2Proof.Machine Sys2Proof.Laws

/-- Settles O55: a hop by the phase and by what is here of the block, the deadline, and an entry by its slot. -/
theorem streams : Obligations.Streams := by
  intro s _ on
  refine ⟨fun st hop blk elems scale late path valid live inside route later => ⟨fun first turn => ⟨fun b own fresh => ?sums,
      fun own expired => ?passes, fun own expired => ?waits⟩, fun second line turn kept => ?line⟩,
    fun k span set open_ _ => exec_reduceDeadlineExpiry span set open_, fun w i x v listed runs fresh entry => ⟨fun bad => ?stops,
      fun first size room aligned come => ?lands⟩⟩
  case sums =>
    exact (exec_reduceHop_first on valid live inside route later first turn elems scale late).trans
      (congrArg _ (hopFirst_of_block own fresh))
  case passes =>
    exact (exec_reduceHop_first on valid live inside route later first turn elems scale late).trans
      (congrArg _ (hopFirst_of_expired own expired))
  case waits =>
    exact (exec_reduceHop_first on valid live inside route later first turn elems scale late).trans
      (congrArg _ (hopFirst_of_waits own expired))
  case line => exact exec_reduceHop_line on valid live inside route later second line turn kept elems scale late
  case stops =>
    obtain ⟨e, ran⟩ := exec_wstreamLand_stops on listed runs fresh entry bad
    exact ⟨_, ran, mem_stopped_landRange v w e i⟩
  case lands =>
    obtain ⟨u, ran⟩ := exec_wstreamLand_lands on listed runs fresh entry first size room aligned come
    exact ⟨_, ran, mem_landed u w i⟩

end Sys2Proof.Proofs
end

/-! ### Start-up, phases 4 to 8 (R248, R361, R372, R413, R418) -/
section
namespace Sys2Proof.Machine
open Sys2Proof.Laws

/-! What a record, a message and the answer of a command that ran leave as it was. -/

/-- The state without what these write: mailboxes with the command that start-up answers, the Almanac, the fault bits, host-bound
traffic, G7, chords, the throttle reasons and the output. -/
def State.sansNews (s : State) : State := { s with
  cp := Reset.cp, boot := { s.boot with waiter := none, smbAlert := false, faulted := false }, alm := Reset.alm
  hst := s.hst.sansTraffic, mem := Reset.mem, chd := Reset.chd, pwrRegs := Reset.pwrRegs, out := [] }

/-- A part of the state that the mask keeps is the same wherever the masked states are. -/
theorem field_of_news {s t : State} (h : t.sansNews = s.sansNews) {α : Type} (f : State → α)
    (hf : ∀ x : State, f x.sansNews = f x) : f t = f s :=
  ((hf t).symm.trans (congrArg f h)).trans (hf s)

theorem State.Notices.news {s t : State} (h : s.Notices t) : t.sansNews = s.sansNews := h.field State.sansNews fun _ => rfl

theorem State.OnlyAnswers.news {s t : State} {r : Route} (h : s.OnlyAnswers t r) : t.sansNews = s.sansNews := by
  rw [h.1]
  rfl

theorem news_endWaiter (s : State) (st : Word16) : (s.endWaiter st).sansNews = s.sansNews := by
  have answered : (s.endCommand s.boot.waiter st []).sansNews = s.sansNews := by
    unfold State.endCommand
    split
    · split
      · exact (respond_answers s _ st []).1.news
      · rfl
    · rfl
  exact (show _ = (s.endCommand s.boot.waiter st []).sansNews from rfl).trans answered

/-- A record, and the answer of the command that started up. -/
theorem news_endWaiter_report (s : State) (code : Nat) (sev : Severity) (kind index : Nat) (p : List Byte) (st : Word16) :
    ((s.report code sev kind index p).endWaiter st).sansNews = s.sansNews :=
  (news_endWaiter _ st).trans (notices_report s code sev kind index p).news

/-! How far start-up is. -/

/-- What start-up keeps of itself (Table 13-6), without what news writes. -/
def State.stage (s : State) : Boot := { s.boot with waiter := none, smbAlert := false, faulted := false }

theorem stage_of_news {s t : State} (h : t.sansNews = s.sansNews) : t.stage = s.stage := field_of_news h State.stage fun _ => rfl

/-- A part of `boot` that news leaves is the one of the stage. -/
theorem boot_of_stage {t : State} {b : Boot} (h : t.stage = b) {α : Type} (f : Boot → α) (hf : ∀ x : State, f x.stage = f x.boot) :
    f t.boot = f b :=
  (hf t).symm.trans (congrArg f h)

/-- A phase that fails holds start-up where it is (R361). -/
theorem stage_hold (s : State) (cause : Nat) : (s.hold cause).stage = { s.stage with springHeld := true, holdCause := cause } :=
  (stage_of_news (news_endWaiter_report _ _ _ _ _ _ _)).trans rfl

theorem boot_hold (s : State) (cause : Nat) : (s.hold cause).boot.springHeld = true ∧ (s.hold cause).boot.holdCause = cause ∧
    (s.hold cause).boot.phase = s.boot.phase :=
  have held := stage_hold s cause
  ⟨boot_of_stage held Boot.springHeld fun _ => rfl, boot_of_stage held Boot.holdCause fun _ => rfl,
    boot_of_stage held Boot.phase fun _ => rfl⟩

/-! Regimes and the setpoint. -/

theorem pwr_setRegime (s : State) (g : Regime) : (s.setRegime g).pwr = { s.pwr with regime := g } := by
  unfold State.setRegime
  split
  · rename_i same
    rw [← same]
  · exact (notices_report _ _ _ _ _ _).field State.pwr fun _ => rfl

theorem pwr_throttle (s : State) : s.throttle.pwr = s.pwr := (notices_throttle s).field State.pwr fun _ => rfl

theorem runRegime_ne_spring (s : State) : s.runRegime ≠ .spring := by
  unfold State.runRegime
  split
  · decide
  · split <;> decide

theorem regime_setGoal (s : State) (v : Nat) : (s.setGoal v).pwr.regime = s.pwr.regime := by
  unfold State.setGoal
  split
  · rfl
  · split <;> rfl

theorem regime_holdWinter (s : State) : s.holdWinter.pwr.regime = s.pwr.regime := by
  unfold State.holdWinter
  split
  · exact regime_setGoal s 450
  · rfl

/-- COMP_SP and the throttle reasons as they come to stand. -/
def State.compSettled (s : State) : State := (s.onPwr fun p => { p with compSp := if s.boot.mainOn then s.compGoal else p.compSp }).throttle

theorem pwr_compSettled (s : State) : ∃ v, s.compSettled.pwr = { s.pwr with compSp := v } := ⟨_, pwr_throttle _⟩

/-- In Spring, as before start-up, nothing else of the power manager settles. -/
theorem powerSettle_of_spring {s : State} (h : s.pwr.regime = .spring) : s.powerSettle = s.compSettled := by
  obtain ⟨v, settled⟩ := pwr_compSettled s
  exact if_pos (.inr ((congrArg Pwr.regime settled).trans h))

/-- Out of Spring the regime follows the setpoint and the parked set (Table 12-1). -/
theorem regime_powerSettle_ne_spring {s : State} (h : s.pwr.regime ≠ .spring) : s.powerSettle.pwr.regime ≠ .spring := by
  show (if s.compSettled.pwr.regime = .none_ ∨ s.compSettled.pwr.regime = .spring then s.compSettled
    else (s.compSettled.setRegime s.compSettled.runRegime).holdWinter).pwr.regime ≠ .spring
  split
  · obtain ⟨v, settled⟩ := pwr_compSettled s
    rw [settled]
    exact h
  · rw [regime_holdWinter, pwr_setRegime]
    exact runRegime_ne_spring _

section
variable (s : State)

theorem stage_setRegime (g : Regime) : (s.setRegime g).stage = s.stage := by
  unfold State.setRegime
  split
  · rfl
  · exact (stage_of_news (notices_report _ _ _ _ _ _).news).trans rfl

theorem stage_holdWinter : s.holdWinter.stage = s.stage := by
  have goal (v : Nat) : (s.setGoal v).stage = s.stage := by
    unfold State.setGoal
    split
    · rfl
    · split <;> rfl
  rw [State.holdWinter, apply_ite State.stage, goal, ite_self]

theorem stage_compSettled : s.compSettled.stage = s.stage := (stage_of_news (notices_throttle _).news).trans rfl

theorem stage_powerSettle : s.powerSettle.stage = s.stage := by
  show (if s.compSettled.pwr.regime = .none_ ∨ s.compSettled.pwr.regime = .spring then s.compSettled
    else (s.compSettled.setRegime s.compSettled.runRegime).holdWinter).stage = s.stage
  rw [apply_ite State.stage, stage_holdWinter, stage_setRegime, ite_self, stage_compSettled]

/-- Quarters that park or return are the power manager's and the tiles' (R341). -/
theorem followParked_field {α : Type} (f : State → α) (hp : ∀ (u : State) g, f (u.onPwr g) = f u)
    (ht : ∀ (u : State) p g, f (u.onTile p g) = f u) (old : BitVec 4) : f (s.followParked old) = f s := by
  have halted (u : State) (q : Nat) (on : Bool) : f (u.haltQuarter q on) = f u :=
    foldl_proj f (fun v i => by split; exacts [ht _ _ _, rfl]) _ u
  unfold State.followParked
  split
  · rfl
  · refine foldl_proj f (fun u q => ?_) _ s
    dsimp only
    split
    · exact (halted _ _ _).trans (hp _ _)
    · split
      · exact hp _ _
      · rfl

theorem stage_parkSpare (on : Bool) : (s.parkSpare on).stage = s.stage :=
  (stage_powerSettle _).trans ((followParked_field _ State.stage (fun _ _ => rfl) (fun _ _ _ => rfl) _).trans rfl)

end

/-! Phase 4 (R418). -/

theorem link_setRegime (s : State) (g : Regime) : (s.setRegime g).hst.link = s.hst.link := by
  unfold State.setRegime
  split
  · rfl
  · exact (field_of_news (notices_report _ _ _ _ _ _).news (fun x => x.hst.link) fun _ => rfl).trans rfl

/-- The main domain comes to run in Spring. -/
theorem settled_spring (s : State) (st : Word16) : ∃ v, ((s.setRegime .spring).powerSettle.endWaiter st).stage = s.stage ∧
    ((s.setRegime .spring).powerSettle.endWaiter st).pwr = { s.pwr with regime := .spring, compSp := v } ∧
    ((s.setRegime .spring).powerSettle.endWaiter st).hst.link = s.hst.link := by
  have entered := pwr_setRegime s .spring
  obtain ⟨v, settled⟩ := pwr_compSettled (s.setRegime .spring)
  have answered := news_endWaiter (s.setRegime .spring).powerSettle st
  refine ⟨v, (stage_of_news answered).trans ((stage_powerSettle _).trans (stage_setRegime s _)),
    (field_of_news answered State.pwr fun _ => rfl).trans ?_, (field_of_news answered (fun x => x.hst.link) fun _ => rfl).trans ?_⟩ <;>
    rw [powerSettle_of_spring (congrArg Pwr.regime entered)]
  · rw [settled, entered]
  · exact (field_of_news (notices_throttle _).news (fun x => x.hst.link) fun _ => rfl).trans (link_setRegime s _)

/-- The rails are good: the main domain is on in Spring at 0.55 V, and the link is in L0 (R332). -/
theorem exec_startupRails_spring {s : State} (phase : s.boot.phase = 4) (free : s.boot.springHeld = false) (off : s.boot.offUntil = none)
    (gen width : Nat) : ∃ t, exec (.startupRails none gen width) s = .next t ∧
      t.boot.phase = 5 ∧ t.boot.mainOn = true ∧ t.pwr.regime = .spring ∧ t.pwr.setpoint = 550 ∧ t.hst.link = .l0 := by
  refine ⟨_, if_neg (by simp [phase, free, off]), ?_⟩
  generalize risen : State.onHst _ _ = u
  obtain ⟨v, stage, pwr, link⟩ := settled_spring u stOk
  rw [pwr, link]
  refine ⟨(boot_of_stage stage Boot.phase fun _ => rfl).trans ?_, (boot_of_stage stage Boot.mainOn fun _ => rfl).trans ?_, rfl, ?_, ?_⟩ <;>
    rw [← risen] <;> rfl

/-- A rail is not good: start-up holds, and the main input stays off for 100 ms (R419). -/
theorem exec_startupRails_bad {s : State} (phase : s.boot.phase = 4) (free : s.boot.springHeld = false) (off : s.boot.offUntil = none)
    (k : Fin 6) (gen width : Nat) : ∃ t, exec (.startupRails (some k) gen width) s = .next t ∧
      t.boot.springHeld = true ∧ t.boot.phase = 4 ∧ t.boot.offUntil = some (s.now + 10000000) := by
  refine ⟨_, if_neg (by simp [phase, free, off]), ?_⟩
  have stage (u : State) (code : Nat) (b : List Byte) : ((u.report code .fault 0x0E 0xFF b).endWaiter stFaulted).stage = u.stage :=
    stage_of_news (news_endWaiter_report ..)
  exact ⟨boot_of_stage (stage _ _ _) Boot.springHeld fun _ => rfl, (boot_of_stage (stage _ _ _) Boot.phase fun _ => rfl).trans phase,
    boot_of_stage (stage _ _ _) Boot.offUntil fun _ => rfl⟩

/-! Phase 6 (Table 13-1). -/

section
variable {s : State} (phase : s.boot.phase = 6) (free : s.boot.springHeld = false)
include phase free

theorem exec_startupMemory_trains : ∃ t, exec (.startupMemory true true) s = .next t ∧ t.boot.phase = 7 := by
  refine ⟨_, if_neg (by simp [phase, free]), ?_⟩
  rfl

theorem exec_startupMemory_g7 (lp : Bool) : exec (.startupMemory false lp) s = .next (s.hold 4) := if_neg (by simp [phase, free])
theorem exec_startupMemory_lp : exec (.startupMemory true false) s = .next (s.hold 5) := if_neg (by simp [phase, free])

end

/-! Phase 8 (R248, R361). -/

section
variable {s : State} (phase : s.boot.phase = 8) (free : s.boot.springHeld = false) (on : s.boot.mainOn = true) (idle : s.comp.commit = none)
include phase free on idle

theorem exec_startupRecover_failed : exec (.startupRecover false) s = .next (s.hold 6) := if_neg (by simp [phase, free, on, idle])

theorem exec_startupRecover_none (closed : s.openSlot = none) : exec (.startupRecover true) s =
    .next (if (List.range 8).any fun p => (s.port p).state == .miscabled then s.hold 2 else s.startupDone) := by
  show execStartupRecover true s = _
  unfold execStartupRecover
  rw [if_neg (by simp [phase, free, on, idle]), if_neg (by decide), closed]

end

theorem any_miscabled_iff (s : State) : ((List.range 8).any fun p => (s.port p).state == .miscabled) = true ↔
    ∃ p, p < 8 ∧ (s.port p).state = .miscabled := by simp

/-- Start-up is complete: the module is ready, out of Spring (R361). -/
theorem startupDone_ready (s : State) : s.startupDone.boot.phase = 15 ∧ s.startupDone.boot.ready = true ∧
    s.startupDone.boot.startupTick = s.boot.modCount ∧ s.startupDone.pwr.regime ≠ .spring := by
  unfold State.startupDone
  extract_lets tiles booted parked settled
  have stage : settled.stage = booted.stage := by
    refine (stage_powerSettle _).trans ((stage_holdWinter _).trans ((stage_setRegime parked _).trans ?_))
    rw [apply_ite State.stage, stage_parkSpare, ite_self]
  have out : settled.pwr.regime ≠ .spring :=
    regime_powerSettle_ne_spring (by rw [regime_holdWinter, pwr_setRegime]; exact runRegime_ne_spring parked)
  clear_value settled
  generalize _ ++ leBytes 4 (settled.now - settled.boot.phase8Tick) = payload
  have news := news_endWaiter_report settled 0x0D09 .info 0x0F 0 payload stOk
  have done := (stage_of_news news).trans stage
  refine ⟨boot_of_stage done Boot.phase fun _ => rfl, boot_of_stage done Boot.ready fun _ => rfl,
    boot_of_stage done Boot.startupTick fun _ => rfl, ?_⟩
  rw [field_of_news news State.pwr fun _ => rfl]
  exact out

/-! Phase 5 (R20, R93). -/

/-- The tiles that fail their self-test. -/
def failingTiles (failing : List (Fin 68 × Nat)) : List Nat := (List.range 68).filter fun p => failing.any fun f => f.1.val == p

/-- Without injections no other tile fails. -/
theorem selftests_of_quiet {s : State} (q : s.Quiet) (failing : List (Fin 68 × Nat)) (l acc : List Nat) :
    l.foldl (fun (a : List Nat × State) p =>
      let i := a.2.fires 0x0305 2 p
      (if i.1 ∨ failing.any (fun f => f.1.val == p) then a.1 ++ [p] else a.1, i.2.injEnd 2 p)) (acc, s) =
    (acc ++ l.filter fun p => failing.any fun f => f.1.val == p, s) := by
  induction l generalizing acc with
  | nil => simp
  | cons p l ih =>
    rw [List.foldl_cons]
    simp only [q.fires, q.injEnd, Bool.false_eq_true, false_or, List.filter_cons]
    rw [ih]
    split <;> simp

/-- At most one of a quadrant's 17 tiles fails where at most one is named. -/
theorem length_passTiles {failing : List (Fin 68 × Nat)} {q : Nat} (few : (failing.filter fun f => f.1.val / 17 == q).length ≤ 1) :
    16 ≤ (passTiles (failingTiles failing) q).length := by
  let quadrant := (List.range 17).map (17 * q + ·)
  have distinct : quadrant.Nodup := List.nodup_range.map fun a b h => by omega
  have split := List.length_eq_length_filter_add (l := quadrant) fun p => !(failingTiles failing).contains p
  have named : (quadrant.filter fun p => !!(failingTiles failing).contains p) ⊆
      (failing.filter fun f => f.1.val / 17 == q).map (·.1.val) := by
    intro p hp
    obtain ⟨inside, fails⟩ := List.mem_filter.1 hp
    obtain ⟨i, hi, rfl⟩ := List.mem_map.1 inside
    have hi := List.mem_range.1 hi
    have fails : 17 * q + i ∈ failingTiles failing := by simpa using fails
    obtain ⟨-, named⟩ := List.mem_filter.1 fails
    obtain ⟨f, mem, same⟩ := List.any_eq_true.1 named
    have same : f.1.val = 17 * q + i := by simpa using same
    exact List.mem_map.2 ⟨f, List.mem_filter.2 ⟨mem, by rw [same, beq_iff_eq]; omega⟩, same⟩
  have bound := (List.subperm_of_subset (distinct.filter _) named).length_le
  rw [List.length_map] at bound
  have whole : quadrant.length = 17 := by simp [quadrant]
  show 16 ≤ (quadrant.filter fun p => !(failingTiles failing).contains p).length
  omega

theorem exec_startupTiles {s : State} (q : s.Quiet) (phase : s.boot.phase = 5) (free : s.boot.springHeld = false)
    {failing : List (Fin 68 × Nat)} (few : ∀ q, q < 4 → (failing.filter fun f => f.1.val / 17 == q).length ≤ 1) : ∃ b : List Byte,
    exec (.startupTiles failing) s = .next ((((([0, 1, 2, 3].foldl (fun s q => s.mapQuadrant (failingTiles failing) q) s).report
      0x0104 .info 0 0 b).followParked 0)).onBoot fun x => { x with phase := 6 }) := by
  show ∃ b, execStartupTiles failing s = _
  unfold execStartupTiles
  rw [if_neg (by simp [phase, free]), selftests_of_quiet q]
  dsimp only
  have enough : ¬([0, 1, 2, 3].any fun q => decide ((passTiles ([] ++ failingTiles failing) q).length < 16)) = true := by
    simp only [List.nil_append, List.any_eq_true, not_exists, not_and, decide_eq_true_eq, Nat.not_lt]
    exact fun q hq => length_passTiles (few q (by simp at hq; omega))
  exact ⟨_, if_neg enough⟩

/-- The engines of a quadrant in the order of its passing tiles (R20). -/
def State.mapEngines (s : State) (fail : List Nat) (q : Nat) : State :=
  (List.range 16).foldl (fun s i => match (passTiles fail q)[i]? with
    | some p => s.setTmap (16 * q + i) ⟨true, p, 0⟩
    | none => s.setTmap (16 * q + i) ⟨false, 0, 0⟩) s

theorem tileMap_mapQuadrant (s : State) (fail : List Nat) (q : Nat) : (s.mapQuadrant fail q).tileMap = (s.mapEngines fail q).tileMap :=
  (foldl_proj State.tileMap (fun u _ => onTile_tileMap u _ _) _ _).trans (foldl_proj State.tileMap (fun u _ => onTile_tileMap u _ _) _ _)

theorem tmap_setTmaps (s : State) (base : Nat) (m : Nat → TileMapEntry) (n e : Nat) :
    ((List.range n).foldl (fun s i => s.setTmap (base + i) (m i)) s).tmap e =
      if base ≤ e ∧ e < base + n then m (e - base) else s.tmap e := by
  induction n with
  | zero => rw [if_neg (by omega)]; rfl
  | succ n ih =>
    rw [List.range_succ, List.foldl_append, List.foldl_cons, List.foldl_nil]
    by_cases last : base + n = e
    · subst last
      rw [tmap_setTmap_same, if_pos (by omega), Nat.add_sub_cancel_left]
    · rw [tmap_setTmap_other _ _ last, ih]
      exact if_congr (by omega) rfl rfl

/-- With no failing tile a quadrant's 16 engines are its tiles in order. -/
theorem tmap_mapQuadrant_nil (s : State) (q e : Nat) :
    (s.mapQuadrant [] q).tmap e = if e / 16 = q then ⟨true, 17 * q + e % 16, 0⟩ else s.tmap e := by
  have engines : s.mapEngines [] q = (List.range 16).foldl (fun s i => s.setTmap (16 * q + i) ⟨true, 17 * q + i, 0⟩) s := by
    refine List.foldl_ext _ _ _ fun u i hi => ?_
    have hi := List.mem_range.1 hi
    have passes : (passTiles [] q)[i]? = some (17 * q + i) := by simp [passTiles, show i < 17 by omega]
    rw [passes]
  have kept : (s.mapQuadrant [] q).tmap e = (s.mapEngines [] q).tmap e :=
    congrArg (Sparse.get Reset.tileMapEntry · e) (tileMap_mapQuadrant s [] q)
  rw [kept, engines, tmap_setTmaps]
  by_cases mine : e / 16 = q
  · rw [if_pos (by omega), if_pos mine, show e - 16 * q = e % 16 by omega]
  · rw [if_neg (by omega), if_neg mine]

/-- So the four quadrants serve engines 0 to 63. -/
theorem tmap_mapQuadrants_nil (s : State) {e : Nat} (he : e < 64) :
    ([0, 1, 2, 3].foldl (fun s q => s.mapQuadrant [] q) s).tmap e = ⟨true, 17 * (e / 16) + e % 16, 0⟩ := by
  simp only [List.foldl_cons, List.foldl_nil, tmap_mapQuadrant_nil]
  obtain h | h | h | h : e / 16 = 0 ∨ e / 16 = 1 ∨ e / 16 = 2 ∨ e / 16 = 3 := by omega
  all_goals simp [h]

/-- Phase 5 leaves the map that the quadrants make, and goes on (Table 13-1). -/
theorem exec_startupTiles_maps {s : State} (q : s.Quiet) (phase : s.boot.phase = 5) (free : s.boot.springHeld = false)
    {failing : List (Fin 68 × Nat)} (few : ∀ q, q < 4 → (failing.filter fun f => f.1.val / 17 == q).length ≤ 1) :
    ∃ t, exec (.startupTiles failing) s = .next t ∧ t.boot.phase = 6 ∧
      (failing = [] → ∀ e, e < 64 → t.tmap e = ⟨true, 17 * (e / 16) + e % 16, 0⟩) := by
  obtain ⟨b, ran⟩ := exec_startupTiles q phase free few
  refine ⟨_, ran, rfl, ?_⟩
  rintro rfl e he
  rw [← tmap_mapQuadrants_nil s he]
  refine congrArg (Sparse.get Reset.tileMapEntry · e) ?_
  exact (followParked_field _ State.tileMap (fun _ _ => rfl) (fun _ _ _ => rfl) 0).trans
    ((notices_report _ _ _ _ _ _).field State.tileMap fun _ => rfl)

/-! Phase 7 (R247, R248, R413). -/

/-- CHD_CFG as the MCB gives it (Table 09-10). -/
theorem fld_chdCfg_x {x y split : Nat} (hx : x < 16) (hy : y < 8) (hs : split < 4) :
    fld (BitVec.ofNat 64 (x * 256 + y * 32 + split)) 8 4 = x := by
  rw [fld, bitsOf, BitVec.toNat_ofNat, Nat.mod_eq_of_lt (by omega)]
  omega

theorem physX_chdFromMcb (s : State) : s.chdFromMcb.physX = le s.flash.mcb 16 1 % 16 :=
  fld_chdCfg_x (Nat.mod_lt _ (by decide)) (Nat.mod_lt _ (by decide)) (Nat.mod_lt _ (by decide))

/-- A port as it opens: unassigned, in training, or DOWN without a cable (R413). -/
def Port.opened (o : Port) (split p : Nat) (peers : List (Fin 8 × PeerId)) : Port :=
  match portDir split p with
  | none => { o with state := .unassigned }
  | some d =>
    if peers.any (fun t => t.1.val == p) ∨ Config.cablePresent p then { o with state := .training, dir := d }
    else { o with state := .down, dir := d }

/-- Phase 7 opens a port. -/
def State.openPort (peers : List (Fin 8 × PeerId)) (s : State) (p : Nat) : State :=
  match portDir s.split p with
  | none => s.onPort p fun o => { o with state := .unassigned }
  | some d =>
    if peers.any (fun t => t.1.val == p) ∨ Config.cablePresent p then (s.onPort p fun o => { o with state := .training, dir := d }).sendTrain p
    else s.onPort p fun o => { o with state := .down, dir := d }

section
variable (peers : List (Fin 8 × PeerId)) (s : State)

/-- What it changes is the port, and a TRAIN flit goes out. -/
theorem openPort_frame (p : Nat) : ∃ o, s.openPort peers p =
    { s.onPort p fun x => x.opened s.split p peers with out := o } := by
  unfold State.openPort Port.opened
  split
  · exact ⟨s.out, rfl⟩
  · split
    · exact ⟨_, rfl⟩
    · exact ⟨s.out, rfl⟩

theorem port_openPort_same (p : Nat) : (s.openPort peers p).port p = (s.port p).opened s.split p peers := by
  obtain ⟨o, opens⟩ := openPort_frame peers s p
  rw [opens]
  exact port_onPort_same s p fun x => x.opened s.split p peers

theorem port_openPort_other {p k : Nat} (h : p ≠ k) : (s.openPort peers p).port k = s.port k := by
  obtain ⟨o, opens⟩ := openPort_frame peers s p
  rw [opens]
  exact port_onPort_other s (fun x => x.opened s.split p peers) h

/-- The other parts of the state. -/
theorem openPort_field {α : Type} (f : State → α) (hf : ∀ (u : State) c o, f { u with chd := { u.chd with ports := c }, out := o } = f u)
    (l : List Nat) : f (l.foldl (State.openPort peers) s) = f s := by
  refine foldl_proj f (fun u p => ?_) l s
  obtain ⟨o, opens⟩ := openPort_frame peers u p
  rw [opens]
  exact hf u _ o

theorem port_openPorts_other {l : List Nat} {p : Nat} (h : p ∉ l) : (l.foldl (State.openPort peers) s).port p = s.port p := by
  induction l generalizing s with
  | nil => rfl
  | cons q l ih =>
    obtain ⟨apart, later⟩ := not_or.1 (mt List.mem_cons.2 h)
    rw [List.foldl_cons, ih _ later, port_openPort_other peers s (Ne.symm apart)]

theorem port_openPorts {l : List Nat} (distinct : l.Nodup) {p : Nat} (mem : p ∈ l) :
    (l.foldl (State.openPort peers) s).port p = (s.port p).opened s.split p peers := by
  induction l generalizing s with
  | nil => cases mem
  | cons q l ih =>
    obtain ⟨fresh, distinct⟩ := List.nodup_cons.1 distinct
    rw [List.foldl_cons]
    obtain rfl | later := List.mem_cons.1 mem
    · rw [port_openPorts_other peers _ fresh, port_openPort_same]
    · have split : (s.openPort peers q).split = s.split := openPort_field peers s State.split (fun _ _ _ => rfl) [q]
      rw [ih _ distinct later, port_openPort_other peers s (ne_of_mem_of_not_mem later fresh).symm, split]

end

theorem state_opened_ne_miscabled (o : Port) (split p : Nat) (peers : List (Fin 8 × PeerId)) : (o.opened split p peers).state ≠ .miscabled := by
  unfold Port.opened
  split
  · simp
  · split <;> simp

/-- Both Ethernet ports are up. -/
def State.ethUp (s : State) : State := (s.onEthPort 0 fun e => { e with state := bit true }).onEthPort 1 fun e => { e with state := bit true }

theorem now_ethUp (s : State) : s.ethUp.now = s.now := rfl
theorem split_ethUp (s : State) : s.ethUp.split = s.split := rfl
theorem port_ethUp (s : State) (p : Nat) : s.ethUp.port p = s.port p := rfl

theorem ethPort_ethUp (s : State) : (s.ethUp.ethPort 0).state = 1 ∧ (s.ethUp.ethPort 1).state = 1 := by
  unfold State.ethUp
  rw [ethPort_onEthPort_same, ethPort_onEthPort_other _ _ (by decide), ethPort_onEthPort_same]
  exact ⟨rfl, rfl⟩

/-- The ports of the split open; no identity has come yet. -/
def State.linksOpen (s : State) : State := ((List.range 8).foldl (State.openPort []) s.chdFromMcb.setPos).ethUp

theorem port_linksOpen {s : State} {p : Nat} (hp : p < 8) : s.linksOpen.port p =
    (s.chdFromMcb.setPos.port p).opened s.chdFromMcb.setPos.split p [] :=
  (port_ethUp _ p).trans (port_openPorts [] s.chdFromMcb.setPos List.nodup_range (List.mem_range.2 hp))

section
variable {s : State} (phase : s.boot.phase = 7) (free : s.boot.springHeld = false)
include phase free

/-- A column beyond the ring holds start-up (R247). -/
theorem exec_startupLinks_outside (peers : List (Fin 8 × PeerId)) (eth0 eth1 : Bool) (outside : 9 ≤ le s.flash.mcb 16 1 % 16) :
    ∃ u : State, exec (.startupLinks peers eth0 eth1) s = .next (u.hold 3) := by
  show ∃ u : State, execStartupLinks peers eth0 eth1 s = _
  unfold execStartupLinks
  rw [if_neg (by simp [phase, free])]
  dsimp only
  rw [if_pos (by rw [physX_chdFromMcb]; exact outside)]
  exact ⟨_, rfl⟩

theorem exec_startupLinks_opens (inside : le s.flash.mcb 16 1 % 16 < 9) :
    exec (.startupLinks [] true true) s = .next (s.linksOpen.onBoot fun b => { b with phase := 8, phase8Tick := s.now }) := by
  have calm : ¬((List.range 8).any fun p => (s.linksOpen.port p).state == .miscabled) = true := by
    simp only [List.any_eq_true, List.mem_range, beq_iff_eq, not_exists, not_and]
    intro p hp
    rw [port_linksOpen hp]
    exact state_opened_ne_miscabled _ _ _ _
  have now : s.linksOpen.now = s.now := (now_ethUp _).trans (openPort_field [] s.chdFromMcb.setPos State.now (fun _ _ _ => rfl) (List.range 8))
  show execStartupLinks [] true true s = _
  unfold execStartupLinks
  rw [if_neg (by simp [phase, free])]
  dsimp only
  rw [if_neg (by rw [physX_chdFromMcb]; omega), ← now]
  exact if_neg calm

end

theorem split_linksOpen (s : State) : s.linksOpen.split = s.chdFromMcb.setPos.split :=
  (split_ethUp _).trans (openPort_field [] s.chdFromMcb.setPos State.split (fun _ _ _ => rfl) (List.range 8))

/-- Each port as its direction and its cable say (R413). -/
theorem port_linksOpen_spec (s : State) {p : Nat} (hp : p < 8) : match portDir s.linksOpen.split p with
    | none => (s.linksOpen.port p).state = .unassigned
    | some d => (s.linksOpen.port p).dir = d ∧ (s.linksOpen.port p).state = if Config.cablePresent p = true then .training else .down := by
  rw [port_linksOpen hp, split_linksOpen]
  unfold Port.opened
  cases portDir s.chdFromMcb.setPos.split p with
  | none => rfl
  | some d =>
    by_cases cable : Config.cablePresent p = true <;> simp [cable]

end Sys2Proof.Machine
namespace Sys2Proof.Proofs
open Sys2Proof.Machine

/-- Settles O38: each phase that succeeds is its own equation of `exec`, and every hold is `State.hold` with its cause. -/
theorem startupMain : Obligations.StartupMain := by
  intro s gen width peers failing quiet free
  refine ⟨fun phase off _ => exec_startupRails_spring phase free off gen width,
    fun k phase off => exec_startupRails_bad phase free off k gen width,
    fun phase few => exec_startupTiles_maps quiet phase free few,
    fun phase => ⟨exec_startupMemory_trains phase free, exec_startupMemory_g7 phase free true, exec_startupMemory_lp phase free⟩,
    ?outside, ?opens, ?recover, boot_hold s⟩
  case outside =>
    intro phase outside
    obtain ⟨u, ran⟩ := exec_startupLinks_outside phase free peers true true outside
    obtain ⟨held, cause, -⟩ := boot_hold u 3
    exact ⟨_, ran, cause, held⟩
  case opens =>
    intro phase inside
    obtain ⟨up0, up1⟩ := ethPort_ethUp ((List.range 8).foldl (State.openPort []) s.chdFromMcb.setPos)
    exact ⟨_, exec_startupLinks_opens phase free inside, rfl, rfl, up0, up1, fun p => port_linksOpen_spec s⟩
  case recover =>
    intro phase on idle
    refine ⟨exec_startupRecover_failed phase free on idle, fun closed miscabled => ?_, fun closed cabled => ?_⟩
    · rw [exec_startupRecover_none phase free on idle closed, if_pos ((any_miscabled_iff s).2 miscabled)]
    · rw [exec_startupRecover_none phase free on idle closed,
        if_neg (fun h => by obtain ⟨p, hp, bad⟩ := (any_miscabled_iff s).1 h; exact cabled p hp bad)]
      exact ⟨_, rfl, startupDone_ready s⟩

end Sys2Proof.Proofs
end

/-! ### The GRP commands that write (R305, Table 10-9) -/
section
namespace Sys2Proof.Machine
open Sys2Proof.Laws

/-! What the slots' jobs are while the power of a spare settles and commands of the Apex leave (R277, R341). -/

section
variable (s : State)

/-- The power manager settles in its own state and tells of it. -/
theorem powerSettle_field {α : Type} (f : State → α) (hp : ∀ (u : State) g, f (u.onPwr g) = f u)
    (hd : ∀ (u : State) g, f (u.onPwrDyn g) = f u) (hn : ∀ u v : State, u.Notices v → f v = f u) : f s.powerSettle = f s := by
  have goal (u : State) (v : Nat) : f (u.setGoal v) = f u := by
    unfold State.setGoal
    split
    · rfl
    · split
      · exact (hd _ _).trans (hp _ _)
      · exact hd _ _
  have regime (u : State) (g : Regime) : f (u.setRegime g) = f u := by
    unfold State.setRegime
    split
    · rfl
    · exact (hn _ _ (notices_report _ _ _ _ _ _)).trans (hp _ _)
  have follows (u : State) : f (u.setRegime u.runRegime).holdWinter = f u := by
    rw [State.holdWinter, apply_ite f, goal, ite_self, regime]
  unfold State.powerSettle
  dsimp only
  rw [apply_ite f, follows, ite_self, hn _ _ (notices_throttle _), hp]

theorem job_parkSpare (on : Bool) : (s.parkSpare on).job = s.job :=
  (powerSettle_field _ State.job (fun _ _ => rfl) (fun _ _ => rfl) fun _ _ h => h.field State.job).trans
    (followParked_field _ State.job (fun _ _ => rfl) (fun _ _ _ => rfl) _)

theorem job_calledUp (v : List Word64) : (s.calledUp v).job = s.job := by
  unfold State.calledUp
  dsimp only
  rw [apply_ite State.job, job_parkSpare, onGrp_job, ite_self]

theorem job_mbCommand (dest : Nat × Nat) (op : Nat) (payload : List Byte) : (s.mbCommand dest op payload).job = s.job :=
  foldl_proj State.job (fun u _ => (notices_sendControl u _ _ _).field State.job) _ s

theorem job_writePos (v : List Word64) : (s.writePos v).job = s.job :=
  foldl_proj State.job (fun u p => job_mbCommand u p _ (u.posBytes v)) s.everyone s

end

theorem jobRuns_of_job {s t : State} (h : t.job = s.job) : t.jobRuns = s.jobRuns := congrArg (fun j : Job => !j.slots.isEmpty) h

/-! What the commands put in force. -/

/-- GRP_CONFIG is in force: each active group has its own slot, and none is lost. -/
def State.grpConfigured (s : State) (b : List Byte) : State :=
  (s.onGrp fun g => { g with cfg := grpCfgOf b g.cfg, slots := List.range (min 28 (le b 4 1)), lost := false }).roleWatch

/-- The CHD_POS words of GRP_SUBSTITUTE. -/
def substitutePos (b : List Byte) : List Word64 := (List.range 8).map fun y => BitVec.ofNat 64 (le b (8 + 8 * y) 4)

/-- New positions wait for the boundary, and a spare that they name is called up. -/
def State.substituteWaits (s : State) (v : List Word64) : State := (s.calledUp v).onGrp fun g => { g with newPos := some v }

/-- The Apex writes CHD_POS with position x of row y given back to column c, for the next boundary (R302). -/
def State.givingBack (s : State) (c y x : Nat) : State :=
  (s.onGrp fun g => { g with returning := some (c, y), failed := g.failed.filter (· != 9 * y + c) }).writePos
    ((List.range 8).map fun k => if k = y then setFld (s.chdPos k) (4 * x) 4 c else s.chdPos k)

/-! Each command's effect, by its guards. -/

section
variable {s : State} {b : List Byte}

theorem grpConfigCmd_busy (run : s.jobRuns = true) : grpConfigCmd b s = .done stBusy [] s := if_pos run

theorem grpConfigCmd_ok (idle : s.jobRuns = false) : grpConfigCmd b s = .done stOk [] (s.grpConfigured b) := if_neg (by simp [idle])

theorem grpPolicyCmd_ok (policy : le b 0 1 ≤ 2) (factor : 64 ≤ le b 1 1) :
    grpPolicyCmd b s = .done stOk [] (s.atBoundary (.policy (le b 0 1) (le b 1 1))) := if_neg (by omega)

theorem grpPolicyCmd_bad (bad : 2 < le b 0 1 ∨ le b 1 1 < 64) : grpPolicyCmd b s = .done stBadOpcode [] s := if_pos bad

theorem mb15Only_other {r : Route} (other : r ≠ .chord) (f : List Byte → State → CmdResult) :
    mb15Only r f b s = .done stDeniedRegime [] s := if_neg other

theorem grpSubstituteCmd_stale (stale : le b 0 2 < s.grp.epoch.toNat) : grpSubstituteCmd b s = .done stBadSeq [] s := if_pos stale

theorem grpSubstituteCmd_waits (fresh : s.grp.epoch.toNat ≤ le b 0 2) (free : s.grp.newPos = none) (run : s.jobRuns = true) :
    grpSubstituteCmd b s = .done stOk [] (s.substituteWaits (substitutePos b)) := by
  have still : (s.substituteWaits (substitutePos b)).jobRuns = true := (jobRuns_of_job (job_calledUp s _)).trans run
  exact ((if_neg (Nat.not_lt.2 fresh)).trans (if_neg (by simp [free]))).trans (congrArg (CmdResult.done stOk []) (if_pos (.inl still)))

theorem grpRecoverCmd_enters (fresh : s.grp.epoch.toNat ≤ le b 0 2) (started : s.pwr.regime ≠ .none_) (out : s.pwr.regime ≠ .spring)
    (phase : le b 2 1 ≤ 5) : grpRecoverCmd b s = .done stOk [] (s.enterPhase (le b 2 1) (le b 12 1) (BitVec.ofNat 32 (le b 4 4))
      (BitVec.ofNat 32 (le b 8 4)) s.grp.failed) :=
  ((if_neg (Nat.not_lt.2 fresh)).trans (if_neg (by simp [started, out]))).trans (if_neg (Nat.not_lt.2 phase))

theorem grpReadyCmd_ok (substitute : s.grp.substitute = true) :
    grpReadyCmd b s = .done stOk [] (s.onGrp fun g => { g with readyStep := some (BitVec.ofNat 32 (le b 4 4)) }) :=
  if_neg (by simp [substitute])

theorem grpReadyCmd_denied (own : s.grp.substitute = false) : grpReadyCmd b s = .done stDeniedRegime [] s := if_pos (by simp [own])

theorem grpReturnCmd_bad (bad : 7 < le b 0 1 ∨ 7 < le b 1 1) : grpReturnCmd b s = .done stBadOpcode [] s := if_pos bad

section
variable (column : le b 0 1 ≤ 7) (row : le b 1 1 ≤ 7)
include column row

theorem grpReturnCmd_busy (busy : s.grp.returning.isSome = true ∨ s.grp.newPos.isSome = true ∨ s.grp.phase < 5) :
    grpReturnCmd b s = .done stBusy [] s := (if_neg (by omega)).trans (if_pos busy)

section
variable (idle : s.grp.returning = none) (free : s.grp.newPos = none) (recovered : 5 ≤ s.grp.phase)
include idle free recovered

theorem grpReturnCmd_denied (apex : s.isApex = false) : grpReturnCmd b s = .done stDeniedRegime [] s := by
  unfold grpReturnCmd
  dsimp only
  rw [if_neg (by omega), if_neg (by simp [idle, free, recovered]), apex]
  rfl

theorem grpReturnCmd_waits (apex : s.isApex = true) (run : s.jobRuns = true) {x : Nat}
    (position : (List.range 8).find? (fun x => s.col x (le b 1 1) == 8) = some x) :
    grpReturnCmd b s = .done stOk [] (s.givingBack (le b 0 1) (le b 1 1) x).sendApexState := by
  have still : (s.givingBack (le b 0 1) (le b 1 1) x).jobRuns = true := (jobRuns_of_job (job_writePos _ _)).trans run
  unfold grpReturnCmd
  dsimp only
  rw [if_neg (by omega), if_neg (by simp [idle, free, recovered]), apex, position]
  exact congrArg (fun t : State => CmdResult.done stOk [] t.sendApexState) (if_pos still)

end

end

end

end Sys2Proof.Machine
end

section
namespace Sys2Proof.Proofs
open Sys2Proof.Machine Sys2Proof.Laws

/-- Settles O29: each clause is one branch of its command's effect; the job that runs before a substitution or a return is asked for
runs after it, so that the new positions wait for the boundary. -/
theorem groupCommands : Obligations.GroupCommands := by
  intro s r
  refine ⟨?config, ?policy, ?otherRoute, ?substitute, ?recover, ?ready, ?giveBack⟩
  case config =>
    exact fun h => ⟨fun run => completes_of_done h rfl (grpConfigCmd_busy run), fun idle => completes_of_done h rfl (grpConfigCmd_ok idle)⟩
  case policy =>
    exact fun h => ⟨fun policy factor => completes_of_done h rfl (grpPolicyCmd_ok policy factor),
      fun bad => completes_of_done h rfl (grpPolicyCmd_bad bad)⟩
  case otherRoute =>
    exact fun other => ⟨fun h => completes_of_done h rfl (mb15Only_other other _), fun h => completes_of_done h rfl (mb15Only_other other _)⟩
  case substitute =>
    rintro h rfl
    exact ⟨fun stale => completes_of_done h rfl (grpSubstituteCmd_stale stale),
      fun fresh free run => completes_of_done h rfl (grpSubstituteCmd_waits fresh free run)⟩
  case recover =>
    rintro h rfl fresh started out phase
    exact completes_of_done h rfl (grpRecoverCmd_enters fresh started out phase)
  case ready =>
    exact fun h => ⟨fun substitute => completes_of_done h rfl (grpReadyCmd_ok substitute),
      fun own => completes_of_done h rfl (grpReadyCmd_denied own)⟩
  case giveBack =>
    refine fun h => ⟨fun bad => completes_of_done h rfl (grpReturnCmd_bad bad), fun column row =>
      ⟨fun busy => completes_of_done h rfl (grpReturnCmd_busy column row busy), fun idle free recovered => ⟨fun apex => ?_, fun apex run _ position => ?_⟩⟩⟩
    · exact completes_of_done h rfl (grpReturnCmd_denied column row idle free recovered apex)
    · exact completes_of_done h rfl (grpReturnCmd_waits column row idle free recovered apex run position)

end Sys2Proof.Proofs
end

/-! ### Power, start-up, the control processor, the Almanac, hosts and Ethernet (chapters 11 to 15) -/
section

-- one theorem at a time, as in the tests: the threads of all exceed the memory that a check has
set_option Elab.async false

section
/-! The granted ranges of G7 and the keys of the LMS tree (R368, R385). No operation but MEM_ALLOC, MEM_FREE, SEC_ATTEST, phase 1 of
start-up and a fall of the always-on domain writes them; that the others leave them alone is one lemma per operation, in the order in
which the model defines them, and simp puts them together. -/

namespace Sys2Proof.Machine

open Sys2Proof.Laws

def State.sealed (s : State) : List MemGrant × Nat × Nat := (s.job.grants, s.flash.lmsNext, s.flash.lmsClaimed)

theorem sealed_of {s t : State} (hg : t.job.grants = s.job.grants) (hn : t.flash.lmsNext = s.flash.lmsNext)
    (hc : t.flash.lmsClaimed = s.flash.lmsClaimed) : t.sealed = s.sealed := Prod.ext hg (Prod.ext hn hc)

def CmdResult.state : CmdResult → State
  | .done _ _ s => s
  | .running s => s
  | .pending s => s

@[simp] theorem CmdResult.state_done (st : Word16) (resp : List Byte) (s : State) : (CmdResult.done st resp s).state = s := rfl
@[simp] theorem CmdResult.state_running (s : State) : (CmdResult.running s).state = s := rfl
@[simp] theorem CmdResult.state_pending (s : State) : (CmdResult.pending s).state = s := rfl
@[simp] theorem CmdResult.state_ite (c : Prop) [Decidable c] (a b : CmdResult) : (if c then a else b).state = if c then a.state else b.state :=
  apply_ite CmdResult.state c a b

def Seals (s : State) (o : Host.Outcome State Fault Refusal) : Prop := ∀ t, o = .next t → t.sealed = s.sealed

@[simp] theorem seals_next (s t : State) : Seals s (.next t) ↔ t.sealed = s.sealed :=
  ⟨fun h => h t rfl, fun h _ e => by cases e; exact h⟩
@[simp] theorem seals_fault (s : State) (f : Fault) : Seals s (.fault f) := fun _ e => by cases e
@[simp] theorem seals_refused (s : State) (f : Refusal) : Seals s (.refused f) := fun _ e => by cases e

@[simp] theorem seals_ite (c : Prop) [Decidable c] (s : State) (a b : Host.Outcome State Fault Refusal) :
    Seals s (if c then a else b) ↔ if c then Seals s a else Seals s b := by split <;> rfl

@[simp] theorem sealed_ite (c : Prop) [Decidable c] (s t : State) : (if c then s else t).sealed = if c then s.sealed else t.sealed :=
  apply_ite State.sealed c s t
@[simp] theorem snd_ite {α β : Type} (c : Prop) [Decidable c] (s t : α × β) : (if c then s else t).2 = if c then s.2 else t.2 :=
  apply_ite Prod.snd c s t

@[simp] theorem sealed_foldl {α : Type} {f : State → α → State} (h : ∀ s a, (f s a).sealed = s.sealed) (l : List α) (s : State) :
    (l.foldl f s).sealed = s.sealed := foldl_proj State.sealed h l s
@[simp] theorem sealed_foldl_snd {α β : Type} {f : β × State → α → β × State} (h : ∀ s a, (f s a).2.sealed = s.2.sealed) (l : List α) (s : β × State) :
    (l.foldl f s).2.sealed = s.2.sealed := foldl_proj (fun x : β × State => x.2.sealed) h l s

@[simp] theorem sealed_foldl_third {α β γ : Type} {f : β × γ × State → α → β × γ × State} (h : ∀ s a, (f s a).2.2.sealed = s.2.2.sealed) (l : List α) (s : β × γ × State) :
    (l.foldl f s).2.2.sealed = s.2.2.sealed := foldl_proj (fun x : β × γ × State => x.2.2.sealed) h l s

theorem State.Notices.sealed {s t : State} (h : s.Notices t) : t.sealed = s.sealed :=
  h.field State.sealed

section
variable (s : State)
@[simp] theorem sealed_onJob (f : Job → Job) (h : ∀ x, (f x).grants = x.grants) : (s.onJob f).sealed = s.sealed := sealed_of (h _) rfl rfl
@[simp] theorem sealed_onFlash (f : Flash → Flash) (h : ∀ x, (f x).lmsNext = x.lmsNext) (h' : ∀ x, (f x).lmsClaimed = x.lmsClaimed) :
    (s.onFlash f).sealed = s.sealed := sealed_of rfl (h _) (h' _)
end

end Sys2Proof.Machine
end

section
/-! The granted ranges and the LMS keys through the operations of Ops and Almanac. -/

namespace Sys2Proof.Machine

open Sys2Proof.Laws

@[simp] theorem sealed_onBoot (s : State) (f : Boot → Boot) : (State.onBoot s f).sealed = s.sealed := sealed_of rfl rfl rfl

@[simp] theorem sealed_onCp (s : State) (f : Cp → Cp) : (State.onCp s f).sealed = s.sealed := sealed_of rfl rfl rfl

@[simp] theorem sealed_onStreams (s : State) (f : Streams → Streams) : (State.onStreams s f).sealed = s.sealed := sealed_of rfl rfl rfl

@[simp] theorem sealed_onSync (s : State) (f : Sync → Sync) : (State.onSync s f).sealed = s.sealed := sealed_of rfl rfl rfl

@[simp] theorem sealed_onScales (s : State) (f : Scales → Scales) : (State.onScales s f).sealed = s.sealed := sealed_of rfl rfl rfl

@[simp] theorem sealed_onGrp (s : State) (f : Grp → Grp) : (State.onGrp s f).sealed = s.sealed := sealed_of rfl rfl rfl

@[simp] theorem sealed_onGrpStats (s : State) (f : GrpStats → GrpStats) : (State.onGrpStats s f).sealed = s.sealed := sealed_of rfl rfl rfl

@[simp] theorem sealed_onComp (s : State) (f : Comp → Comp) : (State.onComp s f).sealed = s.sealed := sealed_of rfl rfl rfl

@[simp] theorem sealed_onMem (s : State) (f : Mem → Mem) : (State.onMem s f).sealed = s.sealed := sealed_of rfl rfl rfl

@[simp] theorem sealed_onD2d (s : State) (f : D2d → D2d) : (State.onD2d s f).sealed = s.sealed := sealed_of rfl rfl rfl

@[simp] theorem sealed_onChd (s : State) (f : Chd → Chd) : (State.onChd s f).sealed = s.sealed := sealed_of rfl rfl rfl

@[simp] theorem sealed_onHst (s : State) (f : Hst → Hst) : (State.onHst s f).sealed = s.sealed := sealed_of rfl rfl rfl

@[simp] theorem sealed_onEth (s : State) (f : Eth → Eth) : (State.onEth s f).sealed = s.sealed := sealed_of rfl rfl rfl

@[simp] theorem sealed_onPwr (s : State) (f : Pwr → Pwr) : (State.onPwr s f).sealed = s.sealed := sealed_of rfl rfl rfl

@[simp] theorem sealed_onPwrDyn (s : State) (f : PwrDyn → PwrDyn) : (State.onPwrDyn s f).sealed = s.sealed := sealed_of rfl rfl rfl

@[simp] theorem sealed_onPwrRegs (s : State) (f : PwrRegs → PwrRegs) : (State.onPwrRegs s f).sealed = s.sealed := sealed_of rfl rfl rfl

@[simp] theorem sealed_onAlm (s : State) (f : Alm → Alm) : (State.onAlm s f).sealed = s.sealed := sealed_of rfl rfl rfl

@[simp] theorem sealed_emit (s : State) (o : Out) : (State.emit s o).sealed = s.sealed := sealed_of rfl rfl rfl

@[simp] theorem sealed_draw (s : State) : (State.draw s).2.sealed = s.sealed := sealed_of rfl rfl rfl

@[simp] theorem sealed_onTile (s : State) (p : Nat) (f : Tile → Tile) : (State.onTile s p f).sealed = s.sealed := sealed_of rfl rfl rfl

@[simp] theorem sealed_setTmap (s : State) (e : Nat) (m : TileMapEntry) : (State.setTmap s e m).sealed = s.sealed := sealed_of rfl rfl rfl

@[simp] theorem sealed_onQueue (s : State) (q : Nat) (f : Queue → Queue) : (State.onQueue s q f).sealed = s.sealed := by
  simp [State.onQueue]

@[simp] theorem sealed_onPort (s : State) (p : Nat) (f : Port → Port) : (State.onPort s p f).sealed = s.sealed := by
  simp [State.onPort]

@[simp] theorem sealed_onConn (s : State) (k : Nat) (f : Conn → Conn) : (State.onConn s k f).sealed = s.sealed := by
  simp [State.onConn]

@[simp] theorem sealed_onEthPort (s : State) (i : Nat) (f : EthPort → EthPort) : (State.onEthPort s i f).sealed = s.sealed := by
  simp [State.onEthPort]

@[simp] theorem sealed_onChannel (s : State) (c : Nat) (f : Channel → Channel) : (State.onChannel s c f).sealed = s.sealed := by
  simp [State.onChannel]

@[simp] theorem sealed_onLp (s : State) (l : Nat) (f : LpChannel → LpChannel) : (State.onLp s l f).sealed = s.sealed := by
  simp [State.onLp]

@[simp] theorem sealed_setScaleRec (s : State) (i : Nat) (r : ScaleRec) : (State.setScaleRec s i r).sealed = s.sealed := by
  simp [State.setScaleRec]

@[simp] theorem sealed_setCtx (s : State) (c : Ctx) (x : JviCtx) : (State.setCtx s c x).sealed = s.sealed := by
  unfold State.setCtx
  (repeat' split) <;> simp

@[simp] theorem sealed_setG7Health (s : State) (cw : Nat) (h : CwHealth) : (State.setG7Health s cw h).sealed = s.sealed := by
  simp [State.setG7Health]

@[simp] theorem sealed_storeG7 (s : State) (off : Nat) (d : List Byte) : (State.storeG7 s off d).sealed = s.sealed := by
  simp [State.storeG7]

@[simp] theorem sealed_logStore (s : State) (w : HostWrite) : (State.logStore s w).sealed = s.sealed := by
  simp [State.logStore]

@[simp] theorem sealed_logWrite (s : State) (w : HostWrite) : (State.logWrite s w).sealed = s.sealed := by
  simp [State.logWrite]

@[simp] theorem sealed_issueHost (s : State) (o : Out) : (State.issueHost s o).sealed = s.sealed := by
  unfold State.issueHost
  split <;> simp

@[simp] theorem sealed_hostBound (s : State) (o : Out) : (State.hostBound s o).sealed = s.sealed := by
  simp [State.hostBound]

@[simp] theorem sealed_drainHostFrom (s : State) (l : List Out) : (s.drainHostFrom l).sealed = s.sealed := by
  induction l generalizing s with
  | nil => simp [State.drainHostFrom]
  | cons o r ih => simp [State.drainHostFrom, ih]

@[simp] theorem sealed_drainHost (s : State) : (State.drainHost s).sealed = s.sealed := by
  simp [State.drainHost]

@[simp] theorem sealed_msix (s : State) (v : Nat) : (s.msix v).sealed = s.sealed := (notices_msix s v).sealed

@[simp] theorem sealed_hostWrite (s : State) (relaxed : Bool) (a : Nat) (d : List Byte) : (State.hostWrite s relaxed a d).sealed = s.sealed := by
  simp [State.hostWrite]

@[simp] theorem sealed_onD2dLink (s : State) (m dir : Nat) (f : D2dLink → D2dLink) : (State.onD2dLink s m dir f).sealed = s.sealed := by
  simp [State.onD2dLink]

@[simp] theorem sealed_d2dWait (s : State) (w : D2dTraffic) : (State.d2dWait s w).sealed = s.sealed := by
  simp [State.d2dWait]

@[simp] theorem sealed_gatherControl (s : State) (dir p : Nat) : (State.gatherControl s dir p).sealed = s.sealed := by
  simp [State.gatherControl]

@[simp] theorem sealed_sendDir (s : State) (dir : Nat) (f : FlitOut) : (State.sendDir s dir f).sealed = s.sealed := by
  unfold State.sendDir
  dsimp only
  split <;> simp

@[simp] theorem sealed_routeBy (s : State) (by' : Option Nat) (vc stream offset : Nat) (dest : Nat × Nat) (late : Bool) (data : List Byte) :
    (State.routeBy s by' vc stream offset dest late data).sealed = s.sealed := by
  unfold State.routeBy
  split <;> simp

@[simp] theorem sealed_route (s : State) (x0 : Nat) (x1 : Nat) (x2 : Nat) (x3 : Nat × Nat) (x4 : Bool) (x5 : List Byte) :
    (State.route s x0 x1 x2 x3 x4 x5).sealed = s.sealed := by
  simp [State.route]

@[simp] theorem sealed_sendControl (s : State) (x y : Nat) (b : List Byte) :
    (s.sendControl x y b).sealed = s.sealed := (notices_sendControl s x y b).sealed

@[simp] theorem sealed_setSlot (s : State) (k : Nat) (x : InjSlot) : (State.setSlot s k x).sealed = s.sealed := by
  simp [State.setSlot]

@[simp] theorem sealed_injBegin (s : State) (kind index : Nat) : (State.injBegin s kind index).sealed = s.sealed := by
  simp [State.injBegin]

@[simp] theorem sealed_injEnd (s : State) (kind index : Nat) : (State.injEnd s kind index).sealed = s.sealed := by
  simp [State.injEnd]

@[simp] theorem sealed_startFlush (s : State) : s.startFlush.sealed = s.sealed := (notices_startFlush s).sealed

@[simp] theorem sealed_almLoss (s : State) : (State.almLoss s).sealed = s.sealed := by
  simp [State.almLoss]

@[simp] theorem sealed_pushRec (s : State) (r : AlmRec) : (s.pushRec r).sealed = s.sealed := (notices_pushRec s r).sealed

@[simp] theorem sealed_makePlace (s : State) : s.makePlace.sealed = s.sealed := (notices_makePlace s).sealed

@[simp] theorem sealed_alert (s : State) : s.alert.sealed = s.sealed := (notices_alert s).sealed

@[simp] theorem sealed_payLost (s : State) : s.payLost.sealed = s.sealed := (notices_payLost s).sealed

@[simp] theorem sealed_appendRec (s : State) (r : AlmRec) : (s.appendRec r).sealed = s.sealed := (notices_appendRec s r).sealed

@[simp] theorem sealed_recMessages (s : State) (r : AlmRec) (fold : Bool) :
    (s.recMessages r fold).sealed = s.sealed := (notices_recMessages s r fold).sealed

@[simp] theorem sealed_takeRec (s : State) (r : AlmRec) : (s.takeRec r).sealed = s.sealed := (notices_takeRec s r).sealed

@[simp] theorem sealed_reportRep (s : State) (rep code : Nat) (sev : Severity) (kind index : Nat) (p : List Byte) :
    (s.reportRep rep code sev kind index p).sealed = s.sealed := (notices_reportRep s rep code sev kind index p).sealed

@[simp] theorem sealed_report (s : State) (code : Nat) (sev : Severity) (kind index : Nat) (p : List Byte) :
    (s.report code sev kind index p).sealed = s.sealed := (notices_report s code sev kind index p).sealed

@[simp] theorem sealed_rowReport (s : State) (key code : Nat) (sev : Severity) (kind index : Nat) (payload : List Byte) :
    (State.rowReport s key code sev kind index payload).sealed = s.sealed := by
  unfold State.rowReport
  split <;> simp

@[simp] theorem sealed_disarm (s : State) (k cause : Nat) : (State.disarm s k cause).sealed = s.sealed := by
  simp [State.disarm]

@[simp] theorem sealed_opportunity (s : State) (det kind index tile : Nat) (ok : Nat → Bool) :
    (State.opportunity s det kind index tile ok).2.sealed = s.sealed := by
  simp [State.opportunity]

@[simp] theorem sealed_fires (s : State) (det kind index : Nat) : (State.fires s det kind index).2.sealed = s.sealed := by
  simp [State.fires]

@[simp] theorem sealed_disarmTarget (s : State) (p : InjSlot → Bool) : (State.disarmTarget s p).sealed = s.sealed := by
  simp [State.disarmTarget]

@[simp] theorem sealed_flushRecs (s : State) (l : List AlmRec) : (s.flushRecs l).sealed = s.sealed := by
  induction l generalizing s with
  | nil => rfl
  | cons r rest ih =>
    unfold State.flushRecs
    split
    · split
      · simp [ih]
        rfl
      · simp [ih]
    · simp [ih]

@[simp] theorem sealed_flushNow (s : State) : (State.flushNow s).sealed = s.sealed := by
  simp [State.flushNow]

end Sys2Proof.Machine
end

section
/-! The granted ranges and the LMS keys through the operations of Access, Vote, SyncOps, Arrays and Queue. -/

namespace Sys2Proof.Machine

open Sys2Proof.Laws

@[simp] theorem sealed_g7Retrain (s : State) (c cause : Nat) : (State.g7Retrain s c cause).sealed = s.sealed := by
  simp [State.g7Retrain]

@[simp] theorem sealed_park (s : State) (c : Nat) : (State.park s c).sealed = s.sealed := by
  simp [State.park]

@[simp] theorem sealed_parkAll (s : State) (off len : Nat) : (State.parkAll s off len).sealed = s.sealed := by
  simp [State.parkAll]

@[simp] theorem sealed_g7Ce (s : State) (cw : Nat) : (State.g7Ce s cw).sealed = s.sealed := by
  simp [State.g7Ce]

@[simp] theorem sealed_g7Ue (s : State) (cw : Nat) : (State.g7Ue s cw).sealed = s.sealed := by
  simp [State.g7Ue]

@[simp] theorem sealed_slowCe (s : State) (cw : Nat) : (State.slowCe s cw).sealed = s.sealed := by
  simp [State.slowCe]

@[simp] theorem sealed_slowUe (s : State) (cw : Nat) : (State.slowUe s cw).sealed = s.sealed := by
  simp [State.slowUe]

@[simp] theorem sealed_g7Look (s : State) (cw : Nat) : (State.g7Look s cw).2.sealed = s.sealed := by
  simp [State.g7Look]

@[simp] theorem sealed_slowLook (s : State) (cw : Nat) : (State.slowLook s cw).2.sealed = s.sealed := by
  simp [State.slowLook]

@[simp] theorem sealed_lookAll {look : State → Nat → CwHealth × State} (h : ∀ s cw, (look s cw).2.sealed = s.sealed) (l : List Nat) (s : State) :
    (lookAll look s l).2.2.sealed = s.sealed := by
  induction l generalizing s with
  | nil => rfl
  | cons cw l ih => exact (ih _).trans (h s cw)

@[simp] theorem sealed_readG7 (s : State) (off len : Nat) : (State.readG7 s off len).2.2.sealed = s.sealed := by
  simp [State.readG7]

@[simp] theorem sealed_readSlow (s : State) (off len : Nat) : (State.readSlow s off len).2.2.sealed = s.sealed := by
  simp [State.readSlow]

@[simp] theorem sealed_writeG7Cw (s : State) (off : Nat) (d : List Byte) (cw : Nat) : (State.writeG7Cw s off d cw).sealed = s.sealed := by
  simp [State.writeG7Cw]

@[simp] theorem sealed_writeG7 (s : State) (off : Nat) (d : List Byte) : (State.writeG7 s off d).sealed = s.sealed := by
  simp [State.writeG7]

@[simp] theorem sealed_setSlowHealth (s : State) (cw : Nat) (h : CwHealth) : (State.setSlowHealth s cw h).sealed = s.sealed := by
  simp [State.setSlowHealth]

@[simp] theorem sealed_writeSlowCw (s : State) (off : Nat) (d : List Byte) (cw : Nat) : (State.writeSlowCw s off d cw).sealed = s.sealed := by
  simp [State.writeSlowCw]

@[simp] theorem sealed_writeSlow (s : State) (off : Nat) (d : List Byte) : (State.writeSlow s off d).sealed = s.sealed := by
  simp [State.writeSlow]

@[simp] theorem sealed_storeSlow (s : State) (off : Nat) (d : List Byte) : (State.storeSlow s off d).sealed = s.sealed := by
  simp [State.storeSlow]

@[simp] theorem sealed_poisonG7 (s : State) (off len : Nat) : (State.poisonG7 s off len).sealed = s.sealed := by
  simp [State.poisonG7]

@[simp] theorem sealed_poisonSlow (s : State) (off len : Nat) : (State.poisonSlow s off len).sealed = s.sealed := by
  simp [State.poisonSlow]

@[simp] theorem sealed_onTileMem (s : State) (p : Nat) (f : TileMem → TileMem) : (State.onTileMem s p f).sealed = s.sealed := by
  simp [State.onTileMem]

@[simp] theorem sealed_onTileRegs (s : State) (p : Nat) (f : TileRegs → TileRegs) : (State.onTileRegs s p f).sealed = s.sealed := by
  simp [State.onTileRegs]

@[simp] theorem sealed_onTileWork (s : State) (p : Nat) (f : TileWork → TileWork) : (State.onTileWork s p f).sealed = s.sealed := by
  simp [State.onTileWork]

@[simp] theorem sealed_selftestFailed (s : State) (p : Nat) : (State.selftestFailed s p).sealed = s.sealed := by
  simp [State.selftestFailed]

@[simp] theorem sealed_padLook (s : State) (p : Nat) (cw : Nat) : (State.padLook s p cw).2.sealed = s.sealed := by
  simp [State.padLook]

@[simp] theorem sealed_readPad (s : State) (p off len : Nat) : (State.readPad s p off len).2.2.sealed = s.sealed := by
  simp [State.readPad]

@[simp] theorem sealed_writePadCw (s : State) (p off : Nat) (d : List Byte) (cw : Nat) : (State.writePadCw s p off d cw).sealed = s.sealed := by
  simp [State.writePadCw]

@[simp] theorem sealed_writePad (s : State) (p off : Nat) (d : List Byte) : (State.writePad s p off d).sealed = s.sealed := by
  simp [State.writePad]

@[simp] theorem sealed_readLoc (s : State) (l : Loc) (len : Nat) : (State.readLoc s l len).2.2.sealed = s.sealed := by
  unfold State.readLoc
  (repeat' split) <;> simp

@[simp] theorem sealed_writeLoc (s : State) (l : Loc) (d : List Byte) : (State.writeLoc s l d).sealed = s.sealed := by
  unfold State.writeLoc
  (repeat' split) <;> simp

@[simp] theorem sealed_onLocal (s : State) (c : Nat) (f : List Host.Cell → List Host.Cell) : (State.onLocal s c f).sealed = s.sealed := by
  simp [State.onLocal]

@[simp] theorem sealed_readLocal (s : State) (c off len : Nat) : (State.readLocal s c off len).2.2.sealed = s.sealed := by
  simp [State.readLocal]

@[simp] theorem sealed_writeLocal (s : State) (c off : Nat) (d : List Byte) : (State.writeLocal s c off d).sealed = s.sealed := by
  simp [State.writeLocal]

@[simp] theorem sealed_groupReport (s : State) (code : Nat) (sev : Severity) (payload : List Byte) :
    (State.groupReport s code sev payload).sealed = s.sealed := by
  simp [State.groupReport]

@[simp] theorem sealed_toPositions (s : State) (b : List Byte) : (State.toPositions s b).sealed = s.sealed := by
  simp [State.toPositions]

@[simp] theorem sealed_sendApexState (s : State) : (State.sendApexState s).sealed = s.sealed := by
  unfold State.sendApexState
  dsimp only
  split <;> simp

@[simp] theorem sealed_requestWeights (s : State) (w : Nat) : (State.requestWeights s w).sealed = s.sealed := by
  simp [State.requestWeights]

@[simp] theorem sealed_restartStreams (s : State) (group : Bool) : (State.restartStreams s group).sealed = s.sealed := by
  simp [State.restartStreams]

@[simp] theorem sealed_postVote (s : State) (straggler : Bool) : (State.postVote s straggler).sealed = s.sealed := by
  simp [State.postVote]

@[simp] theorem sealed_setCounter (s : State) (n : Nat) (c : Counter) : (State.setCounter s n c).sealed = s.sealed := by
  simp [State.setCounter]

@[simp] theorem sealed_watchFire (s : State) (k : Nat) : (State.watchFire s k).sealed = s.sealed := by
  simp [State.watchFire]

@[simp] theorem sealed_watchAll (s : State) (n : Nat) : (State.watchAll s n).sealed = s.sealed := by
  simp [State.watchAll]

@[simp] theorem sealed_scFlags (s : State) (n : Nat) (old new : Counter) (src : Nat) : (State.scFlags s n old new src).sealed = s.sealed := by
  simp [State.scFlags]

@[simp] theorem sealed_voteCheck (s : State) (n : Nat) : (State.voteCheck s n).sealed = s.sealed := by
  simp [State.voteCheck]

@[simp] theorem sealed_scOp (s : State) (n : Nat) (op : ScOp) (v : Word32) (src : ScSource) : (State.scOp s n op v src).sealed = s.sealed := by
  unfold State.scOp
  split <;> simp

@[simp] theorem sealed_restoreOne (s : State) (n : Nat) : (State.restoreOne s n).sealed = s.sealed := by
  simp [State.restoreOne]

@[simp] theorem sealed_restoreCounters (s : State) : (State.restoreCounters s).sealed = s.sealed := by
  simp [State.restoreCounters]

@[simp] theorem sealed_snapshotCounters (s : State) : (State.snapshotCounters s).sealed = s.sealed := by
  simp [State.snapshotCounters]

@[simp] theorem sealed_gateStep (s : State) (e p : Nat) : (State.gateStep s e p).2.sealed = s.sealed := by
  simp [State.gateStep]

@[simp] theorem sealed_queueError (s : State) (q : Nat) : (State.queueError s q).sealed = s.sealed := by
  simp [State.queueError]

@[simp] theorem sealed_onItem (s : State) (q : Nat) (seq : Word32) (f : Item → Item) : (State.onItem s q seq f).sealed = s.sealed := by
  simp [State.onItem]

@[simp] theorem sealed_settle (s : State) (q : Nat) : (State.settle s q).sealed = s.sealed := by
  simp [State.settle]

@[simp] theorem sealed_tryDisable (s : State) (q : Nat) : (State.tryDisable s q).sealed = s.sealed := by
  simp [State.tryDisable]

@[simp] theorem sealed_jnlWrite (s : State) (d : List Byte) : (State.jnlWrite s d).sealed = s.sealed := by
  unfold State.jnlWrite
  dsimp only
  (repeat' split) <;> simp

@[simp] theorem sealed_jnlAppend (s : State) (q : Nat) (d block : List Byte) : (State.jnlAppend s q d block).sealed = s.sealed := by
  simp [State.jnlAppend]

@[simp] theorem sealed_jnlPiece (s : State) (at' n : Nat) : (State.jnlPiece s at' n).2.sealed = s.sealed := by
  unfold State.jnlPiece
  dsimp only
  (repeat' split) <;> simp

@[simp] theorem sealed_jnlRead (s : State) (e : JnlEntry) : (State.jnlRead s e).2.sealed = s.sealed := by
  simp [State.jnlRead]

@[simp] theorem sealed_jnlStop (s : State) (q : Nat) : (State.jnlStop s q).sealed = s.sealed := by
  simp [State.jnlStop]

@[simp] theorem sealed_fetchBlock (s : State) (d : List Byte) : (State.fetchBlock s d).2.sealed = s.sealed := by
  unfold State.fetchBlock
  dsimp only
  (repeat' split) <;> simp

@[simp] theorem sealed_fetchSlot (s : State) (q : Nat) : (State.fetchSlot s q).2.sealed = s.sealed := by
  unfold State.fetchSlot
  dsimp only
  (repeat' split) <;> simp

@[simp] theorem sealed_accept (s : State) (q : Nat) (d block : List Byte) : (State.accept s q d block).sealed = s.sealed := by
  simp [State.accept]

@[simp] theorem sealed_fetchFrom (s : State) (q n : Nat) : (s.fetchFrom q n).sealed = s.sealed := by
  induction n generalizing s with
  | zero => rfl
  | succ n ih =>
    unfold State.fetchFrom
    dsimp only
    split
    · split
      · simp
      · simp
      · simp [ih]
    · rfl

@[simp] theorem sealed_fetch (s : State) (q : Nat) : (State.fetch s q).sealed = s.sealed := by
  simp [State.fetch]

@[simp] theorem sealed_poll (s : State) (q : Nat) : (State.poll s q).2.sealed = s.sealed := by
  unfold State.poll
  dsimp only
  split <;> simp

@[simp] theorem sealed_journalTaken (s : State) (q : Nat) (seq : Word32) : (State.journalTaken s q seq).sealed = s.sealed := by
  simp [State.journalTaken]

@[simp] theorem sealed_take (s : State) (q : Nat) (i : Item) : (State.take s q i).sealed = s.sealed := by
  simp [State.take]

@[simp] theorem sealed_finish (s : State) (q : Nat) (seq : Word32) (status : Word16) (outcome rows : Nat) :
    (State.finish s q seq status outcome rows).sealed = s.sealed := by
  simp [State.finish]

@[simp] theorem sealed_writeRecord (s : State) (a : Nat) (d : List Byte) : (State.writeRecord s a d).sealed = s.sealed := by
  unfold State.writeRecord
  split <;> simp

@[simp] theorem sealed_addTally (s : State) (t : Tally) : (State.addTally s t).sealed = s.sealed := by
  simp [State.addTally]

@[simp] theorem sealed_pop (s : State) (q : Nat) : (State.pop s q).sealed = s.sealed := by
  simp [State.pop]

@[simp] theorem sealed_releaseStop (s : State) (q : Nat) : (State.releaseStop s q).sealed = s.sealed := by
  unfold State.releaseStop
  split <;> simp

@[simp] theorem sealed_markHost (s : State) (q : Nat) : (State.markHost s q).sealed = s.sealed := by
  simp [State.markHost]

@[simp] theorem sealed_completeItem (s : State) (q : Nat) (i : Item) (status : Word16) (outcome rows : Nat) :
    (State.completeItem s q i status outcome rows).sealed = s.sealed := by
  unfold State.completeItem
  split <;> simp

@[simp] theorem sealed_poisonBanks (s : State) (p : Nat) (bits : Nat) : (State.poisonBanks s p bits).sealed = s.sealed := by
  simp [State.poisonBanks]

@[simp] theorem sealed_markIdle (s : State) (p : Nat) : (State.markIdle s p).sealed = s.sealed := by
  simp [State.markIdle]

@[simp] theorem sealed_dropRun (s : State) (q : Nat) (seq : Word32) : (State.dropRun s q seq).sealed = s.sealed := by
  unfold State.dropRun
  dsimp only
  (repeat' split) <;> simp

@[simp] theorem sealed_cancelWrites (s : State) (q : Nat) (seq : Word32) : (State.cancelWrites s q seq).sealed = s.sealed := by
  simp [State.cancelWrites]

@[simp] theorem sealed_landWrites (s : State) (q : Nat) (seq : Word32) : (s.landWrites q seq).sealed = s.sealed := by
  unfold State.landWrites
  refine (sealed_cancelWrites _ _ _).trans (foldl_proj State.sealed (fun u k => foldl_proj State.sealed (fun v y => ?_) _ u) _ s)
  dsimp only
  split
  · split <;> simp
  · rfl

@[simp] theorem sealed_abortRunning (s : State) (q : Nat) (i : Item) : (State.abortRunning s q i).sealed = s.sealed := by
  unfold State.abortRunning
  dsimp only
  (repeat' split) <;> simp

@[simp] theorem sealed_abortItem (s : State) (q : Nat) (seq : Word32) : (State.abortItem s q seq).2.sealed = s.sealed := by
  unfold State.abortItem
  dsimp only
  (repeat' split) <;> simp

@[simp] theorem sealed_abortItems (s : State) (q : Nat) (which : Item → Bool) : (State.abortItems s q which).sealed = s.sealed := by
  unfold State.abortItems
  refine foldl_proj State.sealed (fun s a => ?_) _ _
  (repeat' split) <;> simp

@[simp] theorem sealed_abortStep (s : State) (q : Nat) : (State.abortStep s q).sealed = s.sealed := by
  simp [State.abortStep]

@[simp] theorem sealed_replayItems (s : State) (q : Nat) : (s.replayItems q).2.sealed = s.sealed := by
  unfold State.replayItems
  refine foldl_proj (fun a : List Item × State => a.2.sealed) (fun a e => ?_) _ _
  dsimp only
  split
  · rfl
  · split <;> simp

@[simp] theorem sealed_replayQueue (s : State) (q : Nat) : (State.replayQueue s q).sealed = s.sealed := by
  simp [State.replayQueue]

@[simp] theorem sealed_clearCounts (s : State) : (State.clearCounts s).sealed = s.sealed := by
  simp [State.clearCounts]

@[simp] theorem sealed_replayStep (s : State) (cause : Nat) : (State.replayStep s cause).sealed = s.sealed := by
  simp [State.replayStep]

end Sys2Proof.Machine
end

section
/-! The granted ranges and the LMS keys through the operations of Time, HostLink, Mailbox and Power. -/

namespace Sys2Proof.Machine

open Sys2Proof.Laws

@[simp] theorem sealed_countTicks (s : State) (n : Nat) : (State.countTicks s n).sealed = s.sealed := by
  unfold State.countTicks
  (repeat' split) <;> rfl

@[simp] theorem sealed_epoch (s : State) (k : Nat) : (State.epoch s k).sealed = s.sealed := by
  simp [State.epoch]

@[simp] theorem sealed_endPause (s : State) (i : Nat) : (State.endPause s i).sealed = s.sealed := by
  simp [State.endPause]

@[simp] theorem sealed_pass (s : State) (n : Nat) : (State.pass s n).sealed = s.sealed := by
  simp [State.pass]

@[simp] theorem sealed_passTo (s : State) (t : Nat) : (State.passTo s t).sealed = s.sealed := by
  simp [State.passTo]

@[simp] theorem sealed_idleTick (s : State) : (idleTick s).sealed = s.sealed := by
  simp [idleTick]

@[simp] theorem sealed_setGoal (s : State) (v : Nat) : (State.setGoal s v).sealed = s.sealed := by
  unfold State.setGoal
  dsimp only
  (repeat' split) <;> simp

@[simp] theorem sealed_haltQuarter (s : State) (q : Nat) (on : Bool) : (State.haltQuarter s q on).sealed = s.sealed := by
  unfold State.haltQuarter
  refine foldl_proj State.sealed (fun s a => ?_) _ _
  (repeat' split) <;> simp

@[simp] theorem sealed_followParked (s : State) (old : BitVec 4) : (State.followParked s old).sealed = s.sealed := by
  simp [State.followParked]

@[simp] theorem sealed_throttle (s : State) : s.throttle.sealed = s.sealed := (notices_throttle s).sealed

@[simp] theorem sealed_setRegime (s : State) (g : Regime) : (State.setRegime s g).sealed = s.sealed := by
  simp [State.setRegime]

@[simp] theorem sealed_holdWinter (s : State) : (State.holdWinter s).sealed = s.sealed := by
  simp [State.holdWinter]

@[simp] theorem sealed_powerSettle (s : State) : (State.powerSettle s).sealed = s.sealed := by
  simp [State.powerSettle]

@[simp] theorem sealed_parkSpare (s : State) (on : Bool) : (State.parkSpare s on).sealed = s.sealed := by
  simp [State.parkSpare]

@[simp] theorem sealed_beginShutdown (s : State) (cause : Shutdown) : (State.beginShutdown s cause).sealed = s.sealed := by
  simp [State.beginShutdown]

@[simp] theorem sealed_abortWhere (s : State) (q : Nat) (p : Item → Bool) : (State.abortWhere s q p).sealed = s.sealed := by
  simp [State.abortWhere]

@[simp] theorem sealed_dropRing (s : State) (q : Nat) : (State.dropRing s q).sealed = s.sealed := by
  simp [State.dropRing]

@[simp] theorem sealed_hostReset (s : State) : s.hostReset.sealed = s.sealed := by
  simp [State.hostReset]

@[simp] theorem sealed_linkRecord (s : State) (rewritten : Nat) : (State.linkRecord s rewritten).sealed = s.sealed := by
  simp [State.linkRecord]

@[simp] theorem sealed_linkDown (s : State) : (State.linkDown s).sealed = s.sealed := by
  unfold State.linkDown
  dsimp only
  split <;> simp

@[simp] theorem sealed_hostResume (s : State) : (State.hostResume s).sealed = s.sealed := by
  simp [State.hostResume]

@[simp] theorem sealed_linkRewrite (s : State) : s.linkRewrite.sealed = s.sealed := by
  have rewritten : (s.hst.wlog.foldl State.rewriteOne s).sealed = s.sealed :=
    foldl_proj State.sealed (fun u w => by unfold State.rewriteOne; split <;> simp) _ s
  have reissued (u : State) : u.flushReissued.sealed = u.sealed := by unfold State.flushReissued; split <;> simp
  rw [linkRewrite_eq]
  simp [rewritten, reissued, State.rewriteDone]

@[simp] theorem sealed_linkBack (s : State) : (State.linkBack s).sealed = s.sealed := by
  simp [State.linkBack]

@[simp] theorem sealed_flushIssue (s : State) (a : Nat) : (State.flushIssue s a).sealed = s.sealed := by
  simp [State.flushIssue]

@[simp] theorem sealed_flushDone (s : State) : (State.flushDone s).sealed = s.sealed := by
  simp [State.flushDone]

@[simp] theorem sealed_tlp (s : State) : (State.tlp s).sealed = s.sealed := by
  simp [State.tlp]

@[simp] theorem sealed_hostViol (s : State) (row : Nat) (hdr : Word64) : (State.hostViol s row hdr).sealed = s.sealed := by
  simp [State.hostViol]

@[simp] theorem sealed_smbViol (s : State) (row : Nat) (code addr : Nat) : (State.smbViol s row code addr).sealed = s.sealed := by
  simp [State.smbViol]

@[simp] theorem sealed_setMbox (s : State) (r : Route) (m : Mailbox) : (State.setMbox s r m).sealed = s.sealed := by
  unfold State.setMbox
  split <;> simp

@[simp] theorem sealed_writeResponse (s : State) (r : Route) (status : Word16) (resp : List Byte) :
    (State.writeResponse s r status resp).sealed = s.sealed := by
  unfold State.writeResponse
  split <;> simp

@[simp] theorem sealed_respond (s : State) (r : Route) (status : Word16) (resp : List Byte) : (State.respond s r status resp).sealed = s.sealed := by
  simp [State.respond]

@[simp] theorem sealed_checkPosted (s : State) (r : Route) : (State.checkPosted s r).sealed = s.sealed := by
  simp [State.checkPosted]

@[simp] theorem sealed_post (s : State) (r : Route) : (State.post s r).sealed = s.sealed := by
  simp [State.post]

@[simp] theorem sealed_checkAllPosted (s : State) : (State.checkAllPosted s).sealed = s.sealed := by
  simp [State.checkAllPosted]

@[simp] theorem sealed_refuse (s : State) (status : Word16) : (refuse s status).state.sealed = s.sealed := by
  simp [refuse]

/-- The parts of the result of a command are those that its effect leaves. -/
@[simp] theorem sealed_command {f : List Byte → State → CmdResult} (h : ∀ b s, (f b s).state.sealed = s.sealed) (s : State) (r : Route) (op : Nat) :
    (s.command r op f).sealed = s.sealed := by
  unfold State.command
  dsimp only
  split
  · split
    · simp
    · rename_i hd
      have hf := h (mPayload (s.mbox r).request) s
      split <;> rename_i he <;> rw [he] at hf <;> simpa using hf
  · rfl

@[simp] theorem sealed_commandUnless {f : List Byte → State → CmdResult} (h : ∀ b s, (f b s).state.sealed = s.sealed) (s : State) (r : Route) (op :
    Nat)
    (waits : List Byte → Bool) : (s.commandUnless r op waits f).sealed = s.sealed := by
  unfold State.commandUnless
  split
  · rfl
  · exact sealed_command h s r op

@[simp] theorem sealed_endCommand (s : State) (r : Option Route) (status : Word16) (resp : List Byte) :
    (State.endCommand s r status resp).sealed = s.sealed := by
  unfold State.endCommand
  split <;> simp

@[simp] theorem sealed_dropRoutes (s : State) : (State.dropRoutes s).sealed = s.sealed := by
  simp [State.dropRoutes]

@[simp] theorem sealed_endMainCommands (s : State) : (State.endMainCommands s).sealed = s.sealed := by
  simp [State.endMainCommands]

@[simp] theorem sealed_answerInterrupted (s : State) : (State.answerInterrupted s).sealed = s.sealed := by
  simp [State.answerInterrupted]

@[simp] theorem sealed_belowFloor (s : State) (w : Nat) : (State.belowFloor s w).sealed = s.sealed := by
  simp [State.belowFloor]

@[simp] theorem sealed_endPhases (s : State) (p : Solstice → Bool) : (State.endPhases s p).sealed = s.sealed := by
  simp [State.endPhases]

@[simp] theorem sealed_lowerLimit (s : State) (old w : Nat) : (State.lowerLimit s old w).sealed = s.sealed := by
  simp [State.lowerLimit]

@[simp] theorem sealed_pwrCapCmd (b : List Byte) (s : State) : (pwrCapCmd b s).state.sealed = s.sealed := by
  simp [pwrCapCmd]

@[simp] theorem sealed_setCeiling (s : State) (w : Nat) : (State.setCeiling s w).sealed = s.sealed := by
  simp [State.setCeiling]

@[simp] theorem sealed_pwrEnvelopeCmd (receipt : Nat) (b : List Byte) (s : State) : (pwrEnvelopeCmd receipt b s).state.sealed = s.sealed := by
  simp [pwrEnvelopeCmd]

@[simp] theorem sealed_pwrTargetCmd (b : List Byte) (s : State) : (pwrTargetCmd b s).state.sealed = s.sealed := by
  unfold pwrTargetCmd
  dsimp only
  (repeat' split) <;> simp

@[simp] theorem sealed_sharePower (s : State) (x : Share) (mask : Word64) : (State.sharePower s x mask).2.sealed = s.sealed := by
  simp [State.sharePower]

@[simp] theorem sealed_pwrShareCmd (b : List Byte) (s : State) : (pwrShareCmd b s).state.sealed = s.sealed := by
  simp [pwrShareCmd]

@[simp] theorem sealed_pwrParkCmd (b : List Byte) (s : State) : (pwrParkCmd b s).state.sealed = s.sealed := by
  simp [pwrParkCmd]

@[simp] theorem sealed_pwrStatusCmd (b : List Byte) (s : State) : (pwrStatusCmd b s).state.sealed = s.sealed := by
  simp [pwrStatusCmd]

@[simp] theorem seals_execPwrCap (r : Route) (s : State) : Seals s (execPwrCap r s) := by
  simp [execPwrCap]

@[simp] theorem seals_execPwrEnvelope (r : Route) (s : State) : Seals s (execPwrEnvelope r s) := by
  simp [execPwrEnvelope]

@[simp] theorem seals_execPwrTarget (r : Route) (s : State) : Seals s (execPwrTarget r s) := by
  simp [execPwrTarget]

@[simp] theorem seals_execPwrShare (r : Route) (s : State) : Seals s (execPwrShare r s) := by
  simp [execPwrShare]

@[simp] theorem seals_execPwrPark (r : Route) (s : State) : Seals s (execPwrPark r s) := by
  simp [execPwrPark]

@[simp] theorem seals_execPwrStatus (r : Route) (s : State) : Seals s (execPwrStatus r s) := by
  simp [execPwrStatus]

@[simp] theorem seals_execEnvelopeEffective (s : State) : Seals s (execEnvelopeEffective s) := by
  unfold execEnvelopeEffective
  split <;> simp

@[simp] theorem seals_execEnvelopeLeaseExpiry (s : State) : Seals s (execEnvelopeLeaseExpiry s) := by
  unfold execEnvelopeLeaseExpiry
  split <;> simp

@[simp] theorem sealed_railMeasure (s : State) (r v : Nat) : (State.railMeasure s r v).2.sealed = s.sealed := by
  simp [State.railMeasure]

@[simp] theorem sealed_railSum (s : State) (l : List Nat) : (State.railSum s l).2.sealed = s.sealed := by
  simp [State.railSum]

@[simp] theorem sealed_govern (s : State) (p unpark : Nat) : (State.govern s p unpark).sealed = s.sealed := by
  unfold State.govern
  dsimp only
  (repeat' split) <;> simp

@[simp] theorem sealed_tripDroop (s : State) (q depth : Nat) : (State.tripDroop s q depth).sealed = s.sealed := by
  simp [State.tripDroop]

@[simp] theorem sealed_sampleCurrent (s : State) (peak : Nat) : (State.sampleCurrent s peak).sealed = s.sealed := by
  simp [State.sampleCurrent]

@[simp] theorem seals_execGovernorPeriod (rd : PowerReading) (s : State) : Seals s (execGovernorPeriod rd s) := by
  unfold execGovernorPeriod
  dsimp only
  (repeat' split) <;> simp

@[simp] theorem seals_execCalibrationWindow (rd : CalReading) (s : State) : Seals s (execCalibrationWindow rd s) := by
  unfold execCalibrationWindow
  split <;> simp

@[simp] theorem seals_execDroopTrip (q : Fin 4) (depth : Nat) (s : State) : Seals s (execDroopTrip q depth s) := by
  unfold execDroopTrip
  split <;> simp

@[simp] theorem seals_execDroopRelease (q : Fin 4) (s : State) : Seals s (execDroopRelease q s) := by
  simp [execDroopRelease]

@[simp] theorem seals_execDroopGateEnd (ns waves : Nat) (s : State) : Seals s (execDroopGateEnd ns waves s) := by
  unfold execDroopGateEnd
  split <;> simp

@[simp] theorem seals_execDroopClear (pauseNs : Nat) (s : State) : Seals s (execDroopClear pauseNs s) := by
  unfold execDroopClear
  split <;> simp

@[simp] theorem seals_execSlewDone (ns : Nat) (s : State) : Seals s (execSlewDone ns s) := by
  unfold execSlewDone
  dsimp only
  (repeat' split) <;> simp

@[simp] theorem seals_execOvercurrentDetect (peak : Nat) (s : State) : Seals s (execOvercurrentDetect peak s) := by
  unfold execOvercurrentDetect
  split <;> simp

@[simp] theorem sealed_readingsEnd (s : State) (rd : List (Sensor × Int)) : (State.readingsEnd s rd).sealed = s.sealed := by
  unfold State.readingsEnd
  refine foldl_proj State.sealed (fun s a => ?_) _ _
  (repeat' split) <;> simp

/-- By the functional of its recursion: the model's equations for it are costly to form. -/
@[simp] theorem sealed_storeReadings (s : State) (l : List (Sensor × Int)) : (s.storeReadings l).sealed = s.sealed := by
  delta State.storeReadings
  induction l generalizing s with
  | nil => rfl
  | cons x r ih =>
    obtain ⟨sensor, t⟩ := x
    cases sensor <;> exact (ih _).trans (by simp)

@[simp] theorem seals_execDieTempStep (readings : List (Sensor × Int)) (s : State) : Seals s (execDieTempStep readings s) := by
  unfold execDieTempStep
  dsimp only
  (repeat' split) <;> simp

@[simp] theorem seals_execQuarterParkDone (q : Fin 4) (s : State) : Seals s (execQuarterParkDone q s) := by
  unfold execQuarterParkDone
  split <;> simp

@[simp] theorem seals_execSolsticePhaseStart (s : State) : Seals s (execSolsticePhaseStart s) := by
  unfold execSolsticePhaseStart
  split <;> simp

@[simp] theorem seals_execSolsticePhaseEnd (s : State) : Seals s (execSolsticePhaseEnd s) := by
  unfold execSolsticePhaseEnd
  dsimp only
  split <;> simp

end Sys2Proof.Machine
end

section
/-! The granted ranges and the LMS keys through the operations of Startup and Stavmon. -/

namespace Sys2Proof.Machine

open Sys2Proof.Laws

@[simp] theorem sealed_writeFlash (s : State) (off : Nat) (d : List Byte) : (State.writeFlash s off d).sealed = s.sealed := by
  simp [State.writeFlash]

@[simp] theorem sealed_mainLost (s : State) : (State.mainLost s).sealed = s.sealed := sealed_of rfl rfl rfl

@[simp] theorem sealed_tryPhase4 (s : State) : (State.tryPhase4 s).sealed = s.sealed := by
  simp [State.tryPhase4]

@[simp] theorem sealed_coldLoad (s : State) : (State.coldLoad s).sealed = s.sealed := by
  simp [State.coldLoad]

@[simp] theorem sealed_endWaiter (s : State) (status : Word16) : (State.endWaiter s status).sealed = s.sealed := by
  simp [State.endWaiter]

@[simp] theorem seals_execMainInputApply (mv : Nat) (s : State) : Seals s (execMainInputApply mv s) := by
  unfold execMainInputApply
  (repeat' split) <;> simp

@[simp] theorem seals_execMainOffIntervalExpiry (s : State) : Seals s (execMainOffIntervalExpiry s) := by
  unfold execMainOffIntervalExpiry
  split <;> simp

@[simp] theorem sealed_bootImage (s : State) (i : Nat) (fallback : Bool) : (State.bootImage s i fallback).sealed = s.sealed := by
  simp [State.bootImage]

@[simp] theorem seals_execStartupRom (s : State) : Seals s (execStartupRom s) := by
  unfold execStartupRom
  dsimp only
  (repeat' split) <;> simp

@[simp] theorem sealed_endReset (s : State) : (State.endReset s).sealed = s.sealed := by
  simp [State.endReset]

@[simp] theorem seals_execStartupConfig (s : State) : Seals s (execStartupConfig s) := by
  unfold execStartupConfig
  dsimp only
  (repeat' split) <;> simp

@[simp] theorem sealed_hold (s : State) (cause : Nat) : (State.hold s cause).sealed = s.sealed := by
  simp [State.hold]

@[simp] theorem sealed_applyLimits (s : State) : (State.applyLimits s).sealed = s.sealed := by
  simp [State.applyLimits]

@[simp] theorem seals_execStartupRails (bad : Option (Fin 6)) (gen width : Nat) (s : State) : Seals s (execStartupRails bad gen width s) := by
  unfold execStartupRails
  dsimp only
  (repeat' split) <;> simp

@[simp] theorem sealed_mapQuadrant (s : State) (fail : List Nat) (q : Nat) : (s.mapQuadrant fail q).sealed = s.sealed :=
  (foldl_proj State.sealed sealed_selftestFailed _ _).trans ((foldl_proj State.sealed (fun u k => sealed_onTile u _ _) _ _).trans
    (foldl_proj State.sealed (fun u i => by split <;> exact sealed_setTmap _ _ _) _ s))

@[simp] theorem seals_execStartupTiles (failing : List (Fin 68 × Nat)) (s : State) : Seals s (execStartupTiles failing s) := by
  unfold execStartupTiles
  split
  · exact (seals_next _ _).2 rfl
  · dsimp only
    split <;> simp only [seals_next, sealed_hold, sealed_onBoot, sealed_followParked, sealed_report] <;>
      exact (foldl_proj State.sealed (fun u q => sealed_mapQuadrant u _ q) _ _).trans (sealed_foldl_snd (fun a p => by simp) _ _)

@[simp] theorem sealed_modInfoCmd (b : List Byte) (s : State) : (modInfoCmd b s).state.sealed = s.sealed := by
  simp [modInfoCmd]

@[simp] theorem sealed_modStatusCmd (b : List Byte) (s : State) : (modStatusCmd b s).state.sealed = s.sealed := by
  simp [modStatusCmd]

@[simp] theorem sealed_modPowerOnCmd (r : Route) (b : List Byte) (s : State) : (modPowerOnCmd r b s).state.sealed = s.sealed := by
  simp [modPowerOnCmd]

@[simp] theorem sealed_modPowerOffCmd (r : Route) (b : List Byte) (s : State) : (modPowerOffCmd r b s).state.sealed = s.sealed := by
  simp [modPowerOffCmd]

@[simp] theorem sealed_modResetCmd (r : Route) (b : List Byte) (s : State) : (modResetCmd r b s).state.sealed = s.sealed := by
  unfold modResetCmd
  dsimp only
  (repeat' split) <;> simp

@[simp] theorem seals_execModInfo (r : Route) (s : State) : Seals s (execModInfo r s) := by
  simp [execModInfo]

@[simp] theorem seals_execModPowerOn (r : Route) (s : State) : Seals s (execModPowerOn r s) := by
  simp [execModPowerOn]

@[simp] theorem seals_execModPowerOff (r : Route) (s : State) : Seals s (execModPowerOff r s) := by
  simp [execModPowerOff]

@[simp] theorem seals_execModReset (r : Route) (s : State) : Seals s (execModReset r s) := by
  simp [execModReset]

@[simp] theorem seals_execModStatus (r : Route) (s : State) : Seals s (execModStatus r s) := by
  simp [execModStatus]

@[simp] theorem sealed_cfgMcbReadCmd (b : List Byte) (s : State) : (cfgMcbReadCmd b s).state.sealed = s.sealed := by
  simp [cfgMcbReadCmd]

@[simp] theorem sealed_cfgMcbWriteCmd (r : Route) (b : List Byte) (s : State) : (cfgMcbWriteCmd r b s).state.sealed = s.sealed := by
  simp [cfgMcbWriteCmd]

@[simp] theorem seals_execCfgMcbRead (r : Route) (s : State) : Seals s (execCfgMcbRead r s) := by
  simp [execCfgMcbRead]

@[simp] theorem seals_execCfgMcbWrite (r : Route) (s : State) : Seals s (execCfgMcbWrite r s) := by
  simp [execCfgMcbWrite]

@[simp] theorem seals_execMcbWriteDone (ok : Bool) (s : State) : Seals s (execMcbWriteDone ok s) := by
  unfold execMcbWriteDone
  split <;> simp

@[simp] theorem sealed_secIdentityCmd (b : List Byte) (s : State) : (secIdentityCmd b s).state.sealed = s.sealed := by
  simp [secIdentityCmd]

@[simp] theorem sealed_secFwWriteCmd (b : List Byte) (s : State) : (secFwWriteCmd b s).state.sealed = s.sealed := by
  simp [secFwWriteCmd]

@[simp] theorem sealed_secFwActivateCmd (b : List Byte) (s : State) : (secFwActivateCmd b s).state.sealed = s.sealed := by
  simp [secFwActivateCmd]

@[simp] theorem sealed_secLmsStatusCmd (b : List Byte) (s : State) : (secLmsStatusCmd b s).state.sealed = s.sealed := by
  simp [secLmsStatusCmd]

@[simp] theorem seals_execSecIdentity (r : Route) (s : State) : Seals s (execSecIdentity r s) := by
  simp [execSecIdentity]

@[simp] theorem seals_execSecFwWrite (r : Route) (s : State) : Seals s (execSecFwWrite r s) := by
  simp [execSecFwWrite]

@[simp] theorem seals_execSecFwActivate (r : Route) (s : State) : Seals s (execSecFwActivate r s) := by
  simp [execSecFwActivate]

@[simp] theorem seals_execSecLmsStatus (r : Route) (s : State) : Seals s (execSecLmsStatus r s) := by
  simp [execSecLmsStatus]

@[simp] theorem seals_execCpWatchdogExpiry (pc : BitVec 48) (s : State) : Seals s (execCpWatchdogExpiry pc s) := by
  unfold execCpWatchdogExpiry
  split <;> simp

@[simp] theorem seals_execCpMemUe (code : Bool) (page word : Nat) (s : State) : Seals s (execCpMemUe code page word s) := by
  unfold execCpMemUe
  split <;> simp

@[simp] theorem sealed_reloadPage (s : State) (p : Nat) : (State.reloadPage s p).sealed = s.sealed := by
  simp [State.reloadPage]

@[simp] theorem seals_execCpWarmRestartDone (ticks : Nat) (s : State) : Seals s (execCpWarmRestartDone ticks s) := by
  unfold execCpWarmRestartDone
  dsimp only
  (repeat' split) <;> simp

@[simp] theorem seals_execCpDebugHalt (s : State) : Seals s (execCpDebugHalt s) := by
  simp [execCpDebugHalt]

@[simp] theorem seals_execCpDebugRelease (s : State) : Seals s (execCpDebugRelease s) := by
  simp [execCpDebugRelease]

@[simp] theorem seals_execTapInstruction (ir : TapIr) (s : State) : Seals s (execTapInstruction ir s) := by
  unfold execTapInstruction
  dsimp only
  (repeat' split) <;> simp

@[simp] theorem seals_execModCountWrap (s : State) : Seals s (execModCountWrap s) := by
  simp [execModCountWrap]

@[simp] theorem seals_execModCountLowRead (s : State) : Seals s (execModCountLowRead s) := by
  simp [execModCountLowRead]

@[simp] theorem sealed_mbxBell (s : State) (hdr : Word64) (n : Nat) : (State.mbxBell s hdr n).sealed = s.sealed := by
  unfold State.mbxBell
  split <;> simp

@[simp] theorem seals_execMbxDoorbell (hdr : Word64) (n : Fin 16) (s : State) : Seals s (execMbxDoorbell hdr n s) := by
  simp [execMbxDoorbell]

@[simp] theorem seals_execSmbBlockWrite (pecOk : Bool) (offset : Nat) (data : List Byte) (s : State) :
    Seals s (execSmbBlockWrite pecOk offset data s) := by
  unfold execSmbBlockWrite
  dsimp only
  (repeat' split) <;> simp

@[simp] theorem seals_execSmbBlockRead (pecOk : Bool) (offset : Nat) (s : State) : Seals s (execSmbBlockRead pecOk offset s) := by
  unfold execSmbBlockRead
  (repeat' split) <;> simp

@[simp] theorem seals_execSmbSendByte (pecOk : Bool) (s : State) : Seals s (execSmbSendByte pecOk s) := by
  unfold execSmbSendByte
  (repeat' split) <;> simp

@[simp] theorem seals_execSmbBadCommandCode (code addr : Byte) (s : State) : Seals s (execSmbBadCommandCode code addr s) := by
  unfold execSmbBadCommandCode
  split <;> simp

@[simp] theorem sealed_mb15Piece (s : State) (x y : Nat) (sofar piece : List Byte) : (State.mb15Piece s x y sofar piece).sealed = s.sealed := by
  simp [State.mb15Piece]

@[simp] theorem sealed_takeCtl (s : State) (m : CtlMsg) : (State.takeCtl s m).sealed = s.sealed := by
  simp [State.takeCtl]

@[simp] theorem seals_execMbCmdFirst (m : CtlMsg) (s : State) : Seals s (execMbCmdFirst m s) := by
  simp [execMbCmdFirst]

@[simp] theorem seals_execMbCmdNext (m : CtlMsg) (s : State) : Seals s (execMbCmdNext m s) := by
  simp [execMbCmdNext]

@[simp] theorem sealed_endFlushCommands (s : State) : (State.endFlushCommands s).sealed = s.sealed := by
  simp [State.endFlushCommands]

@[simp] theorem seals_execAlmanacFlushEnd (s : State) : Seals s (execAlmanacFlushEnd s) := by
  unfold execAlmanacFlushEnd
  split
  · simp
  · exact (seals_next _ _).2 ((sealed_onFlash _ _ (fun x => by split <;> rfl) (fun x => by split <;> rfl)).trans (by simp))

@[simp] theorem seals_execAlmanacSectorErase (s : State) : Seals s (execAlmanacSectorErase s) := by
  unfold execAlmanacSectorErase
  dsimp only
  (repeat' split) <;> simp

@[simp] theorem sealed_writeAlmCtrl (s : State) (v : Word64) : (State.writeAlmCtrl s v).sealed = s.sealed := by
  simp [State.writeAlmCtrl]

@[simp] theorem seals_execAlmCtrlFlush (v : Word64) (s : State) : Seals s (execAlmCtrlFlush v s) := by
  simp [execAlmCtrlFlush]

@[simp] theorem sealed_almReadCmd (r : Route) (b : List Byte) (s : State) : (almReadCmd r b s).state.sealed = s.sealed := by
  simp [almReadCmd]

@[simp] theorem sealed_almConfigCmd (r : Route) (b : List Byte) (s : State) : (almConfigCmd r b s).state.sealed = s.sealed := by
  simp [almConfigCmd]

@[simp] theorem sealed_almFlushCmd (b : List Byte) (s : State) : (almFlushCmd b s).state.sealed = s.sealed := by
  simp [almFlushCmd]

@[simp] theorem seals_execAlmRead (r : Route) (s : State) : Seals s (execAlmRead r s) := by
  simp [execAlmRead]

@[simp] theorem seals_execAlmConfig (r : Route) (s : State) : Seals s (execAlmConfig r s) := by
  simp [execAlmConfig]

@[simp] theorem seals_execAlmFlush (r : Route) (s : State) : Seals s (execAlmFlush r s) := by
  simp [execAlmFlush]

@[simp] theorem sealed_diagInjectCmd (b : List Byte) (s : State) : (diagInjectCmd b s).state.sealed = s.sealed := by
  unfold diagInjectCmd
  dsimp only
  (repeat' split) <;> simp

@[simp] theorem sealed_diagClearCmd (b : List Byte) (s : State) : (diagClearCmd b s).state.sealed = s.sealed := by
  simp [diagClearCmd]

@[simp] theorem sealed_diagSelftestCmd (r : Route) (b : List Byte) (s : State) : (diagSelftestCmd r b s).state.sealed = s.sealed := by
  simp [diagSelftestCmd]

@[simp] theorem seals_execSelftestDone (stage : Nat) (s : State) : Seals s (execSelftestDone stage s) := by
  unfold execSelftestDone
  split <;> simp

@[simp] theorem seals_execDiagInject (r : Route) (s : State) : Seals s (execDiagInject r s) := by
  simp [execDiagInject]

@[simp] theorem seals_execDiagSelftest (r : Route) (s : State) : Seals s (execDiagSelftest r s) := by
  simp [execDiagSelftest]

@[simp] theorem seals_execDiagClear (r : Route) (s : State) : Seals s (execDiagClear r s) := by
  simp [execDiagClear]

end Sys2Proof.Machine
end

section
/-! The granted ranges and the LMS keys through the operations of Kinds, MemSys and Fdt. -/

namespace Sys2Proof.Machine

open Sys2Proof.Laws

@[simp] theorem sealed_writeQctrl (s : State) (q : Nat) (v : Word64) : (State.writeQctrl s q v).sealed = s.sealed := by
  simp [State.writeQctrl]

@[simp] theorem seals_execQueueEnable (q : Fin 76) (v : Word64) (s : State) : Seals s (execQueueEnable q v s) := by
  simp [execQueueEnable]

@[simp] theorem seals_execQueueDisable (q : Fin 76) (v : Word64) (s : State) : Seals s (execQueueDisable q v s) := by
  simp [execQueueDisable]

@[simp] theorem seals_execQueueResume (q : Fin 76) (v : Word64) (s : State) : Seals s (execQueueResume q v s) := by
  simp [execQueueResume]

@[simp] theorem sealed_writeBell (s : State) (q : Nat) (d : Word32) : (State.writeBell s q d).sealed = s.sealed := by
  unfold State.writeBell
  dsimp only
  (repeat' split) <;> simp

@[simp] theorem seals_execQdoorbell (q : Fin 76) (d : Word32) (s : State) : Seals s (execQdoorbell q d s) := by
  simp [execQdoorbell]

@[simp] theorem seals_execDescriptorRepoll (q : Fin 76) (s : State) : Seals s (execDescriptorRepoll q s) := by
  unfold execDescriptorRepoll
  dsimp only
  (repeat' split) <;> simp

@[simp] theorem seals_execDescriptorSkip (q : Fin 76) (s : State) : Seals s (execDescriptorSkip q s) := by
  unfold execDescriptorSkip
  (repeat' split) <;> simp

theorem sealed_of_takeKind {s t : State} {q : Nat} {k : Kind} {i : Item} {ok : Bool} (h : s.takeKind q k = some (i, ok, t)) :
    t.sealed = s.sealed := by
  unfold State.takeKind at h
  split at h
  · split at h
    · split at h <;> cases h <;> simp
    · cases h
  · cases h

@[simp] theorem sealed_runKind {f : Item → State → State} (h : ∀ i s, (f i s).sealed = s.sealed) (s : State) (q : Nat) (k : Kind) :
    (s.runKind q k f).sealed = s.sealed := by
  unfold State.runKind
  split
  · rename_i hk
    exact (h _ _).trans (sealed_of_takeKind hk)
  · rename_i hk
    exact sealed_of_takeKind hk
  · rfl

@[simp] theorem seals_execNop (q : Fin 76) (s : State) : Seals s (execNop q s) := by
  simp [execNop]

@[simp] theorem seals_execWait (q : Fin 76) (s : State) : Seals s (execWait q s) := by
  simp [execWait]

@[simp] theorem seals_execWaitTimeout (q : Fin 76) (s : State) : Seals s (execWaitTimeout q s) := by
  unfold execWaitTimeout
  dsimp only
  (repeat' split) <;> simp

@[simp] theorem sealed_postTo (s : State) (q : Nat) (seq : Word32) (t : PostTarget) : (State.postTo s q seq t).sealed = s.sealed := by
  simp [State.postTo]

@[simp] theorem sealed_postSettle (s : State) (q : Nat) (seq : Word32) : (State.postSettle s q seq).sealed = s.sealed := by
  simp [State.postSettle]

@[simp] theorem seals_execPost (q : Fin 76) (s : State) : Seals s (execPost q s) := by
  simp [execPost]

@[simp] theorem seals_execFence (q : Fin 76) (s : State) : Seals s (execFence q s) := by
  unfold execFence
  dsimp only
  (repeat' split) <;> simp

@[simp] theorem sealed_hint (s : State) (q cls phase duration lead : Nat) : (State.hint s q cls phase duration lead).2.sealed = s.sealed := by
  unfold State.hint
  dsimp only
  (repeat' split) <;> simp

@[simp] theorem seals_execSolstice (e : Fin 64) (s : State) : Seals s (execSolstice e s) := by
  simp [execSolstice]

@[simp] theorem seals_execSplit (e : Fin 64) (s : State) : Seals s (execSplit e s) := by
  unfold execSplit
  split
  · exact (seals_next _ _).2 rfl
  · refine (seals_next _ _).2 (sealed_runKind (fun i u => ?_) s _ _)
    dsimp only
    split
    · simp
    · rw [sealed_finish]
      split <;> simp

@[simp] theorem sealed_faultReplay (s : State) : (State.faultReplay s).sealed = s.sealed := by
  simp [State.faultReplay]

@[simp] theorem seals_execDescriptorComplete (q : Fin 76) (seq : Word32) (s : State) : Seals s (execDescriptorComplete q seq s) := by
  unfold execDescriptorComplete
  (repeat' split) <;> simp

@[simp] theorem sealed_scCommand (s : State) (n : Fin 16384) (op : ScOp) (v : Word32) (src : ScSource) :
    (State.scCommand s n op v src).sealed = s.sealed := by
  unfold State.scCommand
  split <;> simp

@[simp] theorem seals_execScAdd (n : Fin 16384) (v : Word32) (src : ScSource) (s : State) : Seals s (execScAdd n v src s) := by
  simp [execScAdd]

@[simp] theorem seals_execScSet (n : Fin 16384) (v : Word32) (src : ScSource) (s : State) : Seals s (execScSet n v src s) := by
  simp [execScSet]

@[simp] theorem seals_execScSub (n : Fin 16384) (v : Word32) (src : ScSource) (s : State) : Seals s (execScSub n v src s) := by
  simp [execScSub]

@[simp] theorem seals_execScClearFlags (n : Fin 16384) (src : ScSource) (s : State) : Seals s (execScClearFlags n src s) := by
  simp [execScClearFlags]

@[simp] theorem seals_execScOpUndefined (hdr : Word64) (n : Fin 16384) (v : Word64) (s : State) : Seals s (execScOpUndefined hdr n v s) := by
  simp [execScOpUndefined]

@[simp] theorem sealed_writeWatch (s : State) (k : Nat) (v : Word64) : (State.writeWatch s k v).sealed = s.sealed := by
  simp [State.writeWatch]

@[simp] theorem seals_execHstWatchArm (k : Fin 1024) (v : Word64) (s : State) : Seals s (execHstWatchArm k v s) := by
  simp [execHstWatchArm]

@[simp] theorem sealed_setChState (s : State) (c : Nat) (st : ChState) : (State.setChState s c st).sealed = s.sealed := by
  simp [State.setChState]

@[simp] theorem sealed_setRemap (s : State) (g : Nat) (r : Remap) : (State.setRemap s g r).sealed = s.sealed := by
  simp [State.setRemap]

@[simp] theorem sealed_channelRetired (s : State) (c : Nat) : (State.channelRetired s c).sealed = s.sealed := by
  simp [State.channelRetired]

@[simp] theorem sealed_remapSwitch (s : State) : (State.remapSwitch s).sealed = s.sealed := by
  simp [State.remapSwitch]

@[simp] theorem sealed_copyEnd (s : State) : (State.copyEnd s).sealed = s.sealed := by
  simp [State.copyEnd]

@[simp] theorem sealed_retireThermal (s : State) (c : Nat) : (State.retireThermal s c).sealed = s.sealed := by
  simp [State.retireThermal]

@[simp] theorem sealed_noReserve (s : State) (c serves : Nat) (before : Reserve) : (State.noReserve s c serves before).sealed = s.sealed := by
  simp [State.noReserve]

@[simp] theorem sealed_loseSlots (s : State) (c lo hi : Nat) : (State.loseSlots s c lo hi).sealed = s.sealed := by
  simp [State.loseSlots]

@[simp] theorem sealed_deadRecord (s : State) (c : Nat) (before : Reserve) (lost : Nat) : (State.deadRecord s c before lost).sealed = s.sealed := by
  simp [State.deadRecord]

@[simp] theorem sealed_deadRemap (s : State) (c lo hi : Nat) : (State.deadRemap s c lo hi).sealed = s.sealed := by
  simp [State.deadRemap]

@[simp] theorem sealed_unpark (s : State) (c : Nat) : (State.unpark s c).sealed = s.sealed := by
  simp [State.unpark]

@[simp] theorem sealed_channelDead (s : State) (c : Nat) : (State.channelDead s c).sealed = s.sealed := by
  unfold State.channelDead
  dsimp only
  split <;> simp

@[simp] theorem seals_execG7RetrainDone (c : Fin 80) (ok : Bool) (s : State) : Seals s (execG7RetrainDone c ok s) := by
  unfold execG7RetrainDone
  dsimp only
  (repeat' split) <;> simp

@[simp] theorem sealed_tempRetrain (s : State) (c linkErrs : Nat) (det : Bool) : (State.tempRetrain s c linkErrs det).sealed = s.sealed := by
  simp [State.tempRetrain]

@[simp] theorem sealed_throttleNotes (s : State) (c old new : Nat) : (State.throttleNotes s c old new).sealed = s.sealed := by
  simp [State.throttleNotes]

@[simp] theorem sealed_tempRetire (s : State) (c : Nat) : (State.tempRetire s c).sealed = s.sealed := by
  unfold State.tempRetire
  split <;> simp

@[simp] theorem seals_execG7TempRead (ch : Fin 80) (temp : Int) (linkErrs : Nat) (s : State) : Seals s (execG7TempRead ch temp linkErrs s) := by
  unfold execG7TempRead
  dsimp only
  split
  · simp
  · rw [seals_next, sealed_throttle]
    rw [sealed_ite, sealed_injEnd, ite_self, sealed_onMem, sealed_tempRetire, sealed_tempRetrain, sealed_throttleNotes, sealed_onChannel, sealed_fires, sealed_opportunity]

@[simp] theorem seals_execThermalReturnStart (s : State) : Seals s (execThermalReturnStart s) := by
  unfold execThermalReturnStart
  dsimp only
  (repeat' split) <;> simp

@[simp] theorem seals_execLpTempRead (l : Fin 16) (temp : Int) (s : State) : Seals s (execLpTempRead l temp s) := by
  have read : ((List.range 4).foldl (fun (a : Nat × State) k =>
      let i := a.2.opportunity 0x0809 8 (4 * l.val + k) 0 fun _ => true
      (a.1 + i.1.getD 0, i.2)) (0, s)).2.sealed = s.sealed := foldl_proj (fun x : Nat × State => x.2.sealed) (fun a k => by simp) _ _
  unfold execLpTempRead
  dsimp only at read ⊢
  split
  · simp
  · rw [seals_next, sealed_throttle, foldl_proj State.sealed (fun u k => sealed_injEnd u _ _), ← read]
    rw [sealed_ite, sealed_report, ite_self, sealed_ite, sealed_report, ite_self, foldl_proj State.sealed (fun u k => sealed_onLp u _ _), sealed_onMem]

@[simp] theorem seals_execLp5xRetrainDone (l : Fin 64) (ok : Bool) (s : State) : Seals s (execLp5xRetrainDone l ok s) := by
  unfold execLp5xRetrainDone
  dsimp only
  (repeat' split) <;> simp

@[simp] theorem sealed_copyWord (s : State) (cw : Nat) : (State.copyWord s cw).sealed = s.sealed := by
  simp [State.copyWord]

@[simp] theorem seals_execMigrationCopy (s : State) : Seals s (execMigrationCopy s) := by
  unfold execMigrationCopy
  dsimp only
  split <;> simp

@[simp] theorem sealed_writeMemCtrl (s : State) (v : Word64) : (State.writeMemCtrl s v).sealed = s.sealed := by
  unfold State.writeMemCtrl
  dsimp only
  split <;> simp

@[simp] theorem seals_execMemRelease (v : Word64) (s : State) : Seals s (execMemRelease v s) := by
  simp [execMemRelease]

@[simp] theorem seals_execMemHoldTimeout (s : State) : Seals s (execMemHoldTimeout s) := by
  unfold execMemHoldTimeout
  split <;> simp

@[simp] theorem sealed_scrubWord (s : State) (slow : Bool) (cw : Nat) (f : Option CwFind) : (State.scrubWord s slow cw f).sealed = s.sealed := by
  simp [State.scrubWord]

@[simp] theorem seals_execPatrolScrub (slow : Bool) (finds : List (Fin 16 × CwFind)) (s : State) : Seals s (execPatrolScrub slow finds s) := by
  unfold execPatrolScrub
  dsimp only
  (repeat' split) <;> simp

@[simp] theorem sealed_memQuotaCmd (p : List Byte) (s : State) : (memQuotaCmd p s).state.sealed = s.sealed := by
  simp [memQuotaCmd]

@[simp] theorem seals_execMemQuota (r : Route) (s : State) : Seals s (execMemQuota r s) := by
  simp [execMemQuota]

@[simp] theorem sealed_memUsageCmd (b : List Byte) (s : State) : (memUsageCmd b s).state.sealed = s.sealed := by
  simp [memUsageCmd]

@[simp] theorem seals_execMemUsage (r : Route) (s : State) : Seals s (execMemUsage r s) := by
  simp [execMemUsage]

@[simp] theorem seals_execStartupMemory (g7 lp : Bool) (s : State) : Seals s (execStartupMemory g7 lp s) := by
  unfold execStartupMemory
  dsimp only
  (repeat' split) <;> simp

@[simp] theorem sealed_newId (s : State) : (State.newId s).2.sealed = s.sealed := by
  simp [State.newId]

@[simp] theorem sealed_sendFrame (s : State) (port remote source : Nat) (b : List Byte) :
    (State.sendFrame s port remote source b).sealed = s.sealed := by
  simp [State.sendFrame]

@[simp] theorem sealed_fdtSend (s : State) (k type flags : Nat) (psn msg : Word32) (off : Nat) (header data : List Byte) :
    (State.fdtSend s k type flags psn msg off header data).sealed = s.sealed := by
  unfold State.fdtSend
  dsimp only
  split <;> simp

@[simp] theorem sealed_fdtTransmit (s : State) (k : Nat) (psn : Word32) (p : FdtPart) (retx : Bool) :
    (State.fdtTransmit s k psn p retx).sealed = s.sealed := by
  simp [State.fdtTransmit]

@[simp] theorem sealed_fdtPumpFrom (s : State) (k : Nat) (l : List FdtPart) : (s.fdtPumpFrom k l).sealed = s.sealed := by
  induction l generalizing s with
  | nil => simp [State.fdtPumpFrom]
  | cons p r ih => simp [State.fdtPumpFrom, ih]

@[simp] theorem sealed_fdtPump (s : State) (k : Nat) : (State.fdtPump s k).sealed = s.sealed := by
  simp [State.fdtPump]

@[simp] theorem sealed_fdtMessage (s : State) (k kind : Nat) (post : List Byte) (addr : Nat) (data : List Byte) (owner : FdtOwner) :
    (State.fdtMessage s k kind post addr data owner).sealed = s.sealed := by
  simp [State.fdtMessage]

@[simp] theorem sealed_fdtControl (s : State) (k : Nat) (bytes : List Byte) : (State.fdtControl s k bytes).sealed = s.sealed := by
  simp [State.fdtControl]

@[simp] theorem sealed_ringSend (s : State) (key : Nat) (d : List Byte) : (State.ringSend s key d).sealed = s.sealed := by
  simp [State.ringSend]

@[simp] theorem sealed_ringPump (s : State) : (State.ringPump s).sealed = s.sealed := by
  simp [State.ringPump]

@[simp] theorem sealed_fdtCopy (s : State) (c k : Nat) (msg : Word32) (r : CopyRes) : (State.fdtCopy s c k msg r).sealed = s.sealed := by
  simp [State.fdtCopy]

@[simp] theorem sealed_dropPending (s : State) (k : Nat) : (s.dropPending k).sealed = s.sealed := by
  have copied : ((s.conn k).pending.foldl (fun s p => match p.2 with | .core c => s.fdtCopy c k p.1 .timeout | _ => s) s).sealed = s.sealed :=
    foldl_proj State.sealed (fun u p => by split <;> simp) _ s
  unfold State.dropPending
  dsimp only
  generalize List.foldl _ s _ = u at copied
  rw [← copied]
  (repeat' split) <;> simp

@[simp] theorem sealed_connStop (s : State) (k : Nat) (st : ConnState) : (State.connStop s k st).sealed = s.sealed := by
  simp [State.connStop]

@[simp] theorem sealed_connLost (s : State) (k cause : Nat) : (State.connLost s k cause).sealed = s.sealed := by
  simp [State.connLost]

@[simp] theorem sealed_fdtResend (s : State) (k : Nat) (p : FdtSent → Bool) : (State.fdtResend s k p).sealed = s.sealed := by
  simp [State.fdtResend]

@[simp] theorem sealed_fdtAcked (s : State) (k : Nat) (nak reject : Bool) (ack : Word32) (sack window : Nat) (msg : Word32) :
    (s.fdtAcked k nak reject ack sack window msg).2.sealed = s.sealed := by
  unfold State.fdtAcked
  dsimp only
  rw [sealed_fdtPump, foldl_proj State.sealed (fun u p => by split <;> simp), sealed_ite, sealed_fdtResend, ite_self, sealed_onConn]

@[simp] theorem sealed_fdtReply (s : State) (k type : Nat) (reject ce : Bool) (msg : Word32) :
    (State.fdtReply s k type reject ce msg).sealed = s.sealed := by
  simp [State.fdtReply]

@[simp] theorem sealed_fdtAckNow (s : State) (k : Nat) (ce : Bool) : (State.fdtAckNow s k ce).sealed = s.sealed := by
  simp [State.fdtAckNow]

@[simp] theorem sealed_fdtPlace (s : State) (k : Nat) (id : Word32) (off : Nat) (d : List Byte) :
    (State.fdtPlace s k id off d).sealed = s.sealed := by
  unfold State.fdtPlace
  dsimp only
  (repeat' split) <;> simp

@[simp] theorem sealed_fdtDeliver (s : State) (k : Nat) (b : List Byte) : (State.fdtDeliver s k b).sealed = s.sealed := by
  simp [State.fdtDeliver]

@[simp] theorem sealed_fdtCompleteFrom (s : State) (k n : Nat) : (s.fdtCompleteFrom k n).2.sealed = s.sealed := by
  induction n generalizing s with
  | zero => rfl
  | succ n ih =>
    unfold State.fdtCompleteFrom
    dsimp only
    split
    · rfl
    · split
      · rfl
      · split
        · simp [ih]
        · rw [ih]
          split
          · rw [sealed_onChd]
            split <;> simp
          · split <;> simp

@[simp] theorem sealed_fdtTake (s : State) (k : Nat) (first : Bool) (id : Word32) (off : Nat) (header d : List Byte) :
    (State.fdtTake s k first id off header d).2.sealed = s.sealed := by
  simp [State.fdtTake]

@[simp] theorem sealed_fdtViol (s : State) (row : Nat) (slot : Option Nat) (port : Nat) (b : List Byte) :
    (State.fdtViol s row slot port b).sealed = s.sealed := by
  simp [State.fdtViol]

@[simp] theorem sealed_fdtNoConn (s : State) (pkt : FdtPacket) : (State.fdtNoConn s pkt).sealed = s.sealed := by
  simp [State.fdtNoConn]

@[simp] theorem sealed_ethFrame (s : State) (i : Nat) (rx : EthRx) : (State.ethFrame s i rx).2.sealed = s.sealed := by
  simp [State.ethFrame]

@[simp] theorem sealed_fdtMark (s : State) (k : Nat) (ce : Bool) : (State.fdtMark s k ce).sealed = s.sealed := by
  simp [State.fdtMark]

@[simp] theorem sealed_fdtDataIn (s : State) (k : Nat) (pkt : FdtPacket) : (State.fdtDataIn s k pkt).2.sealed = s.sealed := by
  simp [State.fdtDataIn]

@[simp] theorem sealed_rateCut (s : State) (k : Nat) : (State.rateCut s k).sealed = s.sealed := by
  simp [State.rateCut]

@[simp] theorem sealed_rateRaise (s : State) (k : Nat) : (State.rateRaise s k).sealed = s.sealed := by
  simp [State.rateRaise]

end Sys2Proof.Machine
end

section
/-! The granted ranges and the LMS keys through the operations of Links, Chain, Engine and Output. -/

namespace Sys2Proof.Machine

open Sys2Proof.Laws

@[simp] theorem sealed_watchDir (s : State) (p : Nat) : (State.watchDir s p).sealed = s.sealed := by
  simp [State.watchDir]

@[simp] theorem sealed_trainPort (s : State) (p : Nat) (t : PeerId) : (State.trainPort s p t).sealed = s.sealed := by
  simp [State.trainPort]

@[simp] theorem sealed_sendTrain (s : State) (p : Nat) : (State.sendTrain s p).sealed = s.sealed := by
  simp [State.sendTrain]

@[simp] theorem sealed_portFailed (s : State) (p cause : Nat) : (State.portFailed s p cause).sealed = s.sealed := by
  simp [State.portFailed]

@[simp] theorem sealed_portRetrain (s : State) (p : Nat) (loss : Bool) : (State.portRetrain s p loss).sealed = s.sealed := by
  simp [State.portRetrain]

@[simp] theorem sealed_portInjEnd (s : State) (p : Nat) : (State.portInjEnd s p).sealed = s.sealed := by
  simp [State.portInjEnd]

@[simp] theorem sealed_portInjOver (s : State) (p : Nat) : (State.portInjOver s p).sealed = s.sealed := by
  simp [State.portInjOver]

@[simp] theorem sealed_swapEnd (s : State) (p : Nat) : (State.swapEnd s p).sealed = s.sealed := by
  simp [State.swapEnd]

@[simp] theorem sealed_laneFail (s : State) (p pos cause : Nat) : (State.laneFail s p pos cause).sealed = s.sealed := by
  simp [State.laneFail]

@[simp] theorem sealed_chdViol (s : State) (p row : Nat) (b : List Byte) : (State.chdViol s p row b).sealed = s.sealed := by
  simp [State.chdViol]

@[simp] theorem sealed_takeAck (s : State) (p : Nat) (ack : Word16) (b : List Byte) : (State.takeAck s p ack b).2.sealed = s.sealed := by
  simp [State.takeAck]

@[simp] theorem sealed_takeCredits (s : State) (p v n : Nat) (b : List Byte) : (State.takeCredits s p v n b).sealed = s.sealed := by
  simp [State.takeCredits]

@[simp] theorem sealed_linkFlit (s : State) (p type : Nat) (payload : List Byte) : (State.linkFlit s p type payload).sealed = s.sealed := by
  simp [State.linkFlit]

@[simp] theorem sealed_sendNak (s : State) (p : Nat) : (State.sendNak s p).sealed = s.sealed := by
  simp [State.sendNak]

@[simp] theorem sealed_countLane (s : State) (p : Nat) (fixed : List Nat) : (State.countLane s p fixed).sealed = s.sealed := by
  unfold State.countLane
  dsimp only
  split <;> simp

/-- The state that a flit's arrival leaves. -/
def FlitIn.left (f : FlitIn) (s : State) : State :=
  match f with
  | .none_ => s
  | .bad t => t
  | .good _ _ t => t
@[simp] theorem FlitIn.left_none (s : State) : FlitIn.none_.left s = s := rfl
@[simp] theorem FlitIn.left_bad (s t : State) : (FlitIn.bad t).left s = t := rfl
@[simp] theorem FlitIn.left_good (s t : State) (r : Option Nat) (b : List Byte) : (FlitIn.good r b t).left s = t := rfl
theorem FlitIn.left_ite (c : Prop) [Decidable c] (a b : FlitIn) (s : State) :
    (if c then a else b).left s = if c then a.left s else b.left s := apply_ite (fun f : FlitIn => f.left s) c a b

theorem sealed_flitReceive (s : State) (p : Nat) (bytes : List Byte) (ok : Nat → Bool) :
    ((s.flitReceive p bytes ok).left s).sealed = s.sealed := by
  unfold State.flitReceive
  dsimp only
  simp only [FlitIn.left_ite, FlitIn.left_none, FlitIn.left_bad, FlitIn.left_good, sealed_ite, sealed_portInjEnd, sealed_sendNak,
    sealed_onPort, sealed_chdViol, sealed_portRetrain, sealed_countLane, sealed_fires, sealed_opportunity, ite_self]

theorem sealed_of_flitReceive_bad {s t : State} {p : Nat} {bytes : List Byte} {ok : Nat → Bool} (h : s.flitReceive p bytes ok = .bad t) :
    t.sealed = s.sealed := by rw [← sealed_flitReceive s p bytes ok, h, FlitIn.left_bad]
theorem sealed_of_flitReceive_good {s t : State} {p : Nat} {bytes b : List Byte} {ok : Nat → Bool} {r : Option Nat}
    (h : s.flitReceive p bytes ok = .good r b t) : t.sealed = s.sealed := by rw [← sealed_flitReceive s p bytes ok, h, FlitIn.left_good]

@[simp] theorem seals_execFlitIdle (p : Fin 8) (bytes : List Byte) (s : State) : Seals s (execFlitIdle p bytes s) := by
  unfold execFlitIdle
  dsimp only
  split
  · simp
  · rename_i h
    simpa using sealed_of_flitReceive_bad h
  · rename_i h
    rw [seals_next, sealed_portInjEnd, ← sealed_of_flitReceive_good h]
    split <;> simp

@[simp] theorem seals_execFlitNak (p : Fin 8) (bytes : List Byte) (s : State) : Seals s (execFlitNak p bytes s) := by
  unfold execFlitNak
  dsimp only
  split
  · simp
  · rename_i h
    simpa using sealed_of_flitReceive_bad h
  · rename_i h
    simpa using sealed_of_flitReceive_good h
  · rename_i h
    split <;> simp [← sealed_of_flitReceive_good h]

@[simp] theorem seals_execFlitMarker (p : Fin 8) (bytes : List Byte) (s : State) : Seals s (execFlitMarker p bytes s) := by
  unfold execFlitMarker
  dsimp only
  split
  · simp
  · rename_i h
    simpa using sealed_of_flitReceive_bad h
  · rename_i h
    simpa using sealed_of_flitReceive_good h
  · rename_i h
    rw [seals_next, sealed_portInjEnd, ← sealed_of_flitReceive_good h]
    split <;> simp

@[simp] theorem seals_execFlitTrain (p : Fin 8) (peer : PeerId) (s : State) : Seals s (execFlitTrain p peer s) := by
  unfold execFlitTrain
  dsimp only
  (repeat' split) <;> simp

@[simp] theorem sealed_transmit (s : State) (p : Nat) (seq : Word16) (f : FlitOut) : (State.transmit s p seq f).sealed = s.sealed := by
  simp [State.transmit]

@[simp] theorem sealed_sendMarker (s : State) (p : Nat) : (State.sendMarker s p).sealed = s.sealed := by
  simp [State.sendMarker]

@[simp] theorem sealed_sendSlot (s : State) (p : Nat) : (State.sendSlot s p).sealed = s.sealed := by
  unfold State.sendSlot
  dsimp only
  (repeat' split) <;> simp

@[simp] theorem seals_execFlitSend (p : Fin 8) (s : State) : Seals s (execFlitSend p s) := by
  unfold execFlitSend
  dsimp only
  (repeat' split) <;> simp

@[simp] theorem seals_execLaneLossOfLock (p : Fin 8) (lanes : List (Fin 9)) (s : State) : Seals s (execLaneLossOfLock p lanes s) := by
  unfold execLaneLossOfLock
  dsimp only
  split <;> simp

@[simp] theorem seals_execChdPortRetrain (p : Fin 8) (v : Word64) (s : State) : Seals s (execChdPortRetrain p v s) := by
  simp [execChdPortRetrain]

@[simp] theorem seals_execChordRetrainDone (p : Fin 8) (ok : Bool) (s : State) : Seals s (execChordRetrainDone p ok s) := by
  unfold execChordRetrainDone
  dsimp only
  (repeat' split) <;> simp

@[simp] theorem sealed_chdStatusCmd (b : List Byte) (s : State) : (chdStatusCmd b s).state.sealed = s.sealed := by
  simp [chdStatusCmd]

@[simp] theorem seals_execChdStatus (r : Route) (s : State) : Seals s (execChdStatus r s) := by
  simp [execChdStatus]

@[simp] theorem sealed_setRole (s : State) : (State.setRole s).sealed = s.sealed := by
  simp [State.setRole]

@[simp] theorem sealed_setPos (s : State) : (State.setPos s).sealed = s.sealed := by
  simp [State.setPos]

@[simp] theorem sealed_chdFromMcb (s : State) : (State.chdFromMcb s).sealed = s.sealed := by
  simp [State.chdFromMcb]

@[simp] theorem seals_execStartupLinks (peers : List (Fin 8 × PeerId)) (eth0 eth1 : Bool) (s : State) :
    Seals s (execStartupLinks peers eth0 eth1 s) := by
  unfold execStartupLinks
  split
  · exact (seals_next _ _).2 rfl
  · dsimp only
    split
    · simp
    · split <;> simp only [seals_next, sealed_hold, sealed_onBoot, sealed_onEthPort] <;>
        refine (foldl_proj State.sealed (fun u t => by simp) _ _).trans
          ((foldl_proj State.sealed (fun u p => ?_) _ _).trans (by simp)) <;> (repeat' split) <;> simp

@[simp] theorem sealed_readVec (s : State) (p : Nat) (o : OpArray) (i k0 n len : Nat) : (s.readVec p o i k0 n len).2.2.2.sealed = s.sealed := by
  unfold State.readVec
  dsimp only
  split
  · split <;> simp
  · split <;> simp

@[simp] theorem sealed_readAccRow (s : State) (p : Nat) (scratch : Bool) (b : List Byte) (a r : Nat) :
    (State.readAccRow s p scratch b a r).2.2.sealed = s.sealed := by
  simp [State.readAccRow]

@[simp] theorem sealed_writeAccRow (s : State) (p : Nat) (scratch : Bool) (b : List Byte) (a r : Nat) (ws : List Word32) :
    (State.writeAccRow s p scratch b a r ws).sealed = s.sealed := by
  simp [State.writeAccRow]

@[simp] theorem sealed_readWideRow (s : State) (p : Nat) (scratch split : Bool) (b : List Byte) (a m : Nat) :
    (State.readWideRow s p scratch split b a m).2.2.sealed = s.sealed := by
  simp [State.readWideRow]

@[simp] theorem sealed_writeWideRow (s : State) (p : Nat) (scratch split : Bool) (b : List Byte) (a m : Nat) (ws : List Wide) :
    (State.writeWideRow s p scratch split b a m ws).sealed = s.sealed := by
  simp [State.writeWideRow]

@[simp] theorem sealed_putRun (s : State) (p : Nat) (r : Run) : (State.putRun s p r).sealed = s.sealed := by
  simp [State.putRun]

@[simp] theorem sealed_startRun (s : State) (p : Nat) (r : Run) : (State.startRun s p r).sealed = s.sealed := by
  simp [State.startRun]

@[simp] theorem sealed_endRun (s : State) (e : Nat) (r : Run) (status : Word16) : (State.endRun s e r status).sealed = s.sealed := by
  simp [State.endRun]

@[simp] theorem seals_execMatmul (e : Fin 64) (s : State) : Seals s (execMatmul e s) := by
  refine (seals_next _ _).2 (sealed_runKind (fun i u => ?_) s _ _)
  dsimp only
  split
  · simp
  · split
    · simp
    · split
      · split <;> simp
      · split <;> simp

@[simp] theorem sealed_scratchFault (s : State) (e p : Nat) (r : Run) : (State.scratchFault s e p r).sealed = s.sealed := by
  simp [State.scratchFault]

@[simp] theorem seals_execFeederWrite (e : Fin 64) (h : Half) (s : State) : Seals s (execFeederWrite e h s) := by
  unfold execFeederWrite
  dsimp only
  (repeat' split) <;> simp

@[simp] theorem sealed_readCols (s : State) (p : Nat) (o : OpArray) (a k0 n len : Nat) : (s.readCols p o a k0 n len).2.2.sealed = s.sealed :=
  sealed_foldl_third (fun _ _ => by simp) _ _

@[simp] theorem seals_execWeightLoadDone (e : Fin 64) (h : Half) (a : Fin 4) (s : State) : Seals s (execWeightLoadDone e h a s) := by
  unfold execWeightLoadDone
  dsimp only
  (repeat' split) <;> simp

@[simp] theorem sealed_failAll (s : State) (e : Nat) : (State.failAll s e).sealed = s.sealed := by
  unfold State.failAll
  refine foldl_proj State.sealed (fun s a => ?_) _ _
  (repeat' split) <;> simp

@[simp] theorem sealed_bringSpare (s : State) (stage : Nat) (l : List Nat) : (s.bringSpare stage l).2.sealed = s.sealed := by
  induction l generalizing s stage with
  | nil => rfl
  | cons p r ih =>
    unfold State.bringSpare
    dsimp only
    split <;> simp [ih]

@[simp] theorem sealed_retire (s : State) (e p cause stage : Nat) : (State.retire s e p cause stage).sealed = s.sealed := by
  unfold State.retire
  dsimp only
  split <;> simp

@[simp] theorem seals_execTileHang (e : Fin 64) (spareStage : Nat) (s : State) : Seals s (execTileHang e spareStage s) := by
  unfold execTileHang
  dsimp only
  (repeat' split) <;> simp

@[simp] theorem sealed_setFault (s : State) (p bit arrays : Nat) : (State.setFault s p bit arrays).sealed = s.sealed := by
  simp [State.setFault]

@[simp] theorem sealed_faultRuns (s : State) (e p : Nat) (rs : List Run) : (State.faultRuns s e p rs).sealed = s.sealed := by
  simp [State.faultRuns]

@[simp] theorem sealed_stopHalf (s : State) (p : Nat) (h : Half) (r : Option Run) : (State.stopHalf s p h r).sealed = s.sealed := by
  unfold State.stopHalf
  split <;> simp

@[simp] theorem sealed_halfFault (s : State) (e p : Nat) (h : Half) (r : Option Run) (cause unit banks fbit arrays : Nat) :
    (State.halfFault s e p h r cause unit banks fbit arrays).sealed = s.sealed := by
  simp [State.halfFault]

@[simp] theorem sealed_arrayFault (s : State) (e p unit cause banks fbit arrays : Nat) :
    (State.arrayFault s e p unit cause banks fbit arrays).sealed = s.sealed := by
  simp [State.arrayFault]

@[simp] theorem sealed_residueFault (s : State) (e p a : Nat) : (State.residueFault s e p a).sealed = s.sealed := by
  simp [State.residueFault]

@[simp] theorem sealed_feederFault (s : State) (e p q : Nat) : (State.feederFault s e p q).sealed = s.sealed := by
  simp [State.feederFault]

@[simp] theorem sealed_weightFault (s : State) (e p a : Nat) (h : Half) : (State.weightFault s e p a h).sealed = s.sealed := by
  simp [State.weightFault]

@[simp] theorem sealed_accFault (s : State) (e p a : Nat) (h : Half) (r : Option Run) : (State.accFault s e p a h r).sealed = s.sealed := by
  simp [State.accFault]

@[simp] theorem sealed_wideFault (s : State) (e p : Nat) : (State.wideFault s e p).sealed = s.sealed := by
  simp [State.wideFault]

@[simp] theorem sealed_sumArray (s : State) (p : Nat) (split : Bool) (h : Half) (r : Run) (f : FeedRow) (a : Nat) :
    (State.sumArray s p split h r f a).2.sealed = s.sealed := by
  simp [State.sumArray]

@[simp] theorem sealed_halfWave (s : State) (e p : Nat) (h : Half) : (State.halfWave s e p h).sealed = s.sealed := by
  unfold State.halfWave
  split <;> simp

@[simp] theorem sealed_waveFaults (s : State) (e p : Nat) (up : Option TileUpset) : (s.waveFaults e p up).sealed = s.sealed := by
  have feeder (u : State) (o : Option Nat) (runs : Half → Bool) : (match o, up with
      | some q, _ => u.feederFault e p q
      | none, some (.feeder q) => if runs (if q.val < 64 then .u else .l) then u.feederFault e p q.val else u
      | _, _ => u).sealed = u.sealed := by
    split <;> simp [sealed_feederFault]
  have weight (u : State) (o : Option Nat) (runs : Half → Bool) : (match o, up with
      | some q, _ => u.weightFault e p (q / 2) (if q % 2 = 0 then .u else .l)
      | none, some (.weight a h) => if runs h then u.weightFault e p a.val h else u
      | _, _ => u).sealed = u.sealed := by
    split <;> simp [sealed_weightFault]
  have acc (u : State) (o : Option Nat) (read : Half → Bool) : (match o, up with
      | some q, _ => (let k := if q % 16 = 1 then Half.u else .l; u.accFault e p (q / 16) k (u.waveRun p k))
      | none, some (.acc a h) => if read h then u.accFault e p a.val h (u.waveRun p h) else u
      | _, _ => u).sealed = u.sealed := by
    split <;> simp [sealed_accFault]
  have wide (u : State) (o : Option Nat) (read : Bool) : (match o, up with
      | some _, _ => u.wideFault e p
      | none, some .wide => if read then u.wideFault e p else u
      | _, _ => u).sealed = u.sealed := by
    split <;> simp [sealed_wideFault]
  unfold State.waveFaults
  dsimp only
  generalize h1 : s.opportunity 0x0301 1 e p _ = i1
  generalize h2 : i1.2.opportunity 0x0302 1 e p _ = i2
  generalize h3 : i2.2.opportunity 0x0306 1 e p _ = i3
  generalize h4 : i3.2.opportunity 0x0306 1 e p _ = i4
  have seen : i4.2.sealed = s.sealed := by simp [← h4, ← h3, ← h2, ← h1]
  rw [← seen]
  exact (wide _ _ _).trans ((acc _ _ _).trans ((weight _ _ _).trans (feeder _ _ fun h => halfReady (s.tile p).work (halfOf (s.tile p).regs.split h))))

@[simp] theorem seals_execWave (e : Fin 64) (up : Option TileUpset) (s : State) : Seals s (execWave e up s) := by
  unfold execWave
  dsimp only
  (repeat' split) <;> simp

@[simp] theorem seals_execRampWave (e : Fin 64) (s : State) : Seals s (execRampWave e s) := by
  unfold execRampWave
  dsimp only
  (repeat' split) <;> simp

@[simp] theorem seals_execRampDownStart (e : Fin 64) (s : State) : Seals s (execRampDownStart e s) := by
  unfold execRampDownStart
  dsimp only
  (repeat' split) <;> simp

@[simp] theorem sealed_engSnap (s : State) (w : Win) : (State.engSnap s w).sealed = s.sealed := by
  unfold State.engSnap
  split <;> simp

@[simp] theorem seals_execEngSnap (w : Win) (s : State) : Seals s (execEngSnap w s) := by
  simp [execEngSnap]

@[simp] theorem sealed_engAbort (s : State) (w : Win) (seq : Word32) : (State.engAbort s w seq).sealed = s.sealed := by
  unfold State.engAbort
  dsimp only
  (repeat' split) <;> simp

@[simp] theorem seals_execEngAbort (w : Win) (seq : Word32) (s : State) : Seals s (execEngAbort w seq s) := by
  simp [execEngAbort]

@[simp] theorem seals_execQuarterUnparkDone (q : Fin 4) (s : State) : Seals s (execQuarterUnparkDone q s) := by
  unfold execQuarterUnparkDone
  split
  · exact (seals_next _ _).2 rfl
  · refine (seals_next _ _).2 ((foldl_proj State.sealed (fun u i => ?_) _ _).trans (by simp))
    split
    · split <;> simp
    · rfl

@[simp] theorem sealed_quantBlock (s : State) (e p : Nat) (r : Run) (m j : Nat) (ys : List Word32) :
    (State.quantBlock s e p r m j ys).2.sealed = s.sealed := by
  unfold State.quantBlock
  split <;> simp

@[simp] theorem sealed_quantRow (s : State) (e p : Nat) (r : Run) (m : Nat) (ys : List Word32) : (State.quantRow s e p r m ys).sealed = s.sealed := by
  simp [State.quantRow]

@[simp] theorem sealed_writeRow (s : State) (e p : Nat) (r : Run) (m : Nat) (ys : List Word32) : (State.writeRow s e p r m ys).sealed = s.sealed := by
  simp [State.writeRow]

@[simp] theorem sealed_mergeRow (s : State) (p : Nat) (split : Bool) (r : Run) (m a : Nat) :
    (State.mergeRow s p split r m a).2.2.sealed = s.sealed := by
  simp [State.mergeRow]

@[simp] theorem sealed_rowValues (s : State) (p : Nat) (split : Bool) (r : Run) (m : Nat) : (s.rowValues p split r m).2.2.sealed = s.sealed :=
  sealed_foldl_third (fun acc a => by split; · simp
                                      · split <;> simp) _ _

@[simp] theorem sealed_modeRow (s : State) (e p : Nat) (r : Run) (m : Nat) (ys : List (Word32 × Bool)) :
    (State.modeRow s e p r m ys).2.sealed = s.sealed := by
  unfold State.modeRow
  dsimp only
  split <;> simp

@[simp] theorem sealed_drainRow (s : State) (e p : Nat) (split : Bool) (r : Run) (m : Nat) :
    (State.drainRow s e p split r m).2.sealed = s.sealed := by
  simp [State.drainRow]

@[simp] theorem seals_execOutputRowDrain (e : Fin 64) (h : Half) (up : Option TileUpset) (s : State) : Seals s (execOutputRowDrain e h up s) := by
  unfold execOutputRowDrain
  dsimp only
  (repeat' split) <;> simp

end Sys2Proof.Machine
end

section
/-! The granted ranges and the LMS keys through the operations of Reduce, Dma and Scale. -/

namespace Sys2Proof.Machine

open Sys2Proof.Laws

@[simp] theorem sealed_keepWeight (s : State) (w cw : Nat) (raw : List Byte) : (State.keepWeight s w cw raw).sealed = s.sealed := by
  simp [State.keepWeight]

@[simp] theorem sealed_keepOwn (s : State) (w cw : Nat) (raw : List Byte) : (State.keepOwn s w cw raw).sealed = s.sealed := by
  simp [State.keepOwn]

@[simp] theorem sealed_weightIn (s : State) (w cw : Nat) (raws : List (List Byte)) : (State.weightIn s w cw raws).sealed = s.sealed := by
  simp [State.weightIn]

@[simp] theorem sealed_weightOwn (s : State) (w cw : Nat) (raws : List (List Byte)) : (State.weightOwn s w cw raws).sealed = s.sealed := by
  simp [State.weightOwn]

@[simp] theorem sealed_landEntry (s : State) (w i : Nat) : (State.landEntry s w i).2.sealed = s.sealed := by
  unfold State.landEntry
  split <;> simp

@[simp] theorem sealed_engineTotal (s : State) (w n : Nat) : (State.engineTotal s w n).2.sealed = s.sealed := by
  simp [State.engineTotal]

@[simp] theorem sealed_landRange (s : State) (w e i : Nat) : (State.landRange s w e i).sealed = s.sealed := by
  simp [State.landRange]

@[simp] theorem sealed_landWord (s : State) (p off : Nat) (raw : List Byte) : (State.landWord s p off raw).sealed = s.sealed := by
  simp [State.landWord]

@[simp] theorem sealed_landEngine (s : State) (w slot : Nat) (x : LandEntry) (e : Nat) : (State.landEngine s w slot x e).sealed = s.sealed := by
  unfold State.landEngine
  split <;> simp

@[simp] theorem seals_execWstreamLand (w : Fin 256) (i : Nat) (s : State) : Seals s (execWstreamLand w i s) := by
  have entry := sealed_landEntry s w.val i
  unfold execWstreamLand
  dsimp only
  split
  · simp
  · generalize s.landEntry w.val i = r at entry
    obtain ⟨x, t⟩ := r
    cases x with
    | none => simpa using entry
    | some x =>
      simp [entry, apply_ite Prod.snd]

@[simp] theorem sealed_weightTo (s : State) (w : Nat) (dest : Nat × Nat) : (State.weightTo s w dest).sealed = s.sealed := by
  unfold State.weightTo
  split <;> simp

@[simp] theorem sealed_redQuant (s : State) (st blk hop : Nat) (ys : List Word32) : (State.redQuant s st blk hop ys).2.sealed = s.sealed := by
  simp [State.redQuant]

@[simp] theorem sealed_redSum (s : State) (st blk hop : Nat) (ys : List Word32) : (State.redSum s st blk hop ys).2.sealed = s.sealed := by
  simp [State.redSum]

@[simp] theorem sealed_redSend (s : State) (st blk hop : Nat) (by' : Option Nat) (dest : Nat × Nat) (b : List Byte × Byte) (late : Bool) :
    (State.redSend s st blk hop by' dest b late).sealed = s.sealed := by
  simp [State.redSend]

@[simp] theorem sealed_unitWrite (s : State) (st u : Nat) (d : List Byte) : (State.unitWrite s st u d).sealed = s.sealed := by
  unfold State.unitWrite
  split <;> simp

@[simp] theorem sealed_ringAdd (s : State) (st u hop : Nat) (d : List Byte) : (State.ringAdd s st u hop d).2.sealed = s.sealed := by
  simp [State.ringAdd]

@[simp] theorem sealed_ringFinal (s : State) (st u : Nat) (d : List Byte) : (State.ringFinal s st u d).sealed = s.sealed := by
  simp [State.ringFinal]

@[simp] theorem sealed_ringVote (s : State) : (State.ringVote s).sealed = s.sealed := by
  unfold State.ringVote
  split <;> simp

@[simp] theorem sealed_ringStep (s : State) (st u : Nat) : (State.ringStep s st u).sealed = s.sealed := by
  unfold State.ringStep
  dsimp only
  (repeat' split) <;> simp

@[simp] theorem sealed_ringRun (s : State) : (State.ringRun s).sealed = s.sealed := by
  simp [State.ringRun]

@[simp] theorem sealed_redLand (s : State) (st blk : Nat) (b : List Byte × Byte) : (State.redLand s st blk b).sealed = s.sealed := by
  unfold State.redLand
  split <;> simp

@[simp] theorem sealed_redFinal (s : State) (st blk : Nat) (b : List Byte × Byte) : (State.redFinal s st blk b).sealed = s.sealed := by
  simp [State.redFinal]

@[simp] theorem sealed_redLine (s : State) (st blk : Nat) (p : Path) (b : List Byte × Byte) (late : Bool) :
    (State.redLine s st blk p b late).sealed = s.sealed := by
  simp [State.redLine]

@[simp] theorem sealed_redOut (s : State) (st blk hop : Nat) (p : Path) (b : List Byte × Byte) (late : Bool) :
    (State.redOut s st blk hop p b late).sealed = s.sealed := by
  simp [State.redOut]

@[simp] theorem sealed_foldRead (s : State) (st blk : Nat) : (State.foldRead s st blk).2.sealed = s.sealed := by
  simp [State.foldRead]

@[simp] theorem sealed_foldWrite (s : State) (st blk : Nat) (b : List Byte × Byte) : (State.foldWrite s st blk b).sealed = s.sealed := by
  simp [State.foldWrite]

@[simp] theorem sealed_spanBegin (s : State) : (State.spanBegin s).sealed = s.sealed := by
  simp [State.spanBegin]

@[simp] theorem sealed_lateNonfinite (s : State) (st : Nat) (step : Word32) : (State.lateNonfinite s st step).sealed = s.sealed := by
  simp [State.lateNonfinite]

@[simp] theorem sealed_lateBlock (s : State) (st blk : Nat) (b : List Byte × Byte) : (State.lateBlock s st blk b).sealed = s.sealed := by
  simp [State.lateBlock]

theorem sealed_of_ownBlock {s t : State} {st blk : Nat} {ys : List Word32} (h : s.ownBlock st blk = some (ys, t)) : t.sealed = s.sealed := by
  unfold State.ownBlock at h
  split at h
  · cases h
  · dsimp only at h
    split at h <;> cases h <;> simp

@[simp] theorem sealed_ownReady (s : State) (st blk : Nat) : (s.ownReady st blk).sealed = s.sealed := by
  unfold State.ownReady
  split
  · rfl
  · split
    · simp
    · split
      · rfl
      · split
        · rfl
        · dsimp only
          split
          · rename_i own
            simp [sealed_of_ownBlock own]
          · simp

@[simp] theorem sealed_reduceWord (s : State) (step : Word32) (st n : Nat) (d : List Byte) : (State.reduceWord s step st n d).sealed = s.sealed := by
  simp [State.reduceWord]

@[simp] theorem sealed_reduceWrite (s : State) (step : Word32) (st off : Nat) (d : List Byte) :
    (State.reduceWrite s step st off d).sealed = s.sealed := by
  simp [State.reduceWrite]

@[simp] theorem seals_execReduceHop (st : Fin 1024) (hop blk : Nat) (elems : List Byte) (scale : Byte) (late : Bool) (s : State) :
    Seals s (execReduceHop st hop blk elems scale late s) := by
  unfold execReduceHop
  dsimp only
  split
  · simp
  · split
    · simp
    · split
      · simp
      · split
        · split
          · rename_i own
            simp [sealed_of_ownBlock own]
          · split <;> simp
        · split <;> simp

@[simp] theorem sealed_zeroStart (s : State) (st blk : Nat) : (State.zeroStart s st blk).sealed = s.sealed := by
  unfold State.zeroStart
  split <;> simp

@[simp] theorem seals_execReduceDeadlineExpiry (s : State) : Seals s (execReduceDeadlineExpiry s) := by
  unfold execReduceDeadlineExpiry
  dsimp only
  (repeat' split) <;> simp

@[simp] theorem sealed_hostData (s : State) (a : Nat) (d : List Byte) : (State.hostData s a d).sealed = s.sealed := by
  simp [State.hostData]

@[simp] theorem sealed_sendMirror (s : State) (stream cw : Nat) (dest : Nat × Nat) (d : List Byte) :
    (State.sendMirror s stream cw dest d).sealed = s.sealed := by
  simp [State.sendMirror]

@[simp] theorem sealed_remoteWrite (s : State) (x y : Nat) (pad : Bool) (e off : Nat) (d : List Byte) :
    (State.remoteWrite s x y pad e off d).sealed = s.sealed := by
  simp [State.remoteWrite]

@[simp] theorem sealed_copyTo (s : State) (step : Word32) (l : Loc) (d : List Byte) : (State.copyTo s step l d).sealed = s.sealed := by
  unfold State.copyTo
  split <;> simp

@[simp] theorem sealed_copyFault (s : State) (l : Loc) (step : Word32) : (State.copyFault s l step).sealed = s.sealed := by
  unfold State.copyFault
  (repeat' split) <;> simp

@[simp] theorem sealed_doCopy (s : State) (q : Nat) (i : Item) (c : Copy) : (State.doCopy s q i c).sealed = s.sealed := by
  unfold State.doCopy
  dsimp only
  (repeat' split) <;> simp

@[simp] theorem sealed_runCopy (s : State) (q : Nat) (k : Kind) (f : State → List Byte → Option Copy) : (s.runCopy q k f).sealed = s.sealed := by
  unfold State.runCopy
  dsimp only
  split
  · split <;> simp
  · exact sealed_runKind (fun i u => by split <;> simp) s q k

@[simp] theorem seals_execDma (d : Fin 8) (s : State) : Seals s (execDma d s) := by
  simp [execDma]

@[simp] theorem seals_execOffload (d : Fin 8) (s : State) : Seals s (execOffload d s) := by
  simp [execOffload]

@[simp] theorem seals_execPrefetch (d : Fin 8) (s : State) : Seals s (execPrefetch d s) := by
  simp [execPrefetch]

@[simp] theorem sealed_putScaleWrites (s : State) (ws : List (Nat × ScaleRec)) : (State.putScaleWrites s ws).sealed = s.sealed := by
  simp [State.putScaleWrites]

@[simp] theorem sealed_applyScaleWrites (s : State) : (State.applyScaleWrites s).sealed = s.sealed := by
  simp [State.applyScaleWrites]

@[simp] theorem sealed_applyDerived (s : State) : (State.applyDerived s).sealed = s.sealed := by
  simp [State.applyDerived]

@[simp] theorem sealed_cfgScaleReadCmd (b : List Byte) (s : State) : (cfgScaleReadCmd b s).state.sealed = s.sealed := by
  simp [cfgScaleReadCmd]

@[simp] theorem sealed_cfgScaleWriteCmd (b : List Byte) (s : State) : (cfgScaleWriteCmd b s).state.sealed = s.sealed := by
  simp [cfgScaleWriteCmd]

@[simp] theorem seals_execCfgScaleRead (r : Route) (s : State) : Seals s (execCfgScaleRead r s) := by
  simp [execCfgScaleRead]

@[simp] theorem seals_execCfgScaleWrite (r : Route) (s : State) : Seals s (execCfgScaleWrite r s) := by
  simp [execCfgScaleWrite]

@[simp] theorem sealed_deriveRec (s : State) (b : Boundary) (i : Nat) (r : ScaleRec) : (State.deriveRec s b i r).sealed = s.sealed := by
  simp [State.deriveRec]

@[simp] theorem sealed_derive (s : State) : (State.derive s).sealed = s.sealed := by
  unfold State.derive
  split <;> simp

@[simp] theorem seals_execScaleDerive (s : State) : Seals s (execScaleDerive s) := by
  simp [execScaleDerive]

@[simp] theorem sealed_endCounts (s : State) : (State.endCounts s).sealed = s.sealed := by
  simp [State.endCounts]

end Sys2Proof.Machine
end

section
/-! The granted ranges and the LMS keys through the operations of Vector. -/

namespace Sys2Proof.Machine

open Sys2Proof.Laws

@[simp] theorem sealed_fetchImage (s : State) (q a : Nat) : (State.fetchImage s q a).2.2.sealed = s.sealed := by
  unfold State.fetchImage
  dsimp only
  (repeat' split) <;> simp

@[simp] theorem sealed_endVector (s : State) (q : Nat) (seq : Word32) (status : Word16) : (State.endVector s q seq status).sealed = s.sealed := by
  simp [State.endVector]

@[simp] theorem seals_execVector (q : Fin 76) (s : State) : Seals s (execVector q s) := by
  simp [execVector]

@[simp] theorem sealed_jput (s : State) (c : Ctx) (x : JviCtx) : (State.jput s c x).sealed = s.sealed := by
  simp [State.jput]

@[simp] theorem seals_jvi (s : State) (c : Ctx) (op : Nat) (f : JEnv → Word64 → JviCtx → JRes) : Seals s (State.jvi s c op f) := by
  unfold State.jvi
  dsimp only
  (repeat' split) <;> simp

@[simp] theorem seals_execJEnd (c : Ctx) (s : State) : Seals s (execJEnd c s) := by
  unfold execJEnd
  split <;> simp

@[simp] theorem seals_execUnassignedOpcode (c : Ctx) (s : State) : Seals s (execUnassignedOpcode c s) := by
  unfold execUnassignedOpcode
  dsimp only
  split <;> simp

@[simp] theorem seals_execVectorStepLimit (c : Ctx) (s : State) : Seals s (execVectorStepLimit c s) := by
  simp [execVectorStepLimit]

@[simp] theorem sealed_ctxLook (s : State) (c : Ctx) (addrs : List Nat) (size : Nat) : (State.ctxLook s c addrs size).2.sealed = s.sealed := by
  unfold State.ctxLook
  dsimp only
  (repeat' split) <;> simp

@[simp] theorem sealed_ctxStore (s : State) (c : Ctx) (a : Nat) (d : List Byte) : (State.ctxStore s c a d).sealed = s.sealed := by
  unfold State.ctxStore
  (repeat' split) <;> simp

@[simp] theorem sealed_ctxFault (s : State) (c : Ctx) : (State.ctxFault s c).sealed = s.sealed := by
  unfold State.ctxFault
  split <;> simp

@[simp] theorem seals_jload (s : State) (c : Ctx) (op : Nat) (form : LaneForm) (size : Nat) : Seals s (State.jload s c op form size) := by
  unfold State.jload
  dsimp only
  (repeat' split) <;> simp

@[simp] theorem seals_jstore (s : State) (c : Ctx) (op : Nat) (form : LaneForm) (size : Nat) : Seals s (State.jstore s c op form size) := by
  unfold State.jstore
  dsimp only
  (repeat' split) <;> simp

@[simp] theorem seals_execJVld (c : Ctx) (s : State) : Seals s (execJVld c s) := by
  simp [execJVld]

@[simp] theorem seals_execJVst (c : Ctx) (s : State) : Seals s (execJVst c s) := by
  simp [execJVst]

@[simp] theorem seals_execJVlds (c : Ctx) (s : State) : Seals s (execJVlds c s) := by
  simp [execJVlds]

@[simp] theorem seals_execJVsts (c : Ctx) (s : State) : Seals s (execJVsts c s) := by
  simp [execJVsts]

@[simp] theorem seals_execJVgath (c : Ctx) (s : State) : Seals s (execJVgath c s) := by
  simp [execJVgath]

@[simp] theorem seals_execJVscat (c : Ctx) (s : State) : Seals s (execJVscat c s) := by
  simp [execJVscat]

@[simp] theorem seals_execJVld16 (c : Ctx) (s : State) : Seals s (execJVld16 c s) := by
  simp [execJVld16]

@[simp] theorem seals_execJVst16 (c : Ctx) (s : State) : Seals s (execJVst16 c s) := by
  simp [execJVst16]

@[simp] theorem seals_execJVld8 (c : Ctx) (s : State) : Seals s (execJVld8 c s) := by
  simp [execJVld8]

@[simp] theorem seals_execJVst8 (c : Ctx) (s : State) : Seals s (execJVst8 c s) := by
  simp [execJVst8]

@[simp] theorem seals_execJSld (c : Ctx) (s : State) : Seals s (execJSld c s) := by
  unfold execJSld
  dsimp only
  (repeat' split) <;> simp

@[simp] theorem seals_execJSst (c : Ctx) (s : State) : Seals s (execJSst c s) := by
  unfold execJSst
  dsimp only
  (repeat' split) <;> simp

@[simp] theorem seals_execJScadd (c : Ctx) (s : State) : Seals s (execJScadd c s) := by
  unfold execJScadd
  split <;> simp

@[simp] theorem seals_execJScwait (c : Ctx) (s : State) : Seals s (execJScwait c s) := by
  unfold execJScwait
  split <;> simp

@[simp] theorem seals_execJJmp (c : Ctx) (s : State) : Seals s (execJJmp c s) := by
  simp [execJJmp]

@[simp] theorem seals_execJBz (c : Ctx) (s : State) : Seals s (execJBz c s) := by
  simp [execJBz]

@[simp] theorem seals_execJBnz (c : Ctx) (s : State) : Seals s (execJBnz c s) := by
  simp [execJBnz]

@[simp] theorem seals_execJLoop (c : Ctx) (s : State) : Seals s (execJLoop c s) := by
  simp [execJLoop]

@[simp] theorem seals_execJNop (c : Ctx) (s : State) : Seals s (execJNop c s) := by
  simp [execJNop]

@[simp] theorem seals_execJSadd (c : Ctx) (s : State) : Seals s (execJSadd c s) := by
  simp [execJSadd]

@[simp] theorem seals_execJSsub (c : Ctx) (s : State) : Seals s (execJSsub c s) := by
  simp [execJSsub]

@[simp] theorem seals_execJSmul (c : Ctx) (s : State) : Seals s (execJSmul c s) := by
  simp [execJSmul]

@[simp] theorem seals_execJSand (c : Ctx) (s : State) : Seals s (execJSand c s) := by
  simp [execJSand]

@[simp] theorem seals_execJSor (c : Ctx) (s : State) : Seals s (execJSor c s) := by
  simp [execJSor]

@[simp] theorem seals_execJSxor (c : Ctx) (s : State) : Seals s (execJSxor c s) := by
  simp [execJSxor]

@[simp] theorem seals_execJSshl (c : Ctx) (s : State) : Seals s (execJSshl c s) := by
  simp [execJSshl]

@[simp] theorem seals_execJSshr (c : Ctx) (s : State) : Seals s (execJSshr c s) := by
  simp [execJSshr]

@[simp] theorem seals_execJSsra (c : Ctx) (s : State) : Seals s (execJSsra c s) := by
  simp [execJSsra]

@[simp] theorem seals_execJSlui (c : Ctx) (s : State) : Seals s (execJSlui c s) := by
  simp [execJSlui]

@[simp] theorem seals_execJScmplt (c : Ctx) (s : State) : Seals s (execJScmplt c s) := by
  simp [execJScmplt]

@[simp] theorem seals_execJScmpeq (c : Ctx) (s : State) : Seals s (execJScmpeq c s) := by
  simp [execJScmpeq]

@[simp] theorem seals_execJScmplts (c : Ctx) (s : State) : Seals s (execJScmplts c s) := by
  simp [execJScmplts]

@[simp] theorem seals_execJSrd (c : Ctx) (s : State) : Seals s (execJSrd c s) := by
  simp [execJSrd]

@[simp] theorem seals_execJVadd (c : Ctx) (s : State) : Seals s (execJVadd c s) := by
  simp [execJVadd]

@[simp] theorem seals_execJVsub (c : Ctx) (s : State) : Seals s (execJVsub c s) := by
  simp [execJVsub]

@[simp] theorem seals_execJVmul (c : Ctx) (s : State) : Seals s (execJVmul c s) := by
  simp [execJVmul]

@[simp] theorem seals_execJVfma (c : Ctx) (s : State) : Seals s (execJVfma c s) := by
  simp [execJVfma]

@[simp] theorem seals_execJVmin (c : Ctx) (s : State) : Seals s (execJVmin c s) := by
  simp [execJVmin]

@[simp] theorem seals_execJVmax (c : Ctx) (s : State) : Seals s (execJVmax c s) := by
  simp [execJVmax]

@[simp] theorem seals_execJVabs (c : Ctx) (s : State) : Seals s (execJVabs c s) := by
  simp [execJVabs]

@[simp] theorem seals_execJVneg (c : Ctx) (s : State) : Seals s (execJVneg c s) := by
  simp [execJVneg]

@[simp] theorem seals_execJVcmplt (c : Ctx) (s : State) : Seals s (execJVcmplt c s) := by
  simp [execJVcmplt]

@[simp] theorem seals_execJVcmple (c : Ctx) (s : State) : Seals s (execJVcmple c s) := by
  simp [execJVcmple]

@[simp] theorem seals_execJVcmpeq (c : Ctx) (s : State) : Seals s (execJVcmpeq c s) := by
  simp [execJVcmpeq]

@[simp] theorem seals_execJVsel (c : Ctx) (s : State) : Seals s (execJVsel c s) := by
  simp [execJVsel]

@[simp] theorem seals_execJVbcast (c : Ctx) (s : State) : Seals s (execJVbcast c s) := by
  simp [execJVbcast]

@[simp] theorem seals_execJVimm (c : Ctx) (s : State) : Seals s (execJVimm c s) := by
  simp [execJVimm]

@[simp] theorem seals_execJVrsubi (c : Ctx) (s : State) : Seals s (execJVrsubi c s) := by
  simp [execJVrsubi]

@[simp] theorem seals_execJVmuli (c : Ctx) (s : State) : Seals s (execJVmuli c s) := by
  simp [execJVmuli]

@[simp] theorem seals_execJVexp2 (c : Ctx) (s : State) : Seals s (execJVexp2 c s) := by
  simp [execJVexp2]

@[simp] theorem seals_execJVsqrt (c : Ctx) (s : State) : Seals s (execJVsqrt c s) := by
  simp [execJVsqrt]

@[simp] theorem seals_execJVrecip (c : Ctx) (s : State) : Seals s (execJVrecip c s) := by
  simp [execJVrecip]

@[simp] theorem seals_execJVrsqrt (c : Ctx) (s : State) : Seals s (execJVrsqrt c s) := by
  simp [execJVrsqrt]

@[simp] theorem seals_execJVlog2 (c : Ctx) (s : State) : Seals s (execJVlog2 c s) := by
  simp [execJVlog2]

@[simp] theorem seals_execJVderiv (c : Ctx) (s : State) : Seals s (execJVderiv c s) := by
  simp [execJVderiv]

@[simp] theorem seals_execJVdcode (c : Ctx) (s : State) : Seals s (execJVdcode c s) := by
  simp [execJVdcode]

@[simp] theorem seals_execJViadd (c : Ctx) (s : State) : Seals s (execJViadd c s) := by
  simp [execJViadd]

@[simp] theorem seals_execJVisub (c : Ctx) (s : State) : Seals s (execJVisub c s) := by
  simp [execJVisub]

@[simp] theorem seals_execJVimul (c : Ctx) (s : State) : Seals s (execJVimul c s) := by
  simp [execJVimul]

@[simp] theorem seals_execJViand (c : Ctx) (s : State) : Seals s (execJViand c s) := by
  simp [execJViand]

@[simp] theorem seals_execJVior (c : Ctx) (s : State) : Seals s (execJVior c s) := by
  simp [execJVior]

@[simp] theorem seals_execJVixor (c : Ctx) (s : State) : Seals s (execJVixor c s) := by
  simp [execJVixor]

@[simp] theorem seals_execJVishl (c : Ctx) (s : State) : Seals s (execJVishl c s) := by
  simp [execJVishl]

@[simp] theorem seals_execJVishr (c : Ctx) (s : State) : Seals s (execJVishr c s) := by
  simp [execJVishr]

@[simp] theorem seals_execJVisra (c : Ctx) (s : State) : Seals s (execJVisra c s) := by
  simp [execJVisra]

@[simp] theorem seals_execJVcvtf (c : Ctx) (s : State) : Seals s (execJVcvtf c s) := by
  simp [execJVcvtf]

@[simp] theorem seals_execJVcvti (c : Ctx) (s : State) : Seals s (execJVcvti c s) := by
  simp [execJVcvti]

@[simp] theorem seals_execJVlane (c : Ctx) (s : State) : Seals s (execJVlane c s) := by
  simp [execJVlane]

@[simp] theorem seals_execJVicmplt (c : Ctx) (s : State) : Seals s (execJVicmplt c s) := by
  simp [execJVicmplt]

@[simp] theorem seals_execJVicmpeq (c : Ctx) (s : State) : Seals s (execJVicmpeq c s) := by
  simp [execJVicmpeq]

@[simp] theorem seals_execJVquant (c : Ctx) (s : State) : Seals s (execJVquant c s) := by
  simp [execJVquant]

@[simp] theorem seals_execJVefq (c : Ctx) (s : State) : Seals s (execJVefq c s) := by
  simp [execJVefq]

@[simp] theorem seals_execJVdq (c : Ctx) (s : State) : Seals s (execJVdq c s) := by
  simp [execJVdq]

@[simp] theorem seals_execJVrb16 (c : Ctx) (s : State) : Seals s (execJVrb16 c s) := by
  simp [execJVrb16]

@[simp] theorem seals_execJVpack (c : Ctx) (s : State) : Seals s (execJVpack c s) := by
  simp [execJVpack]

@[simp] theorem seals_execJVunpack (c : Ctx) (s : State) : Seals s (execJVunpack c s) := by
  simp [execJVunpack]

@[simp] theorem seals_execJVspill (c : Ctx) (s : State) : Seals s (execJVspill c s) := by
  simp [execJVspill]

@[simp] theorem seals_execJVsumr (c : Ctx) (s : State) : Seals s (execJVsumr c s) := by
  simp [execJVsumr]

@[simp] theorem seals_execJVmaxr (c : Ctx) (s : State) : Seals s (execJVmaxr c s) := by
  simp [execJVmaxr]

@[simp] theorem seals_execJVbrd (c : Ctx) (s : State) : Seals s (execJVbrd c s) := by
  simp [execJVbrd]

@[simp] theorem seals_execJVperm (c : Ctx) (s : State) : Seals s (execJVperm c s) := by
  simp [execJVperm]

@[simp] theorem seals_execJVext (c : Ctx) (s : State) : Seals s (execJVext c s) := by
  simp [execJVext]

@[simp] theorem seals_execJVhash (c : Ctx) (s : State) : Seals s (execJVhash c s) := by
  simp [execJVhash]

end Sys2Proof.Machine
end

section
/-! The granted ranges and the LMS keys through the operations of Boundary, Commit, Mirror, Chord and D2d. -/

namespace Sys2Proof.Machine

open Sys2Proof.Laws

@[simp] theorem sealed_setDir (s : State) (off v : Nat) : (State.setDir s off v).sealed = s.sealed := by
  simp [State.setDir]

@[simp] theorem sealed_writePg (s : State) (g : Nat) (b : List Byte) : (State.writePg s g b).sealed = s.sealed := by
  simp [State.writePg]

@[simp] theorem sealed_writeSched (s : State) (k : Nat) (b : List Byte) : (State.writeSched s k b).sealed = s.sealed := by
  simp [State.writeSched]

@[simp] theorem sealed_applyWaiting (s : State) (w : Waiting) : (State.applyWaiting s w).sealed = s.sealed := by
  unfold State.applyWaiting
  split <;> simp

@[simp] theorem sealed_atBoundary (s : State) (w : Waiting) : (State.atBoundary s w).sealed = s.sealed := by
  simp [State.atBoundary]

@[simp] theorem sealed_blockRecord (s : State) (bank b : Nat) : (State.blockRecord s bank b).2.2.sealed = s.sealed := by
  simp [State.blockRecord]

@[simp] theorem sealed_slowWord (s : State) (cw : Nat) : (State.slowWord s cw).2.sealed = s.sealed := by
  simp [State.slowWord]

@[simp] theorem sealed_mirrorOut (s : State) (stream cw : Nat) (dest : Nat × Nat) (data : List Byte) :
    (State.mirrorOut s stream cw dest data).sealed = s.sealed := by
  simp [State.mirrorOut]

@[simp] theorem sealed_sendSlow (s : State) (stream cw : Nat) (dest : Nat × Nat) (off len : Nat) :
    (State.sendSlow s stream cw dest off len).sealed = s.sealed := by
  simp [State.sendSlow]

@[simp] theorem sealed_putRecord (s : State) (bank b : Nat) (rec : List Byte) : (State.putRecord s bank b rec).sealed = s.sealed := by
  simp [State.putRecord]

@[simp] theorem sealed_sendBlock (s : State) (stream : Nat) (dest : Nat × Nat) (bank b : Nat) :
    (State.sendBlock s stream dest bank b).sealed = s.sealed := by
  simp [State.sendBlock]

@[simp] theorem sealed_sendBlocks (s : State) (stream : Nat) (dest : Nat × Nat) (groups : List Nat) :
    (State.sendBlocks s stream dest groups).sealed = s.sealed := by
  simp [State.sendBlocks]

@[simp] theorem sealed_sendShard (s : State) (dest : Nat × Nat) : (State.sendShard s dest).sealed = s.sealed := by
  simp [State.sendShard]

@[simp] theorem sealed_movePos (s : State) (vals : List Word64) : (State.movePos s vals).sealed = s.sealed := by
  unfold State.movePos
  dsimp only
  split <;> simp

@[simp] theorem sealed_toEveryone (s : State) (b : List Byte) : (State.toEveryone s b).sealed = s.sealed := by
  simp [State.toEveryone]

@[simp] theorem sealed_mbCommand (s : State) (dest : Nat × Nat) (op : Nat) (payload : List Byte) :
    (State.mbCommand s dest op payload).sealed = s.sealed := by
  simp [State.mbCommand]

@[simp] theorem sealed_quiesceReturn (s : State) : (State.quiesceReturn s).sealed = s.sealed := by
  unfold State.quiesceReturn
  dsimp only
  split <;> simp

@[simp] theorem sealed_takePos (s : State) : (State.takePos s).sealed = s.sealed := by
  unfold State.takePos
  split <;> simp

@[simp] theorem sealed_endHostLost (s : State) : (State.endHostLost s).sealed = s.sealed := by
  simp [State.endHostLost]

@[simp] theorem sealed_trimJournal (s : State) : (State.trimJournal s).sealed = s.sealed := by
  simp [State.trimJournal]

@[simp] theorem sealed_abandonReplay (s : State) : (State.abandonReplay s).sealed = s.sealed := by
  simp [State.abandonReplay]

@[simp] theorem sealed_onTiles (s : State) (f : Tile → Tile) : (State.onTiles s f).sealed = s.sealed := sealed_of rfl rfl rfl

@[simp] theorem sealed_clearStep (s : State) : (State.clearStep s).sealed = s.sealed := by
  simp [State.clearStep]

@[simp] theorem sealed_stepBoundary (s : State) (commit : Bool) : (State.stepBoundary s commit).sealed = s.sealed := by
  unfold State.stepBoundary
  dsimp only
  (repeat' split) <;> simp

@[simp] theorem sealed_keptElem (s : State) (_g off : Nat) : (State.keptElem s _g off).2.sealed = s.sealed := by
  unfold State.keptElem
  dsimp only
  split <;> simp

@[simp] theorem sealed_neighbourElem (s : State) (g off : Nat) : (s.neighbourElem g off).2.sealed = s.sealed := by
  unfold State.neighbourElem
  split
  · rfl
  · exact sealed_draw s

@[simp] theorem sealed_readGrads {elem : State → Nat → Nat → Elem × State} (h : ∀ s g off, (elem s g off).2.sealed = s.sealed) (s : State)
    (dir : Nat) (pgs : Nat → Pg) (g b : Nat) : (s.readGrads elem dir pgs g b).2.2.sealed = s.sealed := by
  unfold State.readGrads
  dsimp only
  exact sealed_foldl_third (fun a p => by simp [h]) _ _

@[simp] theorem sealed_setRecState (s : State) (c : CommitRun) (state : Nat) : (State.setRecState s c state).sealed = s.sealed := by
  simp [State.setRecState]

@[simp] theorem sealed_commitReport (s : State) (c : CommitRun) (code : Nat) (sev : Severity) (payload : List Byte) :
    (State.commitReport s c code sev payload).sealed = s.sealed := by
  simp [State.commitReport]

@[simp] theorem sealed_addFwd (s : State) (t : Tally) : (State.addFwd s t).sealed = s.sealed := by
  simp [State.addFwd]

@[simp] theorem sealed_payFwd (s : State) (queue : Option (Nat × Word32)) : (State.payFwd s queue).sealed = s.sealed := by
  simp [State.payFwd]

@[simp] theorem sealed_payEnded (t s : State) (queue : Option (Nat × Word32)) : (State.payEnded t s queue).sealed = t.sealed := by
  simp [State.payEnded]

@[simp] theorem sealed_endCommit (s : State) (c : CommitRun) (status : Word16) (outcome : Nat) :
    (State.endCommit s c status outcome).sealed = s.sealed := by
  unfold State.endCommit
  split <;> simp

@[simp] theorem sealed_sendGrads (s : State) (c : CommitRun) : (State.sendGrads s c).sealed = s.sealed := by
  unfold State.sendGrads
  split <;> simp

@[simp] theorem sealed_setDone (s : State) (b : Nat) (v : Bool) : (State.setDone s b v).sealed = s.sealed := by
  simp [State.setDone]

@[simp] theorem sealed_bumpRec (s : State) (c : CommitRun) (off : Nat) : (State.bumpRec s c off).sealed = s.sealed := by
  simp [State.bumpRec]

theorem sealed_of_mendBlock {s t : State} {c : CommitRun} {bank b : Nat} {r : List Byte} (h : s.mendBlock c bank b = some (r, t)) :
    t.sealed = s.sealed := by
  unfold State.mendBlock at h
  split at h
  · cases h
  · cases h
    simp

@[simp] theorem sealed_commitBlock (s : State) (c : CommitRun) (g b : Nat) : (s.commitBlock c g b).2.2.sealed = s.sealed := by
  have poked (u : State) : ((List.range 32).foldl (fun (a : List Bool × State) _ =>
      let i := if c.source.1 = 4 then a.2.fires 0x0701 4 c.source.2 else (false, a.2)
      (a.1 ++ [i.1], i.2)) ([], u)).2.sealed = u.sealed := sealed_foldl_snd (fun a _ => by simp [apply_ite Prod.snd]) _ _
  unfold State.commitBlock
  dsimp only at poked ⊢
  split
  · simp
  · split
    · simp
    · rename_i r t fetched
      have read : t.sealed = s.sealed := by
        split at fetched
        · rw [sealed_of_mendBlock fetched]
          simp
        · rw [← (Prod.mk.inj (Option.some.inj fetched)).2]
          simp
      have grads := (sealed_readGrads sealed_keptElem t dKgrad t.pg g b).trans read
      split
      · simp [grads]
      · split
        · rw [sealed_injEnd, poked, grads]
        · simp only [sealed_ite, sealed_onScales, sealed_addFwd, sealed_bumpRec, sealed_setDone, sealed_writeSlow, ite_self, poked, grads]

@[simp] theorem sealed_commitGroup (s : State) (c : CommitRun) (g : Nat) : (State.commitGroup s c g).2.sealed = s.sealed := by
  simp [State.commitGroup]

@[simp] theorem sealed_commitBlocks (s : State) (c : CommitRun) : (State.commitBlocks s c).2.sealed = s.sealed := by
  simp [State.commitBlocks]

@[simp] theorem sealed_recordStep (s : State) (n : Word32) : (State.recordStep s n).sealed = s.sealed := by
  simp [State.recordStep]

@[simp] theorem sealed_settleStep (s : State) : (State.settleStep s).sealed = s.sealed := by
  simp [State.settleStep]

@[simp] theorem sealed_flipGroup (s : State) (g : Nat) (step : Word32) : (State.flipGroup s g step).sealed = s.sealed := by
  simp [State.flipGroup]

@[simp] theorem sealed_flipRange (s : State) (c : CommitRun) : (State.flipRange s c).sealed = s.sealed := by
  simp [State.flipRange]

@[simp] theorem sealed_commitDigests (s : State) (c : CommitRun) : (State.commitDigests s c).sealed = s.sealed := by
  simp [State.commitDigests]

@[simp] theorem sealed_resumedNote (s : State) (c : CommitRun) : (State.resumedNote s c).sealed = s.sealed := by
  simp [State.resumedNote]

@[simp] theorem sealed_sendRange (s : State) (c : CommitRun) : (State.sendRange s c).sealed = s.sealed := by
  unfold State.sendRange
  split <;> simp

@[simp] theorem sealed_noteCommitted (s : State) (n : Word32) : (State.noteCommitted s n).sealed = s.sealed := by
  simp [State.noteCommitted]

@[simp] theorem sealed_finishCommit (s : State) (c : CommitRun) : (State.finishCommit s c).sealed = s.sealed := by
  simp [State.finishCommit]

@[simp] theorem sealed_awaitBuddy (s : State) (c : CommitRun) : (State.awaitBuddy s c).sealed = s.sealed := by
  simp [State.awaitBuddy]

@[simp] theorem sealed_beginCommit (s : State) (c : CommitRun) : (State.beginCommit s c).2.sealed = s.sealed := by
  unfold State.beginCommit
  dsimp only
  split <;> simp

@[simp] theorem sealed_recoverCommit (s : State) (c : CommitRun) : (State.recoverCommit s c).2.sealed = s.sealed := by
  unfold State.recoverCommit
  dsimp only
  split <;> simp

@[simp] theorem sealed_runPlan (s : State) (x0 : CommitPlan) : (State.runPlan s x0).2.sealed = s.sealed := by
  unfold State.runPlan
  dsimp only
  (repeat' split) <;> simp

@[simp] theorem seals_execCommit (c : Fin 4) (s : State) : Seals s (execCommit c s) := by
  unfold execCommit
  dsimp only
  split
  · simp
  · split
    · rename_i i _ _
      refine (seals_next _ _).2 (sealed_runKind (fun _ t => ?_) s _ _)
      have planned := sealed_runPlan t (s.commitPlan (commitReq (72 + c.val) i.desc))
      split <;> rename_i h <;> rw [h] at planned <;> simpa using planned
    · simp

@[simp] theorem sealed_updCommitCmd (r : Route) (b : List Byte) (s : State) : (updCommitCmd r b s).state.sealed = s.sealed := by
  have planned := sealed_runPlan (s.setMbox r { s.mbox r with checked := false })
    ((s.setMbox r { s.mbox r with checked := false }).commitPlan (updCommitReq r b))
  rw [sealed_setMbox] at planned
  unfold updCommitCmd
  dsimp only
  split <;> rename_i h <;> rw [h] at planned
  · simpa using planned
  · simpa [CmdResult.state_ite] using planned

@[simp] theorem seals_execUpdCommit (r : Route) (s : State) : Seals s (execUpdCommit r s) := by
  simp [execUpdCommit]

@[simp] theorem sealed_slowLand (s : State) (off : Nat) (raw : List Byte) : (State.slowLand s off raw).sealed = s.sealed := by
  simp [State.slowLand]

@[simp] theorem sealed_g7Land (s : State) (off : Nat) (raw : List Byte) : (State.g7Land s off raw).sealed = s.sealed := by
  simp [State.g7Land]

@[simp] theorem sealed_followNpgt (s : State) (n : Nat) : (State.followNpgt s n).sealed = s.sealed := by
  simp [State.followNpgt]

@[simp] theorem sealed_ackNeighbour (s : State) (step kind : Nat) : (State.ackNeighbour s step kind).sealed = s.sealed := by
  unfold State.ackNeighbour
  split <;> simp

@[simp] theorem sealed_mirrorFull (s : State) (n : Nat) : (State.mirrorFull s n).sealed = s.sealed := by
  simp [State.mirrorFull]

@[simp] theorem sealed_mirrorWord (s : State) (cw : Nat) (raw : List Byte) : (State.mirrorWord s cw raw).sealed = s.sealed := by
  simp [State.mirrorWord]

@[simp] theorem sealed_noteArriving (s : State) : (State.noteArriving s).sealed = s.sealed := by
  simp [State.noteArriving]

@[simp] theorem sealed_gradsWhole (s : State) : (State.gradsWhole s).sealed = s.sealed := by
  simp [State.gradsWhole]

@[simp] theorem sealed_gradWord (s : State) (cw : Nat) (raw : List Byte) : (State.gradWord s cw raw).sealed = s.sealed := by
  unfold State.gradWord
  dsimp only
  split <;> simp

@[simp] theorem sealed_nscaleWord (s : State) (i : Nat) (raw : List Byte) : (State.nscaleWord s i raw).sealed = s.sealed := by
  simp [State.nscaleWord]

@[simp] theorem sealed_restoredStep (s : State) : (State.restoredStep s).2.sealed = s.sealed := by
  simp [State.restoredStep]

@[simp] theorem sealed_restoreDone (s : State) : (State.restoreDone s).sealed = s.sealed := by
  simp [State.restoreDone]

@[simp] theorem sealed_restoreCount (s : State) : (State.restoreCount s).sealed = s.sealed := by
  simp [State.restoreCount]

@[simp] theorem sealed_shardWord (s : State) (cw : Nat) (raw : List Byte) : (State.shardWord s cw raw).sealed = s.sealed := by
  simp [State.shardWord]

@[simp] theorem sealed_recordWord (s : State) (i : Nat) (raw : List Byte) : (State.recordWord s i raw).sealed = s.sealed := by
  simp [State.recordWord]

@[simp] theorem sealed_remoteWord (s : State) (src : Nat × Nat) : (State.remoteWord s src).sealed = s.sealed := by
  simp [State.remoteWord]

@[simp] theorem sealed_writeAckTo (s : State) (src : Nat × Nat) : (State.writeAckTo s src).sealed = s.sealed := by
  simp [State.writeAckTo]

@[simp] theorem sealed_mirrorVcWord (s : State) (src : Nat × Nat) (stream cw : Nat) (raw : List Byte) :
    (State.mirrorVcWord s src stream cw raw).sealed = s.sealed := by
  unfold State.mirrorVcWord
  (repeat' split) <;> simp

@[simp] theorem sealed_mirrorLand (s : State) (src : Nat × Nat) (stream cw : Nat) (raws : List (List Byte)) :
    (State.mirrorLand s src stream cw raws).sealed = s.sealed := by
  simp [State.mirrorLand]

@[simp] theorem sealed_mirrorIn (s : State) (src : Nat × Nat) (stream cw : Nat) (raws : List (List Byte)) :
    (State.mirrorIn s src stream cw raws).sealed = s.sealed := by
  simp [State.mirrorIn]

@[simp] theorem seals_execGradAck (m : CtlMsg) (s : State) : Seals s (execGradAck m s) := by
  unfold execGradAck
  dsimp only
  (repeat' split) <;> simp

@[simp] theorem seals_execMirrorAck (m : CtlMsg) (s : State) : Seals s (execMirrorAck m s) := by
  simp [execMirrorAck]

@[simp] theorem sealed_forward (s : State) (p : Nat) (h : FlitHdr) (data : List Byte) : (State.forward s p h data).sealed = s.sealed := by
  unfold State.forward
  split <;> simp

@[simp] theorem sealed_reduceData (s : State) (raw : List Byte) : (State.reduceData s raw).2.sealed = s.sealed := by
  simp [State.reduceData]

@[simp] theorem sealed_reduceIn (s : State) (x y st cw : Nat) (late : Bool) (raws : List (List Byte)) :
    (State.reduceIn s x y st cw late raws).sealed = s.sealed := by
  simp [State.reduceIn]

@[simp] theorem sealed_controlIn (s : State) (p : Nat) (h : FlitHdr) (b raw : List Byte) : (State.controlIn s p h b raw).sealed = s.sealed := by
  simp [State.controlIn]

@[simp] theorem sealed_deliver (s : State) (p : Nat) (h : FlitHdr) (b : List Byte) (raws : List (List Byte)) :
    (State.deliver s p h b raws).sealed = s.sealed := by
  unfold State.deliver
  dsimp only
  split <;> simp

@[simp] theorem sealed_flitAccept (s : State) (p : Nat) (h : FlitHdr) (b : List Byte) : (State.flitAccept s p h b).sealed = s.sealed := by
  simp [State.flitAccept]

@[simp] theorem seals_execFlitData (p : Fin 8) (bytes : List Byte) (s : State) : Seals s (execFlitData p bytes s) := by
  unfold execFlitData
  dsimp only
  split
  · simp
  · rename_i h
    simpa using sealed_of_flitReceive_bad h
  · rename_i h
    simpa using sealed_of_flitReceive_good h
  · rename_i h
    simp [sealed_of_flitReceive_good h]

@[simp] theorem seals_execPostMsg (m : CtlMsg) (s : State) : Seals s (execPostMsg m s) := by
  simp [execPostMsg]

@[simp] theorem seals_execPostApplied (m : CtlMsg) (s : State) : Seals s (execPostApplied m s) := by
  unfold execPostApplied
  dsimp only
  (repeat' split) <;> simp

@[simp] theorem seals_execWriteAck (m : CtlMsg) (s : State) : Seals s (execWriteAck m s) := by
  simp [execWriteAck]

@[simp] theorem sealed_d2dArrive (s : State) (cls : D2dClass) (dir : Nat) (data : List Byte) :
    (State.d2dArrive s cls dir data).sealed = s.sealed := by
  simp [State.d2dArrive]

@[simp] theorem sealed_d2dCross (s : State) (x0 : D2dTraffic) : (State.d2dCross s x0).sealed = s.sealed := by
  unfold State.d2dCross
  split <;> simp

@[simp] theorem sealed_d2dRetry (s : State) (dir : Nat) : (State.d2dRetry s dir).sealed = s.sealed := by
  simp [State.d2dRetry]

@[simp] theorem sealed_d2dDeliver (s : State) (cls : D2dClass) (dir : Nat) (data : List Byte) :
    (State.d2dDeliver s cls dir data).sealed = s.sealed := by
  simp [State.d2dDeliver]

@[simp] theorem sealed_d2dDrain (s : State) : (State.d2dDrain s).sealed = s.sealed := by
  simp [State.d2dDrain]

@[simp] theorem sealed_d2dLaneFailed (s : State) (m dir : Nat) : (State.d2dLaneFailed s m dir).sealed = s.sealed := by
  unfold State.d2dLaneFailed
  dsimp only
  split <;> simp

@[simp] theorem seals_execD2dUnitReceive (m : Fin 8) (toComp : Bool) (badLanes : List (Fin 68)) (cls : D2dClass) (data : List Byte) (s : State) :
    Seals s (execD2dUnitReceive m toComp badLanes cls data s) := by
  simp [execD2dUnitReceive]

@[simp] theorem seals_execD2dRetrainDone (m : Fin 8) (toComp : Bool) (s : State) : Seals s (execD2dRetrainDone m toComp s) := by
  unfold execD2dRetrainDone
  dsimp only
  split <;> simp

end Sys2Proof.Machine
end

section
/-! The granted ranges and the LMS keys through the operations of Upd and Eth. -/

namespace Sys2Proof.Machine

open Sys2Proof.Laws

@[simp] theorem sealed_updLayoutCmd (b : List Byte) (s : State) : (updLayoutCmd b s).state.sealed = s.sealed := by
  unfold updLayoutCmd
  dsimp only
  split
  · rfl
  · split
    · rfl
    · rw [CmdResult.state_done, sealed_writeSlow, foldl_proj State.sealed (fun u g => sealed_writeSlow u _ _),
        foldl_proj State.sealed (fun u z => sealed_setDir u _ _), sealed_writeSlow]

@[simp] theorem seals_execUpdLayout (r : Route) (s : State) : Seals s (execUpdLayout r s) := by
  simp [execUpdLayout]

@[simp] theorem sealed_updGroupWriteCmd (b : List Byte) (s : State) : (updGroupWriteCmd b s).state.sealed = s.sealed := by
  simp [updGroupWriteCmd]

@[simp] theorem sealed_updGroupReadCmd (b : List Byte) (s : State) : (updGroupReadCmd b s).state.sealed = s.sealed := by
  simp [updGroupReadCmd]

@[simp] theorem sealed_updScheduleWriteCmd (b : List Byte) (s : State) : (updScheduleWriteCmd b s).state.sealed = s.sealed := by
  simp [updScheduleWriteCmd]

@[simp] theorem sealed_updProgramLoadCmd (b : List Byte) (s : State) : (updProgramLoadCmd b s).state.sealed = s.sealed := by
  simp [updProgramLoadCmd]

@[simp] theorem seals_execUpdGroupWrite (r : Route) (s : State) : Seals s (execUpdGroupWrite r s) := by
  simp [execUpdGroupWrite]

@[simp] theorem seals_execUpdGroupRead (r : Route) (s : State) : Seals s (execUpdGroupRead r s) := by
  simp [execUpdGroupRead]

@[simp] theorem seals_execUpdScheduleWrite (r : Route) (s : State) : Seals s (execUpdScheduleWrite r s) := by
  simp [execUpdScheduleWrite]

@[simp] theorem seals_execUpdProgramLoad (r : Route) (s : State) : Seals s (execUpdProgramLoad r s) := by
  simp [execUpdProgramLoad]

@[simp] theorem sealed_updReport (s : State) (code : Nat) (sev : Severity) (payload : List Byte) :
    (State.updReport s code sev payload).sealed = s.sealed := by
  simp [State.updReport]

theorem sealed_of_rollBlock {s t : State} {recs : List ScaleRec} {k g b : Nat} (h : s.rollBlock recs k g b = some t) :
    t.sealed = s.sealed := by
  unfold State.rollBlock at h
  dsimp only at h
  split at h
  · cases h
  · split at h
    · cases h
    · rw [← Option.some.inj h]
      simp

theorem sealed_of_rollAll {recs : List ScaleRec} {k n m : Nat} {l : List (Nat × Nat)} {s t : State}
    (h : State.rollAll recs k l n s = some (m, t)) : t.sealed = s.sealed := by
  induction l generalizing n s with
  | nil => rw [← (Prod.mk.inj (Option.some.inj h)).2]
  | cons x l ih =>
    obtain ⟨g, b⟩ := x
    unfold State.rollAll at h
    split at h
    · cases h
    · exact ih h
    · split at h
      · cases h
      · rename_i rolled
        exact (ih h).trans (sealed_of_rollBlock rolled)

@[simp] theorem sealed_updRestoreCmd (b : List Byte) (s : State) : (updRestoreCmd b s).state.sealed = s.sealed := by
  unfold updRestoreCmd
  dsimp only
  split
  · rfl
  · split
    · rfl
    · rename_i rolled
      rw [CmdResult.state_done, sealed_updReport, sealed_sendMirror, foldl_proj State.sealed (fun u k => sealed_sendSlow u _ _ _ _ _),
        sealed_ite, sealed_setDir, sealed_followNpgt, ite_self, sealed_of_rollAll rolled]

@[simp] theorem seals_execUpdRestore (r : Route) (s : State) : Seals s (execUpdRestore r s) := by
  simp [execUpdRestore]

@[simp] theorem sealed_updDigestVerdictCmd (b : List Byte) (s : State) : (updDigestVerdictCmd b s).state.sealed = s.sealed := by
  simp [updDigestVerdictCmd]

@[simp] theorem seals_execUpdDigestVerdict (r : Route) (s : State) : Seals s (execUpdDigestVerdict r s) := by
  simp [execUpdDigestVerdict]

@[simp] theorem sealed_segment (s : State) (i : Nat) : (State.segment s i).2.sealed = s.sealed := by
  simp [State.segment]

@[simp] theorem sealed_noteExport (s : State) : (State.noteExport s).sealed = s.sealed := by
  unfold State.noteExport
  split <;> simp

@[simp] theorem sealed_closeExport (s : State) : (State.closeExport s).sealed = s.sealed := by
  simp [State.closeExport]

@[simp] theorem sealed_exportNext (s : State) : (State.exportNext s).sealed = s.sealed := by
  unfold State.exportNext
  split <;> simp

@[simp] theorem sealed_segmentAcked (s : State) (i : Nat) : (State.segmentAcked s i).sealed = s.sealed := by
  unfold State.segmentAcked
  split <;> simp

@[simp] theorem sealed_updExportStartCmd (r : Route) (b : List Byte) (s : State) : (updExportStartCmd r b s).state.sealed = s.sealed := by
  simp [updExportStartCmd]

@[simp] theorem sealed_updExportAbortCmd (b : List Byte) (s : State) : (updExportAbortCmd b s).state.sealed = s.sealed := by
  unfold updExportAbortCmd
  split <;> simp

@[simp] theorem seals_execUpdExportStart (r : Route) (s : State) : Seals s (execUpdExportStart r s) := by
  simp [execUpdExportStart]

@[simp] theorem seals_execUpdExportAbort (r : Route) (s : State) : Seals s (execUpdExportAbort r s) := by
  simp [execUpdExportAbort]

@[simp] theorem sealed_updRepairCmd (r : Route) (b : List Byte) (s : State) : (updRepairCmd r b s).state.sealed = s.sealed := by
  simp [updRepairCmd]

@[simp] theorem seals_execUpdRepair (r : Route) (s : State) : Seals s (execUpdRepair r s) := by
  simp [execUpdRepair]

@[simp] theorem sealed_replicaRecords (s : State) : (State.replicaRecords s).sealed = s.sealed := by
  simp [State.replicaRecords]

@[simp] theorem sealed_repairDone (s : State) (e : ExportRun) (digest src : List Byte) : (State.repairDone s e digest src).sealed = s.sealed := by
  simp [State.repairDone]

@[simp] theorem sealed_segmentIn (s : State) (k : Nat) (m : FdtMsg) : (State.segmentIn s k m).sealed = s.sealed := by
  unfold State.segmentIn
  split <;> simp

@[simp] theorem sealed_startupDone (s : State) : (State.startupDone s).sealed = s.sealed := by
  simp [State.startupDone]

@[simp] theorem seals_execStartupRecover (accOk : Bool) (s : State) : Seals s (execStartupRecover accOk s) := by
  unfold execStartupRecover
  dsimp only
  (repeat' split) <;> simp

@[simp] theorem sealed_pause (s : State) (i quanta : Nat) : (State.pause s i quanta).sealed = s.sealed := by
  simp [State.pause]

@[simp] theorem seals_execEthFrameReceive (i : Fin 2) (kind : EthKind) (rx : EthRx) (s : State) : Seals s (execEthFrameReceive i kind rx s) := by
  unfold execEthFrameReceive
  dsimp only
  (repeat' split) <;> simp

@[simp] theorem seals_execEthPortDown (i : Fin 2) (s : State) : Seals s (execEthPortDown i s) := by
  simp [execEthPortDown]

@[simp] theorem seals_execEthPortUp (i : Fin 2) (s : State) : Seals s (execEthPortUp i s) := by
  simp [execEthPortUp]

theorem sealed_of_fdtReceive {s t : State} {pkt : FdtPacket} {type : Nat} {ok : ConnState → Bool} {o : Option Nat}
    (h : s.fdtReceive pkt type ok = some (o, t)) : t.sealed = s.sealed := by
  have framed := sealed_ethFrame s pkt.port.val pkt.rx
  have ends {u : State} (hu : u.sealed = s.sealed) {x : Option Nat} (e : some (x, u) = some (o, t)) : t.sealed = s.sealed := by
    rw [← (Prod.mk.inj (Option.some.inj e)).2, hu]
  unfold State.fdtReceive at h
  generalize s.ethFrame pkt.port.val pkt.rx = f at h framed
  extract_lets b bad at h
  split at h
  · cases h
  · split at h
    · exact ends framed h
    · split at h
      · exact ends (by simpa using framed) h
      · split at h
        · exact ends framed h
        · rename_i u slot hit ended v _ _ _ _
          have taken : hit.2.sealed = s.sealed := by
            dsimp only [hit]
            generalize slot = k
            cases k
            · exact framed
            · simpa using framed
          have quits (w : State) : (ended w).sealed = w.sealed := by
            dsimp only [ended]
            generalize slot = k
            cases k <;> simp
          have vSealed : v.sealed = s.sealed := taken
          split at h
          · exact ends ((quits _).trans taken) h
          · split at h
            · exact ends ((quits _).trans ((sealed_fdtViol _ _ _ _ _).trans taken)) h
            · split at h
              · exact ends taken h
              · generalize slot = k at h
                split at h
                · exact ends ((sealed_fdtNoConn _ _).trans vSealed) h
                · exact ends (by simpa using vSealed) h

@[simp] theorem seals_execFdtData (pkt : FdtPacket) (s : State) : Seals s (execFdtData pkt s) := by
  unfold execFdtData
  split <;> rename_i h
  · exact (seals_next _ _).2 rfl
  · simpa using sealed_of_fdtReceive h
  · simp [sealed_of_fdtReceive h]

@[simp] theorem sealed_ackIn (s : State) (k : Nat) (nak : Bool) (pkt : FdtPacket) : (s.ackIn k nak pkt).sealed = s.sealed := by
  unfold State.ackIn
  dsimp only
  split
  · simp
  · exact (foldl_proj State.sealed (fun u o => by (repeat' split) <;> simp) _ _).trans (sealed_fdtAcked _ _ _ _ _ _ _ _)

@[simp] theorem seals_execFdtAck (pkt : FdtPacket) (s : State) : Seals s (execFdtAck pkt s) := by
  unfold execFdtAck
  split
  · rename_i h
    simp [sealed_of_fdtReceive h]
  · rename_i h
    simpa using sealed_of_fdtReceive h
  · exact (seals_next _ _).2 rfl

@[simp] theorem seals_execFdtNak (pkt : FdtPacket) (s : State) : Seals s (execFdtNak pkt s) := by
  unfold execFdtNak
  split
  · rename_i h
    simp [sealed_of_fdtReceive h]
  · rename_i h
    simpa using sealed_of_fdtReceive h
  · exact (seals_next _ _).2 rfl

@[simp] theorem seals_execFdtCnp (pkt : FdtPacket) (s : State) : Seals s (execFdtCnp pkt s) := by
  unfold execFdtCnp
  split
  · rename_i h
    simp [sealed_of_fdtReceive h]
  · rename_i h
    simpa using sealed_of_fdtReceive h
  · exact (seals_next _ _).2 rfl

@[simp] theorem seals_execFdtProbe (pkt : FdtPacket) (s : State) : Seals s (execFdtProbe pkt s) := by
  unfold execFdtProbe
  split
  · rename_i h
    simp [sealed_of_fdtReceive h]
  · rename_i h
    simpa using sealed_of_fdtReceive h
  · exact (seals_next _ _).2 rfl

@[simp] theorem sealed_openWith (s : State) (k : Nat) (remoteId : Word32) : (State.openWith s k remoteId).sealed = s.sealed := by
  simp [State.openWith]

@[simp] theorem sealed_acceptOpen (s : State) (k : Nat) (pkt : FdtPacket) (remoteId : Word32) :
    (State.acceptOpen s k pkt remoteId).sealed = s.sealed := by
  simp [State.acceptOpen]

@[simp] theorem seals_execFdtOpen (pkt : FdtPacket) (s : State) : Seals s (execFdtOpen pkt s) := by
  unfold execFdtOpen
  dsimp only
  split <;> rename_i h
  · have got := sealed_of_fdtReceive h
    split
    · simpa using got
    · split
      · split
        · simp [got]
        · split <;> simp [got]
      · split
        · simp [got]
        · simpa using got
  · simpa using sealed_of_fdtReceive h
  · exact (seals_next _ _).2 rfl

@[simp] theorem seals_execFdtOpenAck (pkt : FdtPacket) (s : State) : Seals s (execFdtOpenAck pkt s) := by
  unfold execFdtOpenAck
  split
  · rename_i h
    simp [sealed_of_fdtReceive h]
  · rename_i h
    simpa using sealed_of_fdtReceive h
  · exact (seals_next _ _).2 rfl

@[simp] theorem seals_execFdtClose (pkt : FdtPacket) (s : State) : Seals s (execFdtClose pkt s) := by
  unfold execFdtClose
  split
  · rename_i h
    simp [sealed_of_fdtReceive h]
  · rename_i h
    simpa using sealed_of_fdtReceive h
  · exact (seals_next _ _).2 rfl

@[simp] theorem seals_execFdtRetxTimeout (c : Fin 64) (s : State) : Seals s (execFdtRetxTimeout c s) := by
  unfold execFdtRetxTimeout
  dsimp only
  split <;> simp

@[simp] theorem seals_execFdtAckTimer (c : Fin 64) (s : State) : Seals s (execFdtAckTimer c s) := by
  simp [execFdtAckTimer]

@[simp] theorem seals_execFdtProbeTimer (c : Fin 64) (s : State) : Seals s (execFdtProbeTimer c s) := by
  simp [execFdtProbeTimer]

@[simp] theorem seals_execFdtRatePeriod (c : Fin 64) (s : State) : Seals s (execFdtRatePeriod c s) := by
  simp [execFdtRatePeriod]

@[simp] theorem sealed_cfgFdtPortCmd (b : List Byte) (s : State) : (cfgFdtPortCmd b s).state.sealed = s.sealed := by
  simp [cfgFdtPortCmd]

@[simp] theorem sealed_cfgFdtOpenCmd (r : Route) (b : List Byte) (s : State) : (cfgFdtOpenCmd r b s).state.sealed = s.sealed := by
  unfold cfgFdtOpenCmd
  split <;> simp

@[simp] theorem sealed_cfgFdtCloseCmd (b : List Byte) (s : State) : (cfgFdtCloseCmd b s).state.sealed = s.sealed := by
  simp [cfgFdtCloseCmd]

@[simp] theorem seals_execCfgFdtPort (r : Route) (s : State) : Seals s (execCfgFdtPort r s) := by
  simp [execCfgFdtPort]

@[simp] theorem seals_execCfgFdtOpen (r : Route) (s : State) : Seals s (execCfgFdtOpen r s) := by
  simp [execCfgFdtOpen]

@[simp] theorem seals_execCfgFdtClose (r : Route) (s : State) : Seals s (execCfgFdtClose r s) := by
  simp [execCfgFdtClose]

end Sys2Proof.Machine
end

section
/-! The granted ranges and the LMS keys through the operations of Group and GrpCmd. -/

namespace Sys2Proof.Machine

open Sys2Proof.Laws

@[simp] theorem sealed_takeMsg (s : State) (m : CtlMsg) : (State.takeMsg s m).sealed = s.sealed := by
  simp [State.takeMsg]

@[simp] theorem sealed_dropStale (s : State) (m : CtlMsg) : (State.dropStale s m).sealed = s.sealed := by
  unfold State.dropStale
  split <;> simp

@[simp] theorem sealed_roleWatch (s : State) : (State.roleWatch s).sealed = s.sealed := by
  simp [State.roleWatch]

@[simp] theorem seals_execApexState (m : CtlMsg) (s : State) : Seals s (execApexState m s) := by
  simp [execApexState]

@[simp] theorem sealed_applyResult (s : State) (b : List Byte) (src : ScSource) : (State.applyResult s b src).sealed = s.sealed := by
  simp [State.applyResult]

@[simp] theorem sealed_spreadResult (s : State) (b : List Byte) : (State.spreadResult s b).sealed = s.sealed := by
  unfold State.spreadResult
  split <;> simp

@[simp] theorem sealed_issueResult (s : State) (b : List Byte) : (State.issueResult s b).sealed = s.sealed := by
  simp [State.issueResult]

@[simp] theorem sealed_tryVerdict (s : State) : (State.tryVerdict s).sealed = s.sealed := by
  unfold State.tryVerdict
  dsimp only
  (repeat' split) <;> simp

@[simp] theorem seals_execVoteResult (m : CtlMsg) (s : State) : Seals s (execVoteResult m s) := by
  simp [execVoteResult]

@[simp] theorem sealed_groupResult (s : State) (v : Vote) : (State.groupResult s v).sealed = s.sealed := by
  unfold State.groupResult
  dsimp only
  (repeat' split) <;> simp

@[simp] theorem sealed_colVote (s : State) (y : Nat) (v : Vote) : (State.colVote s y v).sealed = s.sealed := by
  unfold State.colVote
  dsimp only
  (repeat' split) <;> simp

@[simp] theorem sealed_rowVote (s : State) (x y : Nat) (v : Vote) : (State.rowVote s x y v).sealed = s.sealed := by
  unfold State.rowVote
  dsimp only
  split <;> simp

@[simp] theorem sealed_lateNotes (s : State) (y : Nat) (step : Word32) (n late : Nat) : (State.lateNotes s y step n late).sealed = s.sealed := by
  induction n generalizing s late with
  | zero => rfl
  | succ n ih => simp [State.lateNotes, ih]

@[simp] theorem sealed_noteVote (s : State) (own : Bool) (x y : Nat) (v : Vote) : (State.noteVote s own x y v).sealed = s.sealed := by
  simp [State.noteVote]

@[simp] theorem seals_execVote (m : CtlMsg) (s : State) : Seals s (execVote m s) := by
  unfold execVote
  dsimp only
  (repeat' split) <;> simp

@[simp] theorem seals_execVoteGraceExpiry (s : State) : Seals s (execVoteGraceExpiry s) := by
  unfold execVoteGraceExpiry
  split <;> simp

@[simp] theorem sealed_quiesce (s : State) : (State.quiesce s).sealed = s.sealed := by
  simp [State.quiesce]

@[simp] theorem sealed_takeSubst (s : State) : (State.takeSubst s).sealed = s.sealed := by
  unfold State.takeSubst
  split <;> simp

@[simp] theorem sealed_resumeRun (s : State) : (State.resumeRun s).sealed = s.sealed := by
  unfold State.resumeRun
  dsimp only
  (repeat' split) <;> simp

@[simp] theorem sealed_enterPhase (s : State) (phase case : Nat) (step target : Word32) (failed : List Nat) :
    (State.enterPhase s phase case step target failed).sealed = s.sealed := by
  simp [State.enterPhase]

@[simp] theorem sealed_announce (s : State) (phase : Nat) : (State.announce s phase).sealed = s.sealed := by
  simp [State.announce]

@[simp] theorem sealed_chooseCase (s : State) (x y : Nat) : (State.chooseCase s x y).2.sealed = s.sealed := by
  simp [State.chooseCase]

@[simp] theorem sealed_rollBack (s : State) : (State.rollBack s).sealed = s.sealed := by
  simp [State.rollBack]

@[simp] theorem sealed_beginRecovery (s : State) (x y : Nat) : (State.beginRecovery s x y).sealed = s.sealed := by
  simp [State.beginRecovery]

@[simp] theorem sealed_loseGroup (s : State) (g cause : Nat) : (State.loseGroup s g cause).sealed = s.sealed := by
  simp [State.loseGroup]

@[simp] theorem sealed_ownLost (s : State) (cause : Nat) : (State.ownLost s cause).sealed = s.sealed := by
  simp [State.ownLost]

@[simp] theorem sealed_declareFailed (s : State) (f cause : Nat) : (State.declareFailed s f cause).sealed = s.sealed := by
  unfold State.declareFailed
  dsimp only
  (repeat' split) <;> simp

@[simp] theorem seals_execFailSelf (m : CtlMsg) (s : State) : Seals s (execFailSelf m s) := by
  simp [execFailSelf]

@[simp] theorem sealed_silent (s : State) : (State.silent s).2.sealed = s.sealed := by
  simp [State.silent]

@[simp] theorem seals_execVoteLimitExpiry (s : State) : Seals s (execVoteLimitExpiry s) := by
  unfold execVoteLimitExpiry
  split <;> simp

@[simp] theorem seals_execXvoteLimitExpiry (g : Fin 28) (s : State) : Seals s (execXvoteLimitExpiry g s) := by
  simp [execXvoteLimitExpiry]

@[simp] theorem seals_execRecoveringPeriod (s : State) : Seals s (execRecoveringPeriod s) := by
  simp [execRecoveringPeriod]

@[simp] theorem seals_execRecovery (m : CtlMsg) (s : State) : Seals s (execRecovery m s) := by
  simp [execRecovery]

@[simp] theorem sealed_writePos (s : State) (v : List Word64) : (State.writePos s v).sealed = s.sealed := by
  simp [State.writePos]

@[simp] theorem sealed_restoreBy (s : State) (dest : Nat × Nat) (restore : Bool) (payload : List Byte) :
    (State.restoreBy s dest restore payload).sealed = s.sealed := by
  simp [State.restoreBy]

@[simp] theorem sealed_revertAll (s : State) : (State.revertAll s).sealed = s.sealed := by
  simp [State.revertAll]

@[simp] theorem sealed_restorePhase (s : State) (lost : List (Nat × Nat)) : (State.restorePhase s lost).sealed = s.sealed := by
  simp [State.restorePhase]

@[simp] theorem sealed_endSubstitute (s : State) : (State.endSubstitute s).sealed = s.sealed := by
  simp [State.endSubstitute]

@[simp] theorem sealed_restoreAnswer (s : State) (seq : Word32) (status : Nat) : (State.restoreAnswer s seq status).sealed = s.sealed := by
  unfold State.restoreAnswer
  split <;> simp

@[simp] theorem seals_execMbCmdDone (m : CtlMsg) (s : State) : Seals s (execMbCmdDone m s) := by
  simp [execMbCmdDone]

@[simp] theorem sealed_endRecovery (s : State) : (State.endRecovery s).sealed = s.sealed := by
  unfold State.endRecovery
  dsimp only
  split <;> simp

@[simp] theorem seals_execRecoveryPhaseEnd (s : State) : Seals s (execRecoveryPhaseEnd s) := by
  unfold execRecoveryPhaseEnd
  (repeat' split) <;> simp

@[simp] theorem sealed_withheld (s : State) : (State.withheld s).2.sealed = s.sealed := by
  unfold State.withheld
  dsimp only
  (repeat' split) <;> simp

@[simp] theorem sealed_sendHeartbeat (s : State) : (State.sendHeartbeat s).sealed = s.sealed := by
  unfold State.sendHeartbeat
  dsimp only
  (repeat' split) <;> simp

@[simp] theorem sealed_countMissed (s : State) : (State.countMissed s).sealed = s.sealed := by
  simp [State.countMissed]

@[simp] theorem sealed_countApex (s : State) : (State.countApex s).sealed = s.sealed := by
  simp [State.countApex]

@[simp] theorem seals_execHeartbeatPeriod (s : State) : Seals s (execHeartbeatPeriod s) := by
  simp [execHeartbeatPeriod]

@[simp] theorem seals_execHeartbeat (m : CtlMsg) (s : State) : Seals s (execHeartbeat m s) := by
  simp [execHeartbeat]

@[simp] theorem sealed_resend (s : State) : (State.resend s).sealed = s.sealed := by
  unfold State.resend
  dsimp only
  (repeat' split) <;> simp

@[simp] theorem sealed_followApex (s : State) (epoch : Word16) (entry : Nat) : (State.followApex s epoch entry).sealed = s.sealed := by
  simp [State.followApex]

@[simp] theorem sealed_adoptState (s : State) : (State.adoptState s).sealed = s.sealed := by
  unfold State.adoptState
  split <;> simp

@[simp] theorem sealed_takeOver (s : State) (f : Nat) : (State.takeOver s f).sealed = s.sealed := by
  simp [State.takeOver]

@[simp] theorem seals_execApexClaimTimer (s : State) : Seals s (execApexClaimTimer s) := by
  unfold execApexClaimTimer
  split <;> simp

@[simp] theorem seals_execApexClaim (m : CtlMsg) (s : State) : Seals s (execApexClaim m s) := by
  simp [execApexClaim]

@[simp] theorem sealed_sendVerdict (s : State) (g p n : Nat) (v : Nat × Nat) : (State.sendVerdict s g p n v).sealed = s.sealed := by
  simp [State.sendVerdict]

@[simp] theorem sealed_compareDigests (s : State) (n : Nat) : (State.compareDigests s n).sealed = s.sealed := by
  simp [State.compareDigests]

@[simp] theorem sealed_passDigests (s : State) (n : Nat) : (State.passDigests s n).sealed = s.sealed := by
  simp [State.passDigests]

@[simp] theorem seals_execDigest (m : CtlMsg) (s : State) : Seals s (execDigest m s) := by
  simp [execDigest]

@[simp] theorem seals_execWeightRequest (m : CtlMsg) (s : State) : Seals s (execWeightRequest m s) := by
  simp [execWeightRequest]

@[simp] theorem sealed_grpConfigCmd (b : List Byte) (s : State) : (grpConfigCmd b s).state.sealed = s.sealed := by
  simp [grpConfigCmd]

@[simp] theorem seals_execGrpConfig (r : Route) (s : State) : Seals s (execGrpConfig r s) := by
  simp [execGrpConfig]

@[simp] theorem sealed_grpPolicyCmd (b : List Byte) (s : State) : (grpPolicyCmd b s).state.sealed = s.sealed := by
  simp [grpPolicyCmd]

@[simp] theorem seals_execGrpPolicy (r : Route) (s : State) : Seals s (execGrpPolicy r s) := by
  simp [execGrpPolicy]

@[simp] theorem sealed_grpStatusCmd (_b : List Byte) (s : State) : (grpStatusCmd _b s).state.sealed = s.sealed := by
  simp [grpStatusCmd]

@[simp] theorem seals_execGrpStatus (r : Route) (s : State) : Seals s (execGrpStatus r s) := by
  simp [execGrpStatus]

@[simp] theorem sealed_grpStatsCmd (_b : List Byte) (s : State) : (grpStatsCmd _b s).state.sealed = s.sealed := by
  simp [grpStatsCmd]

@[simp] theorem seals_execGrpStats (r : Route) (s : State) : Seals s (execGrpStats r s) := by
  simp [execGrpStats]

@[simp] theorem sealed_mb15Only (r : Route) (f : List Byte → State → CmdResult) (b : List Byte) (s : State)
    (h : ∀ b s, (f b s).state.sealed = s.sealed) : (mb15Only r f b s).state.sealed = s.sealed := by
  unfold mb15Only
  split
  · exact h b s
  · rfl

@[simp] theorem sealed_calledUp (s : State) (v : List Word64) : (State.calledUp s v).sealed = s.sealed := by
  simp [State.calledUp]

@[simp] theorem sealed_grpSubstituteCmd (b : List Byte) (s : State) : (grpSubstituteCmd b s).state.sealed = s.sealed := by
  unfold grpSubstituteCmd
  dsimp only
  (repeat' split) <;> simp

@[simp] theorem seals_execGrpSubstitute (r : Route) (s : State) : Seals s (execGrpSubstitute r s) := by
  simp [execGrpSubstitute]

@[simp] theorem sealed_grpRecoverCmd (b : List Byte) (s : State) : (grpRecoverCmd b s).state.sealed = s.sealed := by
  simp [grpRecoverCmd]

@[simp] theorem seals_execGrpRecover (r : Route) (s : State) : Seals s (execGrpRecover r s) := by
  simp [execGrpRecover]

@[simp] theorem sealed_grpReadyCmd (b : List Byte) (s : State) : (grpReadyCmd b s).state.sealed = s.sealed := by
  simp [grpReadyCmd]

@[simp] theorem seals_execGrpReady (r : Route) (s : State) : Seals s (execGrpReady r s) := by
  simp [execGrpReady]

@[simp] theorem sealed_grpReturnCmd (b : List Byte) (s : State) : (grpReturnCmd b s).state.sealed = s.sealed := by
  unfold grpReturnCmd
  dsimp only
  (repeat' split) <;> simp

@[simp] theorem seals_execGrpReturn (r : Route) (s : State) : Seals s (execGrpReturn r s) := by
  simp [execGrpReturn]

end Sys2Proof.Machine
end

section
/-! The granted ranges and the LMS keys through the operations of Host, Jobs, RegWrite and Stream. -/

namespace Sys2Proof.Machine

open Sys2Proof.Laws

@[simp] theorem sealed_aerSet (s : State) (b : Nat) : (State.aerSet s b).sealed = s.sealed := by
  simp [State.aerSet]

@[simp] theorem sealed_aer (s : State) (kind b : Nat) : (State.aer s kind b).sealed = s.sealed := by
  simp [State.aer]

@[simp] theorem sealed_unsupported (s : State) : (State.unsupported s).sealed = s.sealed := by
  simp [State.unsupported]

@[simp] theorem sealed_poisonPad (s : State) (p off len : Nat) : (State.poisonPad s p off len).sealed = s.sealed := by
  simp [State.poisonPad]

@[simp] theorem sealed_poisonLoc (s : State) (l : Loc) (len : Nat) : (State.poisonLoc s l len).sealed = s.sealed := by
  unfold State.poisonLoc
  (repeat' split) <;> simp

@[simp] theorem sealed_barOutside (s : State) (hdr : Word64) : (State.barOutside s hdr).sealed = s.sealed := by
  simp [State.barOutside]

@[simp] theorem seals_execBarMemoryWrite (hdr : Word64) (b : Bar) (off : Nat) (data : List Byte) (ep : Bool) (s : State) :
    Seals s (execBarMemoryWrite hdr b off data ep s) := by
  unfold execBarMemoryWrite
  dsimp only
  (repeat' split) <;> simp

@[simp] theorem seals_execBarMemoryRead (hdr : Word64) (b : Bar) (off : Nat) (len : Nat) (s : State) :
    Seals s (execBarMemoryRead hdr b off len s) := by
  unfold execBarMemoryRead
  dsimp only
  (repeat' split) <;> simp

@[simp] theorem seals_execHstFlushRead (s : State) : Seals s (execHstFlushRead s) := by
  simp [execHstFlushRead]

@[simp] theorem seals_execPcieLinkDown (s : State) : Seals s (execPcieLinkDown s) := by
  simp [execPcieLinkDown]

@[simp] theorem seals_execPcieLinkUp (gen width : Nat) (s : State) : Seals s (execPcieLinkUp gen width s) := by
  simp [execPcieLinkUp]

@[simp] theorem seals_execLinkDownLimitExpiry (s : State) : Seals s (execLinkDownLimitExpiry s) := by
  simp [execLinkDownLimitExpiry]

@[simp] theorem sealed_functionReset (s : State) : (State.functionReset s).sealed = s.sealed := by
  simp [State.functionReset]

@[simp] theorem seals_execHostReset (s : State) : Seals s (execHostReset s) := by
  simp [execHostReset]

@[simp] theorem seals_execFunctionLevelReset (s : State) : Seals s (execFunctionLevelReset s) := by
  simp [execFunctionLevelReset]

@[simp] theorem sealed_toD3hot (s : State) : (State.toD3hot s).sealed = s.sealed := by
  simp [State.toD3hot]

@[simp] theorem seals_execD3hotEntry (s : State) : Seals s (execD3hotEntry s) := by
  simp [execD3hotEntry]

@[simp] theorem seals_execConfigRequest (hdr : Word64) (fn : Nat) (op : CfgOp) (s : State) : Seals s (execConfigRequest hdr fn op s) := by
  unfold execConfigRequest
  dsimp only
  (repeat' split) <;> simp

@[simp] theorem seals_execFlushReadIssue (s : State) : Seals s (execFlushReadIssue s) := by
  unfold execFlushReadIssue
  split <;> simp

@[simp] theorem seals_execFlushReadComplete (s : State) : Seals s (execFlushReadComplete s) := by
  simp [execFlushReadComplete]

@[simp] theorem seals_execMalformedTlp (hdr : Word64) (s : State) : Seals s (execMalformedTlp hdr s) := by
  simp [execMalformedTlp]

@[simp] theorem seals_execUnsupportedRequest (hdr : Word64) (_k : UrKind) (s : State) : Seals s (execUnsupportedRequest hdr _k s) := by
  simp [execUnsupportedRequest]

@[simp] theorem seals_execUnexpectedCompletion (hdr : Word64) (s : State) : Seals s (execUnexpectedCompletion hdr s) := by
  simp [execUnexpectedCompletion]

@[simp] theorem seals_execBar0BadSizeRead (hdr : Word64) (off : Nat) (size : Nat) (s : State) : Seals s (execBar0BadSizeRead hdr off size s) := by
  simp [execBar0BadSizeRead]

@[simp] theorem sealed_hstCorrelateCmd (r : Route) (b : List Byte) (s : State) : (hstCorrelateCmd r b s).state.sealed = s.sealed := by
  unfold hstCorrelateCmd
  generalize (s.mbox r).receipt = t
  rw [CmdResult.state_ite, sealed_ite]
  refine (if_congr Iff.rfl rfl ?_).trans (ite_self _)
  rw [CmdResult.state_done]
  exact (sealed_onBoot _ _).trans ((sealed_report _ _ _ _ _ _).trans ((sealed_onBoot _ _).trans (sealed_onCp _ _)))

@[simp] theorem seals_execHstCorrelate (r : Route) (s : State) : Seals s (execHstCorrelate r s) := by
  simp [execHstCorrelate]

@[simp] theorem sealed_hstFenceCmd (_b : List Byte) (s : State) : (hstFenceCmd _b s).state.sealed = s.sealed := by
  simp [hstFenceCmd]

@[simp] theorem seals_execHstFence (r : Route) (s : State) : Seals s (execHstFence r s) := by
  simp [execHstFence]

@[simp] theorem sealed_hstBufRegisterCmd (b : List Byte) (s : State) : (hstBufRegisterCmd b s).state.sealed = s.sealed := by
  unfold hstBufRegisterCmd
  dsimp only
  (repeat' split) <;> simp

@[simp] theorem seals_execHstBufRegister (r : Route) (s : State) : Seals s (execHstBufRegister r s) := by
  simp [execHstBufRegister]

@[simp] theorem sealed_hstBufListCmd (b : List Byte) (s : State) : (hstBufListCmd b s).state.sealed = s.sealed := by
  simp [hstBufListCmd]

@[simp] theorem seals_execHstBufList (r : Route) (s : State) : Seals s (execHstBufList r s) := by
  simp [execHstBufList]

@[simp] theorem sealed_freshJob (s : State) : (State.freshJob s).sealed = s.sealed := by
  simp [State.freshJob]

@[simp] theorem sealed_jobStartCmd (b : List Byte) (s : State) : (jobStartCmd b s).state.sealed = s.sealed := by
  simp [jobStartCmd]

@[simp] theorem seals_execJobStart (r : Route) (s : State) : Seals s (execJobStart r s) := by
  simp [execJobStart]

@[simp] theorem sealed_idleNow (s : State) : (State.idleNow s).sealed = s.sealed := by
  simp [State.idleNow]

@[simp] theorem sealed_jobStopCmd (b : List Byte) (s : State) : (jobStopCmd b s).state.sealed = s.sealed := by
  simp [jobStopCmd]

@[simp] theorem seals_execJobStop (r : Route) (s : State) : Seals s (execJobStop r s) := by
  simp [execJobStop]

@[simp] theorem sealed_jobAbortCmd (b : List Byte) (s : State) : (jobAbortCmd b s).state.sealed = s.sealed := by
  unfold jobAbortCmd
  dsimp only
  (repeat' split) <;> simp

@[simp] theorem seals_execJobAbort (r : Route) (s : State) : Seals s (execJobAbort r s) := by
  simp [execJobAbort]

@[simp] theorem sealed_jobStatusCmd (_b : List Byte) (s : State) : (jobStatusCmd _b s).state.sealed = s.sealed := by
  simp [jobStatusCmd]

@[simp] theorem seals_execJobStatus (r : Route) (s : State) : Seals s (execJobStatus r s) := by
  simp [execJobStatus]

@[simp] theorem sealed_writeQueueReg (s : State) (q reg off size : Nat) (v : Word64) :
    (State.writeQueueReg s q reg off size v).sealed = s.sealed := by
  simp [State.writeQueueReg]

@[simp] theorem sealed_writeStreamReg (s : State) (a off size : Nat) (v : Word64) : (State.writeStreamReg s a off size v).sealed = s.sealed := by
  simp [State.writeStreamReg]

@[simp] theorem sealed_writeSc (s : State) (hdr : Word64) (n off size : Nat) (v : Word64) : (State.writeSc s hdr n off size v).sealed = s.sealed := by
  unfold State.writeSc
  dsimp only
  (repeat' split) <;> simp

@[simp] theorem sealed_writeChord (s : State) (a off size : Nat) (v : Word64) : (State.writeChord s a off size v).sealed = s.sealed := by
  simp [State.writeChord]

@[simp] theorem sealed_writeMsix (s : State) (o size : Nat) (v : Word64) : (State.writeMsix s o size v).sealed = s.sealed := by
  simp [State.writeMsix]

@[simp] theorem sealed_writeHost (s : State) (a off size : Nat) (v : Word64) : (State.writeHost s a off size v).sealed = s.sealed := by
  simp [State.writeHost]

@[simp] theorem sealed_writeTile (s : State) (win : Win) (reg off size : Nat) (v : Word64) :
    (State.writeTile s win reg off size v).sealed = s.sealed := by
  unfold State.writeTile
  split <;> simp

@[simp] theorem sealed_bar0Write (s : State) (hdr : Word64) (off size : Nat) (v : Word64) : (State.bar0Write s hdr off size v).sealed = s.sealed := by
  unfold State.bar0Write
  dsimp only
  simp only [sealed_ite, sealed_mbxBell, sealed_writeQueueReg, sealed_writeStreamReg, sealed_writeSc, sealed_writeAlmCtrl, sealed_writeChord,
    sealed_writeMemCtrl, sealed_onMem, sealed_writeHost, sealed_writeTile, ite_self]
  split
  · rfl
  · split
    · split
      · simp
      · simp
    · rfl

@[simp] theorem seals_execRegisterWrite (hdr : Word64) (off : Nat) (size : Nat) (v : Word64) (s : State) :
    Seals s (execRegisterWrite hdr off size v s) := by
  simp [execRegisterWrite]

@[simp] theorem seals_jstream (s : State) (c : Ctx) (op : Nat) (f : Fin 32 → Word64 → JviCtx → State)
    (h : ∀ k w x, (f k w x).sealed = s.sealed) : Seals s (State.jstream s c op f) := by
  unfold State.jstream
  split
  · simp
  · split
    · simp
    · simpa using h _ _ _

@[simp] theorem sealed_startCopy (s : State) (k : Fin 32) (w : Word64) (x : JviCtx) (copy : Nat → Nat → Nat → StreamCopy) :
    (State.startCopy s k w x copy).sealed = s.sealed := by
  simp [State.startCopy]

@[simp] theorem seals_execJTrd (c : Ctx) (s : State) : Seals s (execJTrd c s) := by
  simp [execJTrd]

@[simp] theorem seals_execJTwr (c : Ctx) (s : State) : Seals s (execJTwr c s) := by
  simp [execJTwr]

@[simp] theorem seals_execJTfdt (c : Ctx) (s : State) : Seals s (execJTfdt c s) := by
  simp [execJTfdt]

@[simp] theorem seals_execJTwait (c : Ctx) (s : State) : Seals s (execJTwait c s) := by
  simp [execJTwait]

@[simp] theorem seals_execStreamCopyDone (c : Fin 32) (s : State) : Seals s (execStreamCopyDone c s) := by
  unfold execStreamCopyDone
  dsimp only
  (repeat' split) <;> simp

end Sys2Proof.Machine
end

section
/-! Two invariants of every step: the granted ranges meet nowhere, and no LMS key is used twice (R368, R385). -/

namespace Sys2Proof.Machine

open Sys2Proof.Laws

def State.Guards (s t : State) : Prop :=
  (disjointGrants s.job.grants → disjointGrants t.job.grants) ∧
    (s.flash.lmsNext ≤ s.flash.lmsClaimed → t.flash.lmsNext ≤ t.flash.lmsClaimed ∧ s.flash.lmsNext ≤ t.flash.lmsNext)

theorem State.Guards.refl (s : State) : s.Guards s := ⟨id, fun h => ⟨h, le_rfl⟩⟩

theorem State.Guards.trans {s t u : State} (h : s.Guards t) (k : t.Guards u) : s.Guards u :=
  ⟨fun d => k.1 (h.1 d), fun d => ⟨(k.2 (h.2 d).1).1, (h.2 d).2.trans (k.2 (h.2 d).1).2⟩⟩

theorem guards_of_sealed {s t : State} (h : t.sealed = s.sealed) : s.Guards t := by
  obtain ⟨hg, hl⟩ := Prod.mk.inj h
  obtain ⟨hn, hc⟩ := Prod.mk.inj hl
  unfold State.Guards
  rw [hg, hn, hc]
  exact State.Guards.refl s

theorem grants_of_sealed {s t : State} (h : t.sealed = s.sealed) : t.job.grants = s.job.grants := congrArg (fun x => x.1) h
theorem lmsNext_of_sealed {s t : State} (h : t.sealed = s.sealed) : t.flash.lmsNext = s.flash.lmsNext := congrArg (fun x => x.2.1) h
theorem lmsClaimed_of_sealed {s t : State} (h : t.sealed = s.sealed) : t.flash.lmsClaimed = s.flash.lmsClaimed := congrArg (fun x => x.2.2) h

/-- The state an outcome continues with keeps the two invariants. -/
def GuardsOut (s : State) (o : Host.Outcome State Fault Refusal) : Prop := ∀ t, o = .next t → s.Guards t

theorem Seals.guards {s : State} {o : Host.Outcome State Fault Refusal} (h : Seals s o) : GuardsOut s o :=
  fun t e => guards_of_sealed (h t e)

theorem guardsOut_next {s t : State} (h : s.Guards t) : GuardsOut s (.next t) := fun _ e => by cases e; exact h

/-! ### The falls of the always-on domain -/

theorem guards_fall (s : State) : s.Guards s.fall := ⟨fun _ => List.Pairwise.nil, fun h => ⟨le_rfl, h⟩⟩

theorem guards_dualLoss (s : State) : s.Guards s.dualLoss := by
  unfold State.dualLoss
  dsimp only
  split
  · refine State.Guards.trans (guards_of_sealed ?_) (guards_fall _)
    exact (sealed_flushRecs _ _).trans ((sealed_draw _).trans rfl)
  · exact State.Guards.trans (guards_of_sealed rfl) (guards_fall _)

theorem guards_ite {c : Prop} [Decidable c] {s t u : State} (ht : s.Guards t) (hu : s.Guards u) : s.Guards (if c then t else u) := by
  split
  · exact ht
  · exact hu

theorem guards_loseMain (s : State) : s.Guards s.loseMain :=
  guards_ite (.refl s) (guards_ite (guards_dualLoss s)
    (guards_ite (guards_of_sealed (by simp)) (guards_of_sealed (by simp))))

theorem guards_execStandbyApply (mv : Nat) (s : State) : GuardsOut s (execStandbyApply mv s) := by
  unfold execStandbyApply
  split
  · exact (seals_fault s _).guards
  · split
    · exact guardsOut_next (.refl s)
    · exact guardsOut_next ((guards_fall s).trans (guards_of_sealed (sealed_onBoot _ _)))

theorem guards_execStandbyLoss (s : State) : GuardsOut s (execStandbyLoss s) := by
  unfold execStandbyLoss
  split
  · exact guardsOut_next (.refl s)
  · split
    · refine guardsOut_next (guards_of_sealed ?_)
      split <;> simp
    · exact guardsOut_next (guards_fall s)

theorem guards_execMainRailsOff (s : State) : GuardsOut s (execMainRailsOff s) := by
  unfold execMainRailsOff
  split
  · exact guardsOut_next (.refl s)
  · split
    · exact guardsOut_next (.refl s)
    · dsimp only
      split
      · exact guardsOut_next (State.Guards.trans (guards_of_sealed (by simp)) (guards_fall _))
      all_goals exact Seals.guards (by simp)

/-! ### The keys of the LMS tree -/

theorem guards_execStartupIdentity (pattern : List Byte) (s : State) : GuardsOut s (execStartupIdentity pattern s) := by
  have resumed : s.Guards (s.onFlash fun f => { f with serial := Config.certSerial s.certificate, lmsNext := f.lmsClaimed }) :=
    ⟨id, fun h => ⟨le_rfl, h⟩⟩
  unfold execStartupIdentity
  split
  · exact guardsOut_next (.refl s)
  · dsimp only
    split
    · split <;> exact guardsOut_next (resumed.trans (guards_of_sealed (by simp)))
    · exact guardsOut_next (resumed.trans (guards_of_sealed (by simp)))

/-- The signature before the next leaves a key claimed: one of the keys left, or the first of 1,024 claimed now. -/
theorem reserveLms_claims (s : State) :
    s.reserveLms.flash.lmsNext = s.flash.lmsNext ∧ s.flash.lmsNext < s.reserveLms.flash.lmsClaimed := by
  unfold State.reserveLms
  split
  · exact ⟨rfl, ‹_›⟩
  · dsimp only
    rw [lmsNext_of_sealed (sealed_report _ _ _ _ _ _), lmsClaimed_of_sealed (sealed_report _ _ _ _ _ _)]
    exact ⟨rfl, Nat.lt_add_of_pos_right (by decide)⟩

theorem grants_reserveLms (s : State) : s.reserveLms.job.grants = s.job.grants := by
  unfold State.reserveLms
  split
  · rfl
  · dsimp only
    rw [grants_of_sealed (sealed_report _ _ _ _ _ _)]
    rfl

theorem guards_secAttestCmd (b : List Byte) (s : State) : s.Guards (secAttestCmd b s).state := by
  unfold secAttestCmd
  split
  · exact .refl s
  · split
    · exact .refl s
    · split
      · exact .refl s
      · refine ⟨fun d => ?_, fun _ => ?_⟩
        · exact (grants_reserveLms s).symm ▸ d
        · obtain ⟨next, claims⟩ := reserveLms_claims s
          change s.reserveLms.flash.lmsNext + 1 ≤ s.reserveLms.flash.lmsClaimed ∧ s.flash.lmsNext ≤ s.reserveLms.flash.lmsNext + 1
          rw [next]
          exact ⟨claims, Nat.le_succ _⟩

/-! ### The granted ranges -/

theorem le_roundUp {a : Nat} (h : 0 < a) (n : Nat) : n ≤ roundUp a n := by
  unfold roundUp
  have := Nat.div_add_mod (n + a - 1) a
  have := Nat.mod_lt (n + a - 1) h
  rw [Nat.mul_comm]
  omega

theorem roundUp_mod (a n : Nat) : roundUp a n % a = 0 := Nat.mul_mod_left _ _

/-- The grants that end after an address: those that a search from it may still meet. -/
def endsAfter (l : List MemGrant) (a : Nat) : List MemGrant := l.filter fun g => decide (a < g.addr + g.size)

theorem length_endsAfter_lt {l : List MemGrant} {g : MemGrant} (hg : g ∈ l) {a b : Nat} (ha : a < g.addr + g.size) (hb : g.addr + g.size ≤ b) :
    (endsAfter l b).length < (endsAfter l a).length := by
  have narrowed : endsAfter l b = (endsAfter l a).filter fun g => decide (b < g.addr + g.size) := by
    unfold endsAfter
    rw [List.filter_filter]
    congr 1
    funext k
    rw [← Bool.decide_and, decide_eq_decide]
    omega
  rw [narrowed, List.length_filter_lt_length_iff_exists]
  exact ⟨g, List.mem_filter.2 ⟨hg, by simpa using ha⟩, by simpa using hb⟩

/-- Each grant the search meets ends before the next address it tries: with fuel beyond the grants that end later, it ends at an address
whose range meets none. -/
theorem fitFrom_fits {l : List MemGrant} {size align : Nat} (hp : 0 < align) {n a : Nat} (hn : (endsAfter l a).length < n) (ha : a % align = 0) :
    fitFrom l size align n a % align = 0 ∧
      ∀ g ∈ l, fitFrom l size align n a + size ≤ g.addr ∨ g.addr + g.size ≤ fitFrom l size align n a := by
  induction n generalizing a with
  | zero => exact absurd hn (Nat.not_lt_zero _)
  | succ n ih =>
    unfold fitFrom
    split
    · rename_i g found
      have met := List.find?_some found
      simp only [Bool.and_eq_true, decide_eq_true_eq] at met
      have fewer := length_endsAfter_lt (List.mem_of_find?_eq_some found) met.1 (le_roundUp hp (g.addr + g.size))
      exact ih (by omega) (roundUp_mod _ _)
    · rename_i none
      refine ⟨ha, fun g hg => ?_⟩
      have missed := List.find?_eq_none.1 none g hg
      simp only [Bool.and_eq_true, decide_eq_true_eq] at missed
      omega

theorem fitFrom_disjoint (l : List MemGrant) (size : Nat) {align : Nat} (hp : 0 < align) :
    fitFrom l size align (l.length + 1) 0 % align = 0 ∧
      ∀ g ∈ l, fitFrom l size align (l.length + 1) 0 + size ≤ g.addr ∨ g.addr + g.size ≤ fitFrom l size align (l.length + 1) 0 :=
  fitFrom_fits hp (Nat.lt_succ_of_le (List.length_filter_le _ _)) (Nat.zero_mod _)

theorem guards_grants {s : State} {f : Job → Job} (h : disjointGrants s.job.grants → disjointGrants (f s.job).grants) : s.Guards (s.onJob f) :=
  ⟨h, fun d => ⟨d, le_rfl⟩⟩

theorem guards_memAllocCmd (b : List Byte) (s : State) : s.Guards (memAllocCmd b s).state := by
  unfold memAllocCmd
  dsimp only
  split
  · exact .refl s
  · rename_i ranged
    split
    · exact .refl s
    · refine guards_grants (f := fun t => { t with grants := t.grants ++ [_] }) fun d => List.pairwise_append.2 ⟨d, List.pairwise_singleton _ _, fun g hg k hk => ?_⟩
      obtain rfl := List.mem_singleton.1 hk
      exact ((fitFrom_disjoint s.job.grants _ (by omega)).2 g hg).symm

theorem guards_memFreeCmd (b : List Byte) (s : State) : s.Guards (memFreeCmd b s).state := by
  unfold memFreeCmd
  dsimp only
  split
  · exact guards_grants (f := fun t => { t with grants := t.grants.filter _ }) fun d => d.filter _
  · exact .refl s

/-! ### The step -/

theorem guards_command {f : List Byte → State → CmdResult} (h : ∀ b (s : State), s.Guards (f b s).state) (s : State) (r : Route) (op : Nat) :
    s.Guards (s.command r op f) := by
  unfold State.command
  dsimp only
  split
  · split
    · exact guards_of_sealed (sealed_respond _ _ _ _)
    · have ran := h (mPayload (s.mbox r).request) s
      split <;> rename_i he <;> rw [he] at ran <;> exact ran.trans (guards_of_sealed (by simp))
  · exact .refl s

theorem guards_commandUnless {f : List Byte → State → CmdResult} (h : ∀ b (s : State), s.Guards (f b s).state) (s : State) (r : Route) (op : Nat)
    (waits : List Byte → Bool) : s.Guards (s.commandUnless r op waits f) := by
  unfold State.commandUnless
  split
  · exact .refl s
  · exact guards_command h s r op

theorem guards_exec (i : Instr) (s : State) : GuardsOut s (exec i s) := by
  cases i
  case standbyApply mv => exact guards_execStandbyApply mv s
  case startupIdentity p => exact guards_execStartupIdentity p s
  case mainInputLoss => exact guardsOut_next (guards_loseMain s)
  case emergOff => exact guardsOut_next (guards_loseMain s)
  case mainRailsOff => exact guards_execMainRailsOff s
  case standbyLoss => exact guards_execStandbyLoss s
  case dualInputLoss => exact guardsOut_next (guards_dualLoss s)
  case memAlloc r => exact guardsOut_next (guards_command guards_memAllocCmd s r _)
  case memFree r => exact guardsOut_next (guards_command guards_memFreeCmd s r _)
  case secAttest r => exact guardsOut_next (guards_commandUnless guards_secAttestCmd s r _ _)
  all_goals
    refine Seals.guards ?_
    unfold exec
    simp

theorem guards_step (s : State) : GuardsOut s (step s) := by
  unfold step
  split
  · exact guardsOut_next (guards_of_sealed (sealed_idleTick s))
  · rename_i c r queued
    exact fun t e => (guards_of_sealed rfl : s.Guards { s with pending := r }).trans (guards_exec c _ t e)

end Sys2Proof.Machine
end

section

namespace Sys2Proof.Proofs

open Sys2Proof.Machine Sys2Proof.Laws

/-- Settles O22: of all steps only MEM_ALLOC adds a range, and the address it grants meets none. -/
theorem memoryGrantsDisjoint : Obligations.MemoryGrantsDisjoint := by
  unfold Obligations.MemoryGrantsDisjoint
  exact ⟨fun grants size align _ hp => fitFrom_disjoint grants size hp, fun s t d h => (guards_step s t h).1 d, List.Pairwise.nil⟩

/-- Settles O45: a signature takes a key that is claimed, and where the always-on domain falls the next key is the first not claimed. -/
theorem lmsKeysNeverReused : Obligations.LmsKeysNeverReused := by
  unfold Obligations.LmsKeysNeverReused
  exact fun s t d h => (guards_step s t h).2 d

end Sys2Proof.Proofs
end

section
/-! The MEM commands (R385): one equation per branch of each. -/

namespace Sys2Proof.Machine

open Sys2Proof.Laws

section
variable {s : State} {b : List Byte}

theorem overQuota_eq_false {quota used : Nat} (h : quota = 0 ∨ used ≤ quota) : overQuota quota used = false := by
  obtain none | below := h
  · simp [overQuota, none]
  · simp [overQuota, Nat.not_lt.2 below]

theorem overQuota_eq_true {quota used : Nat} (h : quota ≠ 0) (above : quota < used) : overQuota quota used = true := by
  simp [overQuota, h, above]

theorem memQuotaCmd_bad (slot : 7 < le b 0 1) : memQuotaCmd b s = .done stBadOpcode [] s := if_pos slot

theorem memQuotaCmd_ok (slot : le b 0 1 ≤ 7) (within : le b 8 8 = 0 ∨ s.memUse (le b 0 1) ≤ le b 8 8) :
    memQuotaCmd b s = .done stOk [] (s.onJob fun t => { t with quota := Sparse.put 0 t.quota (le b 0 1) (le b 8 8) }) :=
  (if_neg (Nat.not_lt.2 slot)).trans (if_neg (Bool.not_eq_true _ ▸ overQuota_eq_false within))

theorem memQuotaCmd_over (slot : le b 0 1 ≤ 7) (some_ : le b 8 8 ≠ 0) (above : le b 8 8 < s.memUse (le b 0 1)) :
    memQuotaCmd b s = .done stOverQuota [] (s.onJob fun t => { t with quota := Sparse.put 0 t.quota (le b 0 1) (le b 8 8) }) :=
  (if_neg (Nat.not_lt.2 slot)).trans (if_pos (overQuota_eq_true some_ above))

section
variable (slot : le b 0 1 ≤ 7) (size : 0 < le b 8 8) (align : ∃ k, 12 ≤ k ∧ k < 64 ∧ le b 16 8 = 2 ^ k)
include slot size align

/-- MEM_ALLOC takes a slot below 8, a size and a power of two from 4,096 on. -/
theorem memAllocCmd_ranged : ¬(7 < le b 0 1 ∨ le b 8 8 = 0 ∨ le b 16 8 < 4096 ∨
    (!(List.range 64).any fun k => le b 16 8 == 2 ^ k) = true) := by
  obtain ⟨k, low, high, power⟩ := align
  have atLeast : 2 ^ 12 ≤ le b 16 8 := power ▸ Nat.pow_le_pow_right Nat.two_pos low
  have listed : ((List.range 64).any fun k => le b 16 8 == 2 ^ k) = true :=
    List.any_eq_true.2 ⟨k, List.mem_range.2 high, beq_iff_eq.2 power⟩
  rw [listed]
  simp only [Bool.not_true, Bool.false_eq_true, or_false]
  omega

theorem memAllocCmd_ok (within : Sparse.get 0 s.job.quota (le b 0 1) = 0 ∨
      s.memUse (le b 0 1) + le b 8 8 ≤ Sparse.get 0 s.job.quota (le b 0 1))
    (fits : fitFrom s.job.grants (le b 8 8) (le b 16 8) (s.job.grants.length + 1) 0 + le b 8 8 ≤ g7Size) :
    memAllocCmd b s = .done stOk (leBytes 8 (fitFrom s.job.grants (le b 8 8) (le b 16 8) (s.job.grants.length + 1) 0))
      (s.onJob fun t => { t with
        grants := t.grants ++ [⟨le b 0 1, fitFrom s.job.grants (le b 8 8) (le b 16 8) (s.job.grants.length + 1) 0, le b 8 8⟩] }) :=
  (if_neg (memAllocCmd_ranged slot size align)).trans (if_neg (by rw [overQuota_eq_false within]; simp [fits]))

theorem memAllocCmd_over (quota : Sparse.get 0 s.job.quota (le b 0 1) ≠ 0)
    (above : Sparse.get 0 s.job.quota (le b 0 1) < s.memUse (le b 0 1) + le b 8 8) : memAllocCmd b s = .done stOverQuota [] s :=
  (if_neg (memAllocCmd_ranged slot size align)).trans (if_pos (.inl (overQuota_eq_true quota above)))

end

theorem memFreeCmd_ok (granted : ∃ g ∈ s.job.grants, g.slot = le b 0 1 ∧ g.addr = le b 8 8) :
    memFreeCmd b s = .done stOk []
      (s.onJob fun t => { t with grants := t.grants.filter fun g => !(g.slot == le b 0 1 && g.addr == le b 8 8) }) :=
  if_pos (List.any_eq_true.2 (by simpa using granted))

theorem memFreeCmd_bad (free : ∀ g ∈ s.job.grants, ¬(g.slot = le b 0 1 ∧ g.addr = le b 8 8)) :
    memFreeCmd b s = .done stBadOpcode [] s :=
  if_neg fun any => by
    obtain ⟨g, hg, same⟩ := List.any_eq_true.1 any
    exact free g hg (by simpa using same)

end

end Sys2Proof.Machine
end

section
namespace Sys2Proof.Proofs
open Sys2Proof.Machine Sys2Proof.Laws

/-- Settles O17: the effect of each of these commands is its response. -/
theorem stavmonReports : Obligations.StavmonReports := by
  intro s r
  unfold reportOps
  simp only [List.forall_mem_cons, List.not_mem_nil, false_imp_iff, implies_true, and_true]
  and_intros
  all_goals exact fun h => completes_of_done h rfl rfl

/-- Settles O21: each clause is one branch of its command's effect. -/
theorem memoryCommands : Obligations.MemoryCommands := by
  intro s r
  refine ⟨fun h => ⟨fun slot within => ?quota, fun slot some_ above => ?quotaOver, fun slot => ?quotaSlot⟩,
    fun h slot size align => ⟨fun within fits => ?alloc, fun ⟨quota, above⟩ => ?allocOver⟩, fun h => ⟨fun granted => ?free, fun free => ?notGranted⟩⟩
  case quota => exact completes_of_done h rfl (memQuotaCmd_ok slot within)
  case quotaOver => exact completes_of_done h rfl (memQuotaCmd_over slot some_ above)
  case quotaSlot => exact completes_of_done h rfl (memQuotaCmd_bad slot)
  case alloc => exact completes_of_done h rfl (memAllocCmd_ok slot size align within fits)
  case allocOver => exact completes_of_done h rfl (memAllocCmd_over slot size align quota above)
  case free => exact completes_of_done h rfl (memFreeCmd_ok granted)
  case notGranted => exact completes_of_done h rfl (memFreeCmd_bad free)

end Sys2Proof.Proofs
end

section
/-! MOD_POWER_ON, MOD_POWER_OFF and MOD_RESET (R372, R373): one equation per branch of each. -/

namespace Sys2Proof.Machine

open Sys2Proof.Laws

/-- MOD_RESET ends what holds start-up, and waits (R373). -/
def State.resetAsked (s : State) (r : Route) : State := s.onBoot fun x => { x with springHeld := false, holdCause := 0, waiter := some r }

section
variable {s : State} {b : List Byte} (r : Route)

/-! MOD_POWER_ON -/

theorem modPowerOnCmd_noInput (input : s.boot.main = false) : modPowerOnCmd r b s = .done stDeniedRegime [] s := if_pos (by simp [input])

section
variable (input : s.boot.main = true)
include input

theorem modPowerOnCmd_already (on : s.boot.mainOn = true) : modPowerOnCmd r b s = .done stAlreadyDone [] s :=
  (if_neg (by simp [input])).trans (if_pos on)

theorem modPowerOnCmd_hot (off : s.boot.mainOn = false) (hot : s.hot85 = true) : modPowerOnCmd r b s = .done stBusy [] s :=
  (if_neg (by simp [input])).trans ((if_neg (by simp [off])).trans (if_pos (.inl hot)))

theorem modPowerOnCmd_starts (off : s.boot.mainOn = false) (cool : s.hot85 = false) (free : s.boot.waiter = none) :
    modPowerOnCmd r b s = .running (s.onBoot fun b => { b with powerOn := true, autoInhibit := false, waiter := some r }).tryPhase4 :=
  (if_neg (by simp [input])).trans ((if_neg (by simp [off])).trans (if_neg (by simp [cool, free])))

end

/-! MOD_POWER_OFF -/

theorem modPowerOffCmd_already (off : s.boot.mainOn = false) : modPowerOffCmd r b s = .done stAlreadyDone [] s := if_pos (by simp [off])

section
variable (on : s.boot.mainOn = true)
include on

theorem modPowerOffCmd_busy (run : s.jobRuns = true) : modPowerOffCmd r b s = .done stBusy [] s :=
  (if_neg (by simp [on])).trans (if_pos (.inl run))

theorem modPowerOffCmd_starts (idle : s.jobRuns = false) (free : s.boot.waiter = none) (up : s.boot.shutdown = none) :
    modPowerOffCmd r b s = .running ((s.onBoot fun b => { b with waiter := some r }).beginShutdown .powerOff) :=
  (if_neg (by simp [on])).trans (if_neg (by simp [idle, free, up]))

end

/-! MOD_RESET -/

theorem modResetCmd_bad (kind : 2 < le b 0 1) : modResetCmd r b s = .done stBadOpcode [] s := if_pos kind

theorem modResetCmd_busy (kind : le b 0 1 ≤ 2) (run : s.jobRuns = true) : modResetCmd r b s = .done stBusy [] s :=
  (if_neg (Nat.not_lt.2 kind)).trans (if_pos (.inl run))

section
variable (idle : s.jobRuns = false) (free : s.boot.waiter = none) (up : s.boot.shutdown = none)
include idle free up

theorem modResetCmd_warm (kind : le b 0 1 = 0) :
    modResetCmd r b s = .running (((s.resetAsked r).coldLoad.onCp fun c => { c with halted := false }).onBoot fun x => { x with
      phase := 0, ready := false, resume := if s.boot.phase < 4 then none else some s.boot.phase }) :=
  (if_neg (by omega)).trans ((if_neg (by simp [idle, free, up])).trans (if_pos kind))

theorem modResetCmd_on (kind : le b 0 1 = 1 ∨ le b 0 1 = 2) (on : s.boot.mainOn = true) :
    modResetCmd r b s = .running ((s.resetAsked r).beginShutdown (.reset (le b 0 1))) :=
  (if_neg (by omega)).trans ((if_neg (by simp [idle, free, up])).trans ((if_neg (by omega)).trans (if_pos on)))

theorem modResetCmd_off (kind : le b 0 1 = 1 ∨ le b 0 1 = 2) (off : s.boot.mainOn = false) :
    modResetCmd r b s = .running (
      let x := (s.resetAsked r).onBoot fun x => { x with phase := if le b 0 1 = 1 then 2 else 0, resume := none }
      if le b 0 1 = 1 then x else x.coldLoad) :=
  (if_neg (by omega)).trans ((if_neg (by simp [idle, free, up])).trans ((if_neg (by omega)).trans (if_neg (by simp [off]))))

end

end

end Sys2Proof.Machine
end

section
namespace Sys2Proof.Proofs
open Sys2Proof.Machine Sys2Proof.Laws

/-- Settles O24: each clause is one branch of its command's effect. -/
theorem moduleCommands : Obligations.ModuleCommands := by
  intro s r
  refine ⟨fun h => ⟨?noInput, ?already, ?hot, ?powerOn⟩, fun h => ⟨?off, ?running, ?powerOff⟩, fun h => ⟨?badKind, ?busy, ?warm, ?cold, ?standby⟩⟩
  case noInput => exact fun input => completes_of_done h rfl (modPowerOnCmd_noInput r input)
  case already => exact fun input on => completes_of_done h rfl (modPowerOnCmd_already r input on)
  case hot => exact fun input off hot => completes_of_done h rfl (modPowerOnCmd_hot r input off hot)
  case powerOn => exact fun input off cool free => runsOn_of_running h rfl (modPowerOnCmd_starts r input off cool free)
  case off => exact fun off => completes_of_done h rfl (modPowerOffCmd_already r off)
  case running => exact fun on run => completes_of_done h rfl (modPowerOffCmd_busy r on run)
  case powerOff => exact fun on idle free up => runsOn_of_running h rfl (modPowerOffCmd_starts r on idle free up)
  case badKind => exact fun kind => completes_of_done h rfl (modResetCmd_bad r kind)
  case busy => exact fun kind run => completes_of_done h rfl (modResetCmd_busy r kind run)
  case warm => exact fun kind idle free up => runsOn_of_running h rfl (modResetCmd_warm r idle free up kind)
  case cold => exact fun kind idle free up on => runsOn_of_running h rfl (modResetCmd_on r idle free up kind on)
  case standby => exact fun kind idle free up off => runsOn_of_running h rfl (modResetCmd_off r idle free up kind off)

end Sys2Proof.Proofs
end

section
/-! ALM_CONFIG, ALM_FLUSH and the DIAG commands (R395, R400, R405, R407): what each branch leaves. -/

namespace Sys2Proof.Machine

open Sys2Proof.Laws

/-! ### ALM_CONFIG -/

section
variable {s : State} {b : List Byte} (r : Route)

theorem almConfigCmd_level (same : le b 0 1 = bit s.alm.bySeverity) (keep : le b 0 1 = 0) (units : le b 2 2 = s.alm.keepUnits)
    (plain : bitOf (le b 4 1) 0 = false) :
    almConfigCmd r b s = .done stOk [] (s.onAlm fun a => { a with flushLevel := min 2048 (le b 8 2) }) :=
  (if_neg (by omega)).trans ((if_neg (by simp [plain])).trans (if_neg (by simp [same, units])))

theorem almConfigCmd_bad (policy : le b 0 1 ≤ 1) (other : le b 0 1 ≠ bit s.alm.bySeverity) (plain : bitOf (le b 4 1) 0 = false) :
    almConfigCmd r b s = .done stBadOpcode [] s :=
  (if_neg (by omega)).trans ((if_neg (by simp [plain])).trans (if_pos (.inl other)))

section
variable (policy : le b 0 1 = 1) (clear : bitOf (le b 4 1) 0 = true)
include policy clear

theorem almConfigCmd_busy (run : s.jobRuns = true) : almConfigCmd r b s = .done stBusy [] s :=
  (if_neg (by omega)).trans ((if_pos clear).trans ((if_neg (by simp [policy])).trans (if_pos (.inl run))))

end

/-- The Almanac cleared under BY_SEVERITY, and its record (R400 steps 2 to 4). -/
def State.almCleared (s : State) (b : List Byte) : State :=
  let t := s.flushNow.payLost.flushNow
  (t.onAlm fun a => { a with
    ring := [], flash := [], head := 0, erased := List.range 128, flushedSeq := none, flashFull := false, rows := [], lostRing := 0, lostFlash := 0
    nextSeq := 0, bySeverity := true, cfgMismatch := false, flushing := false, flushDue := false, flushLevel := min 2048 (le b 8 2) }).report
    0x0E02 .note 0x14 0 (leBytes 2 1 ++ leBytes 2 0 ++ leBytes 4 t.alm.flash.length)

theorem almConfigCmd_clears (policy : le b 0 1 = 1) (clear : bitOf (le b 4 1) 0 = true) (idle : s.jobRuns = false)
    (free : s.flash.mcbWrite = none) (next : s.flash.mcbNext = none) :
    almConfigCmd r b s = .pending ((s.almCleared b).endFlushCommands.onFlash fun f => { f with
      mcbWrite := some ⟨(s.almCleared b).almMcb 1 (le b 2 2), some r, (s.almCleared b).now⟩ }) := by
  unfold almConfigCmd
  dsimp only
  rw [if_neg (by omega), if_pos clear, if_neg (by simp [policy]), if_neg (by simp [idle, free, next])]
  simp only [policy]
  rfl

end

/-- A flush writes the Almanac alone. -/
theorem news_flushRecs (l : List AlmRec) (s : State) : (s.flushRecs l).sansNews = s.sansNews := by
  induction l generalizing s with
  | nil => rfl
  | cons r l ih =>
    unfold State.flushRecs
    split
    · split <;> exact ih _
    · exact ih _

theorem news_flushNow (s : State) : s.flushNow.sansNews = s.sansNews := news_flushRecs _ s

theorem news_onAlm (s : State) (f : Alm → Alm) : (s.onAlm f).sansNews = s.sansNews := rfl

theorem news_almCleared (s : State) (b : List Byte) : (s.almCleared b).sansNews = s.sansNews := by
  unfold State.almCleared
  rw [(notices_report _ _ _ _ _ _).news, news_onAlm, news_flushNow, (notices_payLost _).news, news_flushNow]

/-- A record below FAULT leaves the flash of the Almanac, the place of its next write and its policy. -/
theorem State.OnlyReports.almFlash {s t : State} (h : s.OnlyReports t) :
    t.alm.flash = s.alm.flash ∧ t.alm.head = s.alm.head ∧ t.alm.bySeverity = s.alm.bySeverity := by
  exact ⟨by simpa [State.sansReports] using congrArg (fun x : State => x.alm.flash) h.rest,
    by simpa [State.sansReports] using congrArg (fun x : State => x.alm.head) h.rest,
    by simpa [State.sansReports] using congrArg (fun x : State => x.alm.bySeverity) h.rest⟩

/-- What the clear leaves of the Almanac: the flash is empty under the new policy. -/
theorem alm_almCleared (s : State) (b : List Byte) :
    (s.almCleared b).alm.flash = [] ∧ (s.almCleared b).alm.head = 0 ∧ (s.almCleared b).alm.bySeverity = true := by
  unfold State.almCleared
  exact (onlyReports_report _ _ _ _ _ (by decide)).almFlash

theorem alm_endCommand (s : State) (r : Option Route) (st : Word16) (resp : List Byte) : (s.endCommand r st resp).alm = s.alm := by
  unfold State.endCommand
  split
  · split
    · rw [(respond_answers s _ st resp).1.1]
    · rfl
  · rfl

theorem alm_endFlushCommands (s : State) : s.endFlushCommands.alm = s.alm :=
  foldl_proj State.alm (fun u r => by split <;> simp [alm_endCommand]) _ s

/-! ### ALM_FLUSH -/

section
variable {s : State} {b : List Byte}

theorem almFlushCmd_done (flushed : ∀ x ∈ s.alm.ring, x.flushed = true) : almFlushCmd b s = .done stOk [] s :=
  if_pos (List.length_eq_zero_iff.2 (List.filter_eq_nil_iff.2 fun x hx => by simp [flushed x hx]))

theorem almFlushCmd_flushes (left : ∃ x ∈ s.alm.ring, x.flushed = false) : almFlushCmd b s = .running s.startFlush :=
  if_neg fun none => by
    obtain ⟨x, hx, unflushed⟩ := left
    exact absurd (List.filter_eq_nil_iff.1 (List.length_eq_zero_iff.1 none) x hx) (by simp [unflushed])

/-! ### DIAG_INJECT and DIAG_SELFTEST -/

theorem diagInjectCmd_bad (unknown : detectorTakes (le b 0 2) = none) : diagInjectCmd b s = .done stBadOpcode [] s := by
  unfold diagInjectCmd
  dsimp only
  rw [unknown]
  rfl

theorem diagInjectCmd_ok {ok : Nat → Nat → Nat → Bool} {k : Nat} (det : detectorTakes (le b 0 2) = some ok)
    (target : ok (le b 3 1) (le b 4 2) (le b 6 1) = true) (mode : le b 2 1 ≤ 1) (count : le b 2 1 = 1 → le b 8 4 ≠ 0)
    (slot : (List.range 16).find? (fun k => !(s.injSlot k).armed) = some k) :
    diagInjectCmd b s = .done stOk (leBytes 1 k) ((s.setSlot k ⟨true, le b 2 1 == 1, BitVec.ofNat 16 (le b 0 2), BitVec.ofNat 8 (le b 3 1),
        BitVec.ofNat 16 (le b 4 2), BitVec.ofNat 8 (le b 6 1), BitVec.ofNat 32 (le b 8 4), BitVec.ofNat 32 (le b 12 4), 0, 0,
        (s.ptile (le b 4 2)).getD 68⟩).report 0x0E03 .info (le b 3 1) (le b 4 2) (leBytes 2 (le b 0 2) ++ leBytes 1 (le b 2 1) ++
          leBytes 1 k ++ leBytes 4 (le b 8 4) ++ leBytes 1 (le b 3 1) ++ leBytes 2 (le b 4 2) ++ leBytes 1 (le b 6 1))) := by
  have taken : ¬(!ok (le b 3 1) (le b 4 2) (le b 6 1) ∨ 1 < le b 2 1 ∨ (le b 2 1 = 1 ∧ le b 8 4 = 0)) := by
    rintro (off | above | ⟨counted, zero⟩)
    · simp [target] at off
    · omega
    · exact count counted zero
  unfold diagInjectCmd
  dsimp only
  rw [det]
  dsimp only
  rw [if_neg taken, slot]

variable (r : Route)

theorem diagSelftestCmd_bad (bad : le b 0 1 ≠ 0 ∨ 67 < le b 1 1) : diagSelftestCmd r b s = .done stBadOpcode [] s := if_pos bad

theorem diagSelftestCmd_busy (zero : le b 0 1 = 0) (tile : le b 1 1 ≤ 67) (active : s.testable (le b 1 1) = false) :
    diagSelftestCmd r b s = .done stBusy [] s := (if_neg (by omega)).trans (if_pos (.inl (by simp [active])))

theorem diagSelftestCmd_runs (zero : le b 0 1 = 0) (tile : le b 1 1 ≤ 67) (testable : s.testable (le b 1 1) = true)
    (free : s.cp.selftest = none) :
    diagSelftestCmd r b s = .running (s.onCp fun c => { c with selftest := some (le b 1 1, some r) }) :=
  (if_neg (by omega)).trans (if_neg (by simp [testable, free]))

end

/-! ### DIAG_CLEAR -/

/-- DIAG_CLEAR of one slot. -/
def State.clearSlot (s : State) (k : Nat) : State := (s.disarm k 1).setSlot k { (s.disarm k 1).injSlot k with fired := 0 }

theorem injSlot_setSlot_same (s : State) (k : Nat) (x : InjSlot) : (s.setSlot k x).injSlot k = x := get_put_same _ _ _ _

theorem injSlot_setSlot_other (s : State) {k j : Nat} (x : InjSlot) (h : k ≠ j) : (s.setSlot k x).injSlot j = s.injSlot j :=
  get_put_other _ _ _ h

theorem injSlot_report (s : State) (code : Nat) (sev : Severity) (kind index : Nat) (p : List Byte) (j : Nat) :
    (s.report code sev kind index p).injSlot j = s.injSlot j :=
  congrArg (fun l => Sparse.get Reset.slot l j) (notices_report s code sev kind index p).slots

theorem armed_disarm (s : State) (k cause : Nat) : ((s.disarm k cause).injSlot k).armed = false := by
  unfold State.disarm
  dsimp only
  split
  · rename_i h
    simpa using h
  · rw [injSlot_report, injSlot_setSlot_same]

theorem injSlot_disarm_other (s : State) {k j : Nat} (cause : Nat) (h : k ≠ j) : (s.disarm k cause).injSlot j = s.injSlot j := by
  unfold State.disarm
  dsimp only
  split
  · rfl
  · rw [injSlot_report, injSlot_setSlot_other _ _ h]

theorem injSlot_clearSlot_other (s : State) {k j : Nat} (h : k ≠ j) : (s.clearSlot k).injSlot j = s.injSlot j :=
  (injSlot_setSlot_other _ _ h).trans (injSlot_disarm_other s 1 h)

theorem clearSlot_clears (s : State) (k : Nat) : ((s.clearSlot k).injSlot k).armed = false ∧ ((s.clearSlot k).injSlot k).fired = 0 := by
  unfold State.clearSlot
  rw [injSlot_setSlot_same]
  exact ⟨armed_disarm s k 1, rfl⟩

/-- The slots below n that a mask names, cleared. -/
def State.clearSlots (s : State) (m n : Nat) : State := (List.range n).foldl (fun s k => if bitOf m k then s.clearSlot k else s) s

theorem clearSlots_succ (s : State) (m n : Nat) :
    s.clearSlots m (n + 1) = if bitOf m n then (s.clearSlots m n).clearSlot n else s.clearSlots m n := by
  unfold State.clearSlots
  rw [List.range_succ, List.foldl_append]
  rfl

theorem injSlot_clearSlots_of_le (s : State) (m : Nat) {n k : Nat} (h : n ≤ k) : (s.clearSlots m n).injSlot k = s.injSlot k := by
  induction n with
  | zero => rfl
  | succ n ih =>
    rw [clearSlots_succ]
    split
    · rw [injSlot_clearSlot_other _ (by omega), ih (by omega)]
    · exact ih (by omega)

/-- A slot below n is cleared where the mask names it, and is as it was elsewhere. -/
theorem injSlot_clearSlots (s : State) (m : Nat) {n k : Nat} (h : k < n) :
    (bitOf m k = true → ((s.clearSlots m n).injSlot k).armed = false ∧ ((s.clearSlots m n).injSlot k).fired = 0) ∧
      (bitOf m k = false → (s.clearSlots m n).injSlot k = s.injSlot k) := by
  induction n with
  | zero => exact absurd h (Nat.not_lt_zero k)
  | succ n ih =>
    rw [clearSlots_succ]
    obtain rfl | below := Nat.eq_or_lt_of_le (Nat.le_of_lt_succ h)
    · split
      · rename_i named
        exact ⟨fun _ => clearSlot_clears _ k, fun unnamed => absurd (named.symm.trans unnamed) (by decide)⟩
      · rename_i unnamed
        exact ⟨fun named => absurd named unnamed, fun _ => injSlot_clearSlots_of_le s m (Nat.le_refl k)⟩
    · split
      · rw [injSlot_clearSlot_other _ (by omega)]
        exact ih below
      · exact ih below

theorem diagClearCmd_eq (b : List Byte) (s : State) : diagClearCmd b s = .done stOk [] (s.clearSlots (le b 0 2) 16) := rfl

end Sys2Proof.Machine
end

section
namespace Sys2Proof.Proofs
open Sys2Proof.Machine Sys2Proof.Laws

/-- Settles O27: each clause is one branch of its command's effect; the record of a clear leaves the flash of the Almanac empty. -/
theorem almanacCommands : Obligations.AlmanacCommands := by
  intro s r
  refine ⟨fun h policy plain => ⟨fun same keep units => ?level, fun other => ?otherPolicy⟩,
    fun h policy clear => ⟨fun run => ?busy, fun idle free next => ?clears⟩, fun h => ⟨fun flushed => ?flushed, fun left => ?flushes⟩,
    fun h => ⟨fun ok det target mode count k slot => ?inject, fun unknown => ?unknown⟩,
    fun h => ⟨fun zero tile testable free => ?test, fun zero tile active => ?active, fun bad => ?badTile⟩, fun h => ?clearSlots⟩
  case level => exact completes_of_done h rfl (almConfigCmd_level r same keep units plain)
  case otherPolicy => exact completes_of_done h rfl (almConfigCmd_bad r policy other plain)
  case busy => exact completes_of_done h rfl (almConfigCmd_busy r policy clear run)
  case clears =>
    refine ⟨_, runsBefore_of_pending h rfl (almConfigCmd_clears r policy clear idle free next), ?_⟩
    have cleared := alm_almCleared s (s.payload r)
    have flash : (s.almCleared (s.payload r)).flash = s.flash := field_of_news (news_almCleared s _) State.flash fun _ => rfl
    have now : (s.almCleared (s.payload r)).now = s.now := field_of_news (news_almCleared s _) State.now fun _ => rfl
    simp only [onFlash_alm, alm_endFlushCommands, cleared, onFlash_flash, State.almMcb, State.flashBytes, flash, now, and_self]
  case flushed => exact completes_of_done h rfl (almFlushCmd_done flushed)
  case flushes => exact runsOn_of_running h rfl (almFlushCmd_flushes left)
  case inject => exact completes_of_done h rfl (diagInjectCmd_ok det target mode count slot)
  case unknown => exact completes_of_done h rfl (diagInjectCmd_bad unknown)
  case test => exact runsOn_of_running h rfl (diagSelftestCmd_runs r zero tile testable free)
  case active => exact completes_of_done h rfl (diagSelftestCmd_busy r zero tile active)
  case badTile => exact completes_of_done h rfl (diagSelftestCmd_bad r bad)
  case clearSlots => exact ⟨_, completes_of_done h rfl (diagClearCmd_eq _ _), fun k hk => injSlot_clearSlots s _ hk⟩

end Sys2Proof.Proofs
end

section
/-! What the power manager settles, and what it is told (R332, R333, R341, R355): the regime, the setpoint with its slew, COMP_SP and the
throttle reasons follow by themselves; the rest of the power manager stays as commands, readings and trips leave it. -/

namespace Sys2Proof.Machine

open Sys2Proof.Laws

/-- The power manager without the regime and the setpoints that follow. -/
def Pwr.settings (p : Pwr) : Pwr := { p with regime := .none_, setpoint := 0, compSp := 0 }
/-- Without the slew. -/
def PwrDyn.settings (d : PwrDyn) : PwrDyn := { d with slew := none, slewPaused := false, slewPause := 0 }
/-- Without the throttle reasons. -/
def PwrRegs.settings (x : PwrRegs) : PwrRegs := { x with thrNow := 0, thrEvents := [] }
/-- What the power manager was told. -/
def State.settings (s : State) : Pwr × PwrDyn × PwrRegs := (s.pwr.settings, s.pwrDyn.settings, s.pwrRegs.settings)

/-! ### The parts of the settings -/

section
variable {s t : State} {α : Type}

theorem pwr_of_settings (h : t.settings = s.settings) (f : Pwr → α) (hf : ∀ p, f p.settings = f p := by exact fun _ => rfl) :
    f t.pwr = f s.pwr :=
  ((hf _).symm.trans (congrArg (fun x : Pwr × PwrDyn × PwrRegs => f x.1) h)).trans (hf _)

theorem pwrDyn_of_settings (h : t.settings = s.settings) (f : PwrDyn → α) (hf : ∀ d, f d.settings = f d := by exact fun _ => rfl) :
    f t.pwrDyn = f s.pwrDyn :=
  ((hf _).symm.trans (congrArg (fun x : Pwr × PwrDyn × PwrRegs => f x.2.1) h)).trans (hf _)

theorem pwrRegs_of_settings (h : t.settings = s.settings) (f : PwrRegs → α) (hf : ∀ x, f x.settings = f x := by exact fun _ => rfl) :
    f t.pwrRegs = f s.pwrRegs :=
  ((hf _).symm.trans (congrArg (fun x : Pwr × PwrDyn × PwrRegs => f x.2.2) h)).trans (hf _)

theorem State.Notices.settings (h : s.Notices t) : t.settings = s.settings := h.field State.settings fun _ => rfl

end

section
variable (s : State)

theorem settings_report (code : Nat) (sev : Severity) (kind index : Nat) (p : List Byte) :
    (s.report code sev kind index p).settings = s.settings := (notices_report s code sev kind index p).settings

theorem settings_belowFloor (w : Nat) : (s.belowFloor w).settings = s.settings := settings_report s _ _ _ _ _

theorem settings_setGoal (v : Nat) : (s.setGoal v).settings = s.settings := by
  unfold State.setGoal
  split
  · rfl
  · split <;> rfl

theorem settings_setRegime (g : Regime) : (s.setRegime g).settings = s.settings := by
  unfold State.setRegime
  split
  · rfl
  · exact (settings_report _ _ _ _ _ _).trans rfl

theorem settings_holdWinter : s.holdWinter.settings = s.settings := by
  unfold State.holdWinter
  split
  · exact settings_setGoal s 450
  · rfl

theorem settings_compSettled : s.compSettled.settings = s.settings := (notices_throttle _).settings.trans rfl

/-- Before and during start-up the power manager settles no regime; then the regime follows, and Winter holds the setpoint down. -/
theorem powerSettle_eq : s.powerSettle = if s.compSettled.pwr.regime = .none_ ∨ s.compSettled.pwr.regime = .spring then s.compSettled
    else (s.compSettled.setRegime s.compSettled.runRegime).holdWinter := rfl

theorem settings_powerSettle : s.powerSettle.settings = s.settings := by
  rw [powerSettle_eq, apply_ite State.settings, settings_holdWinter, settings_setRegime, ite_self, settings_compSettled]

/-- A change of the parked set starts the parking and the restoring of quarters. -/
theorem pwr_followParked (old : BitVec 4) : ∃ a b, (s.followParked old).pwr = { s.pwr with parking := a, unparking := b } := by
  have kept (f : Pwr → Pwr) (hf : ∀ p a b, f { p with parking := a, unparking := b } = f p) : f (s.followParked old).pwr = f s.pwr := by
    have halted (u : State) (q : Nat) (on : Bool) : (u.haltQuarter q on).pwr = u.pwr :=
      foldl_proj State.pwr (fun v i => by split <;> rfl) _ u
    unfold State.followParked
    split
    · rfl
    · refine foldl_proj (fun u : State => f u.pwr) (fun u q => ?_) _ s
      dsimp only
      split
      · rw [halted]
        exact hf _ _ _
      · split
        · exact hf _ _ _
        · rfl
  exact ⟨_, _, congrArg (fun p : Pwr => { p with parking := (s.followParked old).pwr.parking, unparking := (s.followParked old).pwr.unparking })
    (kept (fun p => { p with parking := 0, unparking := 0 }) fun _ _ _ => rfl)⟩

theorem pwrDyn_followParked (old : BitVec 4) : (s.followParked old).pwrDyn = s.pwrDyn :=
  followParked_field s State.pwrDyn (fun _ _ => rfl) (fun _ _ _ => rfl) old

theorem pwrRegs_followParked (old : BitVec 4) : (s.followParked old).pwrRegs = s.pwrRegs :=
  followParked_field s State.pwrRegs (fun _ _ => rfl) (fun _ _ _ => rfl) old

end

end Sys2Proof.Machine
end

section
/-! The PWR commands (R333, R336, R337, R338, R341, R346, R347): what each branch leaves. -/

namespace Sys2Proof.Machine

open Sys2Proof.Laws

section
variable {s : State} {b : List Byte}

/-! ### PWR_CAP and PWR_TARGET -/

/-- The cap w, and the held one on standby alone. -/
def State.capped (s : State) (w : Nat) : State :=
  (s.lowerLimit s.pwr.cap w).onPwr fun p => { p with cap := w, heldCap := if s.boot.mainOn then p.heldCap else some w }

theorem mainOn_lowerLimit (s : State) (old w : Nat) : (s.lowerLimit old w).boot.mainOn = s.boot.mainOn := by
  unfold State.lowerLimit
  split <;> rfl

theorem pwrCapCmd_ok (reach : 150 ≤ min (le b 0 2) 1200) :
    pwrCapCmd b s = .done stOk [] (s.capped (min (le b 0 2) 1200)).powerSettle := if_neg (Nat.not_lt.2 reach)

theorem pwrCapCmd_below (below : min (le b 0 2) 1200 < 150) :
    pwrCapCmd b s = .done stCapBelowFloor [] ((s.capped (min (le b 0 2) 1200)).belowFloor (min (le b 0 2) 1200)).powerSettle := if_pos below

theorem pwrTargetCmd_bad (bad : le b 0 2 < 450 ∨ 680 < le b 0 2 ∨ le b 0 2 % 5 ≠ 0) : pwrTargetCmd b s = .done stBadOpcode [] s := if_pos bad

/-- The target v; ceilings that stood at the old target follow it, and others are held below it. -/
def State.retargeted (s : State) (v : Nat) : State :=
  let top (c : Nat) : Nat := if c = s.pwr.target then v else min c v
  (s.onPwr fun p => { p with target := v, heldTarget := if s.boot.mainOn then p.heldTarget else some v }).onPwrDyn fun d => { d with
    coreCeil := top d.coreCeil, compCeil := top d.compCeil, currCeil := top d.currCeil }

theorem pwrTargetCmd_ok (low : 450 ≤ le b 0 2) (high : le b 0 2 ≤ 680) (whole : le b 0 2 % 5 = 0) :
    pwrTargetCmd b s = .done stOk [] (if s.boot.mainOn ∧ s.pwr.regime ≠ .spring ∧ le b 0 2 < (s.retargeted (le b 0 2)).setpointGoal
      then (s.retargeted (le b 0 2)).setGoal (le b 0 2) else s.retargeted (le b 0 2)).powerSettle := if_neg (by omega)

/-- The settings of a new target are those it sets, whether the setpoint slews to it or not. -/
theorem settings_targeted (c : Prop) [Decidable c] (v : Nat) :
    (if c then (s.retargeted v).setGoal v else s.retargeted v).powerSettle.settings = (s.retargeted v).settings := by
  rw [settings_powerSettle, apply_ite State.settings, settings_setGoal, ite_self]

/-! ### PWR_PARK -/

theorem pwrParkCmd_bad (bad : 16 ≤ le b 0 1) : pwrParkCmd b s = .done stBadOpcode [] s := if_pos bad

theorem pwrParkCmd_held (mask : le b 0 1 < 16) (off : s.boot.mainOn = false) :
    pwrParkCmd b s = .done stOk [] (s.onPwr fun p => { p with heldPark := some (BitVec.ofNat 4 (le b 0 1)) }) :=
  (if_neg (by omega)).trans (if_pos (by simp [off]))

theorem pwrParkCmd_on (mask : le b 0 1 < 16) (on : s.boot.mainOn = true) :
    ∃ s', pwrParkCmd b s = .done stOk [] s' ∧ s'.pwr.parkedCmd = BitVec.ofNat 4 (le b 0 1) := by
  refine ⟨_, (if_neg (by omega)).trans (if_neg (by simp [on])), ?_⟩
  obtain ⟨a, c, followed⟩ := pwr_followParked (s.onPwr fun p => { p with parkedCmd := BitVec.ofNat 4 (le b 0 1) }) s.parked
  rw [pwr_of_settings (settings_powerSettle _) Pwr.parkedCmd, followed]
  rfl

/-! ### PWR_SHARE -/

/-- Another partition claims one of the engines. -/
def State.shareClash (s : State) (j : Nat) (mask : Word64) : Bool :=
  s.pwrRegs.shares.any fun k => k.1 != j && k.2.valid && k.2.mask &&& mask != 0

theorem shareClash_iff (s : State) (j : Nat) (mask : Word64) : s.shareClash j mask = true ↔
    ∃ k ∈ s.pwrRegs.shares, k.1 ≠ j ∧ k.2.valid = true ∧ k.2.mask &&& mask ≠ 0 := by
  simp [State.shareClash, and_assoc]

theorem pwrShareCmd_bad (slot : 7 < le b 0 1) : pwrShareCmd b s = .done stBadOpcode [] s := if_pos slot

section
variable (slot : le b 0 1 ≤ 7)
include slot

theorem pwrShareCmd_none (share : le b 16 2 = 0) : pwrShareCmd b s = .done stOk []
    (s.onPwrRegs fun x => { x with shares := Sparse.put Reset.share x.shares (le b 0 1) Reset.share }).powerSettle :=
  (if_neg (Nat.not_lt.2 slot)).trans (if_pos share)

theorem pwrShareCmd_clash (share : le b 16 2 ≠ 0) (clash : s.shareClash (le b 0 1) (BitVec.ofNat 64 (le b 8 8)) = true) :
    pwrShareCmd b s = .done stBadOpcode [] s := (if_neg (Nat.not_lt.2 slot)).trans ((if_neg share).trans (if_pos clash))

end

/-- A partition defined with w W over the power of x, with a duty. -/
def Share.defined (x : Share) (w : Nat) (mask : Word64) (duty : Nat) : Share :=
  { x with valid := true, watts := w, mask := mask, duty := duty, back := duty != 1024 }

/-- A partition above its share is told so, and its duty goes down with the excess (R346, R347). -/
theorem pwrShareCmd_ok (slot : le b 0 1 ≤ 7) (share : le b 16 2 ≠ 0)
    (free : s.shareClash (le b 0 1) (BitVec.ofNat 64 (le b 8 8)) = false) {x : Share} {u : State}
    (power : s.sharePower (Sparse.get Reset.share s.pwrRegs.shares (le b 0 1)) (BitVec.ofNat 64 (le b 8 8)) = (x, u))
    (same : u.settings = s.settings) :
    ∃ s' duty, pwrShareCmd b s = .done (if le b 16 2 < x.est then stOverQuota else stOk) [] s' ∧ duty ≤ x.duty ∧ s'.pwrRegs.shares =
      Sparse.put Reset.share s.pwrRegs.shares (le b 0 1) (x.defined (le b 16 2) (BitVec.ofNat 64 (le b 8 8)) duty) := by
  have shares := pwrRegs_of_settings same PwrRegs.shares
  unfold pwrShareCmd
  dsimp only
  rw [if_neg (Nat.not_lt.2 slot), if_neg share, if_neg (by rw [← State.shareClash, free]; exact Bool.false_ne_true), power]
  dsimp only
  by_cases above : le b 16 2 < x.est
  · rw [if_pos (decide_eq_true above), if_pos (decide_eq_true above), if_pos above]
    refine ⟨_, x.duty * le b 16 2 / x.est, rfl, ?_, ?_⟩
    · exact Nat.div_le_of_le_mul (Nat.mul_comm x.est x.duty ▸ Nat.mul_le_mul_left _ above.le)
    · rw [pwrRegs_of_settings (settings_powerSettle _) PwrRegs.shares, pwrRegs_of_settings (settings_report _ _ _ _ _ _) PwrRegs.shares,
        onPwrRegs_pwrRegs, shares]
      rfl
  · rw [if_neg (by simpa using above), if_neg (by simpa using above), if_neg above]
    refine ⟨_, x.duty, rfl, le_rfl, ?_⟩
    rw [pwrRegs_of_settings (settings_powerSettle _) PwrRegs.shares, onPwrRegs_pwrRegs, shares]
    rfl

/-- The register of a share reports its watts where its duty is at most 1,024. -/
theorem pwrShareReg_fields {j : Nat} (valid : (Sparse.get Reset.share s.pwrRegs.shares j).valid = true)
    (duty : (Sparse.get Reset.share s.pwrRegs.shares j).duty ≤ 1024) (watts : (Sparse.get Reset.share s.pwrRegs.shares j).watts < 65536) :
    (s.pwrShareReg j).extractLsb' 63 1 = 1 ∧
      ((s.pwrShareReg j).extractLsb' 32 16).toNat = (Sparse.get Reset.share s.pwrRegs.shares j).watts := by
  unfold State.pwrShareReg
  generalize Sparse.get Reset.share s.pwrRegs.shares j = x at valid duty watts
  dsimp only
  rw [valid]
  have est : min x.est 0xFFFF ≤ 0xFFFF := Nat.min_le_right _ _
  generalize min x.est 0xFFFF = e at est
  have word : (BitVec.ofNat 64 (bit true * 2 ^ 63 + x.watts * 2 ^ 32 + e * 2 ^ 16 + x.duty)).toNat =
      9223372036854775808 + x.watts * 4294967296 + e * 65536 + x.duty := by
    rw [BitVec.toNat_ofNat, Nat.mod_eq_of_lt] <;> simp only [bit, if_true, Nat.reducePow, Nat.one_mul]
    omega
  constructor
  · apply BitVec.eq_of_toNat_eq
    rw [BitVec.extractLsb'_toNat, word, Nat.shiftRight_eq_div_pow]
    simp only [Nat.reducePow, BitVec.reduceToNat]
    omega
  · rw [BitVec.extractLsb'_toNat, word, Nat.shiftRight_eq_div_pow]
    simp only [Nat.reducePow]
    omega

/-- The present power of a partition with the same engines is its estimate; with others it is a free value, and its duty is whole. -/
theorem sharePower_eq (s : State) (x : Share) (mask : Word64) : ∃ u, s.sharePower x mask = ({ x with
      est := if x.valid = true ∧ x.mask = mask then x.est else s.draw.1.toNat % 65536
      duty := if x.valid = true ∧ x.mask = mask then x.duty else 1024 }, u) ∧ u.settings = s.settings := by
  unfold State.sharePower
  by_cases same : x.valid = true ∧ x.mask = mask
  · simp only [if_pos same]
    exact ⟨s, rfl, rfl⟩
  · simp only [if_neg same]
    exact ⟨s.draw.2, rfl, rfl⟩

/-! ### PWR_ENVELOPE -/

/-- An envelope as it waits for its tick (R337). -/
def State.announced (s : State) (receipt : Nat) (b : List Byte) : State :=
  s.onPwr fun p => { p with
    pending := some ⟨le b 0 2, receipt + le b 4 4⟩, rampUp := le b 8 2, lease := le b 12 4, safe := le b 16 2, ballast := le b 18 1 == 1,
    leaseFrom := receipt, leased := false, rampCeil := if le b 8 2 = 0 then 1200 else s.pwrRegs.input / 1000 + le b 8 2 }

/-- The settings of a ceiling that takes effect. -/
theorem settings_setCeiling (s : State) (w : Nat) : ∃ x, (s.setCeiling w).settings =
    ({ s.pwr with envelope := w, pending := none }.settings, s.pwrDyn.settings, PwrRegs.settings { s.pwrRegs with phases := x }) := by
  unfold State.setCeiling
  rw [settings_powerSettle]
  unfold State.lowerLimit
  split
  · exact ⟨_, rfl⟩
  · exact ⟨s.pwrRegs.phases, rfl⟩

theorem pwrEnvelopeCmd_ok (receipt : Nat) (ceiling : le b 0 2 ≤ 1200) (ramp : le b 8 2 = 0 ∨ (10 ≤ le b 8 2 ∧ le b 8 2 ≤ 10000))
    (floor : 150 ≤ le b 16 2) (safe : le b 16 2 ≤ 1200) (ballast : le b 18 1 ≤ 1) :
    ∃ s', pwrEnvelopeCmd receipt b s = .done (if le b 0 2 < 150 then stCapBelowFloor else stOk) [] s' ∧
      s'.settings = (if receipt + le b 4 4 ≤ s.now then (s.announced receipt b).setCeiling (le b 0 2)
        else (s.announced receipt b).powerSettle).settings := by
  unfold pwrEnvelopeCmd
  dsimp only
  rw [if_neg (by omega)]
  by_cases below : le b 0 2 < 150
  · rw [if_pos below, if_pos below]
    exact ⟨_, rfl, settings_belowFloor _ _⟩
  · rw [if_neg below, if_neg below]
    exact ⟨_, rfl, rfl⟩

end

end Sys2Proof.Machine
end

section
namespace Sys2Proof.Proofs
open Sys2Proof.Machine Sys2Proof.Laws

/-- Settles O19: each clause is one branch of its command's effect, and what the power manager settles after it leaves what it set. -/
theorem powerCommands : Obligations.PowerCommands := by
  intro s r
  refine ⟨fun h reach => ?cap, fun h below => ?capBelow, fun h => ⟨fun low high whole => ?target, fun bad => ?targetBad⟩,
    fun h => ⟨fun mask on => ?park, fun mask off => ?parkHeld, fun bad => ?parkBad⟩,
    fun h => ⟨fun slot => ?shareSlot, fun slot none_ => ?shareNone, fun slot share clash => ?shareClash, fun slot share free => ?share⟩⟩
  case cap => exact completes_of_done h rfl (pwrCapCmd_ok reach)
  case capBelow => exact completes_of_done h rfl (pwrCapCmd_below below)
  case target =>
    refine ⟨_, completes_of_done h rfl (pwrTargetCmd_ok low high whole), pwr_of_settings (settings_targeted _ _) Pwr.target, fun off => ?_⟩
    exact (pwr_of_settings (settings_targeted _ _) Pwr.heldTarget).trans (if_neg (by simp [off]))
  case targetBad => exact completes_of_done h rfl (pwrTargetCmd_bad bad)
  case park =>
    obtain ⟨s', done, parked⟩ := pwrParkCmd_on mask on
    exact ⟨s', completes_of_done h rfl done, parked⟩
  case parkHeld => exact completes_of_done h rfl (pwrParkCmd_held mask off)
  case parkBad => exact completes_of_done h rfl (pwrParkCmd_bad bad)
  case shareSlot => exact completes_of_done h rfl (pwrShareCmd_bad slot)
  case shareNone => exact completes_of_done h rfl (pwrShareCmd_none slot none_)
  case shareClash => exact completes_of_done h rfl (pwrShareCmd_clash slot share ((shareClash_iff _ _ _).2 clash))
  case share =>
    have unclaimed : s.shareClash (le (s.payload r) 0 1) (BitVec.ofNat 64 (le (s.payload r) 8 8)) = false := by
      rw [← Bool.not_eq_true, shareClash_iff]
      rintro ⟨k, hk, other, valid, common⟩
      exact common (free k hk other valid)
    obtain ⟨u, power, same⟩ := sharePower_eq s (Sparse.get Reset.share s.pwrRegs.shares (le (s.payload r) 0 1)) (BitVec.ofNat 64 (le (s.payload r) 8 8))
    obtain ⟨s', duty, done, low, shares⟩ := pwrShareCmd_ok slot share unclaimed power same
    have fields := pwrShareReg_fields (s := s') (j := le (s.payload r) 0 1)
    refine ⟨s', completes_of_done h rfl done, ?_⟩
    rw [shares, get_put_same] at fields ⊢
    refine ⟨rfl, rfl, rfl, rfl, fun below => ?_, fun k other => get_put_other _ _ _ (Ne.symm other)⟩
    have whole : duty ≤ 1024 := low.trans (by dsimp only; split; exacts [below, le_rfl])
    exact fields rfl whole (le_lt _ _ _)

/-- Settles O20: the fields are stored before the ceiling takes effect or waits, and neither changes them. -/
theorem envelopeCommand : Obligations.EnvelopeCommand := by
  intro s r h b c up start ceiling ramp floor safe ballast
  obtain ⟨s', done, settings⟩ := pwrEnvelopeCmd_ok (s := s) (b := b) start ceiling ramp floor safe ballast
  refine ⟨s', completes_of_done h rfl done, ?_⟩
  by_cases over_ : start + le b 4 4 ≤ s.now
  · rw [if_pos over_] at settings
    obtain ⟨x, inForce⟩ := settings_setCeiling (s.announced start b) (le b 0 2)
    have stored {α : Type} (f : Pwr → α) (hf : ∀ p, f p.settings = f p) :
        f s'.pwr = f { (s.announced start b).pwr with envelope := le b 0 2, pending := none } :=
      ((hf _).symm.trans (congrArg (fun y : Pwr × PwrDyn × PwrRegs => f y.1) (settings.trans inForce))).trans (hf _)
    exact ⟨stored Pwr.rampUp fun _ => rfl, stored Pwr.lease fun _ => rfl, stored Pwr.safe fun _ => rfl, stored Pwr.ballast fun _ => rfl,
      stored Pwr.leaseFrom fun _ => rfl, fun _ => ⟨stored Pwr.envelope fun _ => rfl, stored Pwr.pending fun _ => rfl⟩,
      fun later => absurd later (Nat.not_lt.2 over_)⟩
  · rw [if_neg over_, settings_powerSettle] at settings
    exact ⟨pwr_of_settings settings Pwr.rampUp, pwr_of_settings settings Pwr.lease, pwr_of_settings settings Pwr.safe,
      pwr_of_settings settings Pwr.ballast, pwr_of_settings settings Pwr.leaseFrom, fun now => absurd now over_,
      fun _ => ⟨pwr_of_settings settings Pwr.envelope, pwr_of_settings settings Pwr.pending⟩⟩

end Sys2Proof.Proofs
end

section
/-! The governor and calibration (R340, R343 to R345): the setpoint that a period leads to. -/

namespace Sys2Proof.Machine

open Sys2Proof.Laws

/-! ### The setpoint while the power manager settles -/

/-- From s to t the setpoint, its slew and what else the power manager keeps in motion are as they were, and so is the regime. -/
def State.Steady (s t : State) : Prop := t.pwrDyn = s.pwrDyn ∧ t.pwr.setpoint = s.pwr.setpoint ∧ t.pwr.regime = s.pwr.regime

theorem State.Steady.trans {s t u : State} (h : s.Steady t) (k : t.Steady u) : s.Steady u :=
  ⟨k.1.trans h.1, k.2.1.trans h.2.1, k.2.2.trans h.2.2⟩

theorem State.Steady.goal {s t : State} (h : s.Steady t) : t.setpointGoal = s.setpointGoal := by
  unfold State.setpointGoal
  rw [h.1, h.2.1]

theorem steady_followParked (s : State) (old : BitVec 4) : s.Steady (s.followParked old) := by
  obtain ⟨a, b, followed⟩ := pwr_followParked s old
  exact ⟨pwrDyn_followParked s old, by rw [followed], by rw [followed]⟩

theorem goal_setGoal (s : State) (v : Nat) : (s.setGoal v).setpointGoal = v := by
  unfold State.setGoal
  split
  · assumption
  · split <;> rfl

/-- The setpoint held below c. -/
theorem goal_capped (s : State) (c : Nat) : (if c < s.setpointGoal then s.setGoal c else s).setpointGoal = min c s.setpointGoal := by
  split
  · rw [goal_setGoal]
    omega
  · omega

theorem pwrDyn_setRegime (s : State) (g : Regime) : (s.setRegime g).pwrDyn = s.pwrDyn := by
  unfold State.setRegime
  split
  · rfl
  · exact (notices_report _ _ _ _ _ _).field State.pwrDyn fun _ => rfl

theorem pwrDyn_compSettled (s : State) : s.compSettled.pwrDyn = s.pwrDyn := (notices_throttle _).field State.pwrDyn fun _ => rfl

/-- What settles before Winter holds the setpoint: the regime and COMP_SP. -/
theorem powerSettle_cases (s : State) : ∃ t g v, t.pwrDyn = s.pwrDyn ∧ t.pwr = { s.pwr with regime := g, compSp := v } ∧
    (s.powerSettle = t ∨ s.powerSettle = t.holdWinter) := by
  obtain ⟨v, settled⟩ := pwr_compSettled s
  rw [powerSettle_eq]
  split
  · exact ⟨_, s.pwr.regime, v, pwrDyn_compSettled s, settled, .inl rfl⟩
  · refine ⟨_, s.compSettled.runRegime, v, (pwrDyn_setRegime _ _).trans (pwrDyn_compSettled s), ?_, .inr rfl⟩
    rw [pwr_setRegime, settled]

theorem holdWinter_of_unparked {s : State} (limit : s.pwr.parkedLimit = 0) (temp : s.pwr.parkedTemp = 0) : s.holdWinter = s :=
  if_neg (by simp [limit, temp])

/-- While no quarter is parked by limit or temperature the setpoint moves on as it did. -/
theorem powerSettle_of_unparked {s : State} (limit : s.pwr.parkedLimit = 0) (temp : s.pwr.parkedTemp = 0) :
    s.powerSettle.pwrDyn = s.pwrDyn ∧ s.powerSettle.pwr.setpoint = s.pwr.setpoint := by
  obtain ⟨t, g, v, dyn, pwr, settled⟩ := powerSettle_cases s
  have unheld : t.holdWinter = t := holdWinter_of_unparked (by rw [pwr]; exact limit) (by rw [pwr]; exact temp)
  rw [unheld, or_self] at settled
  rw [settled]
  exact ⟨dyn, by rw [pwr]⟩

theorem goal_powerSettle {s : State} (limit : s.pwr.parkedLimit = 0) (temp : s.pwr.parkedTemp = 0) :
    s.powerSettle.setpointGoal = s.setpointGoal := by
  obtain ⟨dyn, setpoint⟩ := powerSettle_of_unparked limit temp
  unfold State.setpointGoal
  rw [dyn, setpoint]

/-- In Spring too. -/
theorem goal_powerSettle_of_spring {s : State} (h : s.pwr.regime = .spring) : s.powerSettle.setpointGoal = s.setpointGoal := by
  obtain ⟨v, settled⟩ := pwr_compSettled s
  rw [powerSettle_of_spring h]
  unfold State.setpointGoal
  rw [pwrDyn_compSettled, settled]

/-! ### What the governor decides -/

section
variable {s : State} (p unpark : Nat)

/-- The governor works on the power manager and the tiles alone. -/
theorem govern_field {α : Type} (f : State → α) (hp : ∀ (u : State) g, f (u.onPwr g) = f u) (hd : ∀ (u : State) g, f (u.onPwrDyn g) = f u)
    (ht : ∀ (u : State) k g, f (u.onTile k g) = f u) : f (s.govern p unpark) = f s := by
  have goal (u : State) (v : Nat) : f (u.setGoal v) = f u := by
    unfold State.setGoal
    split
    · rfl
    · split
      · exact (hd _ _).trans (hp _ _)
      · exact hd _ _
  have parks (u : State) (old : BitVec 4) : f (u.followParked old) = f u := followParked_field u f hp ht old
  unfold State.govern
  dsimp only
  repeat' split
  all_goals simp only [goal, parks, hp]

/-- In Spring the setpoint stays. -/
theorem govern_of_spring (spring : s.pwr.regime = .spring) : s.Steady (s.govern p unpark) := by
  have parks (u : State) (f : Pwr → Pwr) (old : BitVec 4) (h : s.Steady (u.onPwr f)) : s.Steady ((u.onPwr f).followParked old) :=
    h.trans (steady_followParked _ old)
  unfold State.govern
  simp only [spring, beq_self_eq_true, Bool.not_true, Bool.false_eq_true, and_false, false_and, if_false]
  repeat' split
  any_goals exact ⟨rfl, rfl, rfl⟩
  all_goals exact parks _ _ _ ⟨rfl, rfl, rfl⟩

/-- No quarter is parked by limit that could return. -/
theorem find_noQuarter (c : Prop) [Decidable c] :
    (if c then [0, 1, 2, 3].find? fun q => (0 : BitVec 4).getLsbD q else none) = none := by
  split <;> rfl

variable (running : s.pwr.regime ≠ .spring)
include running

/-- Above the limit the setpoint goes down by 10 or 20 mV, not below 450 mV, and not above its ceiling (R343). -/
theorem govern_lowers (above : 1000 * s.limitW < p) (high : 450 < s.setpointGoal) :
    (s.govern p unpark).setpointGoal = min s.ceilMv (max 450 (s.setpointGoal - if 11 * (1000 * s.limitW) < 10 * p then 20 else 10)) ∧
      (s.govern p unpark).settings = (s.onPwr fun w => { w with gate := false, gateDuty := 1024 }).settings := by
  have notSpring : (s.pwr.regime == .spring) = false := beq_eq_false_iff_ne.2 running
  unfold State.govern
  dsimp only
  rw [if_pos (.inl (by omega)), notSpring, if_pos ⟨high, rfl⟩]
  simp only [Bool.not_false, true_and, gt_iff_lt]
  rw [goal_capped, goal_setGoal, apply_ite State.settings, settings_setGoal, settings_setGoal, ite_self, Nat.mul_comm s.limitW]
  exact ⟨rfl, rfl⟩

section
variable (limit : s.pwr.parkedLimit = 0) (reach : s.unreachable = false) (within : p ≤ 1000 * s.limitW)
include limit reach within

/-- Below 97% of the limit it goes up by 5 mV to its ceiling. -/
theorem govern_raises (temp : s.pwr.parkedTemp = 0) (low : 100 * p < 97 * (1000 * s.limitW)) (below : s.setpointGoal < s.ceilMv) :
    (s.govern p unpark).setpointGoal = min s.ceilMv (s.setpointGoal + 5) ∧
      (s.govern p unpark).settings = (s.onPwr fun w => { w with gate := false, gateDuty := 1024 }).settings := by
  have notSpring : (s.pwr.regime == .spring) = false := beq_eq_false_iff_ne.2 running
  unfold State.govern
  dsimp only
  rw [if_neg (by simp only [reach, Bool.false_eq_true, or_false]; omega), if_pos (by omega)]
  simp only [onPwr_pwr, limit, temp, notSpring, find_noQuarter, bne_self_eq_false, Bool.or_self,
    Bool.not_false, and_true]
  rw [if_pos below]
  exact ⟨goal_setGoal _ _, settings_setGoal _ _⟩

/-- Else it stays, held below its ceiling. -/
theorem govern_holds (rest : 97 * (1000 * s.limitW) ≤ 100 * p ∨ s.ceilMv ≤ s.setpointGoal) :
    (s.govern p unpark).setpointGoal = min s.ceilMv s.setpointGoal ∧
      (s.govern p unpark).settings = (s.onPwr fun w => { w with gate := false, gateDuty := 1024 }).settings := by
  have notSpring : (s.pwr.regime == .spring) = false := beq_eq_false_iff_ne.2 running
  have capped (u : State) (same : u.setpointGoal = s.setpointGoal) :
      (if s.ceilMv < u.setpointGoal then u.setGoal s.ceilMv else u).setpointGoal = min s.ceilMv s.setpointGoal ∧
        (if s.ceilMv < u.setpointGoal then u.setGoal s.ceilMv else u).settings = u.settings := by
    rw [goal_capped, same, apply_ite State.settings, settings_setGoal, ite_self]
    exact ⟨rfl, rfl⟩
  unfold State.govern
  dsimp only
  rw [if_neg (by simp only [reach, Bool.false_eq_true, or_false]; omega)]
  simp only [onPwr_pwr, limit, notSpring, find_noQuarter, Bool.not_false, true_and, gt_iff_lt]
  split
  · rw [if_neg (by omega)]
    exact capped _ rfl
  · exact capped _ rfl

end

end

/-! ### GOVERNOR_PERIOD -/

/-- The registers of a period, the ramp ceiling and the current ceiling that it leads to (R338, R340, R350). -/
def State.measured (s : State) (rd : PowerReading) (p : Nat) : State :=
  let put (m : Sparse Nat) (l : List Nat) : Sparse Nat := l.zipIdx.foldl (fun m v => Sparse.put 0 m v.2 v.1) m
  let t := s.onPwrRegs fun r => { r with
    input := rd.input, est := p, energy := r.energy + rd.input, railPower := put r.railPower (rd.railPower.take 10)
    railCurrent := put r.railCurrent (rd.railCurrent.take 10)
    shares := r.shares.map fun j => (j.1, shareStep j.2 (rd.shareEst[j.1]?.getD 0)) }
  let t := t.onPwr fun w => { w with rampCeil := if w.rampUp = 0 then 1200 else min 65535 (rd.input / 1000 + w.rampUp) }
  if t.pwrDyn.episode then t else t.onPwrDyn fun d => { d with currCeil := min t.pwr.target (d.currCeil + 5) }

/-- The module power of R340. -/
def State.modulePower (s : State) (rd : PowerReading) : Nat :=
  let p := rd.arrEst * s.pwrDyn.gainArr / 0x4000 + rd.engEst * s.pwrDyn.gainEng / 0x4000 +
    (((List.range 10).drop 2).map fun r => rd.railPower[r]?.getD 0).sum + rd.loss
  if s.pwrDyn.followHigh then max p rd.input else p

section
variable {s : State} (q : s.Quiet)
include q

theorem railMeasure_of_quiet (r v : Nat) : s.railMeasure r v = (v, s) := by
  unfold State.railMeasure
  rw [opportunity_of_slots_nil q.1]

theorem railSum_of_quiet (l : List Nat) : s.railSum l = ((((List.range 10).drop 2).map fun r => l[r]?.getD 0).sum, s) := by
  have adds (rs : List Nat) (a : Nat) : rs.foldl (fun (a : Nat × State) r =>
      let m := a.2.railMeasure r (l[r]?.getD 0)
      (a.1 + m.1, m.2)) (a, s) = (a + (rs.map fun r => l[r]?.getD 0).sum, s) := by
    induction rs generalizing a with
    | nil => rfl
    | cons r rs ih =>
      rw [List.foldl_cons]
      dsimp only
      rw [railMeasure_of_quiet q, ih, List.map_cons, List.sum_cons, Nat.add_assoc]
  exact (adds _ 0).trans (by rw [Nat.zero_add]; rfl)

theorem quiet_of_alm {t : State} (h : t.alm = s.alm) : t.Quiet := by
  unfold State.Quiet
  rw [h]
  exact q

theorem droops_of_quiet : (List.range 4).foldl (fun s q =>
      let i := s.fires 0x0C01 0x0E q
      if i.1 then
        let d := i.2.draw
        d.2.tripDroop q (41 + d.1.toNat % 1024)
      else i.2) s = s := by
  induction List.range 4 with
  | nil => rfl
  | cons k l ih =>
    rw [List.foldl_cons, q.fires]
    exact ih

/-- Without injections a period ends with what the governor decided. -/
theorem exec_governorPeriod (rd : PowerReading) (on : s.boot.mainOn = true) :
    exec (.governorPeriod rd) s = .next ((s.measured rd (s.modulePower rd)).govern (s.modulePower rd) rd.unparkCost).powerSettle := by
  have still : ((s.measured rd (s.modulePower rd)).govern (s.modulePower rd) rd.unparkCost).Quiet := by
    refine quiet_of_alm q ((govern_field _ _ State.alm (fun _ _ => rfl) (fun _ _ => rfl) fun _ _ _ => rfl).trans ?_)
    unfold State.measured
    dsimp only
    split <;> rfl
  show execGovernorPeriod rd s = _
  unfold execGovernorPeriod
  rw [if_neg (by simp [on]), railSum_of_quiet q]
  unfold State.measured State.modulePower at still ⊢
  dsimp only at still ⊢
  rw [droops_of_quiet still, opportunity_of_slots_nil still.1]

end

section
variable (s : State) (rd : PowerReading) (p : Nat)

theorem pwr_measured : (s.measured rd p).pwr =
    { s.pwr with rampCeil := if s.pwr.rampUp = 0 then 1200 else min 65535 (rd.input / 1000 + s.pwr.rampUp) } := by
  unfold State.measured
  dsimp only
  split <;> rfl

theorem pwrDyn_measured : (s.measured rd p).pwrDyn =
    { s.pwrDyn with currCeil := if s.pwrDyn.episode then s.pwrDyn.currCeil else min s.pwr.target (s.pwrDyn.currCeil + 5) } := by
  unfold State.measured
  dsimp only
  split
  · rename_i h
    rw [if_pos (show s.pwrDyn.episode = true from h)]
    rfl
  · rename_i h
    rw [if_neg (show ¬s.pwrDyn.episode = true from h)]
    rfl

theorem pwrRegs_measured : (s.measured rd p).pwrRegs.input = rd.input ∧ (s.measured rd p).pwrRegs.est = p ∧
    (s.measured rd p).pwrRegs.energy = s.pwrRegs.energy + rd.input := by
  unfold State.measured
  dsimp only
  split <;> exact ⟨rfl, rfl, rfl⟩

theorem goal_measured : (s.measured rd p).setpointGoal = s.setpointGoal := by
  unfold State.setpointGoal
  rw [pwrDyn_measured, pwr_measured]

end

/-- What a period leaves in the registers, and the setpoint it leads to, are those of the governor's decision. -/
theorem pwrRegs_governed (s : State) (p unpark : Nat) {α : Type} (f : PwrRegs → α) (hf : ∀ x, f x.settings = f x) :
    f (s.govern p unpark).powerSettle.pwrRegs = f s.pwrRegs :=
  (pwrRegs_of_settings (settings_powerSettle _) f hf).trans
    (congrArg f (govern_field p unpark State.pwrRegs (fun _ _ => rfl) (fun _ _ => rfl) fun _ _ _ => rfl))

/-! ### CALIBRATION_WINDOW -/

/-- The power manager after a window: gains, and how long the estimates have disagreed or agreed (R345). -/
def PwrDyn.calibrated (d : PwrDyn) (rd : CalReading) (bad : Bool) : PwrDyn := { d with
  gainArr := newGain d.gainArr rd.arrMeas rd.arrEst, gainEng := newGain d.gainEng rd.engMeas rd.engEst
  disagree := max (disagreement rd.arrEst rd.arrMeas) (disagreement rd.engEst rd.engMeas)
  windows := if bad then d.windows + 1 else 0, agree := if bad then 0 else d.agree + 1
  followHigh := (decide (100 ≤ if bad then d.windows + 1 else 0) && !d.followHigh) ||
    (d.followHigh && decide ((if bad then 0 else d.agree + 1) < 100)) }

/-- An estimate lies more than 8% off its measurement. -/
def calWide (rd : CalReading) : Bool :=
  decide (100 * (max rd.arrEst rd.arrMeas - min rd.arrEst rd.arrMeas) > 8 * rd.arrMeas) ||
    decide (100 * (max rd.engEst rd.engMeas - min rd.engEst rd.engMeas) > 8 * rd.engMeas)

/-- A record that may be due, and injections that end, leave the settings. -/
theorem settings_reported (c : Prop) [Decidable c] (s : State) (code : Nat) (sev : Severity) (kind index : Nat) (p : List Byte) (k i j : Nat) :
    (((if c then s.report code sev kind index p else s).injEnd k i).injEnd k j).settings = s.settings := by
  have kept : (if c then s.report code sev kind index p else s).settings = s.settings := by
    rw [apply_ite State.settings, settings_report, ite_self]
  exact kept

/-- Without injections a window leaves what it calibrated. -/
theorem exec_calibrationWindow {s : State} (q : s.Quiet) (rd : CalReading) (on : s.boot.mainOn = true) :
    ∃ t, exec (.calibrationWindow rd) s = .next t ∧ t.pwrDyn.settings = (s.pwrDyn.calibrated rd (calWide rd)).settings := by
  show ∃ t, execCalibrationWindow rd s = .next t ∧ _
  unfold execCalibrationWindow
  rw [if_neg (by simp [on]), railMeasure_of_quiet q]
  dsimp only
  rw [railMeasure_of_quiet q]
  dsimp only
  exact ⟨_, rfl, congrArg (fun x : Pwr × PwrDyn × PwrRegs => x.2.1) ((settings_powerSettle _).trans (settings_reported _ _ _ _ _ _ _ _ _ _))⟩

end Sys2Proof.Machine
end

section
namespace Sys2Proof.Proofs
open Sys2Proof.Machine Sys2Proof.Laws

/-- Settles O47: a period is what the governor decides of its reading, and what settles after it moves no setpoint while no quarter is
parked by limit or temperature; a window leaves what it calibrated. -/
theorem governorAndCalibration : Obligations.GovernorAndCalibration := by
  intro s rd cal q on p0 p l c v
  refine ⟨⟨_, exec_governorPeriod q rd on, ?_, ?_, ?_, fun spring => ?_, fun running ramp episode cap envelope limit temp => ?_⟩, ?_⟩
  case refine_1 => exact (pwrRegs_governed _ _ _ PwrRegs.input fun _ => rfl).trans (pwrRegs_measured s rd _).1
  case refine_2 => exact (pwrRegs_governed _ _ _ PwrRegs.est fun _ => rfl).trans (pwrRegs_measured s rd _).2.1
  case refine_3 => exact (pwrRegs_governed _ _ _ PwrRegs.energy fun _ => rfl).trans (pwrRegs_measured s rd _).2.2
  case refine_4 =>
    have steady := govern_of_spring (s.modulePower rd) rd.unparkCost (s := s.measured rd (s.modulePower rd)) (by rw [pwr_measured]; exact spring)
    rw [goal_powerSettle_of_spring (steady.2.2.trans (by rw [pwr_measured]; exact spring)), steady.goal, goal_measured]
  case refine_5 =>
    rw [show s.modulePower rd = p from rfl]
    clear_value p
    have pw := pwr_measured s rd p
    have goal : (s.measured rd p).setpointGoal = v := goal_measured s rd p
    have ceil : (s.measured rd p).ceilMv = c := by
      unfold State.ceilMv
      rw [pwr_measured, pwrDyn_measured, episode]
      rfl
    have top : 1000 * (s.measured rd p).limitW = l := by
      unfold State.limitW
      rw [pwr_measured, if_pos ramp]
    have reach : (s.measured rd p).unreachable = false := by
      unfold State.unreachable
      rw [pwr_measured]
      simp [cap, envelope]
    generalize s.measured rd p = u at pw goal ceil top reach
    rw [← goal, ← ceil, ← top]
    have parked {w : State} (h : w.settings = (u.onPwr fun w => { w with gate := false, gateDuty := 1024 }).settings) :
        w.pwr.parkedLimit = 0 ∧ w.pwr.parkedTemp = 0 :=
      ⟨(pwr_of_settings h Pwr.parkedLimit).trans (by rw [onPwr_pwr, pw]; exact limit),
        (pwr_of_settings h Pwr.parkedTemp).trans (by rw [onPwr_pwr, pw]; exact temp)⟩
    refine ⟨fun above high => ?lowers, fun low below => ?raises, fun within rest => ?holds⟩
    case lowers =>
      obtain ⟨lowered, settings⟩ := govern_lowers p rd.unparkCost (by rw [pw]; exact running) above high
      rw [goal_powerSettle (parked settings).1 (parked settings).2, lowered]
    case raises =>
      obtain ⟨raised, settings⟩ := govern_raises p rd.unparkCost (by rw [pw]; exact running) (by rw [pw]; exact limit) reach
        (by omega) (by rw [pw]; exact temp) low below
      rw [goal_powerSettle (parked settings).1 (parked settings).2, raised]
    case holds =>
      obtain ⟨held, settings⟩ := govern_holds p rd.unparkCost (by rw [pw]; exact running) (by rw [pw]; exact limit) reach
        within rest
      rw [goal_powerSettle (parked settings).1 (parked settings).2, held]
  case refine_6 =>
    obtain ⟨t, runs, dyn⟩ := exec_calibrationWindow q cal on
    have kept {α : Type} (f : PwrDyn → α) (hf : ∀ d, f d.settings = f d) : f t.pwrDyn = f (s.pwrDyn.calibrated cal (calWide cal)) :=
      ((hf _).symm.trans (congrArg f dyn)).trans (hf _)
    refine ⟨t, runs, kept PwrDyn.gainArr fun _ => rfl, kept PwrDyn.gainEng fun _ => rfl, fun disagrees => ?_, fun arr eng => ?_⟩
    · have wide : calWide cal = true := by simpa [calWide] using disagrees
      rw [kept PwrDyn.windows fun _ => rfl, kept PwrDyn.agree fun _ => rfl, kept PwrDyn.followHigh fun _ => rfl, wide]
      refine ⟨rfl, rfl, fun long => ?_⟩
      simp [PwrDyn.calibrated, long]
    · have near : calWide cal = false := by
        simp only [calWide, Bool.or_eq_false_iff, decide_eq_false_iff_not, gt_iff_lt]
        exact ⟨arr, eng⟩
      rw [kept PwrDyn.windows fun _ => rfl, kept PwrDyn.agree fun _ => rfl, kept PwrDyn.followHigh fun _ => rfl, near]
      refine ⟨rfl, rfl, fun long => ?_⟩
      simp [PwrDyn.calibrated, long]

end Sys2Proof.Proofs
end

section
/-! Events of the power manager (R337, R338, R341, R348 to R354): what each leaves. -/

namespace Sys2Proof.Machine

open Sys2Proof.Laws

/-! ### Envelopes (R337, R338) -/

/-- What a ceiling that takes effect leaves of the limits and the quarters. -/
theorem pwr_setCeiling (s : State) (w : Nat) {α : Type} (f : Pwr → α) (hf : ∀ p, f p.settings = f p := by exact fun _ => rfl) :
    f (s.setCeiling w).pwr = f { s.pwr with envelope := w, pending := none } := by
  obtain ⟨x, settings⟩ := settings_setCeiling s w
  exact ((hf _).symm.trans (congrArg (fun y : Pwr × PwrDyn × PwrRegs => f y.1) settings)).trans (hf _)

theorem pwr_passTo (s : State) (t : Nat) : (s.passTo t).pwr = s.pwr := field_of_upkeep (upkeep_passTo s t) State.pwr
theorem pwrDyn_passTo (s : State) (t : Nat) : (s.passTo t).pwrDyn = s.pwrDyn := field_of_upkeep (upkeep_passTo s t) State.pwrDyn

theorem exec_envelopeEffective {s : State} {e : Envelope} (h : s.pwr.pending = some e) :
    exec .envelopeEffective s = .next ((s.passTo e.due).setCeiling e.ceiling) := by
  show execEnvelopeEffective s = _
  unfold execEnvelopeEffective
  rw [h]

theorem exec_envelopeLeaseExpiry {s : State} (lease : s.pwr.lease ≠ 0) (free : s.pwr.leased = false) :
    ∃ u : State, exec .envelopeLeaseExpiry s = .next (u.setCeiling s.pwr.safe) ∧ u.pwr.leased = true := by
  show ∃ u : State, execEnvelopeLeaseExpiry s = .next (u.setCeiling s.pwr.safe) ∧ _
  unfold execEnvelopeLeaseExpiry
  rw [if_neg (by simp [lease, free])]
  dsimp only [onPwr_pwr]
  rw [pwr_passTo]
  refine ⟨_, rfl, ?_⟩
  rw [pwr_of_settings (settings_report _ _ _ _ _ _) Pwr.leased]
  rfl

/-! ### Droop and slew (R333, R351, R352) -/

/-- A setpoint that rests, or a slew that a droop stops, stays where it is. -/
theorem setpoint_setGoal {s : State} (h : s.pwrDyn.slew = none ∨ s.pwrDyn.droopActive = true) (v : Nat) :
    (s.setGoal v).pwr.setpoint = s.pwr.setpoint := by
  unfold State.setGoal
  split
  · rfl
  · split
    · rename_i slews
      have stopped : s.pwrDyn.droopActive = true := h.resolve_left (by rw [slews]; exact Option.some_ne_none _)
      show s.setpointNow = _
      unfold State.setpointNow
      rw [slews, stopped]
      rfl
    · rfl

theorem setpoint_powerSettle {s : State} (h : s.pwrDyn.slew = none ∨ s.pwrDyn.droopActive = true) :
    s.powerSettle.pwr.setpoint = s.pwr.setpoint := by
  obtain ⟨t, g, v, dyn, pwr, settled⟩ := powerSettle_cases s
  have rests : t.pwr.setpoint = s.pwr.setpoint := by rw [pwr]
  obtain settled | settled := settled
  · rw [settled, rests]
  · rw [settled, State.holdWinter, apply_ite State.pwr, apply_ite Pwr.setpoint, setpoint_setGoal (by rw [dyn]; exact h), ite_self, rests]

theorem exec_droopTrip {s : State} (quiet : s.Quiet) (q : Fin 4) {depth : Nat} (on : s.boot.mainOn = true) (deep : 40 < depth)
    (rest : Sparse.get 0 s.pwrDyn.droop q = 0) : exec (.droopTrip q depth) s = .next (s.tripDroop q depth) := by
  show execDroopTrip q depth s = _
  unfold execDroopTrip
  rw [if_neg (by simp [on, rest, deep]), quiet.fires]

theorem exec_droopGateEnd {s : State} (ns : Nat) {waves : Nat} (gate : s.pwrDyn.droopGate = true) (low : 2 ≤ waves) (high : waves ≤ 20)
    (over_ : s.pwrDyn.droop = [] ∨ waves = 20) : ∃ u : State, exec (.droopGateEnd ns waves) s =
      .next (u.onPwrDyn fun d => { d with droopGate := false, droopTrips := [] }).powerSettle := by
  show ∃ u : State, execDroopGateEnd ns waves s = .next (u.onPwrDyn fun d => { d with droopGate := false, droopTrips := [] }).powerSettle
  unfold execDroopGateEnd
  rw [if_neg ?_]
  · exact ⟨_, rfl⟩
  · obtain none | all := over_
    · simp [gate, none, high]
      omega
    · simp [gate, all]

/-- A droop that is over, with the slew that goes on from now (R352). -/
def State.droopCleared (s : State) (ns : Nat) : State :=
  s.onPwrDyn fun d => { d with
    droopActive := false, slewPause := if d.slewPaused then d.slewPause + ns else d.slewPause
    slew := match d.slew with | some (a, b, _) => some (a, b, s.now) | none => none }

theorem exec_droopClear {s : State} (ns : Nat) (released : s.pwrDyn.droop = []) (open_ : s.pwrDyn.droopGate = false)
    (active : s.pwrDyn.droopActive = true) : exec (.droopClear ns) s = .next (s.droopCleared ns).powerSettle := by
  show execDroopClear ns s = _
  unfold execDroopClear
  rw [if_neg (by simp [released, open_, active])]
  rfl

/-- The setpoint at its destination. -/
def State.slewed (s : State) (v : Nat) : State :=
  (s.onPwr fun p => { p with setpoint := v }).onPwrDyn fun d => { d with slew := none, slewPaused := false, slewPause := 0 }

theorem exec_slewDone {s : State} (ns : Nat) {a b k : Nat} (slew : s.pwrDyn.slew = some (a, b, k)) (active : s.pwrDyn.droopActive = false) :
    ∃ u, exec (.slewDone ns) s = .next (State.powerSettle u) ∧ u.pwr = (s.slewed b).pwr ∧ u.pwrDyn = (s.slewed b).pwrDyn := by
  show ∃ u, execSlewDone ns s = .next (State.powerSettle u) ∧ _
  unfold execSlewDone
  rw [slew]
  dsimp only
  rw [if_neg (by simp [active])]
  refine ⟨_, rfl, ?_⟩
  split
  · exact ⟨(notices_report _ _ _ _ _ _).field State.pwr fun _ => rfl, (notices_report _ _ _ _ _ _).field State.pwrDyn fun _ => rfl⟩
  · exact ⟨rfl, rfl⟩

/-! ### Current and temperature (R348 to R350) -/

theorem shutdown_beginShutdown {s : State} (up : s.boot.shutdown = none) (c : Shutdown) : (s.beginShutdown c).boot.shutdown = some c := by
  have flushes (u : State) : u.startFlush.boot = u.boot := by
    unfold State.startFlush
    split
    · rfl
    · split <;> rfl
  unfold State.beginShutdown
  rw [if_neg (by simp [up]), flushes]
  rfl

theorem shutdown_report {s : State} (up : s.boot.shutdown = none) (code : Nat) (sev : Severity) (kind index : Nat) (p : List Byte) :
    (s.report code sev kind index p).boot.shutdown = none :=
  ((notices_report s code sev kind index p).field fun x => x.boot.shutdown).trans up

theorem exec_overcurrentDetect {s : State} (quiet : s.Quiet) (peak : Nat) (on : s.boot.mainOn = true) :
    exec (.overcurrentDetect peak) s = .next ((s.sampleCurrent peak).injEnd 0x0E 0xFF) := by
  show execOvercurrentDetect peak s = _
  unfold execOvercurrentDetect
  rw [if_neg (by simp [on]), opportunity_of_slots_nil quiet.1]
  rfl

section
variable {s : State} {peak : Nat}

theorem sampleCurrent_fault (up : s.boot.shutdown = none) (fault : 2100000 ≤ peak) :
    (s.sampleCurrent peak).boot.shutdown = some .overcurrent := by
  unfold State.sampleCurrent
  dsimp only
  rw [if_neg (by simp [up]), if_pos fault]
  exact shutdown_beginShutdown (shutdown_report up _ _ _ _ _) _

/-- An episode begins, or goes on, and the ceiling is lowered (R350). -/
theorem sampleCurrent_warns (warn : 1900000 < peak) (below : peak < 2100000) :
    (s.sampleCurrent peak).settings =
      (s.onPwrDyn fun d => { d with currCeil := max 450 (min s.pwrDyn.currCeil s.pwr.target - 10), episode := true }).settings := by
  unfold State.sampleCurrent
  dsimp only
  rw [if_neg (by omega), if_neg (by omega), if_pos (.inl warn), settings_powerSettle]
  simp only [apply_ite State.settings, settings_report, settings_setGoal, ite_self]

theorem sampleCurrent_ends (low : peak < 1850000) :
    (s.sampleCurrent peak).settings = (s.onPwrDyn fun d => { d with episode := false }).settings := by
  unfold State.sampleCurrent
  dsimp only
  rw [if_neg (by omega), if_neg (by omega), if_neg (by omega), if_pos low, settings_powerSettle]

end

theorem mem_ins {α : Type} (k : Nat) (v : α) (l : Sparse α) : (k, v) ∈ Sparse.ins k v l := by
  induction l with
  | nil => exact List.mem_singleton_self _
  | cons x l ih =>
    unfold Sparse.ins
    split
    · exact List.mem_cons_self
    · exact List.mem_cons_of_mem _ ih

/-- A tile read at 110 °C or above is a reading that shuts the module down. -/
theorem overtemp_isSome {s : State} {k : Nat} {t : Int} (read : (k, t) ∈ s.pwrDyn.readings) (hot : (1760 : Int) ≤ t) : s.overtemp.isSome = true := by
  have found : (s.pwrDyn.readings.find? fun r => decide (1760 ≤ r.2)).isSome = true :=
    List.find?_isSome.2 ⟨_, read, decide_eq_true hot⟩
  obtain ⟨r, hr⟩ := Option.isSome_iff_exists.1 found
  unfold State.overtemp
  dsimp only
  rw [hr]
  rfl

theorem overtemp_eq_none {s : State} (cool : ∀ k ∈ s.pwrDyn.readings ++ s.pwrDyn.edgeReadings ++ s.pwrDyn.compReadings, k.2 < 1760) :
    s.overtemp = none := by
  have missing (l : Sparse Int) (h : ∀ k ∈ l, k ∈ s.pwrDyn.readings ++ s.pwrDyn.edgeReadings ++ s.pwrDyn.compReadings) :
      l.find? (fun r => decide (1760 ≤ r.2)) = none :=
    List.find?_eq_none.2 fun k hk => by simpa using cool k (h k hk)
  unfold State.overtemp
  dsimp only
  rw [missing s.pwrDyn.readings fun k hk => by simp [hk], missing s.pwrDyn.edgeReadings fun k hk => by simp [hk],
    missing s.pwrDyn.compReadings fun k hk => by simp [hk]]
  rfl

theorem boot_readingsEnd (s : State) (rd : List (Sensor × Int)) : (s.readingsEnd rd).boot = s.boot :=
  foldl_proj State.boot (fun u x => by split <;> rfl) rd s

/-- A tile at 110 °C or above begins the thermal shutdown (R349). -/
theorem exec_dieTempStep_hot {s : State} (quiet : s.Quiet) (p : Fin 68) {t : Int} (on : s.boot.mainOn = true) (up : s.boot.shutdown = none)
    (hot : (1760 : Int) ≤ t) : ∃ u, exec (.dieTempStep [(.tile p, t)]) s = .next u ∧ u.boot.shutdown = some .thermal := by
  have stored : s.storeReadings [(.tile p, t)] = s.onPwrDyn fun d => { d with readings := putReading d.readings p.val t } := by
    delta State.storeReadings
    show ((s.opportunity 0x0C03 2 p.val 0 fun _ => true).2.onPwrDyn _) = _
    rw [opportunity_of_slots_nil quiet.1]
  obtain ⟨⟨k, i, r⟩, over_⟩ := Option.isSome_iff_exists.1 (overtemp_isSome (s := s.onPwrDyn fun d => { d with
    readings := putReading d.readings p.val t }) (mem_ins p.val t (Sparse.del p.val s.pwrDyn.readings)) hot)
  show ∃ u, execDieTempStep [(.tile p, t)] s = .next u ∧ _
  unfold execDieTempStep
  rw [stored]
  dsimp only
  rw [if_neg (by simp [on]), over_]
  dsimp only
  rw [if_neg (by simp [up])]
  refine ⟨_, rfl, ?_⟩
  rw [boot_readingsEnd]
  simp only [onPwrDyn_alm, quiet.2, List.not_mem_nil, and_false, if_false]
  exact shutdown_beginShutdown (shutdown_report (by exact up) _ _ _ _ _) _

/-! A step without new readings (Table 12-3) -/

section
variable {now target c : Nat} {hot cool : Bool} {lower raise : Option Nat}

theorem ceilStep_lowers (warm : hot = true) (first : lower = none) : (ceilStep now target c hot cool lower raise).1 = max 450 (min c target - 5) := by
  unfold ceilStep
  rw [warm, first]
  rfl

theorem ceilStep_raises (warm : hot = false) (cold : cool = true) (below : c < target) (first : raise = none) :
    (ceilStep now target c hot cool lower raise).1 = min target (c + 5) := by
  unfold ceilStep
  simp [warm, cold, below, first]

end

/-- The step of the thermal ceilings that the readings lead to. -/
def State.coreStep (s : State) : Nat × Option Nat × Option Nat :=
  let d := s.pwrDyn
  let die := d.readings.map (·.2) ++ d.edgeReadings.map (·.2)
  ceilStep s.now s.pwr.target d.coreCeil (die.any fun t => decide (95 * 16 ≤ t)) (die.all fun t => decide (t < 93 * 16)) d.lastLower d.lastRaise

/-- The core ceiling takes its step; quarters parked by temperature leave it. -/
theorem exec_dieTempStep_nil {s : State} (on : s.boot.mainOn = true) (cool : s.overtemp = none) :
    ∃ t, exec (.dieTempStep []) s = .next t ∧ t.pwrDyn.coreCeil = s.coreStep.1 := by
  have stored : s.storeReadings [] = s := rfl
  show ∃ t, execDieTempStep [] s = .next t ∧ _
  unfold execDieTempStep
  rw [stored]
  dsimp only
  rw [if_neg (by simp [on]), cool]
  dsimp only
  refine ⟨_, rfl, ?_⟩
  rw [pwrDyn_of_settings (settings_powerSettle _) PwrDyn.coreCeil]
  show (State.readingsEnd _ []).pwrDyn.coreCeil = _
  simp only [State.readingsEnd, List.foldl_nil]
  repeat' split
  all_goals simp only [pwrDyn_followParked, onPwr_pwrDyn, onPwrDyn_pwrDyn, State.coreStep]

/-! ### Quarters (R341) -/

theorem getLsbD_setQ_false : ∀ (m : BitVec 4) (q : Fin 4), (setQ m q false).getLsbD q = false := by decide

theorem exec_quarterParkDone {s : State} {q : Fin 4} (parking : s.pwr.parking.getLsbD q = true) (quiet : s.quarterQuiet q = true) :
    exec (.quarterParkDone q) s = .next (s.onPwr fun p => { p with parking := setQ p.parking q.val false }).powerSettle := by
  show execQuarterParkDone q s = _
  unfold execQuarterParkDone
  rw [if_pos ⟨parking, quiet⟩]

section
variable (s : State) (q : Nat) (on : Bool)

theorem tileMap_haltQuarter : (s.haltQuarter q on).tileMap = s.tileMap :=
  foldl_proj State.tileMap (fun u i => by split <;> rfl) _ s

theorem pwr_haltQuarter : (s.haltQuarter q on).pwr = s.pwr := foldl_proj State.pwr (fun u i => by split <;> rfl) _ s

theorem health_onTileRegs (p : Nat) (f : TileRegs → TileRegs) (k : Nat) : ((s.onTileRegs p f).tile k).health = (s.tile k).health := by
  by_cases h : p = k
  · subst h
    rw [tile_onTileRegs]
  · rw [State.onTileRegs, tile_onTile_other _ _ h]

theorem health_haltQuarter (k : Nat) : ((s.haltQuarter q on).tile k).health = (s.tile k).health :=
  foldl_proj (fun u : State => (u.tile k).health) (fun u i => by split; exacts [health_onTileRegs u _ _ k, rfl]) _ s

/-- The power manager's HALT on one engine. -/
def State.haltEngine (s : State) (e : Nat) (on : Bool) : State :=
  match s.ptile e with
  | some p => s.onTileRegs p fun r => { r with pmHalt := on }
  | none => s

theorem haltQuarter_eq : s.haltQuarter q on = (List.range 16).foldl (fun s i => s.haltEngine (16 * q + i) on) s := rfl

variable {s} in
/-- HALT is taken off the tile that serves the engine, and off no other. -/
theorem pmHalt_haltEngine {e k : Nat} (h : (s.tile k).regs.pmHalt = false ∨ s.ptile e = some k) :
    ((s.haltEngine e false).tile k).regs.pmHalt = false := by
  unfold State.haltEngine
  split
  · rename_i p serves
    by_cases same : p = k
    · subst same
      rw [tile_onTileRegs]
    · rw [State.onTileRegs, tile_onTile_other _ _ same]
      exact h.resolve_right fun named => same (Option.some.inj (serves.symm.trans named))
  · rename_i free
    exact h.resolve_right fun named => Option.some_ne_none k (named.symm.trans free)

theorem ptile_haltEngine (e j : Nat) : (s.haltEngine e on).ptile j = s.ptile j := by
  unfold State.haltEngine
  split <;> rfl

/-- It is taken off every engine whose index is listed. -/
theorem pmHalt_cleared (l : List Nat) (u : State) {k : Nat} (h : (u.tile k).regs.pmHalt = false ∨ ∃ i ∈ l, u.ptile (16 * q + i) = some k) :
    ((l.foldl (fun s i => s.haltEngine (16 * q + i) false) u).tile k).regs.pmHalt = false := by
  induction l generalizing u with
  | nil => exact h.resolve_right (by simp)
  | cons i l ih =>
    refine ih _ ?_
    obtain off | ⟨j, hj, named⟩ := h
    · exact .inl (pmHalt_haltEngine (.inl off))
    · obtain rfl | later := List.mem_cons.1 hj
      · exact .inl (pmHalt_haltEngine (.inr named))
      · exact .inr ⟨j, later, (ptile_haltEngine _ _ _ _).trans named⟩

end

/-- What no step of a fold changes, the fold leaves. -/
theorem foldl_fixed {α β : Type} {f : β → α → β} {l : List α} {b : β} (h : ∀ x ∈ l, f b x = b) : l.foldl f b = b := by
  induction l with
  | nil => rfl
  | cons x l ih =>
    rw [List.foldl_cons, h x List.mem_cons_self]
    exact ih fun y hy => h y (List.mem_cons_of_mem _ hy)

/-- A quarter restored: its bit is off, and so is HALT on its engines, before the regime follows. -/
def State.quarterRestored (s : State) (q : Nat) : State := (s.onPwr fun p => { p with unparking := setQ p.unparking q false }).haltQuarter q false

theorem exec_quarterUnparkDone {s : State} {q : Fin 4} (unparking : s.pwr.unparking.getLsbD q = true)
    (well : ∀ i, i < 16 → ∀ p, s.ptile (16 * q + i) = some p → (s.tile p).health ≠ .failedSelftest) :
    exec (.quarterUnparkDone q) s = .next (s.quarterRestored q).powerSettle := by
  have map : (s.quarterRestored q).powerSettle.tileMap = s.tileMap :=
    (powerSettle_field _ State.tileMap (fun _ _ => rfl) (fun _ _ => rfl) fun _ _ h => h.field State.tileMap fun _ => rfl).trans
      (tileMap_haltQuarter _ _ _)
  have health (k : Nat) : ((s.quarterRestored q).powerSettle.tile k).health = (s.tile k).health :=
    (powerSettle_field _ (fun u => (State.tile u k).health) (fun _ _ => rfl) (fun _ _ => rfl) fun _ _ h =>
      h.field fun u => (State.tile u k).health).trans (health_haltQuarter _ _ _ k)
  show execQuarterUnparkDone q s = _
  unfold execQuarterUnparkDone
  rw [if_neg (by simp [unparking])]
  dsimp only
  refine congrArg Host.Outcome.next (foldl_fixed fun i hi => ?_)
  split
  · rename_i p mapped
    refine if_neg ?_
    rw [← State.quarterRestored, health]
    exact well i (List.mem_range.1 hi) p ((ptile_of_tileMap map _).symm.trans mapped)
  · rfl

/-! ### SOLSTICE phases (R353, R354) -/

theorem phases_passTo (s : State) (t : Nat) : (s.passTo t).pwrRegs.phases = s.pwrRegs.phases := by
  have passed (n : Nat) : (s.pass n).pwrRegs.phases = s.pwrRegs.phases :=
    field_pass (fun u => u.pwrRegs.phases) (fun _ _ h => h.field fun u => u.pwrRegs.phases) (s := s) (n := n) (hc := rfl)
  rw [State.passTo, apply_ite State.pwrRegs, apply_ite PwrRegs.phases, passed, ite_self]

/-- A granted phase that is the only one starts at its moment, with the setpoint on its way to its ceiling. -/
theorem exec_solsticePhaseStart {s : State} {x : Solstice} (only : s.pwrRegs.phases = [x]) (waits : x.begun = false) (granted : x.granted = true)
    (running : s.pwr.regime ≠ .spring) (limit : s.pwr.parkedLimit = 0) (temp : s.pwr.parkedTemp = 0) :
    ∃ n, exec .solsticePhaseStart s = .next (State.powerSettle (((s.passTo x.start).setGoal s.ceilMv).onPwrRegs fun r => { r with
      phases := r.phases.map fun y => if y.phase = x.phase then { y with begun := true, waves0 := n, before := 0 } else y })) := by
  have ceil : (s.passTo x.start).ceilMv = s.ceilMv := by
    unfold State.ceilMv
    rw [pwr_passTo, pwrDyn_passTo]
  show ∃ n, execSolsticePhaseStart s = _
  unfold execSolsticePhaseStart
  simp only [only, List.foldl_cons, List.foldl_nil, waits, Bool.false_eq_true, if_false]
  rw [if_neg (by simp [granted, pwr_passTo, running, limit, temp]), ceil]
  exact ⟨_, rfl⟩

/-- The only phase ends once its engine has done its waves. -/
theorem exec_solsticePhaseEnd {s : State} {x : Solstice} (only : s.pwrRegs.phases = [x]) (begun : x.begun = true)
    (waves : x.waves0 + x.duration * 2 ^ 20 ≤ x.before + s.wavesOf x.queue) :
    exec .solsticePhaseEnd s = .next (s.endPhases fun x => x.begun && decide (x.waves0 + x.duration * 2 ^ 20 ≤ x.before + s.wavesOf x.queue)).powerSettle := by
  show execSolsticePhaseEnd s = _
  unfold execSolsticePhaseEnd
  dsimp only
  refine if_pos ?_
  rw [only, List.any_cons, begun, decide_eq_true waves]
  rfl

end Sys2Proof.Machine
end

section
namespace Sys2Proof.Proofs
open Sys2Proof.Machine Sys2Proof.Laws

/-- Settles O48: each event sets what it names, and the regime and the setpoint that follow leave it. -/
theorem powerEvents : Obligations.PowerEvents := by
  intro s quiet
  have dyn {t u : State} (h : t.settings = u.settings) {α : Type} (f : PwrDyn → α) (hf : ∀ d, f d.settings = f d) : f t.pwrDyn = f u.pwrDyn :=
    pwrDyn_of_settings h f hf
  refine ⟨?effective, ?lease, ?trip, ?release, ?gateEnd, ?clear, ?slewDone, ?current, ?hot, ?cool, ?warm, ?parked, ?restored, ?phaseStart, ?phaseEnd⟩
  case effective =>
    intro e announced
    exact ⟨_, exec_envelopeEffective announced, pwr_setCeiling _ _ Pwr.envelope, pwr_setCeiling _ _ Pwr.pending⟩
  case lease =>
    intro lease free
    obtain ⟨u, runs, leased⟩ := exec_envelopeLeaseExpiry lease free
    exact ⟨_, runs, pwr_setCeiling _ _ Pwr.envelope, (pwr_setCeiling _ _ Pwr.leased).trans leased, pwr_setCeiling _ _ Pwr.pending⟩
  case trip =>
    intro q depth on deep rest
    refine ⟨_, exec_droopTrip quiet q on deep rest, dyn (settings_powerSettle _) PwrDyn.droopGate fun _ => rfl,
      dyn (settings_powerSettle _) PwrDyn.droopActive fun _ => rfl, setpoint_powerSettle (.inr rfl), ?_⟩
    rw [State.tripDroop, dyn (settings_powerSettle _) PwrDyn.droop fun _ => rfl]
    exact get_put_same 0 s.pwrDyn.droop q.val (depth + 1)
  case release =>
    intro q
    refine ⟨_, rfl, fun k => ?_⟩
    rw [dyn (settings_powerSettle _) PwrDyn.droop fun _ => rfl, onPwrDyn_pwrDyn]
    split
    · rename_i same
      rw [same, get_put_same]
    · rename_i other
      exact get_put_other 0 s.pwrDyn.droop 0 (Ne.symm other)
  case gateEnd =>
    intro ns waves gate low high over_
    obtain ⟨u, runs⟩ := exec_droopGateEnd ns gate low high over_
    exact ⟨_, runs, dyn (settings_powerSettle _) PwrDyn.droopGate fun _ => rfl⟩
  case clear =>
    intro ns released open_ active
    exact ⟨_, exec_droopClear ns released open_ active, dyn (settings_powerSettle _) PwrDyn.droopActive fun _ => rfl⟩
  case slewDone =>
    intro ns a b k slew active
    obtain ⟨u, runs, pwr, pwrDyn⟩ := exec_slewDone ns slew active
    refine ⟨_, runs, (setpoint_powerSettle (.inl (by rw [pwrDyn]; rfl))).trans (by rw [pwr]; rfl), fun limit temp => ?_⟩
    rw [(powerSettle_of_unparked (by rw [pwr]; exact limit) (by rw [pwr]; exact temp)).1, pwrDyn]
    rfl
  case current =>
    intro peak on up
    refine ⟨_, exec_overcurrentDetect quiet peak on, fun fault => sampleCurrent_fault up fault, fun warn below => ?_, fun low => ?_⟩
    · exact ⟨dyn (sampleCurrent_warns warn below) PwrDyn.episode fun _ => rfl, dyn (sampleCurrent_warns warn below) PwrDyn.currCeil fun _ => rfl⟩
    · exact ⟨dyn (sampleCurrent_ends low) PwrDyn.episode fun _ => rfl, dyn (sampleCurrent_ends low) PwrDyn.currCeil fun _ => rfl⟩
  case hot => exact fun p r on up hot => exec_dieTempStep_hot quiet p on up hot
  case cool =>
    intro on cold first below
    obtain ⟨t, runs, core⟩ := exec_dieTempStep_nil on (overtemp_eq_none fun k hk => (cold k hk).trans (by decide))
    refine ⟨t, runs, core.trans (ceilStep_raises ?_ ?_ below first)⟩
    · simp only [List.any_eq_false, List.mem_append, List.mem_map, decide_eq_true_eq]
      rintro x (⟨k, hk, rfl⟩ | ⟨k, hk, rfl⟩) <;> have := cold k (by simp [hk]) <;> omega
    · simp only [List.all_eq_true, List.mem_append, List.mem_map, decide_eq_true_eq]
      rintro x (⟨k, hk, rfl⟩ | ⟨k, hk, rfl⟩) <;> exact cold k (by simp [hk])
  case warm =>
    intro on below hot first
    obtain ⟨t, runs, core⟩ := exec_dieTempStep_nil on (overtemp_eq_none below)
    refine ⟨t, runs, core.trans (ceilStep_lowers ?_ first)⟩
    obtain ⟨k, hk, warm⟩ := hot
    exact List.any_eq_true.2 ⟨k.2, List.mem_append_left _ (List.mem_map_of_mem hk), decide_eq_true warm⟩
  case parked =>
    intro q parking still
    exact ⟨_, exec_quarterParkDone parking still,
      (pwr_of_settings (settings_powerSettle _) fun p => p.parking.getLsbD q).trans (getLsbD_setQ_false _ q)⟩
  case restored =>
    intro q unparking well
    refine ⟨_, exec_quarterUnparkDone unparking well, ?_, fun i hi p serves => ?_⟩
    · rw [pwr_of_settings (settings_powerSettle _) Pwr.unparking, State.quarterRestored, pwr_haltQuarter]
      exact getLsbD_setQ_false _ q
    · rw [tile_of_tiles (powerSettle_field _ State.tiles (fun _ _ => rfl) (fun _ _ => rfl) fun _ _ h => h.field State.tiles),
        State.quarterRestored, haltQuarter_eq]
      exact pmHalt_cleared _ _ _ (.inr ⟨i, List.mem_range.2 hi, serves⟩)
  case phaseStart =>
    intro x only waits granted running limit temp
    obtain ⟨n, runs⟩ := exec_solsticePhaseStart only waits granted running limit temp
    have kept := settings_setGoal (s.passTo x.start) s.ceilMv
    refine ⟨_, runs, ?_, ?_⟩
    · refine (goal_powerSettle ?_ ?_).trans (goal_setGoal (s.passTo x.start) s.ceilMv)
      · exact (pwr_of_settings kept Pwr.parkedLimit).trans (by rw [pwr_passTo, limit])
      · exact (pwr_of_settings kept Pwr.parkedTemp).trans (by rw [pwr_passTo, temp])
    · rw [pwrRegs_of_settings (settings_powerSettle _) PwrRegs.phases, onPwrRegs_pwrRegs,
        pwrRegs_of_settings kept PwrRegs.phases, phases_passTo, only]
      simp
  case phaseEnd =>
    intro x only begun waves
    refine ⟨_, exec_solsticePhaseEnd only begun waves, ?_⟩
    rw [pwrRegs_of_settings (settings_powerSettle _) PwrRegs.phases, State.endPhases, onPwrRegs_pwrRegs, only]
    dsimp only
    rw [List.filter_cons, begun, decide_eq_true waves]
    rfl

end Sys2Proof.Proofs
end

section
/-! The management bus, the mailbox of the chords (R378, R379, R408), the end of an MCB write (R371) and the supplies (R414 to R417). -/

namespace Sys2Proof.Machine

open Sys2Proof.Laws

/-! ### The management bus (R378, R408) -/

section
variable {s : State} (up : s.boot.standby = true)
include up

theorem exec_smbBlockWrite {ok : Bool} {off : Nat} {d : List Byte} (short : d.length ≤ 253) : exec (.smbBlockWrite ok off d) s =
    if ok = false then .next (s.smbViol 1 0x20 s.smbAddr)
    else if 4096 < off + d.length then .next (s.smbViol 3 0x20 s.smbAddr)
    else .next (s.setMbox .smb { s.cp.smb with bytes := mboxStore s.cp.smb.bytes off d }) := by
  show execSmbBlockWrite ok off d s = _
  unfold execSmbBlockWrite
  rw [if_neg (by simp [aoUp_of_standby up, Nat.not_lt.mpr short])]
  cases ok <;> rfl

theorem exec_smbBlockRead (ok : Bool) (off : Nat) : exec (.smbBlockRead ok off) s =
    if ok = false then .next (s.smbViol 1 0x22 s.smbAddr)
    else .next (s.emit (.smb (Memory.bytes s.cp.smb.bytes off (min 255 (4096 - off))))) := by
  show execSmbBlockRead ok off s = _
  unfold execSmbBlockRead
  rw [if_neg (by simp [aoUp_of_standby up])]
  cases ok <;> rfl

theorem exec_smbSendByte (ok : Bool) : exec (.smbSendByte ok) s =
    if ok = false then .next (s.smbViol 1 0x21 s.smbAddr)
    else if s.cp.smb.state = .posted ∨ s.cp.smb.state = .running then .next (s.smbViol 4 0x21 s.smbAddr)
    else .next (s.post .smb) := by
  show execSmbSendByte ok s = _
  unfold execSmbSendByte
  rw [if_neg (by simp [aoUp_of_standby up])]
  cases ok <;> rfl

theorem exec_smbBadCommandCode {code : Byte} (addr : Byte) (known : ¬(code = 0x20 ∨ code = 0x21 ∨ code = 0x22)) :
    exec (.smbBadCommandCode code addr) s = .next ((s.emit (.smb [])).smbViol 2 code.toNat addr.toNat) :=
  if_neg (by simpa [aoUp_of_standby up] using known)

end

/-- A violation on the management bus is counted once (R408). -/
theorem smbViol_smbViol (s : State) (row code addr : Nat) : (s.smbViol row code addr).alm.smbViol = s.alm.smbViol + 1 := by
  have reported : (s.smbViol row code addr).sansReports = (s.onAlm fun a => { a with smbViol := inc a.smbViol }).sansReports :=
    (onlyReports_rowReport _ _ _ _ _ _ (by decide)).rest
  exact congrArg (fun u : State => u.alm.smbViol) reported

/-! ### MB[15] (R379) -/

section
variable {s : State} {m : CtlMsg} (on : s.boot.mainOn = true)
include on

theorem exec_mbCmdFirst (first : le m.bytes 0 1 = 0x20) :
    exec (.mbCmdFirst m) s = .next ((s.takeCtl m).mb15Piece m.srcX m.srcY [] (slice m.bytes 4 28)) :=
  congrArg _ (if_pos ⟨on, first⟩)

theorem exec_mbCmdNext (next : le m.bytes 0 1 = 0x21) (some_ : s.cp.mb15 ≠ []) (own : s.cp.mb15From = some (m.srcX, m.srcY)) :
    exec (.mbCmdNext m) s = .next ((s.takeCtl m).mb15Piece m.srcX m.srcY s.cp.mb15 (slice m.bytes 4 28)) :=
  congrArg _ (if_pos ⟨on, next, by simpa using some_, own⟩)

/-- Outside a recovery, what MB_CMD_DONE reports is kept and nothing follows. -/
theorem exec_mbCmdDone (done : le m.bytes 0 1 = 0x22) (rest : s.grp.restoring = []) : exec (.mbCmdDone m) s =
    .next ((s.takeCtl m).onCp fun c => { c with mbDone := Sparse.put [] c.mbDone (8 * m.srcY + m.srcX) (slice m.bytes 4 26) }) := by
  show execMbCmdDone m s = _
  unfold execMbCmdDone State.restoreAnswer
  rw [if_pos ⟨on, done⟩]
  simp only [onCp_grp, State.takeCtl, onChd_grp, rest, List.find?_nil]

end

/-! ### The end of an MCB write (R371) -/

theorem getD_patch_outside {m v : List Byte} {off i : Nat} (inside : off + v.length ≤ m.length) (outside : i < off ∨ off + v.length ≤ i) :
    (patch m off v).getD i 0 = m.getD i 0 := by
  unfold patch
  simp only [List.getD_eq_getElem?_getD]
  rw [List.append_assoc]
  rcases outside with before | after
  · rw [List.getElem?_append_left (by rw [List.length_take]; omega), List.getElem?_take_of_lt before]
  · rw [List.getElem?_append_right (by rw [List.length_take]; omega), List.length_take, Nat.min_eq_left (by omega),
      List.getElem?_append_right (by omega), List.getElem?_drop]
    congr 2
    omega

theorem length_patch {m v : List Byte} {off : Nat} (inside : off + v.length ≤ m.length) : (patch m off v).length = m.length := by
  unfold patch
  simp only [List.length_append, List.length_take, List.length_drop]
  omega

/-- The long command ends as its mailbox says, and flash is as it was. -/
theorem endCommand_answers (s : State) (k : Option Route) (st : Word16) : (s.endCommand k st []).flash = s.flash ∧
    ∀ r, k = some r → (s.mbox r).state = .running →
      ((s.endCommand k st []).mbox r).state = .done ∧ ((s.endCommand k st []).mbox r).status = st := by
  unfold State.endCommand
  cases k with
  | none => exact ⟨rfl, fun r h => absurd h (by simp)⟩
  | some k =>
    dsimp only
    obtain ⟨⟨rest, -⟩, state, status, -⟩ := respond_answers s k st []
    constructor
    · split
      · rw [rest]
      · rfl
    · rintro r ⟨⟩ running
      rw [if_pos running]
      exact ⟨state, status⟩

/-- MCB_WRITE_DONE stores a block, ends its command, and lets a flush that is due begin. -/
theorem exec_mcbWriteDone {s : State} {w : McbWrite} (h : s.flash.mcbWrite = some w) (ok : Bool) : ∃ t image,
    exec (.mcbWriteDone ok) s = .next t ∧ t.flash.mcbWrite = none ∧ t.flash.bytes = Memory.write s.flash.bytes mcbBase image ∧
    (image = w.image ∨ ok = false ∧ ∃ v, image = patch w.image 8 (leBytes 4 v)) ∧
    ∀ r, w.route = some r → (s.mbox r).state = .running →
      (t.mbox r).state = .done ∧ (t.mbox r).status = if ok then stOk else stFaulted := by
  have ends (u : State) (image : List Byte) (cp : u.cp = s.cp) (bytes : u.flash.bytes = Memory.write s.flash.bytes mcbBase image)
      (free : u.flash.mcbWrite = none) (st : Word16) (due : Bool) :
      let e := u.endCommand w.route st []
      let t := if due then e.startFlush else e
      t.flash.mcbWrite = none ∧ t.flash.bytes = Memory.write s.flash.bytes mcbBase image ∧
        ∀ r, w.route = some r → (s.mbox r).state = .running → (t.mbox r).state = .done ∧ (t.mbox r).status = st := by
    intro e t
    obtain ⟨flash, answers⟩ := endCommand_answers u w.route st
    have same : t.flash = u.flash ∧ t.cp = e.cp := by
      simp only [t]
      split
      · exact ⟨((notices_startFlush e).field State.flash).trans flash, (notices_startFlush e).field State.cp⟩
      · exact ⟨flash, rfl⟩
    have mbox (r : Route) : t.mbox r = e.mbox r := by cases r <;> simp only [State.mbox, same.2]
    have before (r : Route) : u.mbox r = s.mbox r := by cases r <;> simp only [State.mbox, cp]
    refine ⟨by rw [same.1, free], by rw [same.1, bytes], fun r route running => ?_⟩
    rw [mbox]
    exact answers r route (by rw [before]; exact running)
  show ∃ t image, execMcbWriteDone ok s = .next t ∧ _
  unfold execMcbWriteDone
  rw [h]
  dsimp only
  cases ok
  case true => exact ⟨_, w.image, rfl, by
    obtain ⟨free, bytes, done⟩ := ends ((s.writeFlash mcbBase w.image).onFlash fun f => { f with mcbWrite := none }) w.image rfl rfl rfl stOk _
    exact ⟨free, bytes, .inl rfl, done⟩⟩
  case false => exact ⟨_, patch w.image 8 (leBytes 4 s.draw.1.toNat), rfl, by
    obtain ⟨free, bytes, done⟩ := ends ((s.draw.2.writeFlash mcbBase (patch w.image 8 (leBytes 4 s.draw.1.toNat))).onFlash
      fun f => { f with mcbWrite := none }) _ rfl rfl rfl stFaulted _
    exact ⟨free, bytes, .inr ⟨rfl, _, rfl⟩, done⟩⟩

/-! ### The supplies (R414 to R417, Table 15-3) -/

theorem exec_standbyApply {s : State} {mv : Nat} (low : 11400 ≤ mv) (high : mv ≤ 12600) (off : s.boot.standby = false)
    (none_ : s.boot.fallback = false) : exec (.standbyApply mv) s = .next (s.fall.onBoot fun b => { b with standby := true }) := by
  show execStandbyApply mv s = _
  unfold execStandbyApply
  rw [if_neg (by omega), if_neg (by simp [off, none_, low, high])]

theorem exec_mainInputApply {s : State} {mv : Nat} (low : 40000 ≤ mv) (high : mv ≤ 58000) (off : s.boot.main = false) :
    exec (.mainInputApply mv) s = .next (s.onBoot fun b => { b with main := true }).tryPhase4 := by
  show execMainInputApply mv s = _
  unfold execMainInputApply
  rw [if_neg (by omega), if_neg (by simp [off, low, high])]

/-- What starts phase 4 writes the phase alone. -/
theorem tryPhase4_eq (s : State) : s.tryPhase4 = { s with boot := { s.boot with phase := s.tryPhase4.boot.phase } } := by
  unfold State.tryPhase4
  dsimp only
  split <;> rfl

end Sys2Proof.Machine
end

section
namespace Sys2Proof.Proofs
open Sys2Proof.Machine Sys2Proof.Laws

/-- Settles O33: each of the four transactions by its PEC, its range and the state of the mailbox. -/
theorem managementBus : Obligations.ManagementBus := by
  intro s off d code addr up
  refine ⟨fun short fits => ?writes, fun short => exec_smbBlockWrite up short, fun short beyond => ?outside, exec_smbBlockRead up true off,
    exec_smbBlockRead up false off, fun rests => ?posts, fun runs => ?busy, exec_smbSendByte up false,
    fun h0 h1 h2 => exec_smbBadCommandCode up addr (by rintro (h | h | h) <;> contradiction), smbViol_smbViol s _ _ _⟩
  case writes =>
    exact ⟨_, by rw [exec_smbBlockWrite up short, if_neg (by decide), if_neg (by omega)], rfl, read_mboxStore _ off d⟩
  case outside => rw [exec_smbBlockWrite up short, if_neg (by decide), if_pos beyond]
  case posts =>
    rw [exec_smbSendByte up, if_neg (by decide), if_neg]
    rcases rests with idle | done
    · simp [idle]
    · simp [done]
  case busy => rw [exec_smbSendByte up, if_neg (by decide), if_pos runs]

/-- Settles O34: each message by its code; the Apex keeps the report under the place of its sender. -/
theorem chordMailbox : Obligations.ChordMailbox := by
  intro s m on
  refine ⟨exec_mbCmdFirst on, exec_mbCmdNext on, fun done rest => ⟨_, exec_mbCmdDone on done rest, rfl, fun k => ?_⟩⟩
  by_cases own : k = 8 * m.srcY + m.srcX
  · subst own
    rw [if_pos rfl]
    exact get_put_same _ _ _ _
  · rw [if_neg own]
    exact get_put_other _ _ _ fun h => own h.symm

/-- Settles O39: the block is stored, at a failure but for CHECK, and its command ends. -/
theorem mcbWritten : Obligations.McbWritten := by
  intro s w h size
  constructor
  · obtain ⟨t, image, ran, free, bytes, stored, done⟩ := exec_mcbWriteDone h true
    obtain rfl : image = w.image := stored.resolve_right fun bad => Bool.noConfusion bad.1
    exact ⟨t, ran, free, fun a => by rw [bytes, read_write, size]; rfl, done⟩
  · obtain ⟨t, image, ran, free, bytes, stored, done⟩ := exec_mcbWriteDone h false
    have same : image.length = 2048 ∧ ∀ i, i < 8 ∨ 12 ≤ i → image.getD i 0 = w.image.getD i 0 := by
      obtain rfl | ⟨-, v, rfl⟩ := stored
      · exact ⟨size, fun _ _ => rfl⟩
      · have inside : 8 + (leBytes 4 v).length ≤ w.image.length := by rw [size, length_leBytes]; decide
        exact ⟨(length_patch inside).trans size, fun i out => getD_patch_outside inside (by rwa [length_leBytes])⟩
    refine ⟨t, ran, free, fun a out => ?_, fun r route running => (done r route running).2⟩
    rw [bytes, read_write, same.1, same.2 _ (by unfold mcbBase; omega)]
    rfl

/-- Settles O35: a supply beyond its maximum is refused before all else; one in its range is applied. -/
theorem supplies : Obligations.Supplies := by
  intro s mv
  refine ⟨fun high => if_pos high, fun high => if_pos high, fun low high off none_ => ?standby, fun low high off => ?main⟩
  case standby => exact ⟨_, exec_standbyApply low high off none_, rfl, rfl, rfl, rfl, rfl, rfl, rfl, rfl, rfl, rfl⟩
  case main =>
    refine ⟨_, exec_mainInputApply low high off, ?_, ?_⟩
    · rw [tryPhase4_eq]
      rfl
    · exact tryPhase4_eq _

end Sys2Proof.Proofs
end

section
/-! Losses of the supplies and the end of a shutdown (R395, R415 to R419). -/

namespace Sys2Proof.Machine

open Sys2Proof.Laws

/-- The commands that end with the main domain write what an answer and the CP's own state write. -/
theorem endMainCommands_field {α : Type} (f : State → α) (hc : ∀ (u : State) g, f (u.onCp g) = f u)
    (hr : ∀ (u : State) r, f (u.respond r stFaulted []) = f u) (s : State) : f s.endMainCommands = f s := by
  unfold State.endMainCommands
  rw [hc]
  exact foldl_proj f (fun u r => by rw [apply_ite f, hr, ite_self]) _ s

/-! ### What a record keeps -/

/-- A property of the state that messages keep and that no write of the Almanac or of what start-up keeps can end. -/
structure KeptByNews (P : State → Prop) : Prop where
  msix : ∀ (s : State) v, P s → P (s.msix v)
  control : ∀ (s : State) x y b, P s → P (s.sendControl x y b)
  alm : ∀ (s : State) a, P s → P { s with alm := a }
  boot : ∀ (s : State) b, P s → P { s with boot := b }

namespace KeptByNews

variable {P : State → Prop} (k : KeptByNews P) {s : State} (h : P s)
include k h

theorem alert : P s.alert := k.msix _ 272 (k.boot s _ h)

theorem startFlush : P s.startFlush := by
  unfold State.startFlush
  split
  · exact h
  · split <;> exact k.alm s _ h

theorem makePlace : P s.makePlace := by
  unfold State.makePlace
  split
  · exact h
  · exact k.alm s _ h

theorem pushRec (r : AlmRec) : P (s.pushRec r) := by
  unfold State.pushRec
  dsimp only
  split
  · exact k.startFlush (k.alm s _ h)
  · exact k.alm s _ h

theorem payLost : P s.payLost := by
  have one (u : State) (place count : Nat) (h : P u) : P (if count = 0 ∨ !u.ringRoom then u else
      (u.makePlace.pushRec (u.lostRec place count)).alert.onAlm fun a =>
        if place = 0 then { a with lostRing := 0 } else { a with lostFlash := 0 }) := by
    split
    · exact h
    · exact k.alm _ _ (k.alert (k.pushRec (k.makePlace h) _))
  exact one _ 1 _ (one s 0 _ h)

theorem appendRec (r : AlmRec) : P (s.appendRec r) := by
  have loss : P s.almLoss := k.alm s _ h
  unfold State.appendRec
  dsimp only
  split
  · exact k.pushRec (k.makePlace (k.payLost h)) r
  · split
    · exact loss
    · split
      · exact k.pushRec (k.alm _ _ loss) r
      · exact loss

theorem recMessages (r : AlmRec) (fold : Bool) : P (s.recMessages r fold) := by
  have alerts : P (if r.sev = .warn ∨ r.sev = .fault then s.alert else s) := by
    split
    · exact k.alert h
    · exact h
  unfold State.recMessages
  dsimp only
  generalize (if r.sev = .warn ∨ r.sev = .fault then s.alert else s) = u at alerts ⊢
  split
  · split
    · exact k.startFlush alerts
    · exact k.control _ _ _ _ (k.boot _ _ (k.startFlush alerts))
  · exact alerts

theorem takeRec (r : AlmRec) : P (s.takeRec r) := by
  have appended := k.appendRec h r
  unfold State.takeRec
  dsimp only
  split
  · split
    · exact k.boot _ _ appended
    · exact appended
  · exact k.recMessages appended r false

/-- So an event that reaches the Almanac keeps it (R391 to R394, R402). -/
theorem report (code : Nat) (sev : Severity) (kind index : Nat) (p : List Byte) : P (s.report code sev kind index p) := by
  unfold State.report State.reportRep
  dsimp only
  split
  · split
    · exact k.recMessages (k.alm s _ h) _ true
    · exact k.takeRec h _
  · exact k.takeRec h _

end KeptByNews

/-! ### Records and answers while MSI-X is disabled -/

/-- The memory controllers while no MSI-X message can go out, and with it nothing into the host write log (R314, R315). -/
def State.hushed (s : State) : Option Mem := if s.hst.msixEn then none else some s.mem

theorem mem_of_hushed {s t : State} (h : t.hushed = s.hushed) (off : s.hst.msixEn = false) : t.mem = s.mem := by
  unfold State.hushed at h
  rw [off] at h
  split at h
  · exact absurd h (by simp)
  · exact Option.some.inj h

section
variable (s : State)

theorem hushed_msix (v : Nat) : (s.msix v).hushed = s.hushed := by
  have same : (s.msix v).hst.msixEn = s.hst.msixEn := (notices_msix s v).field fun x => x.hst.msixEn
  cases en : s.hst.msixEn with
  | true => simp [State.hushed, same, en]
  | false => rw [State.msix, if_pos (by simp [en])]

theorem hushed_sendControl (x y : Nat) (b : List Byte) : (s.sendControl x y b).hushed = s.hushed := by
  rw [(sendControl_frame s x y b).1]
  rfl

theorem hushed_report (code : Nat) (sev : Severity) (kind index : Nat) (p : List Byte) : (s.report code sev kind index p).hushed = s.hushed := by
  have kept : KeptByNews fun u => u.hushed = s.hushed := ⟨fun u v h => (hushed_msix u v).trans h, fun u x y b h => (hushed_sendControl u x y b).trans h,
    fun _ _ h => h, fun _ _ h => h⟩
  exact kept.report rfl code sev kind index p

theorem hushed_setRegime (g : Regime) : (s.setRegime g).hushed = s.hushed := by
  unfold State.setRegime
  split
  · rfl
  · exact hushed_report _ _ _ _ _ _

theorem hushed_throttle : s.throttle.hushed = s.hushed := by
  unfold State.throttle
  dsimp only
  split
  · rfl
  · exact hushed_msix _ 274

theorem hushed_respond (r : Route) (st : Word16) (resp : List Byte) : (s.respond r st resp).hushed = s.hushed := by
  unfold State.respond State.writeResponse
  cases r with
  | pcie n => exact hushed_msix _ _
  | smb => rfl
  | chord => exact (hushed_sendControl _ _ _ _).trans (hushed_msix _ 271)

theorem hushed_endMainCommands : s.endMainCommands.hushed = s.hushed :=
  endMainCommands_field State.hushed (fun _ _ => rfl) (fun u r => hushed_respond u r _ _) s

theorem hushed_endWaiter (st : Word16) : (s.endWaiter st).hushed = s.hushed := by
  show (s.endCommand s.boot.waiter st []).hushed = s.hushed
  unfold State.endCommand
  split
  · split
    · exact hushed_respond s _ _ _
    · rfl
  · rfl

end

/-! ### What a command that ends leaves -/

theorem news_setRegime (s : State) (g : Regime) : (s.setRegime g).sansNews = (s.onPwr fun p => { p with regime := g }).sansNews := by
  unfold State.setRegime
  split
  · rename_i same
    rw [← same]
    rfl
  · exact (notices_report _ _ _ _ _ _).news

theorem news_endMainCommands (s : State) : s.endMainCommands.sansNews = s.sansNews :=
  endMainCommands_field State.sansNews (fun _ _ => rfl) (fun u r => (respond_answers u r _ _).1.news) s

/-! ### Losses (R415 to R417) -/

/-- A flush begins, or is due once the MCB write ends (R395). -/
theorem flush_startFlush (s : State) : s.startFlush.alm.flushing = true ∨ s.startFlush.alm.flushDue = true := by
  unfold State.startFlush
  split
  · rename_i h
    exact .inl h
  · split
    · exact .inr rfl
    · exact .inl rfl

/-- A shutdown that begins closes the power manager, holds the streams and starts a flush. -/
theorem beginShutdown_begins {s : State} (up : s.boot.shutdown = none) (c : Shutdown) :
    (s.beginShutdown c).boot = { s.boot with shutdown := some c } ∧ (s.beginShutdown c).pwr.closed = true ∧
      (s.beginShutdown c).streams.held = true ∧ ((s.beginShutdown c).alm.flushing = true ∨ (s.beginShutdown c).alm.flushDue = true) := by
  unfold State.beginShutdown
  rw [if_neg (by simp [up])]
  generalize hu : (((s.onBoot _).onPwr _).onStreams _ : State) = u
  have closed : u.pwr.closed = true := by rw [← hu]; rfl
  have held : u.streams.held = true := by rw [← hu]; rfl
  have boot : u.boot = { s.boot with shutdown := some c } := by rw [← hu]; rfl
  have flushed : u.startFlush.boot = u.boot := by
    unfold State.startFlush
    split
    · rfl
    · split <;> rfl
  have n := notices_startFlush u
  exact ⟨flushed.trans boot, (n.field fun x => x.pwr.closed).trans closed, (n.field fun x => x.streams.held).trans held, flush_startFlush u⟩

theorem main_startFlush (s : State) : s.startFlush.boot.main = s.boot.main := (notices_startFlush s).field fun x => x.boot.main

/-- A loss of main input, standby being there, begins the ordered shutdown, or with the main domain off the flush alone. -/
theorem loseMain_of_standby {s : State} (main : s.boot.main = true) (there : s.boot.fallback = false ∨ s.boot.standbyLost = none) :
    s.loseMain = if s.boot.mainOn then (s.onBoot fun b => { b with main := false }).beginShutdown .mainLoss
      else ((s.onBoot fun b => { b with main := false }).onBoot fun b => { b with phase := if b.phase = 4 then 3 else b.phase }).startFlush := by
  unfold State.loseMain
  rw [if_neg (by simp [main]), if_neg]
  · rfl
  · rcases there with fallback | lost
    · split
      · simp [fallback]
      · simp
    · simp [lost]

/-- What is left after both inputs went, as far as the reset of the always-on domain decides it. -/
theorem dualLoss_falls (s : State) : ∃ u : State, s.dualLoss = u.fall ∧ u.boot.main = false ∧ u.flash = s.flash := by
  unfold State.dualLoss
  dsimp only
  split
  · refine ⟨_, rfl, ?_, ?_⟩
    · exact field_of_news (news_flushRecs _ _) (fun u => u.boot.main) fun _ => rfl
    · exact field_of_news (news_flushRecs _ _) State.flash fun _ => rfl
  · exact ⟨_, rfl, rfl, rfl⟩

/-! ### The rails go off (R416, R419) -/

/-- The state x once the rails are off, before the throttle reasons are looked at and what the shutdown was for is followed. -/
def State.railsFallen (x : State) (wasOn : Bool) : State :=
  (x.onPwr fun p => { p with gate := false, closed := false, setpoint := 550, compSp := 550 }).onBoot fun b => { b with
    shutdown := none, offUntil := if wasOn then some (x.now + 10000000) else b.offUntil
    phase := if b.phase < 3 then b.phase else 3, resume := none }

theorem phase_throttle (s : State) : s.throttle.boot.phase = s.boot.phase := (notices_throttle s).field fun u => u.boot.phase

/-- A shutdown for a loss of main input or for temperature ends with the command that runs failed; the latter forbids power-on too. -/
theorem exec_mainRailsOff {s : State} {c : Shutdown} (down : s.boot.shutdown = some c) (written : s.flash.mcbWrite = none)
    (next : s.flash.mcbNext = none) (flushed : s.alm.flushing = false) (due : s.alm.flushDue = false) (cause : c = .mainLoss ∨ c = .thermal)
    {x : State} (fallen : s.mainLost.endMainCommands.setRegime .none_ = x) (late : 3 ≤ x.boot.phase) : ∃ u : State,
    exec .mainRailsOff s = .next (u.endWaiter stFaulted) ∧
      (u = (x.railsFallen s.boot.mainOn).throttle ∨
        u = (x.railsFallen s.boot.mainOn).throttle.onBoot fun b => { b with autoInhibit := true, powerOn := false }) := by
  have third : (x.railsFallen s.boot.mainOn).throttle.boot.phase = 3 := (phase_throttle _).trans (if_neg (Nat.not_lt.mpr late))
  show ∃ u : State, execMainRailsOff s = _ ∧ _
  unfold execMainRailsOff
  rw [down]
  dsimp only
  rw [if_neg (by simp [written, next, flushed, due]), fallen]
  obtain rfl | rfl := cause
  · exact ⟨_, congrArg _ (if_neg (show ¬(x.railsFallen s.boot.mainOn).throttle.boot.phase < 3 by omega)), .inl rfl⟩
  · exact ⟨_, rfl, .inr rfl⟩

/-- What news and the power-on command leave of a state whose rails went off. -/
theorem field_railsFallen {x u : State} {on : Bool} (h : u = (x.railsFallen on).throttle ∨
      u = (x.railsFallen on).throttle.onBoot fun b => { b with autoInhibit := true, powerOn := false })
    {α : Type} (f : State → α) (hf : ∀ v : State, f v.sansNews = f v)
    (hb : ∀ (v : State) a b, f (v.onBoot fun x => { x with autoInhibit := a, powerOn := b }) = f v) :
    f (u.endWaiter stFaulted) = f (x.railsFallen on) := by
  rw [field_of_news (news_endWaiter u _) f hf, ← field_of_news (notices_throttle (x.railsFallen on)).news f hf]
  obtain rfl | rfl := h
  · rfl
  · exact hb _ _ _

theorem hushed_railsFallen {x u : State} {on : Bool} (h : u = (x.railsFallen on).throttle ∨
      u = (x.railsFallen on).throttle.onBoot fun b => { b with autoInhibit := true, powerOn := false }) :
    (u.endWaiter stFaulted).hushed = x.hushed := by
  rw [hushed_endWaiter, show x.hushed = (x.railsFallen on).hushed from rfl, ← hushed_throttle (x.railsFallen on)]
  obtain rfl | rfl := h <;> rfl

theorem news_fallenRegime (s : State) : (s.endMainCommands.setRegime .none_).sansNews = (s.onPwr fun p => { p with regime := .none_ }).sansNews := by
  rw [news_setRegime]
  have ended := news_endMainCommands s
  generalize s.endMainCommands = u at ended
  exact congrArg (fun u : State => (u.onPwr fun p => { p with regime := .none_ })) ended

end Sys2Proof.Machine
end

section
namespace Sys2Proof.Proofs
open Sys2Proof.Machine Sys2Proof.Laws

/-- Settles O36: each loss by what is left to supply the module; the rails go off into a state that records, answers and throttling keep. -/
theorem powerLoss : Obligations.PowerLoss := by
  intro s
  refine ⟨fun main there i mem => ?main, fun k main back lost late => ?both, fun standby main up => ?standby, fun standby main => ?alone,
    ?dual, fun idle => ?idle, fun c down cause on late written next flushed due => ?rails, fun k until_ => ?interval⟩
  case main =>
    refine ⟨s.loseMain, by simp only [List.mem_cons, List.not_mem_nil, or_false] at mem; obtain rfl | rfl := mem <;> rfl, ?_⟩
    rw [loseMain_of_standby main there]
    split
    · rename_i on
      cases up : s.boot.shutdown with
      | none =>
        obtain ⟨boot, closed, held, flush⟩ := beginShutdown_begins (s := s.onBoot fun b => { b with main := false }) up .mainLoss
        exact ⟨by rw [boot]; rfl, fun _ => flush, fun _ _ => ⟨by rw [boot], closed, held⟩⟩
      | some c =>
        rw [State.beginShutdown, if_pos (by show s.boot.shutdown.isSome = true; rw [up]; rfl)]
        exact ⟨rfl, fun h => absurd h (by simp), fun _ h => absurd h (by simp)⟩
    · rename_i off
      exact ⟨main_startFlush _, fun _ => flush_startFlush _, fun on => absurd on off⟩
  case both =>
    show Host.Outcome.next s.loseMain = .next s.dualLoss
    unfold State.loseMain
    rw [if_neg (by simp [main]), if_pos (by simp [lost, back, late])]
  case standby =>
    obtain ⟨boot, -⟩ := beginShutdown_begins (s := s.onBoot fun b => { b with standby := false, fallback := true, standbyLost := some s.now }) up
      .standbyLoss
    refine ⟨_, ?_, by rw [boot]; rfl, by rw [boot]; rfl, by rw [boot]⟩
    show execStandbyLoss s = _
    unfold execStandbyLoss
    rw [if_neg (by simp [standby]), if_pos main]
    dsimp only [onBoot_boot]
    rw [up]
  case alone =>
    show execStandbyLoss s = _
    unfold execStandbyLoss
    rw [if_neg (by simp [standby]), if_neg (by simp [main])]
  case dual =>
    obtain ⟨u, falls, main, flash⟩ := dualLoss_falls s
    have bytes : u.flash.bytes = s.flash.bytes := by rw [flash]
    have claimed : u.flash.lmsClaimed = s.flash.lmsClaimed := by rw [flash]
    exact ⟨u.fall, congrArg _ falls, rfl, main, rfl, bytes, claimed⟩
  case idle =>
    show Host.Outcome.next s.dualLoss = _
    unfold State.dualLoss
    dsimp only
    rw [if_neg (by simp [idle])]
  case rails =>
    have news := news_fallenRegime s.mainLost
    have hushed := (hushed_setRegime s.mainLost.endMainCommands .none_).trans (hushed_endMainCommands s.mainLost)
    generalize fallen : s.mainLost.endMainCommands.setRegime .none_ = x at news hushed
    have now : x.now = s.now := field_of_news news State.now fun _ => rfl
    have phase : x.boot.phase = s.boot.phase := field_of_news news (fun u => u.boot.phase) fun _ => rfl
    have third : 3 ≤ x.boot.phase := by omega
    obtain ⟨u, ran, left⟩ := exec_mainRailsOff down written next flushed due cause fallen third
    have mem : (u.endWaiter stFaulted).mem = s.mainLost.mem := mem_of_hushed ((hushed_railsFallen left).trans hushed) rfl
    refine ⟨_, ran, ?_, field_railsFallen left (fun v => v.boot.shutdown) (fun _ => rfl) fun _ _ _ => rfl, ?_, ?_, ?_, ?_,
      by rw [mem]; rfl, by rw [mem]; rfl⟩
    · rw [field_railsFallen left (fun v => v.boot.mainOn) (fun _ => rfl) fun _ _ _ => rfl]
      exact field_of_news news (fun u => u.boot.mainOn) fun _ => rfl
    · rw [field_railsFallen left (fun v => v.boot.phase) (fun _ => rfl) fun _ _ _ => rfl]
      exact if_neg (Nat.not_lt.mpr third)
    · rw [field_railsFallen left (fun v => v.boot.offUntil) (fun _ => rfl) fun _ _ _ => rfl]
      exact (if_pos on).trans (by rw [now])
    · rw [field_railsFallen left (fun v => v.pwr.regime) (fun _ => rfl) fun _ _ _ => rfl]
      exact field_of_news news (fun u => u.pwr.regime) fun _ => rfl
    · rw [field_railsFallen left State.sync (fun _ => rfl) fun _ _ _ => rfl]
      exact congrArg Sync.sc (field_of_news news State.sync fun _ => rfl)
  case interval =>
    show execMainOffIntervalExpiry s = _
    unfold execMainOffIntervalExpiry
    rw [until_]

end Sys2Proof.Proofs
end

section
/-! The checks of a posted command and what an answer leaves in its mailbox (R375, R376, R379, R382). -/

namespace Sys2Proof.Machine

open Sys2Proof.Laws

/-! ### The state without what answers write -/

/-- The state without the mailboxes and the messages of answers: host-bound traffic with its write log, control messages, the output. -/
def State.sansAnswers (s : State) : State := { s with
  cp := { s.cp with mbx := [], smb := Reset.mailbox }, hst := s.hst.sansTraffic, mem := Reset.mem
  chd := { s.chd with turn := [], ports := [], ctlIn := [] }, out := [] }

theorem State.OnlyAnswers.answers {s t : State} {r : Route} (h : s.OnlyAnswers t r) : t.sansAnswers = s.sansAnswers := by
  rw [h.1]
  rfl

/-- A part of the state that the mask keeps is the same wherever the masked states are. -/
theorem field_of_answers {s t : State} (h : t.sansAnswers = s.sansAnswers) {α : Type} (f : State → α)
    (hf : ∀ x : State, f x.sansAnswers = f x) : f t = f s :=
  ((hf t).symm.trans (congrArg f h)).trans (hf s)

theorem mbox_of_cp {s t : State} (h : t.cp = s.cp) (r : Route) : t.mbox r = s.mbox r := by cases r <;> simp only [State.mbox, h]

/-! ### Responses (R375) -/

/-- A field in the midst of bytes written inside a block reads as written. -/
theorem le_patch_inside {m a b c : List Byte} {off k n : Nat} (fits : off ≤ m.length) (at_ : off + a.length = k) (size : b.length = n) :
    le (patch m off (a ++ b ++ c)) k n = leNat b := by
  have len : (m.take off).length = off := by rw [List.length_take, Nat.min_eq_left fits]
  have cut : (patch m off (a ++ b ++ c)).drop k = b ++ (c ++ m.drop (off + (a ++ b ++ c).length)) := by
    unfold patch
    simp only [List.append_assoc]
    rw [← List.append_assoc, ← at_, List.drop_append, List.drop_of_length_le (by rw [List.length_append, len]), List.nil_append,
      List.length_append, len, Nat.sub_self, List.drop_zero]
  unfold le slice
  dsimp only
  rw [cut, List.take_append_of_le_length (by omega), List.take_of_length_le (by omega), size, Nat.sub_self, List.replicate_zero, List.append_nil]

/-- STATUS in the header of a response (Table 13-7). -/
theorem le_statusField {m : List Byte} (size : m.length = 64) (n : Nat) (st : Word16) :
    le (patch m 10 (leBytes 2 n ++ leBytes 2 st.toNat ++ [0, 0] ++ [0, 0, 0, 0])) 12 2 = st.toNat := by
  rw [List.append_assoc (leBytes 2 n ++ leBytes 2 st.toNat), le_patch_inside (by omega) (by rw [length_leBytes]) (length_leBytes 2 _), leNat_leBytes]
  exact Nat.mod_eq_of_lt st.isLt

theorem bytes_write_before {m : List Host.Cell} {a k n : Nat} {d : List Byte} (h : a + n ≤ k) :
    Memory.bytes (Memory.write m k d) a n = Memory.bytes m a n := by
  unfold Memory.bytes
  refine List.map_congr_left fun i hi => ?_
  rw [List.mem_range] at hi
  exact read_write_other d m k (a + i) (by omega)

theorem length_bytes (m : List Host.Cell) (a n : Nat) : (Memory.bytes m a n).length = n := by simp [Memory.bytes]

/-- The mailbox after a response: its header carries the status, its payload is the response, and it is DONE. -/
theorem mbox_writeResponse (s : State) (r : Route) (st : Word16) (resp : List Byte) : ∃ head : List Byte,
    head.length = 64 ∧ le head 12 2 = st.toNat ∧ (s.writeResponse r st resp).mbox r = { s.mbox r with
      bytes := Memory.write (Memory.write (s.mbox r).bytes 0 head) 64 resp
      state := .done, doneTick := s.boot.modCount, checked := false, reached := none } := by
  unfold State.writeResponse
  dsimp only
  generalize written : patch (Memory.bytes (s.mbox r).bytes 0 64) 10 _ = first
  generalize stamped : patch first 24 _ = head
  have size : first.length = 64 := by
    rw [← written, length_patch, length_bytes]
    simp [length_bytes, length_leBytes]
  have size' : head.length = 64 := by
    rw [← stamped, length_patch, size]
    simp [size, length_leBytes]
  have status : le first 12 2 = st.toNat := by
    rw [← written]
    exact le_statusField (length_bytes _ _ _) _ st
  generalize hm : ({ s.mbox r with bytes := _, state := .done, doneTick := _, checked := false, reached := none } : Mailbox) = m
  refine ⟨patch head 16 (leBytes 4 (crc32c (head ++ resp))), ?_, ?_, ?_⟩
  · rw [length_patch, size']
    simp [size', length_leBytes]
  · rw [le_patch_before (by decide) (by omega), ← stamped, le_patch_before (by decide) (by omega), status]
  · rw [hm]
    cases r with
    | pcie n => exact (mbox_of_cp (msix_cp _ _) _).trans (mbox_setMbox_same s _ m)
    | smb => exact mbox_setMbox_same s _ m
    | chord => exact (mbox_of_cp ((sendControl_cp _ _ _ _).trans (msix_cp _ _)) _).trans (mbox_setMbox_same s _ m)

theorem answered_writeResponse (s : State) (r : Route) (st : Word16) (resp : List Byte) :
    (s.writeResponse r st resp).answered r = st.toNat := by
  obtain ⟨head, size, status, mbox⟩ := mbox_writeResponse s r st resp
  have read := bytes_write (s.mbox r).bytes 0 head
  rw [size] at read
  rw [State.answered, mbox]
  dsimp only
  rw [bytes_write_before (by decide), read, status]

/-- What was accepted last stays, and the response stands after the header. -/
theorem kept_writeResponse (s : State) (r : Route) (st : Word16) (resp : List Byte) :
    ((s.writeResponse r st resp).mbox r).state = .done ∧ ((s.writeResponse r st resp).mbox r).lastSeq = (s.mbox r).lastSeq ∧
      ((s.writeResponse r st resp).mbox r).status = (s.mbox r).status ∧
      ((s.writeResponse r st resp).mbox r).response = (s.mbox r).response := by
  obtain ⟨head, -, -, mbox⟩ := mbox_writeResponse s r st resp
  rw [mbox]
  exact ⟨rfl, rfl, rfl, rfl⟩

theorem response_writeResponse (s : State) (r : Route) (st : Word16) (resp : List Byte) :
    Memory.bytes ((s.writeResponse r st resp).mbox r).bytes 64 resp.length = resp := by
  obtain ⟨head, -, -, mbox⟩ := mbox_writeResponse s r st resp
  rw [mbox]
  exact bytes_write _ 64 resp

theorem answered_respond (s : State) (r : Route) (st : Word16) (resp : List Byte) : (s.respond r st resp).answered r = st.toNat :=
  answered_writeResponse _ r st resp

theorem lastSeq_respond (s : State) (r : Route) (st : Word16) (resp : List Byte) :
    ((s.respond r st resp).mbox r).lastSeq = (s.mbox r).lastSeq := by
  obtain ⟨-, last, -⟩ := kept_writeResponse (s.setMbox r { s.mbox r with status := st, response := resp }) r st resp
  rw [mbox_setMbox_same] at last
  exact last

/-! ### The checks 1 to 4 (R376) -/

/-- The command in the mailbox of route r passes checks 1 and 2, and its SEQ is noted. -/
def State.sequenced (s : State) (r : Route) : State :=
  s.setMbox r { s.mbox r with lastSeq := mSeq (s.mbox r).request, checked := true }

theorem mbox_sequenced (s : State) (r : Route) :
    (s.sequenced r).mbox r = { s.mbox r with lastSeq := mSeq (s.mbox r).request, checked := true } := mbox_setMbox_same s r _

section
variable {s : State} {r : Route}

theorem checkPosted_damaged (bad : 4032 < mLen (s.mbox r).request ∨ requestCrc (s.mbox r).request ≠ le (s.mbox r).request 16 4) :
    s.checkPosted r = s.writeResponse r stBadCheck [] := if_pos bad

section
variable (short : mLen (s.mbox r).request ≤ 4032) (crc : requestCrc (s.mbox r).request = le (s.mbox r).request 16 4)
include short crc

theorem checkPosted_repeated (plain : bitOf (mFlags (s.mbox r).request) 0 = false) (same : mSeq (s.mbox r).request = (s.mbox r).lastSeq) :
    s.checkPosted r = s.writeResponse r (s.mbox r).status (s.mbox r).response := by
  unfold State.checkPosted
  dsimp only
  rw [if_neg (by simp [short, crc]), if_pos (by simp [plain, same])]

theorem checkPosted_outOfOrder (plain : bitOf (mFlags (s.mbox r).request) 0 = false) (other : mSeq (s.mbox r).request ≠ (s.mbox r).lastSeq)
    (jump : mSeq (s.mbox r).request ≠ (s.mbox r).lastSeq + 1) : s.checkPosted r = s.writeResponse r stBadSeq [] := by
  unfold State.checkPosted
  dsimp only
  rw [if_neg (by simp [short, crc]), if_neg (by simp [other]), if_pos ⟨jump, by simp [plain]⟩]

/-- Past the SEQ, the FLAGS and the opcode decide, and for MB[15] what R379 adds. -/
theorem checkPosted_sequenced (turn : bitOf (mFlags (s.mbox r).request) 0 = true ∨ mSeq (s.mbox r).request = (s.mbox r).lastSeq + 1) :
    s.checkPosted r =
      if opcodeListed (mOp (s.mbox r).request) = false ∨ mFlags (s.mbox r).request / 2 ≠ 0 then (s.sequenced r).respond r stBadOpcode []
      else if r = .chord ∧ mb15Allows (mOp (s.mbox r).request) = false then (s.sequenced r).respond r stBadOpcode []
      else if r = .chord ∧ (mEpoch (s.mbox r).request ≠ s.grp.epoch.toNat ∨ s.cp.mb15From ≠ some s.apexPos) then
        (s.sequenced r).respond r stBadSeq []
      else s.sequenced r := by
  have grp : (s.sequenced r).grp = s.grp := by cases r <;> rfl
  have from_ : (s.sequenced r).cp.mb15From = s.cp.mb15From := by cases r <;> rfl
  have apex : (s.sequenced r).apexPos = s.apexPos := by cases r <;> rfl
  have new : ¬(mSeq (s.mbox r).request = (s.mbox r).lastSeq ∧ !bitOf (mFlags (s.mbox r).request) 0) := by
    rintro ⟨same, plain⟩
    rcases turn with resync | succ
    · simp [resync] at plain
    · rw [same] at succ
      exact absurd succ (by bv_omega)
  have kept : ¬(mSeq (s.mbox r).request ≠ (s.mbox r).lastSeq + 1 ∧ !bitOf (mFlags (s.mbox r).request) 0) := by
    rintro ⟨jump, plain⟩
    rcases turn with resync | succ
    · simp [resync] at plain
    · exact jump succ
  unfold State.checkPosted
  dsimp only
  rw [if_neg (by simp [short, crc]), if_neg new, if_neg kept]
  show (if _ then (s.sequenced r).respond r stBadOpcode [] else if _ then (s.sequenced r).respond r stBadOpcode []
    else if r = Route.chord ∧ (mEpoch (s.mbox r).request ≠ (s.sequenced r).grp.epoch.toNat ∨
      (s.sequenced r).cp.mb15From ≠ some (s.sequenced r).apexPos) then (s.sequenced r).respond r stBadSeq [] else s.sequenced r) = _
  rw [grp, from_, apex]
  simp only [Bool.not_eq_true']

end

end

/-- Whatever the checks find, they write what an answer writes. -/
theorem onlyAnswers_checkPosted (s : State) (r : Route) : s.OnlyAnswers (s.checkPosted r) r := by
  have sequenced : s.OnlyAnswers (s.sequenced r) r := onlyAnswers_setMbox s r _
  have refused (st : Word16) : s.OnlyAnswers ((s.sequenced r).respond r st []) r :=
    onlyAnswers_trans sequenced (respond_answers _ r st []).1
  unfold State.checkPosted
  dsimp only
  split
  · exact (writeResponse_answers s r _ _).1
  · split
    · exact (writeResponse_answers s r _ _).1
    · split
      · exact (writeResponse_answers s r _ _).1
      · split
        · exact refused _
        · split
          · exact refused _
          · split
            · exact refused _
            · exact sequenced

/-- What the sender of a refused command finds, and the SEQ that is noted all the same. -/
theorem refused_sequenced (s : State) (r : Route) (st : Word16) :
    (((s.sequenced r).respond r st []).mbox r).lastSeq = mSeq (s.mbox r).request ∧
      (((s.sequenced r).respond r st []).mbox r).state = .done ∧ (((s.sequenced r).respond r st []).mbox r).status = st ∧
      ((s.sequenced r).respond r st []).answered r = st.toNat := by
  obtain ⟨-, state, status, -⟩ := respond_answers (s.sequenced r) r st []
  exact ⟨by rw [lastSeq_respond, mbox_sequenced], state, status, answered_respond _ _ _ _⟩

end Sys2Proof.Machine
end

section
namespace Sys2Proof.Proofs
open Sys2Proof.Machine Sys2Proof.Laws

/-- Settles O32: the checks in their order, each by the equation of its branch. -/
theorem mailboxChecks : Obligations.MailboxChecks := by
  intro s r m q resync t kept refused
  have keeps (st : Word16) (resp : List Byte) (h : t = s.writeResponse r st resp) : kept ∧ t.answered r = st.toNat := by
    simp only [kept]
    rw [h]
    exact ⟨kept_writeResponse s r st resp, answered_writeResponse s r st resp⟩
  refine ⟨fun bad => keeps _ _ (checkPosted_damaged bad), fun short crc plain same => ?repeated, fun short crc plain other jump =>
    keeps _ _ (checkPosted_outOfOrder short crc plain other jump), fun short crc turn => ?sequenced, onlyAnswers_checkPosted s r⟩
  case repeated =>
    have repeated := checkPosted_repeated short crc plain same
    obtain ⟨held, status⟩ := keeps _ _ repeated
    exact ⟨held, status, by show Memory.bytes ((s.checkPosted r).mbox r).bytes 64 m.response.length = m.response
                            rw [repeated]; exact response_writeResponse s r _ _⟩
  case sequenced =>
    have checked : t = _ := checkPosted_sequenced short crc turn
    have refuses {st : Word16} (h : t = (s.sequenced r).respond r st []) : (t.mbox r).lastSeq = mSeq q ∧ refused st := by
      simp only [refused]
      rw [h]
      obtain ⟨last, state, status, answered⟩ := refused_sequenced s r st
      exact ⟨last, state, status, answered⟩
    have passes (h : t = s.sequenced r) : (t.mbox r).lastSeq = mSeq q ∧ (m.state = .posted → (t.mbox r).state = .posted ∧ (t.mbox r).checked = true) := by
      rw [h, mbox_sequenced]
      exact ⟨rfl, fun posted => ⟨posted, rfl⟩⟩
    by_cases bad : opcodeListed (mOp q) = false ∨ mFlags q / 2 ≠ 0
    · rw [if_pos bad] at checked
      obtain ⟨last, answer⟩ := refuses checked
      exact ⟨last, fun _ => answer, fun _ _ => answer, fun _ listed flags _ => absurd bad (by simp [listed, flags]),
        fun listed flags _ _ => absurd bad (by simp [listed, flags])⟩
    rw [if_neg bad] at checked
    by_cases other : r = .chord ∧ mb15Allows (mOp q) = false
    · rw [if_pos other] at checked
      obtain ⟨last, answer⟩ := refuses checked
      exact ⟨last, fun h => absurd h bad, fun _ _ => answer, fun _ _ _ allowed => absurd other.2 (by simp [allowed]),
        fun _ _ chord _ => absurd other.1 chord⟩
    rw [if_neg other] at checked
    by_cases stale : r = .chord ∧ (mEpoch q ≠ s.grp.epoch.toNat ∨ s.cp.mb15From ≠ some s.apexPos)
    · rw [if_pos stale] at checked
      obtain ⟨last, answer⟩ := refuses checked
      exact ⟨last, fun h => absurd h bad, fun chord no => absurd ⟨chord, no⟩ other,
        fun _ _ _ _ => ⟨fun _ => answer, fun epoch from_ _ => absurd stale.2 (by simp [epoch, from_])⟩,
        fun _ _ chord _ => absurd stale.1 chord⟩
    · rw [if_neg stale] at checked
      obtain ⟨last, posted⟩ := passes checked
      exact ⟨last, fun h => absurd h bad, fun chord no => absurd ⟨chord, no⟩ other,
        fun chord _ _ _ => ⟨fun h => absurd ⟨chord, h⟩ stale, fun _ _ => posted⟩, fun _ _ _ => posted⟩

end Sys2Proof.Proofs
end

section
/-! The control processor: its restarts with the commands that they interrupt, the debug port and the TAP (R358 to R360, R381, R382, R412). -/

namespace Sys2Proof.Machine

open Sys2Proof.Laws

/-! ### The checks of all posted commands (R382) -/

theorem answers_checkAllPosted (s : State) : s.checkAllPosted.sansAnswers = s.sansAnswers := by
  unfold State.checkAllPosted
  exact foldl_proj State.sansAnswers (fun u r => by rw [apply_ite State.sansAnswers, (onlyAnswers_checkPosted u r).answers, ite_self]) _ s

/-- A mailbox that holds nothing unchecked is left alone. -/
theorem mbox_checkAllPosted {s : State} {r : Route} (h : ¬((s.mbox r).state = .posted ∧ !(s.mbox r).checked)) :
    s.checkAllPosted.mbox r = s.mbox r := by
  unfold State.checkAllPosted
  induction allRoutes generalizing s with
  | nil => rfl
  | cons q l ih =>
    have same : (if (s.mbox q).state = .posted ∧ !(s.mbox q).checked then s.checkPosted q else s).mbox r = s.mbox r := by
      split
      · rename_i posted
        obtain ⟨-, -, -, others⟩ := onlyAnswers_checkPosted s q
        exact others r fun e => h (by rw [e]; exact posted)
      · rfl
    rw [List.foldl_cons, ih (by rw [same]; exact h), same]

/-! ### Commands that a restart interrupts (R381, R382) -/

/-- The mailbox of route r is answered where a status is given for it. -/
def State.answerWith (a : Route → Option Word16) (t : State) (r : Route) : State :=
  match a r with
  | some st => t.respond r st []
  | none => t

theorem onlyAnswers_answerWith (a : Route → Option Word16) (t : State) (r : Route) : t.OnlyAnswers (t.answerWith a r) r := by
  unfold State.answerWith
  split
  · exact (respond_answers t r _ []).1
  · exact ⟨rfl, sameG7_refl t, List.prefix_refl _, fun _ _ => rfl⟩

section
variable {a : Route → Option Word16} {r : Route}

theorem mbox_answerWith_other {l : List Route} (h : r ∉ l) (t : State) : (l.foldl (State.answerWith a) t).mbox r = t.mbox r := by
  induction l generalizing t with
  | nil => rfl
  | cons q l ih =>
    rw [List.mem_cons, not_or] at h
    obtain ⟨away, rest⟩ := h
    obtain ⟨-, -, -, others⟩ := onlyAnswers_answerWith a t q
    rw [List.foldl_cons, ih rest, others r away]

/-- Answers of distinct mailboxes do not meet. -/
theorem mbox_answerWith {l : List Route} (once : l.Nodup) (mem : r ∈ l) {st : Word16} (h : a r = some st) (t : State) :
    ((l.foldl (State.answerWith a) t).mbox r).state = .done ∧ ((l.foldl (State.answerWith a) t).mbox r).status = st := by
  induction l generalizing t with
  | nil => exact absurd mem (by simp)
  | cons q l ih =>
    obtain ⟨fresh, once⟩ := List.nodup_cons.mp once
    rw [List.foldl_cons]
    rcases List.mem_cons.mp mem with rfl | later
    · rw [mbox_answerWith_other fresh]
      obtain ⟨-, state, status, -⟩ := respond_answers t r st []
      rw [State.answerWith, h]
      exact ⟨state, status⟩
    · exact ih once later _

end

theorem mem_allRoutes (r : Route) : r ∈ allRoutes := by cases r <;> simp [allRoutes]

theorem nodup_allRoutes : allRoutes.Nodup := by decide

/-- The stored command that an error of data memory lost is the one of route r (R359). -/
def State.lostAt (s : State) (r : Route) : Bool := match s.cp.lostCmd with | some k => allRoutes[k]? == some r | none => false

theorem lostAt_iff (s : State) (r : Route) : s.lostAt r = true ↔ (s.cp.lostCmd.bind fun k => allRoutes[k]?) = some r := by
  unfold State.lostAt
  cases s.cp.lostCmd <;> simp

/-- What a restart answers of the command in the mailbox of route r. -/
def State.interruptedAs (s : State) (r : Route) : Option Word16 :=
  if (s.mbox r).state = .running then some (if s.lostAt r then stFaulted else (s.mbox r).reached.getD stFaulted)
  else if (s.mbox r).state = .posted ∧ ((s.mbox r).checked ∨ s.lostAt r) then some stFaulted
  else none

/-- The commands interrupted are answered. -/
def State.interruptedAnswered (s : State) : State := allRoutes.foldl (State.answerWith s.interruptedAs) s.dropRoutes

theorem answerInterrupted_eq (s : State) :
    s.answerInterrupted = (s.interruptedAnswered.onCp fun c => { c with lostCmd := none }).checkAllPosted := by
  have step (t : State) (k : Route × Nat) : (if (s.mbox k.1).state = .running then
        t.respond k.1 (if s.lostAt k.1 then stFaulted else (s.mbox k.1).reached.getD stFaulted) []
      else if (s.mbox k.1).state = .posted ∧ ((s.mbox k.1).checked ∨ s.lostAt k.1) then t.respond k.1 stFaulted []
      else t) = t.answerWith s.interruptedAs k.1 := by
    unfold State.answerWith State.interruptedAs
    split
    · rfl
    · split <;> rfl
  unfold State.answerInterrupted State.interruptedAnswered
  rw [← List.zipIdx_map_fst 0 allRoutes, List.foldl_map, ← funext fun t => funext fun k => step t k, List.zipIdx_map_fst]
  rfl

section
variable {s : State} {r : Route}

theorem mbox_dropRoutes (s : State) (r : Route) : s.dropRoutes.mbox r = s.mbox r := by cases r <;> rfl

theorem mbox_answerInterrupted {st : Word16} (h : s.interruptedAs r = some st) :
    (s.answerInterrupted.mbox r).state = .done ∧ (s.answerInterrupted.mbox r).status = st := by
  obtain ⟨state, status⟩ := mbox_answerWith nodup_allRoutes (mem_allRoutes r) h s.dropRoutes
  have kept : (s.interruptedAnswered.onCp fun c => { c with lostCmd := none }).mbox r = s.interruptedAnswered.mbox r := by cases r <;> rfl
  have done : ((s.interruptedAnswered.onCp fun c => { c with lostCmd := none }).mbox r).state = .done := by rw [kept]; exact state
  rw [answerInterrupted_eq, mbox_checkAllPosted (by simp [done]), kept]
  exact ⟨state, status⟩

/-- All that answers leave is as the dropped routes leave it, but for the lost command. -/
theorem field_answerInterrupted {α : Type} (f : State → α) (hf : ∀ x : State, f x.sansAnswers = f x)
    (hl : ∀ x : State, f (x.onCp fun c => { c with lostCmd := none }) = f x) : f s.answerInterrupted = f s.dropRoutes := by
  have answered : s.interruptedAnswered.sansAnswers = s.dropRoutes.sansAnswers :=
    foldl_proj State.sansAnswers (fun u r => (onlyAnswers_answerWith _ u r).answers) _ _
  rw [answerInterrupted_eq, field_of_answers (answers_checkAllPosted _) f hf, hl, field_of_answers answered f hf]

/-- An MCB write whose command had not reached its commit point is dropped. -/
theorem mcbWrite_dropRoutes {w : McbWrite} (write : s.flash.mcbWrite = some w) (route : w.route = some r) (running : (s.mbox r).state = .running)
    (before : (s.mbox r).reached = none) : s.dropRoutes.flash.mcbWrite = none := by
  show s.flash.mcbWrite.filter _ = none
  rw [write]
  simp [Option.filter, route, running, before]

end

/-! ### The restart itself (R358, R359) -/

/-- Time passes up to the end of the restart. -/
def State.restartPassed (s : State) (ticks : Nat) : State :=
  match s.cp.expiry with
  | some (_, t) => s.passTo (t + ticks)
  | none => s.pass ticks

/-- The record of a watchdog's restart. -/
def State.expiryNoted (s : State) (e : Option (BitVec 48 × Nat)) (ticks : Nat) : State :=
  match e with
  | some (pc, _) => s.report 0x0D01 .warn 0x0F 0 (leBytes 6 pc.toNat ++ [0, 0] ++ leBytes 4 ticks)
  | none => s

/-- The reload of the code page that an error was in, with its record. -/
def State.pageReloaded (s : State) (l : Option (Nat × Nat)) : State :=
  match l with
  | some (p, w) => (s.reloadPage p).report 0x0D02 .note 0x0F 0 (leBytes 4 p ++ leBytes 4 w)
  | none => s

theorem upkeep_restartPassed (s : State) (ticks : Nat) : (s.restartPassed ticks).sansUpkeep = s.sansUpkeep := by
  unfold State.restartPassed
  split
  · exact upkeep_passTo s _
  · exact upkeep_pass s ticks

theorem cp_report (s : State) (code : Nat) (sev : Severity) (kind index : Nat) (p : List Byte) : (s.report code sev kind index p).cp = s.cp :=
  (notices_report _ _ _ _ _ _).field State.cp fun _ => rfl

theorem flash_report (s : State) (code : Nat) (sev : Severity) (kind index : Nat) (p : List Byte) : (s.report code sev kind index p).flash = s.flash :=
  (notices_report _ _ _ _ _ _).field State.flash fun _ => rfl

theorem expiryNoted_keeps (s : State) (e : Option (BitVec 48 × Nat)) (ticks : Nat) :
    (s.expiryNoted e ticks).cp = s.cp ∧ (s.expiryNoted e ticks).flash = s.flash := by
  unfold State.expiryNoted
  split
  · exact ⟨cp_report _ _ _ _ _ _, flash_report _ _ _ _ _ _⟩
  · exact ⟨rfl, rfl⟩

/-- A page that is reloaded writes the code memory alone. -/
theorem pageReloaded_keeps (s : State) (l : Option (Nat × Nat)) :
    (s.pageReloaded l).cp = s.cp ∧ (s.pageReloaded l).flash.mcbWrite = s.flash.mcbWrite := by
  have page (p : Nat) : (s.reloadPage p).cp = s.cp ∧ (s.reloadPage p).flash.mcbWrite = s.flash.mcbWrite := by
    unfold State.reloadPage
    dsimp only
    split <;> exact ⟨rfl, rfl⟩
  unfold State.pageReloaded
  split
  · rw [cp_report, flash_report]
    exact page _
  · exact ⟨rfl, rfl⟩

/-- The ticks of the restarts of the last second, this one included. -/
def State.recentRestarts (s : State) : List Nat := s.now :: s.cp.restarts.filter fun t => decide (s.now ≤ t + 100000000)

/-- The CP runs again. -/
def State.cpResumed (s : State) : State := s.onCp fun c => { c with
  restarting := false, expiry := none, reload := none, restarts := s.recentRestarts, resets := inc c.resets, watchdog := s.now
  unstable := c.unstable || decide (3 ≤ s.recentRestarts.length) }

/-- A restart ends: the interrupted commands find their mailboxes as they left them. -/
theorem exec_cpWarmRestartDone {s : State} (h : s.cp.restarting = true) (ticks : Nat) : ∃ u : State,
    exec (.cpWarmRestartDone ticks) s = .next u.answerInterrupted ∧ u.cp = (s.restartPassed ticks).cpResumed.cp ∧
      u.flash.mcbWrite = s.flash.mcbWrite := by
  have ran : exec (.cpWarmRestartDone ticks) s = .next ((if 3 ≤ (s.restartPassed ticks).recentRestarts.length then
      (((s.restartPassed ticks).cpResumed.expiryNoted (s.restartPassed ticks).cp.expiry ticks).pageReloaded (s.restartPassed ticks).cp.reload).report
        0x0D03 .fault 0x0F 0 (leBytes 1 (s.restartPassed ticks).recentRestarts.length)
      else ((s.restartPassed ticks).cpResumed.expiryNoted (s.restartPassed ticks).cp.expiry ticks).pageReloaded
        (s.restartPassed ticks).cp.reload).injEnd 0x0F 0).answerInterrupted := if_neg (by simp [h])
  have passed : (s.restartPassed ticks).flash = s.flash := field_of_upkeep (upkeep_restartPassed s ticks) State.flash
  generalize s.restartPassed ticks = p at ran passed ⊢
  obtain ⟨cp, flash⟩ := expiryNoted_keeps p.cpResumed p.cp.expiry ticks
  obtain ⟨cp', write⟩ := pageReloaded_keeps (p.cpResumed.expiryNoted p.cp.expiry ticks) p.cp.reload
  refine ⟨_, ran, ?_, ?_⟩
  · show (ite _ _ _ : State).cp = _
    rw [apply_ite State.cp, cp_report, ite_self, cp', cp]
  · show (ite _ _ _ : State).flash.mcbWrite = _
    rw [apply_ite State.flash, flash_report, ite_self, write, flash]
    show p.flash.mcbWrite = _
    rw [passed]

section
variable {s : State}

/-- A CP that runs is restarted where its watchdog ends (R358). -/
theorem exec_cpWatchdogExpiry (q : s.Quiet) (up : s.cp.up = true) (runs : s.cp.restarting = false) (free : s.cp.halted = false) (pc : BitVec 48) :
    exec (.cpWatchdogExpiry pc) s = .next ((s.passTo (s.cp.watchdog + 100000)).onCp fun c => { c with
      restarting := true, expiry := some (pc, (s.passTo (s.cp.watchdog + 100000)).now), reload := none }) := by
  show execCpWatchdogExpiry pc s = _
  unfold execCpWatchdogExpiry
  rw [if_neg (by simp [up, runs, free]), q.fires]

/-- An uncorrectable word restarts it too; one of data memory may lose a stored command (R359). -/
theorem exec_cpMemUe (q : s.Quiet) (up : s.cp.up = true) (runs : s.cp.restarting = false) (free : s.cp.halted = false) (code : Bool) (page word : Nat) :
    exec (.cpMemUe code page word) s = .next ((if code then s else s.draw.2).onCp fun c => { c with
      restarting := true, expiry := none, reload := if code then some (page, word) else none
      lostCmd := if code ∨ 17 ≤ s.draw.1.toNat % 34 then none else some (s.draw.1.toNat % 34) }) := by
  show execCpMemUe code page word s = _
  unfold execCpMemUe
  rw [if_neg (by simp [up, runs, free]), opportunity_of_slots_nil q.1]

/-! ### Debug port and TAP (R412) -/

theorem exec_cpDebugHalt (on : s.aoUp = true) : exec .cpDebugHalt s = .next (s.onCp fun c => { c with halted := true }) := congrArg _ (if_pos on)

theorem exec_cpDebugRelease (on : s.aoUp = true) (halted : s.cp.halted = true) :
    exec .cpDebugRelease s = .next (s.onCp fun c => { c with halted := false, watchdog := s.now }).checkAllPosted := by
  show execCpDebugRelease s = _
  unfold execCpDebugRelease
  rw [if_pos ⟨on, halted⟩]

theorem exec_tapInstruction_idcode (on : s.aoUp = true) :
    exec (.tapInstruction .idcode) s = .next ((s.onBoot fun b => { b with tap := .idcode }).emit (.tap (some idcode))) := if_neg (by simp [on])

theorem exec_tapInstruction_bypass (on : s.aoUp = true) :
    exec (.tapInstruction .bypass) s = .next ((s.onBoot fun b => { b with tap := .bypass }).emit (.tap none)) := if_neg (by simp [on])

/-- While the main domain is on, the boundary instructions act as BYPASS. -/
theorem exec_tapInstruction_boundary {ir : TapIr} (mem : ir ∈ [TapIr.extest, .intest, .clamp]) (on : s.aoUp = true) :
    exec (.tapInstruction ir) s = .next (if s.boot.mainOn then (s.onBoot fun b => { b with tap := ir }).emit (.tap none)
      else s.onBoot fun b => { b with tap := ir }) := by
  simp only [List.mem_cons, List.not_mem_nil, or_false] at mem
  show execTapInstruction ir s = _
  unfold execTapInstruction
  rw [if_neg (by simp [on])]
  obtain rfl | rfl | rfl := mem <;> cases main : s.boot.mainOn <;> simp [State.tapActs, main]

end

end Sys2Proof.Machine
end

section
namespace Sys2Proof.Proofs
open Sys2Proof.Machine Sys2Proof.Laws

/-- Settles O41: what restarts the CP, what the end of a restart answers by commit point, and the debug port. -/
theorem controlProcessor : Obligations.ControlProcessor := by
  intro s pc page word ticks q
  refine ⟨fun up runs free => ⟨?watchdog, exec_cpMemUe q up runs free true page word, ?data⟩, fun restarts => ?done, exec_cpDebugHalt,
    exec_cpDebugRelease, exec_tapInstruction_idcode, exec_tapInstruction_bypass, fun ir mem on => exec_tapInstruction_boundary mem on⟩
  case watchdog => exact ⟨_, exec_cpWatchdogExpiry q up runs free pc, rfl, rfl⟩
  case data =>
    refine ⟨_, exec_cpMemUe q up runs free false page word, fun k lost => ?_, rfl⟩
    change (if false = true ∨ 17 ≤ s.draw.1.toNat % 34 then none else some (s.draw.1.toNat % 34)) = some k at lost
    split at lost
    · exact absurd lost (by simp)
    · rename_i low
      cases lost
      omega
  case done =>
    obtain ⟨u, ran, cp, write⟩ := exec_cpWarmRestartDone restarts ticks
    have passed : (s.restartPassed ticks).cp = s.cp := field_of_upkeep (upkeep_restartPassed s ticks) State.cp
    have mbox (r : Route) : u.mbox r = s.mbox r := by
      have resumed : (s.restartPassed ticks).cpResumed.mbox r = (s.restartPassed ticks).mbox r := by cases r <;> rfl
      rw [mbox_of_cp cp, resumed, mbox_of_cp passed]
    have lost : u.cp.lostCmd = s.cp.lostCmd := by
      rw [cp, ← passed]
      rfl
    refine ⟨_, ran, ?_, ?_, fun r running => ?_, fun r posted checked => ?_, fun w r mcb route running before => ?_⟩
    · rw [field_answerInterrupted (fun x => x.cp.restarting) (fun _ => rfl) fun _ => rfl]
      show u.cp.restarting = false
      rw [cp]
      rfl
    · rw [field_answerInterrupted (fun x => x.cp.resets) (fun _ => rfl) fun _ => rfl]
      show u.cp.resets = _
      rw [cp, ← passed]
      rfl
    · obtain ⟨state, status⟩ := mbox_answerInterrupted (s := u) (r := r) (by rw [State.interruptedAs, mbox, if_pos running])
      refine ⟨state, status.trans (if_congr ?_ rfl rfl)⟩
      rw [lostAt_iff, lost]
    · refine mbox_answerInterrupted ?_
      rw [State.interruptedAs, mbox, if_neg (by simp [posted]), if_pos ⟨posted, .inl checked⟩]
    · rw [field_answerInterrupted (fun x => x.flash.mcbWrite) (fun _ => rfl) fun _ => rfl]
      exact mcbWrite_dropRoutes (write.trans mcb) route (by rw [mbox]; exact running) (by rw [mbox]; exact before)

end Sys2Proof.Proofs
end

section
/-! Start-up's phases 0 to 3: the image, the identity and the configuration (R362 to R370). -/

namespace Sys2Proof.Machine

open Sys2Proof.Laws

/-! ### Phase 0: the image (R362, R363, R365) -/

/-- The image that the header in use selects, A without one. -/
def State.firstImage (s : State) : Nat := match s.headerCopy with | some h => if le h.2 6 1 = 1 then 1 else 0 | none => 0

/-- The header in use is kept. -/
def State.headerTaken (s : State) : State := s.onFlash fun f => { f with header := match s.headerCopy with | some h => h.2 | none => [] }

theorem flashBytes_of_bytes {s t : State} (h : t.flash.bytes = s.flash.bytes) (off n : Nat) : t.flashBytes off n = s.flashBytes off n := by
  unfold State.flashBytes
  rw [h]

theorem imageFails_of_bytes {s t : State} (h : t.flash.bytes = s.flash.bytes) (i : Nat) : t.imageFails i = s.imageFails i := by
  unfold State.imageFails State.flashBytes
  rw [h]

theorem imageFails_header (s : State) (h : List Byte) (i : Nat) :
    (s.onFlash fun f => { f with header := h }).imageFails i = s.imageFails i := imageFails_of_bytes rfl i

/-- What the ROM comes to by the checks of both images. -/
def State.romChoice (s : State) : Host.Outcome State Fault Refusal :=
  match s.imageFails s.firstImage with
  | none => .next (s.headerTaken.bootImage s.firstImage false)
  | some a =>
    match s.imageFails (1 - s.firstImage) with
    | none => .next ((s.headerTaken.bootImage (1 - s.firstImage) true).report 0x0D04 .warn 0x0F 0 (leBytes 1 s.firstImage ++ leBytes 1 a))
    | some b => .next ((s.headerTaken.onBoot fun x => { x with romOnly := true }).report 0x0D05 .fault 0x0F 0
        (leBytes 1 (if s.firstImage = 0 then a else b) ++ leBytes 1 (if s.firstImage = 0 then b else a))).checkAllPosted

/-- An image that boots is loaded and locked, and the CP runs. -/
theorem bootImage_boots (s : State) (i : Nat) (fallback : Bool) : (s.bootImage i fallback).boot.phase = 1 ∧
    (s.bootImage i fallback).boot.image = i ∧ (s.bootImage i fallback).boot.imageFallback = fallback ∧ (s.bootImage i fallback).cp.up = true ∧
    (s.bootImage i fallback).flash.codeLocked = true ∧
    (s.bootImage i fallback).flash.codeMem = s.flashBytes (imageBase i + 4096) (le (s.flashBytes (imageBase i) 4096) 16 8) := by
  unfold State.bootImage
  dsimp only
  generalize hu : (State.onBoot _ _ : State) = u
  have checked := answers_checkAllPosted u
  refine ⟨(field_of_answers checked (fun x => x.boot.phase) fun _ => rfl).trans ?_,
    (field_of_answers checked (fun x => x.boot.image) fun _ => rfl).trans ?_,
    (field_of_answers checked (fun x => x.boot.imageFallback) fun _ => rfl).trans ?_,
    (field_of_answers checked (fun x => x.cp.up) fun _ => rfl).trans ?_,
    (field_of_answers checked (fun x => x.flash.codeLocked) fun _ => rfl).trans ?_,
    (field_of_answers checked (fun x => x.flash.codeMem) fun _ => rfl).trans ?_⟩
  all_goals rw [← hu]
  case refine_6 => simp only [onBoot_flash, onCp_flash, onFlash_flash]
  all_goals rfl

section
variable {s : State} (standby : s.boot.standby = true) (phase : s.boot.phase = 0) (down : s.cp.up = false) (rom : s.boot.romOnly = false)
include standby phase down rom

theorem exec_startupRom : exec .startupRom s = s.romChoice := by
  show execStartupRom s = _
  unfold execStartupRom State.romChoice
  rw [if_neg (by simp [standby, phase, down, rom])]
  dsimp only
  simp only [imageFails_header]
  unfold State.firstImage State.headerTaken
  generalize s.headerCopy = copy
  generalize s.imageFails = fails
  rfl

theorem exec_startupRom_first (passes : s.imageFails s.firstImage = none) :
    exec .startupRom s = .next (s.headerTaken.bootImage s.firstImage false) := by
  rw [exec_startupRom standby phase down rom]
  unfold State.romChoice
  generalize s.imageFails s.firstImage = x at passes
  rw [passes]

theorem exec_startupRom_second {a : Nat} (fails : s.imageFails s.firstImage = some a) (passes : s.imageFails (1 - s.firstImage) = none) :
    exec .startupRom s = .next ((s.headerTaken.bootImage (1 - s.firstImage) true).report 0x0D04 .warn 0x0F 0
      (leBytes 1 s.firstImage ++ leBytes 1 a)) := by
  rw [exec_startupRom standby phase down rom]
  unfold State.romChoice
  generalize s.imageFails = g at fails passes ⊢
  rw [fails]
  dsimp only
  rw [passes]

theorem exec_startupRom_neither {a b : Nat} (fails : s.imageFails s.firstImage = some a) (fails' : s.imageFails (1 - s.firstImage) = some b) :
    ∃ p, exec .startupRom s = .next ((s.headerTaken.onBoot fun x => { x with romOnly := true }).report 0x0D05 .fault 0x0F 0 p).checkAllPosted := by
  rw [exec_startupRom standby phase down rom]
  unfold State.romChoice
  generalize s.imageFails = g at fails fails' ⊢
  rw [fails]
  dsimp only
  rw [fails']
  exact ⟨_, rfl⟩

end

/-- A record leaves an image that booted booted. -/
theorem report_boots (s : State) (i : Nat) (fallback : Bool) (code : Nat) (sev : Severity) (kind index : Nat) (p : List Byte) :
    ((s.bootImage i fallback).report code sev kind index p).boot.phase = 1 ∧ ((s.bootImage i fallback).report code sev kind index p).boot.image = i ∧
      ((s.bootImage i fallback).report code sev kind index p).boot.imageFallback = fallback ∧
      ((s.bootImage i fallback).report code sev kind index p).cp.up = true := by
  obtain ⟨started, image, fallen, up, -⟩ := bootImage_boots s i fallback
  generalize s.bootImage i fallback = t at started image fallen up ⊢
  have kept := notices_report t code sev kind index p
  exact ⟨(kept.field fun x => x.boot.phase).trans started, (kept.field fun x => x.boot.image).trans image,
    (kept.field fun x => x.boot.imageFallback).trans fallen, (kept.field fun x => x.cp.up).trans up⟩

/-- With no image that passes the CP stays in ROM. -/
theorem romOnly_stays {s : State} (down : s.cp.up = false) (p : List Byte) :
    ((s.onBoot fun x => { x with romOnly := true }).report 0x0D05 .fault 0x0F 0 p).checkAllPosted.boot.romOnly = true ∧
      ((s.onBoot fun x => { x with romOnly := true }).report 0x0D05 .fault 0x0F 0 p).checkAllPosted.cp.up = false := by
  have kept := notices_report (s.onBoot fun x => { x with romOnly := true }) 0x0D05 .fault 0x0F 0 p
  generalize (s.onBoot fun x => { x with romOnly := true }).report 0x0D05 .fault 0x0F 0 p = t at kept ⊢
  have checked := answers_checkAllPosted t
  exact ⟨(field_of_answers checked (fun x => x.boot.romOnly) fun _ => rfl).trans (kept.field fun x => x.boot.romOnly),
    (field_of_answers checked (fun x => x.cp.up) fun _ => rfl).trans ((kept.field fun x => x.cp.up).trans down)⟩

/-! ### Phase 1: the identity (R367, R368) -/

/-- The serial number is read, and the LMS index goes on from what flash has claimed. -/
def State.identityRead (s : State) : State :=
  (s.onFlash fun f => { f with serial := Config.certSerial s.certificate, lmsNext := f.lmsClaimed }).onBoot fun b => { b with
    phase := 2, lmsLow := decide (2 ^ 25 - s.flash.lmsClaimed < 2 ^ 20) }

/-- A seed whose hash is the one in flash is the identity. -/
def State.identityFound (s : State) (seed : List Byte) : State :=
  (s.onFlash fun f => { f with seed := some seed }).onBoot fun b => { b with identityOk := true }

/-- An identity that is not found is reported. -/
def State.identityLost (s : State) (n : Nat) : State :=
  ((s.onFlash fun f => { f with seed := none }).onBoot fun b => { b with identityOk := false }).report 0x0D06 .warn 0x0F 0 (leBytes 4 n)

theorem identityLost_keeps (s : State) (n : Nat) : (s.identityLost n).boot.phase = s.boot.phase ∧ (s.identityLost n).flash.lmsNext = s.flash.lmsNext :=
  ⟨(notices_report _ _ _ _ _ _).field fun x => x.boot.phase, (notices_report _ _ _ _ _ _).field fun x => x.flash.lmsNext⟩

section
variable {s : State} (up : s.cp.up = true) (phase : s.boot.phase = 1) (pattern : List Byte)
include up phase

theorem exec_startupIdentity : exec (.startupIdentity pattern) s =
    match Config.reconstructSeed pattern (s.flashBytes (identityBase + 0x80030) 0x10000) with
    | some (seed, n) =>
      if Config.sha384 seed = s.flashBytes (identityBase + 0x80000) 48 then .next (s.identityRead.identityFound seed)
      else .next (s.identityRead.identityLost n)
    | none => .next (s.identityRead.draw.2.identityLost s.identityRead.draw.1.toNat) := if_neg (by simp [up, phase])

theorem startupIdentity_ends : ∃ t, exec (.startupIdentity pattern) s = .next t ∧ t.boot.phase = 2 ∧ t.flash.lmsNext = s.flash.lmsClaimed ∧
    ∀ seed n, Config.reconstructSeed pattern (s.flashBytes (identityBase + 0x80030) 0x10000) = some (seed, n) →
      Config.sha384 seed = s.flashBytes (identityBase + 0x80000) 48 → t.boot.identityOk = true ∧ t.flash.seed = some seed := by
  rw [exec_startupIdentity up phase]
  split
  · rename_i seed n found
    split
    · exact ⟨_, rfl, rfl, rfl, fun seed' n' found' _ => by obtain ⟨rfl, -⟩ := Prod.mk.inj (Option.some.inj (found.symm.trans found'))
                                                           exact ⟨rfl, rfl⟩⟩
    · rename_i other
      obtain ⟨kept, next⟩ := identityLost_keeps s.identityRead n
      refine ⟨_, rfl, kept, next, fun seed' n' found' hash => ?_⟩
      obtain ⟨rfl, -⟩ := Prod.mk.inj (Option.some.inj (found.symm.trans found'))
      exact absurd hash other
  · rename_i lost
    obtain ⟨kept, next⟩ := identityLost_keeps s.identityRead.draw.2 s.identityRead.draw.1.toNat
    exact ⟨_, rfl, kept, next, fun seed n found _ => absurd (lost.symm.trans found) (by simp)⟩

end

/-! ### Phase 2: the configuration (R370) -/

/-- A block that fails its checks. -/
def mcbBad (m : List Byte) : Bool := le m 0 4 != 0x4A4B4D43 || le m 4 2 != 1 || le m 6 2 != 2048 || mcbCrc m != le m 8 4

theorem mcbBad_eq_false (m : List Byte) :
    mcbBad m = false ↔ le m 0 4 = 0x4A4B4D43 ∧ le m 4 2 = 1 ∧ le m 6 2 = 2048 ∧ mcbCrc m = le m 8 4 := by
  simp [mcbBad, and_assoc]

/-- The block m is taken, or the default in its place. -/
def State.blockTaken (s : State) (m : List Byte) : State :=
  (s.onFlash fun f => { f with mcb := if mcbBad m then mcbDefault else m, mcbRead := if mcbBad m then [] else m }).onBoot
    fun b => { b with cfgDefaulted := mcbBad m }

/-- A default is recorded. -/
def State.configTaken (s : State) (m : List Byte) : State :=
  if mcbBad m then (s.blockTaken m).report 0x0D07 .warn 0x0F 0 (slice m 8 4 ++ leBytes 4 (mcbCrc m) ++ slice m 4 2) else s.blockTaken m

theorem notices_configTaken (s : State) (m : List Byte) : (s.blockTaken m).Notices (s.configTaken m) := by
  unfold State.configTaken
  split
  · exact notices_report _ _ _ _ _ _
  · exact .refl _

/-- The policy of the Almanac that the configuration asks for is taken while its flash is empty (R398). -/
def State.policyTaken (s : State) : State := s.onAlm fun a =>
  if a.flash.isEmpty then { a with bySeverity := le s.flash.mcb 25 1 == 1, keepUnits := keepTaken (le s.flash.mcb 26 2), cfgMismatch := false }
  else { a with cfgMismatch := a.bySeverity != (le s.flash.mcb 25 1 == 1) ||
    (!(le s.flash.mcb 25 1 == 1) && a.keepUnits != keepTaken (le s.flash.mcb 26 2)) }

/-- The configuration in force, start-up being in phase 3. -/
def State.configSettled (s : State) (m : List Byte) : State :=
  ((s.configTaken m).policyTaken.injEnd 0x0F 0).onBoot fun b => { b with phase := 3 }

/-- Without main input start-up comes to wait in phase 3. -/
theorem exec_startupConfig {s : State} (q : s.Quiet) (up : s.cp.up = true) (phase : s.boot.phase = 2) (cold : s.boot.resume = none)
    (off : s.boot.main = false) : exec .startupConfig s = .next ((s.configSettled (s.flashBytes mcbBase 2048)).endWaiter stOk) := by
  show execStartupConfig s = _
  unfold execStartupConfig
  rw [if_neg (by simp [up, phase])]
  dsimp only
  rw [q.fires]
  dsimp only
  rw [Bool.false_or]
  generalize s.flashBytes mcbBase 2048 = m
  have kept := notices_configTaken s m
  have resume : ((s.configTaken m).policyTaken.injEnd 0x0F 0).boot.resume = none := (kept.field fun x => x.boot.resume).trans cold
  have main : (s.configSettled m).boot.main = false := (kept.field fun x => x.boot.main).trans off
  have waits : (s.configSettled m).tryPhase4 = s.configSettled m := by
    unfold State.tryPhase4
    exact if_neg (by simp [main])
  have ended : (s.configSettled m).endReset = (s.configSettled m).endWaiter stOk := if_pos rfl
  split
  · rename_i other
    exact absurd (other.symm.trans resume) (by simp)
  · rename_i other
    exact absurd (other.symm.trans resume) (by simp)
  · show Host.Outcome.next (s.configSettled m).tryPhase4.endReset = _
    rw [waits, ended]

end Sys2Proof.Machine
end

section
namespace Sys2Proof.Proofs
open Sys2Proof.Machine Sys2Proof.Laws

/-- Settles O37: the ROM's choice by the checks of both images, the identity by the seed found, the configuration by its checks. -/
theorem startupStandby : Obligations.StartupStandby := by
  intro s pattern
  refine ⟨fun standby phase down rom => ?rom, fun up phase => startupIdentity_ends up phase pattern, fun q up phase cold off => ?config⟩
  case rom =>
    intro first
    have chosen : first = s.firstImage := by
      unfold first State.firstImage
      generalize s.headerCopy = copy
      rfl
    clear_value first
    subst chosen
    have image := bootImage_boots s.headerTaken s.firstImage false
    have bytes (off n : Nat) : s.headerTaken.flashBytes off n = s.flashBytes off n :=
      flashBytes_of_bytes (s := s) (t := s.headerTaken) (by simp only [State.headerTaken, onFlash_flash]) off n
    rw [bytes, bytes] at image
    refine ⟨fun passes => ?first, fun c fails passes => ?second, fun c d fails fails' => ?neither, ?either⟩
    case first =>
      obtain ⟨started, image, fallen, up, locked, code⟩ := image
      exact ⟨_, exec_startupRom_first standby phase down rom passes, started, image, fallen, up, locked, code⟩
    case second => exact ⟨_, exec_startupRom_second standby phase down rom fails passes, report_boots _ _ _ _ _ _ _ _⟩
    case neither =>
      obtain ⟨p, ran⟩ := exec_startupRom_neither standby phase down rom fails fails'
      exact ⟨_, ran, romOnly_stays (s := s.headerTaken) down p⟩
    case either =>
      cases fails : s.imageFails s.firstImage with
      | none =>
        obtain ⟨started, -, -, up, -⟩ := image
        exact ⟨_, exec_startupRom_first standby phase down rom fails, .inl ⟨started, up⟩⟩
      | some c =>
        cases fails' : s.imageFails (1 - s.firstImage) with
        | none =>
          obtain ⟨started, -, -, up⟩ := report_boots s.headerTaken (1 - s.firstImage) true 0x0D04 .warn 0x0F 0 (leBytes 1 s.firstImage ++ leBytes 1 c)
          exact ⟨_, exec_startupRom_second standby phase down rom fails fails', .inl ⟨started, up⟩⟩
        | some d =>
          obtain ⟨p, ran⟩ := exec_startupRom_neither standby phase down rom fails fails'
          exact ⟨_, ran, .inr (romOnly_stays (s := s.headerTaken) down p).1⟩
  case config =>
    intro m ok
    have settled : exec .startupConfig s = .next ((s.configSettled m).endWaiter stOk) := exec_startupConfig q up phase cold off
    have kept := notices_configTaken s m
    have news := news_endWaiter (s.configSettled m) stOk
    have good : ok ↔ mcbBad m = false := (mcbBad_eq_false m).symm
    clear_value m
    have mcb : ((s.configSettled m).endWaiter stOk).flash.mcb = if mcbBad m then mcbDefault else m :=
      (field_of_news news (fun x => x.flash.mcb) fun _ => rfl).trans (kept.field fun x => x.flash.mcb)
    have defaulted : ((s.configSettled m).endWaiter stOk).boot.cfgDefaulted = mcbBad m :=
      (field_of_news news (fun x => x.boot.cfgDefaulted) fun _ => rfl).trans (kept.field fun x => x.boot.cfgDefaulted)
    refine ⟨_, settled, field_of_news news (fun x => x.boot.phase) fun _ => rfl, fun h => ?_, fun h => ?_⟩
    · have passes := good.mp h
      exact ⟨by rw [mcb, passes]; rfl, by rw [defaulted, passes]⟩
    · have fails : mcbBad m = true := by
        rw [← Bool.not_eq_false]
        exact fun passes => h (good.mpr passes)
      exact ⟨by rw [mcb, fails]; rfl, by rw [defaulted, fails]⟩

end Sys2Proof.Proofs
end

section
/-! Watches (R317): what a message leaves pending or sends, one comparison, and the comparison of all watches of a counter. -/

namespace Sys2Proof.Machine

open Sys2Proof.Laws

/-! ### MSI-X messages (R315, R316) -/

section
variable {s : State} {v : Nat}

theorem out_logStore (s : State) (w : HostWrite) : (s.logStore w).out = s.out := by
  have stored (u : State) (off : Nat) (d : List Byte) : (u.storeG7 off d).out = u.out :=
    foldl_proj State.out (f := fun s cw => s.setG7Health cw .good) (fun _ _ => rfl) (cwSpan off d.length) u
  unfold State.logStore
  dsimp only
  split
  · rfl
  · exact (stored _ _ _).trans (stored _ _ _)

theorem pba_logStore (s : State) (w : HostWrite) : (s.logStore w).hst.pba = s.hst.pba := by
  have stored (u : State) (off : Nat) (d : List Byte) : (u.storeG7 off d).hst = u.hst :=
    foldl_proj State.hst (f := fun s cw => s.setG7Health cw .good) (fun _ _ => rfl) (cwSpan off d.length) u
  unfold State.logStore
  dsimp only
  split
  · rfl
  · rw [onHst_hst, stored, stored]

theorem logStore_of_no_log (h : s.hst.wlogSize = 0) (w : HostWrite) : s.logStore w = s := by
  unfold State.logStore
  exact if_pos (.inl (by rw [h]; rfl))

theorem issueHost_msix (s : State) (v : Nat) : (s.issueHost (.msix v)).out = .msix v :: s.out ∧ (s.issueHost (.msix v)).hst.pba = s.hst.pba := by
  constructor
  · rw [← out_logStore s (s.msixWrite v)]
    rfl
  · simp only [State.issueHost, State.logWrite, emit_hst, onHst_hst, pba_logStore]

/-- A message that goes out. -/
theorem msix_sent (en : s.hst.msixEn = true) (free : s.masked v = false) (open_ : s.hostOpen = true) (first : s.hst.wait = [])
    (room : s.logRoom (.msix v) = true) :
    s.msix v = (s.onHst fun h => { h with handed := h.handed + 1 }).issueHost (.msix v) := by
  have goes : ((s.onHst fun h => { h with handed := h.handed + 1 }).hostOpen &&
      (s.onHst fun h => { h with handed := h.handed + 1 }).hst.wait.isEmpty &&
      (s.onHst fun h => { h with handed := h.handed + 1 }).logRoom (.msix v)) = true := by
    show (s.hostOpen && s.hst.wait.isEmpty && s.logRoom (.msix v)) = true
    rw [open_, first, room]
    rfl
  rw [State.msix, if_neg (by simp [en]), if_neg (by simp [free]), State.hostBound]
  exact if_pos goes

theorem out_msix_sent (en : s.hst.msixEn = true) (free : s.masked v = false) (open_ : s.hostOpen = true) (first : s.hst.wait = [])
    (room : s.logRoom (.msix v) = true) : (s.msix v).out = .msix v :: s.out := by
  rw [msix_sent en free open_ first room]
  exact (issueHost_msix _ v).1

/-- A masked message is pending. -/
theorem mem_pba_msix (en : s.hst.msixEn = true) (masked : s.masked v = true) : v ∈ (s.msix v).hst.pba := by
  rw [State.msix, if_neg (by simp [en]), if_pos masked]
  split
  · assumption
  · exact List.mem_cons_self

/-- What is pending stays pending, and what was sent stays sent, at any other message. -/
theorem msix_adds (s : State) (v : Nat) : s.hst.pba <:+ (s.msix v).hst.pba ∧ s.out <:+ (s.msix v).out := by
  unfold State.msix
  split
  · exact ⟨List.suffix_refl _, List.suffix_refl _⟩
  · split
    · split
      · exact ⟨List.suffix_refl _, List.suffix_refl _⟩
      · exact ⟨List.suffix_cons _ _, List.suffix_refl _⟩
    · unfold State.hostBound
      rw [if_pos (show (Out.msix v).isWrite = true from rfl)]
      dsimp only
      split
      · obtain ⟨out, pba⟩ := issueHost_msix (s.onHst fun h => { h with handed := h.handed + 1 }) v
        rw [out, pba]
        exact ⟨List.suffix_refl _, List.suffix_cons _ _⟩
      · exact ⟨List.suffix_refl _, List.suffix_refl _⟩

/-- Host-bound requests go out at once: the link is open, none waits and no log limits them. -/
def State.flows (s : State) : Prop := s.hostOpen = true ∧ s.hst.wait = [] ∧ s.hst.wlogSize = 0

theorem logRoom_of_flows (h : s.flows) (o : Out) : s.logRoom o = true := by
  obtain ⟨-, -, size⟩ := h
  simp [State.logRoom, size]

theorem flows_msix (h : s.flows) (v : Nat) : (s.msix v).flows := by
  obtain ⟨open_, first, size⟩ := h
  have same : (s.msix v).hostOpen = s.hostOpen ∧ (s.msix v).hst.wlogSize = s.hst.wlogSize :=
    ⟨(notices_msix s v).field State.hostOpen, (notices_msix s v).wlogSize⟩
  refine ⟨same.1.trans open_, ?_, same.2.trans size⟩
  cases en : s.hst.msixEn with
  | false => rw [State.msix, if_pos (by simp [en]), first]
  | true =>
    cases masked : s.masked v with
    | true =>
      rw [State.msix, if_neg (by simp [en]), if_pos masked]
      split <;> exact first
    | false =>
      have none_ : (s.onHst fun h => { h with handed := h.handed + 1 }).hst.wlogSize = 0 := size
      rw [msix_sent en masked open_ first (logRoom_of_flows ⟨open_, first, size⟩ _)]
      simp only [State.issueHost, State.logWrite, emit_hst, onHst_hst, logStore_of_no_log none_]
      exact first

/-- A record with its messages does not stop the flow. -/
theorem keptByNews_flows : KeptByNews State.flows :=
  ⟨fun _ v h => flows_msix h v, fun u x y b h => by rw [(sendControl_frame u x y b).1]; exact h, fun _ _ h => h, fun _ _ h => h⟩

end

/-! ### One watch compares -/

/-- A field that the mask keeps whole reads as before. -/
theorem fld_and {v m : Word64} {lo n : Nat} (h : ∀ i, i < n → m.toNat.testBit (lo + i) = true) : fld (v &&& m) lo n = fld v lo n := by
  unfold fld bitsOf
  rw [BitVec.toNat_and]
  refine Nat.eq_of_testBit_eq fun i => ?_
  simp only [Nat.testBit_mod_two_pow, Nat.testBit_div_two_pow, Nat.testBit_and]
  by_cases inside : i < n
  · rw [Nat.add_comm, h i inside, Bool.and_true]
  · simp [inside]

/-- The upper half taken off a number. The place stands for any, so that the kernel meets no large power. -/
theorem upper_cleared {w p : Nat} (h : w < 2 * p) : (w - w / p % 2 * p) / p % 2 = 0 ∧ w - w / p % 2 * p < 2 * p := by
  have half : w / p < 2 := Nat.div_lt_of_lt_mul (by rwa [Nat.mul_comm])
  rw [Nat.mod_eq_of_lt half]
  have rest : w - w / p * p < p := by
    rw [← Nat.mod_eq_sub_div_mul]
    exact Nat.mod_lt _ (by omega)
  exact ⟨by rw [Nat.div_eq_of_lt rest], by omega⟩

theorem fld_disarmed (w : Word64) : fld (setFld w 63 1 0) 63 1 = 0 := by
  obtain ⟨clear, size⟩ := upper_cleared (w := w.toNat) (p := 2 ^ 63) w.isLt
  unfold setFld fld bitsOf
  rw [Nat.pow_one, Nat.zero_mod, Nat.zero_mul, Nat.add_zero, BitVec.toNat_ofNat, show (2 : Nat) ^ 64 = 2 * 2 ^ 63 from rfl,
    Nat.mod_eq_of_lt size]
  exact clear

section
variable {s : State} {k : Nat}

theorem watchFire_idle (h : ¬(fld (Sparse.get 0 s.hst.watch k) 63 1 = 1 ∧
    fld (Sparse.get 0 s.hst.watch k) 0 32 ≤ s.sc (fld (Sparse.get 0 s.hst.watch k) 32 14))) : s.watchFire k = s := if_neg h

/-- The watch disarmed, before its message. -/
def State.disarmed (s : State) (k : Nat) : State :=
  s.onHst fun h => { h with watch := Sparse.put 0 h.watch k (setFld (Sparse.get 0 s.hst.watch k) 63 1 0) }

/-- What no write of the watches changes. Stated through any write, as the kernel is not asked to compare watches. -/
theorem disarmed_keeps {α : Type} (f : State → α)
    (hf : ∀ (u : State) (g : Sparse Word64 → Sparse Word64), f (u.onHst fun h => { h with watch := g h.watch }) = f u) (s : State) (k : Nat) :
    f (s.disarmed k) = f s := hf s fun w => Sparse.put 0 w k (setFld (Sparse.get 0 s.hst.watch k) 63 1 0)

theorem flows_disarmed (h : s.flows) (k : Nat) : (s.disarmed k).flows := by
  obtain ⟨open_, first, size⟩ := h
  exact ⟨(disarmed_keeps State.hostOpen (fun _ _ => rfl) s k).trans open_, (disarmed_keeps (fun u => u.hst.wait) (fun _ _ => rfl) s k).trans first,
    (disarmed_keeps (fun u => u.hst.wlogSize) (fun _ _ => rfl) s k).trans size⟩

theorem watchFire_fires (armed : fld (Sparse.get 0 s.hst.watch k) 63 1 = 1)
    (reached : fld (Sparse.get 0 s.hst.watch k) 0 32 ≤ s.sc (fld (Sparse.get 0 s.hst.watch k) 32 14)) :
    s.watchFire k = (s.disarmed k).msix (1024 + k) := if_pos ⟨armed, reached⟩

theorem watch_msix (s : State) (v : Nat) : (s.msix v).hst.watch = s.hst.watch := (notices_msix s v).field fun x => x.hst.watch

/-- A property that messages keep and that no write of the watches can end is kept when a watch compares. -/
theorem watchFire_keeps {P : State → Prop} (msix : ∀ (u : State) v, P u → P (u.msix v))
    (watch : ∀ (u : State) (f : Sparse Word64 → Sparse Word64), P u → P (u.onHst fun h => { h with watch := f h.watch })) (h : P s) (k : Nat) :
    P (s.watchFire k) := by
  unfold State.watchFire
  dsimp only
  split
  · exact msix _ _ (watch s (fun w => Sparse.put 0 w k (setFld (Sparse.get 0 s.hst.watch k) 63 1 0)) h)
  · exact h

theorem watch_watchFire_other {j : Nat} (h : j ≠ k) : Sparse.get 0 (s.watchFire j).hst.watch k = Sparse.get 0 s.hst.watch k := by
  unfold State.watchFire
  dsimp only
  split
  · rw [watch_msix]
    exact get_put_other 0 _ _ h
  · rfl

theorem watch_disarmed (s : State) (k : Nat) : Sparse.get 0 (s.disarmed k).hst.watch k = setFld (Sparse.get 0 s.hst.watch k) 63 1 0 :=
  get_put_same 0 _ _ _

end

/-! ### All watches of a counter compare -/

theorem mem_of_get {α : Type} {d x : α} {l : Sparse α} {k : Nat} (h : Sparse.get d l k = x) (ne : x ≠ d) : (k, x) ∈ l := by
  induction l with
  | nil => exact absurd h.symm ne
  | cons e l ih =>
    obtain ⟨j, y⟩ := e
    rw [Sparse.get] at h
    split at h
    · rename_i same
      rw [same, h]
      exact List.mem_cons_self
    · exact List.mem_cons_of_mem _ (ih h)

/-- What does not change while watches compare. -/
def State.watchView (s : State) : Sync × Bool × List Host.Cell := (s.sync, s.hst.msixEn, s.hst.msixTable)

theorem view_watchFire (s : State) (k : Nat) : (s.watchFire k).watchView = s.watchView :=
  watchFire_keeps (P := fun u => u.watchView = s.watchView) (fun u v h => ((notices_msix u v).field State.watchView).trans h) (fun _ _ h => h) rfl k

/-- One entry of the table of watches compares. -/
def State.watchStep (n : Nat) (s : State) (e : Nat × Word64) : State := if fld e.2 32 14 = n then s.watchFire e.1 else s

theorem watchAll_eq (s : State) (n : Nat) : s.watchAll n = s.hst.watch.foldl (State.watchStep n) s := rfl

section
variable {s : State} {n k : Nat} {x : Word64} (own : Sparse.get 0 s.hst.watch k = x) (counter : fld x 32 14 = n)
include own counter

/-- Below its threshold a watch stays as it is. -/
theorem watchAll_waits (below : s.sc n < fld x 0 32) : Sparse.get 0 (s.watchAll n).hst.watch k = x := by
  let waits (u : State) : Prop := Sparse.get 0 u.hst.watch k = x ∧ u.watchView = s.watchView
  have step (u : State) (h : waits u) (e : Nat × Word64) : waits (u.watchStep n e) := by
    obtain ⟨held, view⟩ := h
    have low : u.sc n < fld x 0 32 := by
      have sync : u.sync = s.sync := congrArg Prod.fst view
      rw [State.sc, State.counter, sync]
      exact below
    unfold State.watchStep
    split
    · refine ⟨?_, (view_watchFire u _).trans view⟩
      by_cases same : e.1 = k
      · rw [same, watchFire_idle (by rw [held, counter]; omega), held]
      · rw [watch_watchFire_other same, held]
    · exact ⟨held, view⟩
  exact (List.foldlRecOn s.hst.watch (State.watchStep n) (motive := waits) ⟨own, rfl⟩ fun u h e _ => step u h e).1

/-- At its threshold an armed watch fires: it is disarmed, and what its message then brings is kept by the other watches. -/
theorem watchAll_fires (armed : fld x 63 1 = 1) (reached : fld x 0 32 ≤ s.sc n) {P G : State → Prop} (start : P s)
    (keepsP : ∀ u j, P u → P (State.watchFire u j)) (keepsG : ∀ u j, G u → G (State.watchFire u j))
    (brings : ∀ u : State, P u → u.watchView = s.watchView → G ((u.disarmed k).msix (1024 + k))) :
    Sparse.get 0 (s.watchAll n).hst.watch k = setFld x 63 1 0 ∧ G (s.watchAll n) := by
  let fired (u : State) : Prop := Sparse.get 0 u.hst.watch k = setFld x 63 1 0 ∧ G u
  let waits (u : State) : Prop := Sparse.get 0 u.hst.watch k = x ∧ P u ∧ u.watchView = s.watchView
  have fires (u : State) (h : waits u) : fired (u.watchFire k) := by
    obtain ⟨held, kept, view⟩ := h
    have high : fld x 0 32 ≤ u.sc n := by
      have sync : u.sync = s.sync := congrArg Prod.fst view
      rw [State.sc, State.counter, sync]
      exact reached
    rw [watchFire_fires (by rw [held]; exact armed) (by rw [held, counter]; exact high)]
    exact ⟨by rw [watch_msix, watch_disarmed, held], brings u kept view⟩
  have stays (u : State) (h : fired u) (e : Nat × Word64) : fired (u.watchStep n e) := by
    obtain ⟨off, brought⟩ := h
    unfold State.watchStep
    split
    · by_cases same : e.1 = k
      · rw [same, watchFire_idle (by rw [off, fld_disarmed]; omega)]
        exact ⟨off, brought⟩
      · exact ⟨by rw [watch_watchFire_other same, off], keepsG u _ brought⟩
    · exact ⟨off, brought⟩
  have step (u : State) (h : waits u ∨ fired u) (e : Nat × Word64) : waits (u.watchStep n e) ∨ fired (u.watchStep n e) := by
    rcases h with h | h
    · by_cases same : e.1 = k
      · unfold State.watchStep
        split
        · rw [same]
          exact .inr (fires u h)
        · exact .inl h
      · obtain ⟨held, kept, view⟩ := h
        unfold State.watchStep
        split
        · exact .inl ⟨by rw [watch_watchFire_other same, held], keepsP u _ kept, (view_watchFire u _).trans view⟩
        · exact .inl ⟨held, kept, view⟩
    · exact .inr (stays u h e)
  have listed : (k, x) ∈ s.hst.watch := mem_of_get own fun zero => by
    rw [zero] at armed
    exact absurd armed (by decide)
  obtain ⟨before, after, table⟩ := List.append_of_mem listed
  rw [watchAll_eq, table, List.foldl_append, List.foldl_cons]
  have come : waits (before.foldl (State.watchStep n) s) ∨ fired (before.foldl (State.watchStep n) s) :=
    List.foldlRecOn before _ (motive := fun u => waits u ∨ fired u) (.inl ⟨own, start, rfl⟩) fun u h e _ => step u h e
  have here : fired ((before.foldl (State.watchStep n) s).watchStep n (k, x)) := by
    rcases come with h | h
    · rw [State.watchStep, if_pos counter]
      exact fires _ h
    · exact stays _ h _
  exact List.foldlRecOn after _ (motive := fired) here fun u h e _ => stays u h e

end

/-! ### An operation on a counter (R180, R317) -/

section
variable {s : State} {n : Nat}

/-- What messages, records and writes of the counters leave, an operation leaves up to its watches. -/
theorem scWritten_keeps {P : State → Prop} (kept : KeptByNews P) (sync : ∀ (u : State) f, P u → P (u.onSync f)) (h : P s) (op : ScOp) (v : Word32)
    (src : ScSource) : P (s.scWritten n op v src) := by
  have flags (u : State) (old new : Counter) (b : Nat) (h : P u) : P (u.scFlags n old new b) := by
    unfold State.scFlags
    dsimp only
    split
    · refine kept.msix _ _ ?_
      split
      · exact h
      · exact kept.report h _ _ _ _ _
    · exact h
  unfold State.scWritten
  dsimp only
  refine kept.alm _ _ (flags _ _ _ _ ?_)
  split
  · exact sync _ _ (sync _ _ h)
  · exact sync _ _ h

/-- The watches, and what decides of their messages. -/
def State.watchTable (s : State) : Sparse Word64 × Bool × List Host.Cell := (s.hst.watch, s.hst.msixEn, s.hst.msixTable)

theorem table_scWritten (s : State) (n : Nat) (op : ScOp) (v : Word32) (src : ScSource) : (s.scWritten n op v src).watchTable = s.watchTable :=
  scWritten_keeps (P := fun u => u.watchTable = s.watchTable)
    ⟨fun u v h => ((notices_msix u v).field State.watchTable).trans h, fun u x y b h => ((notices_sendControl u x y b).field State.watchTable).trans h,
      fun _ _ h => h, fun _ _ h => h⟩ (fun _ _ h => h) rfl op v src

theorem scOp_eq_watchAll (q : s.Quiet) (h : s.jobRuns = false ∨ n ≠ s.grp.cfg.voteSc) (op : ScOp) (v : Word32) (src : ScSource) :
    s.scOp n op v src = (s.scWritten n op v src).watchAll n := by
  obtain ⟨ext, written⟩ := counting_scWritten s n op v src
  have counting := (counting_watchAll (s.scWritten n op v src) n).trans written
  have job : ((s.scWritten n op v src).watchAll n).job = s.job := congrArg (·.2.1) counting
  have grp : ((s.scWritten n op v src).watchAll n).grp = s.grp := congrArg (·.2.2) counting
  rw [scOp_of_quiet q, voteCheck_of_no_vote (by rwa [State.jobRuns, job, grp])]

theorem sc_watchAll (s : State) (n m : Nat) : (s.watchAll n).sc m = s.sc m := by
  have sync : (s.watchAll n).sync = s.sync := congrArg Prod.fst (counting_watchAll s n)
  rw [State.sc, State.counter, sync]
  rfl

/-- The message of watch k is pending or sent, as its vector in s decides. -/
def State.watchTold (s : State) (k : Nat) (t : State) : Prop :=
  (s.hst.msixEn = true → s.masked (1024 + k) = true → 1024 + k ∈ t.hst.pba) ∧
    (s.hst.msixEn = true → s.masked (1024 + k) = false → s.flows → .msix (1024 + k) ∈ t.out)

/-- The watch of a counter is told at its threshold, and only then. -/
theorem scOp_watch {k : Nat} {x : Word64} (q : s.Quiet) (h : s.jobRuns = false ∨ n ≠ s.grp.cfg.voteSc) (own : Sparse.get 0 s.hst.watch k = x)
    (counter : fld x 32 14 = n) (armed : fld x 63 1 = 1) (op : ScOp) (v : Word32) (src : ScSource) :
    (fld x 0 32 ≤ (s.scOp n op v src).sc n →
      Sparse.get 0 (s.scOp n op v src).hst.watch k = setFld x 63 1 0 ∧ s.watchTold k (s.scOp n op v src)) ∧
    ((s.scOp n op v src).sc n < fld x 0 32 → Sparse.get 0 (s.scOp n op v src).hst.watch k = x) := by
  have table := table_scWritten s n op v src
  have flows : s.flows → (s.scWritten n op v src).flows := fun f => scWritten_keeps keptByNews_flows (fun _ _ h => h) f op v src
  rw [scOp_eq_watchAll q h, sc_watchAll]
  generalize s.scWritten n op v src = u at table flows
  have own' : Sparse.get 0 u.hst.watch k = x := by
    have watch : u.hst.watch = s.hst.watch := congrArg Prod.fst table
    rw [watch, own]
  refine ⟨fun reached => ?_, watchAll_waits own' counter⟩
  refine watchAll_fires own' counter armed reached (P := fun t => s.flows → t.flows) (G := s.watchTold k) flows
    (fun t j h f => watchFire_keeps (P := State.flows) (fun _ v h => flows_msix h v) (fun _ _ h => h) (h f) j) (fun t j told => ?keeps) (fun t h view => ?brings)
  case keeps =>
    obtain ⟨pending, sent⟩ := told
    exact ⟨fun en masked => watchFire_keeps (P := fun t => 1024 + k ∈ t.hst.pba) (fun _ v h => (msix_adds _ v).1.mem h) (fun _ _ h => h) (pending en masked) j,
      fun en free f => watchFire_keeps (P := fun t => Out.msix (1024 + k) ∈ t.out) (fun _ v h => (msix_adds _ v).2.mem h) (fun _ _ h => h) (sent en free f) j⟩
  case brings =>
    have same : (t.hst.msixEn, t.hst.msixTable) = (u.hst.msixEn, u.hst.msixTable) := congrArg Prod.snd view
    have same' : (u.hst.msixEn, u.hst.msixTable) = (s.hst.msixEn, s.hst.msixTable) := congrArg Prod.snd table
    have en : (t.disarmed k).hst.msixEn = s.hst.msixEn :=
      (disarmed_keeps (fun u => u.hst.msixEn) (fun _ _ => rfl) t k).trans (congrArg Prod.fst (same.trans same'))
    have masked : (t.disarmed k).masked (1024 + k) = s.masked (1024 + k) := by
      have entries : t.hst.msixTable = s.hst.msixTable := congrArg Prod.snd (same.trans same')
      rw [disarmed_keeps (fun u => u.masked (1024 + k)) (fun _ _ => rfl) t k, State.masked, entries]
      rfl
    refine ⟨fun on m => mem_pba_msix (en.trans on) (masked.trans m), fun on m f => ?_⟩
    have flowing := flows_disarmed (h f) k
    rw [out_msix_sent (en.trans on) (masked.trans m) flowing.1 flowing.2.1 (logRoom_of_flows flowing _)]
    exact List.mem_cons_self

end

/-! ### HST_WATCH_ARM -/

/-- The watch as it is written. -/
def State.watchWritten (s : State) (k : Nat) (x : Word64) : State := s.onHst fun h => { h with watch := Sparse.put 0 h.watch k x }

theorem exec_hstWatchArm {s : State} (q : s.Quiet) (up : s.linkUp = true) (k : Fin 1024) (v : Word64) :
    exec (.hstWatchArm k v) s = .next ((s.watchWritten k (v &&& 0x80003FFFFFFFFFFF)).watchFire k) := by
  show execHstWatchArm k v s = _
  unfold execHstWatchArm
  rw [if_pos up, q.tlp, State.writeWatch]
  rfl

section
variable (s : State) (k : Nat) (x : Word64)

theorem watch_watchWritten : Sparse.get 0 (s.watchWritten k x).hst.watch k = x := get_put_same 0 _ _ x

/-- A watch that is written unarmed, or below its threshold, stays as written. -/
theorem watchWritten_idle (h : ¬(fld x 63 1 = 1 ∧ fld x 0 32 ≤ s.sc (fld x 32 14))) : (s.watchWritten k x).watchFire k = s.watchWritten k x :=
  watchFire_idle (by rw [watch_watchWritten]; exact h)

/-- One that is written armed at its threshold fires at once. -/
theorem watchWritten_fires (armed : fld x 63 1 = 1) (reached : fld x 0 32 ≤ s.sc (fld x 32 14)) :
    Sparse.get 0 ((s.watchWritten k x).watchFire k).hst.watch k = setFld x 63 1 0 ∧
      (s.hst.msixEn = true → s.masked (1024 + k) = true → 1024 + k ∈ ((s.watchWritten k x).watchFire k).hst.pba) ∧
      (s.hst.msixEn = true → s.masked (1024 + k) = false → s.hostOpen = true → s.hst.wait = [] → s.logRoom (.msix (1024 + k)) = true →
        ((s.watchWritten k x).watchFire k).out = .msix (1024 + k) :: s.out) := by
  rw [watchFire_fires (by rw [watch_watchWritten, armed]) (by rw [watch_watchWritten]; exact reached)]
  have kept {α : Type} (f : State → α)
      (hf : ∀ (u : State) (g : Sparse Word64 → Sparse Word64), f (u.onHst fun h => { h with watch := g h.watch }) = f u) :
      f ((s.watchWritten k x).disarmed k) = f s := (disarmed_keeps f hf _ k).trans (hf s fun w => Sparse.put 0 w k x)
  have en := kept (fun u => u.hst.msixEn) fun _ _ => rfl
  have masked := kept (fun u => u.masked (1024 + k)) fun _ _ => rfl
  refine ⟨by rw [watch_msix, watch_disarmed, watch_watchWritten], fun on m => mem_pba_msix (en.trans on) (masked.trans m),
    fun on m open_ first room => ?_⟩
  rw [out_msix_sent (en.trans on) (masked.trans m) ((kept State.hostOpen fun _ _ => rfl).trans open_)
    ((kept (fun u => u.hst.wait) fun _ _ => rfl).trans first) ((kept (fun u => u.logRoom (.msix (1024 + k))) fun _ _ => rfl).trans room),
    kept State.out fun _ _ => rfl]

end

/-- The reserved bits of a watch hold none of its fields. -/
theorem watch_fields (v : Word64) : fld (v &&& 0x80003FFFFFFFFFFF) 63 1 = fld v 63 1 ∧ fld (v &&& 0x80003FFFFFFFFFFF) 32 14 = fld v 32 14 ∧
    fld (v &&& 0x80003FFFFFFFFFFF) 0 32 = fld v 0 32 := ⟨fld_and (by decide), fld_and (by decide), fld_and (by decide)⟩

end Sys2Proof.Machine
end

section
namespace Sys2Proof.Proofs
open Sys2Proof.Machine Sys2Proof.Laws

/-- Settles O44: one comparison when a watch is armed, and one of all watches of the counter after each operation. -/
theorem watches : Obligations.Watches := by
  intro s k v n a src q w put
  obtain ⟨arm, counter, threshold⟩ := watch_fields v
  refine ⟨fun up on reached => ⟨_, exec_hstWatchArm q up k v, ?fires⟩, fun up off => (exec_hstWatchArm q up k v).trans (congrArg _ ?waits), ?operations⟩
  case fires => exact watchWritten_fires s k w (arm.trans on) (by rw [threshold, counter]; exact reached)
  case waits =>
    refine watchWritten_idle s k w ?_
    rw [arm, threshold, counter]
    rcases off with zero | below
    · omega
    · exact fun h => absurd h.2 (Nat.not_le.mpr below)
  case operations =>
    intro x on own noVote arrives c mem
    have operation (op : ScOp) (b : Word32) := scOp_watch (n := n.val) q noVote (x := x) (k := k) rfl own on op b src
    have runs (op : ScOp) (b : Word32) (ran : exec c s = .next (s.scCommand n op b src)) : ∃ t, exec c s = .next t ∧
        (fld x 0 32 ≤ t.sc n → Sparse.get 0 t.hst.watch k = setFld x 63 1 0 ∧
          (s.hst.msixEn = true → s.masked (1024 + k) = true → 1024 + k.val ∈ t.hst.pba) ∧
          (s.hst.msixEn = true → s.masked (1024 + k) = false → s.hostOpen = true → s.hst.wait = [] → s.hst.wlogSize = 0 →
            .msix (1024 + k) ∈ t.out)) ∧
        (t.sc n < fld x 0 32 → Sparse.get 0 t.hst.watch k = x) := by
      obtain ⟨fires, waits⟩ := operation op b
      refine ⟨_, ran.trans (congrArg _ (scCommand_arrives q arrives n op b)), fun reached => ?_, waits⟩
      obtain ⟨off, pending, sent⟩ := fires reached
      exact ⟨off, pending, fun en free open_ first size => sent en free ⟨open_, first, size⟩⟩
    simp only [List.mem_cons, List.not_mem_nil, or_false] at mem
    obtain rfl | rfl | rfl | rfl := mem
    · exact runs .add a rfl
    · exact runs .sub a rfl
    · exact runs .set a rfl
    · exact runs .clear 0 rfl

end Sys2Proof.Proofs
end

section
/-! Records of the Almanac and its flash (R391, R392, R395 to R398). -/

namespace Sys2Proof.Machine

open Sys2Proof.Laws

/-! ### One event (R391, R392) -/

/-- The record of an event, before its SEQ. -/
def State.eventRec (s : State) (code : Nat) (sev : Severity) (kind index : Nat) (p : List Byte) : AlmRec :=
  ⟨BitVec.ofNat 16 code, false, sev, BitVec.ofNat 8 kind, BitVec.ofNat 16 index, s.boot.modCount.setWidth 48, 0, 0, padTo 12 p, false, false⟩

/-- The Almanac after a record that folds. -/
def Alm.withFold (a : Alm) (last : AlmRec) : Alm :=
  { a with ring := a.ring.dropLast ++ [{ last with rep := min (last.rep + 1) 0xFFFF }], folded := inc a.folded }

/-- The Almanac after a record that is appended. -/
def Alm.appended (a : Alm) (r : AlmRec) : Alm :=
  { a with ring := a.ring ++ [{ r with seq := a.nextSeq, frozen := a.flushing, flushed := false }], nextSeq := a.nextSeq + 1 }

section
variable {s : State}

theorem report_of_quiet (q : s.Quiet) (code : Nat) (sev : Severity) (kind index : Nat) (p : List Byte) :
    s.report code sev kind index p = match s.alm.ring.getLast? with
      | some last => if foldsInto last (s.eventRec code sev kind index p) then
          ({ s with alm := s.alm.withFold last } : State).recMessages (s.eventRec code sev kind index p) true
        else s.takeRec (s.eventRec code sev kind index p)
      | none => s.takeRec (s.eventRec code sev kind index p) := by
  have real : decide (srcKey kind index ∈ s.alm.injKeys) = false := by rw [q.2]; rfl
  unfold State.report State.reportRep
  rw [real]
  rfl

/-- The messages of a fold leave the Almanac alone. -/
theorem alm_recMessages_fold (s : State) (r : AlmRec) : (s.recMessages r true).alm = s.alm := by
  unfold State.recMessages
  dsimp only
  rw [if_neg (by simp), apply_ite State.alm, alm_alert, ite_self]

/-- Those of an appended record start a flush where it is a FAULT. -/
theorem alm_recMessages (s : State) (r : AlmRec) :
    (s.recMessages r false).alm = s.alm ∨ r.sev = .fault ∧ ∃ u : State, u.alm = s.alm ∧ (s.recMessages r false).alm = u.startFlush.alm := by
  unfold State.recMessages
  dsimp only
  have alerts : (if r.sev = .warn ∨ r.sev = .fault then s.alert else s).alm = s.alm := by rw [apply_ite State.alm, alm_alert, ite_self]
  generalize (if r.sev = .warn ∨ r.sev = .fault then s.alert else s) = u at alerts ⊢
  split
  · rename_i fault
    refine .inr ⟨fault.1, u, alerts, ?_⟩
    split
    · rfl
    · rw [alm_sendControl]
      rfl
  · exact .inl alerts

/-- A flush that starts keeps the records, their SEQs and the next SEQ. -/
theorem startFlush_records (s : State) : s.startFlush.alm.nextSeq = s.alm.nextSeq ∧
    s.startFlush.alm.ring.map (·.seq) = s.alm.ring.map (·.seq) := by
  unfold State.startFlush
  split
  · exact ⟨rfl, rfl⟩
  · split
    · exact ⟨rfl, rfl⟩
    · refine ⟨rfl, ?_⟩
      show (List.map _ _).map _ = _
      rw [List.map_map]
      refine List.map_congr_left fun r _ => ?_
      show (if r.flushed then r else { r with frozen := true }).seq = r.seq
      rw [apply_ite AlmRec.seq, ite_self]

/-- In a ring with room, with no loss owed and no level set, a record takes the next place. -/
theorem appendRec_of_room (room : s.alm.ring.length < 2048) (paid : s.alm.lostRing = 0) (paid' : s.alm.lostFlash = 0) (level : s.alm.flushLevel = 0)
    (r : AlmRec) : s.appendRec r = { s with alm := s.alm.appended r } := by
  have owes : s.payLost = s := by
    simp [State.payLost, paid, paid']
  have place : s.makePlace = s := if_pos room
  unfold State.appendRec
  rw [if_pos (by simp [State.ringRoom, room]), owes, place]
  exact if_neg fun h => h.1 level

theorem takeRec_of_room (room : s.alm.ring.length < 2048) (paid : s.alm.lostRing = 0) (paid' : s.alm.lostFlash = 0) (level : s.alm.flushLevel = 0)
    (r : AlmRec) : s.takeRec r = ({ s with alm := s.alm.appended r } : State).recMessages r false := by
  have next : (s.alm.appended r).nextSeq ≠ s.alm.nextSeq := by
    show s.alm.nextSeq + 1 ≠ s.alm.nextSeq
    bv_omega
  unfold State.takeRec
  dsimp only
  rw [appendRec_of_room room paid paid' level, if_neg next]

end

/-! ### Flushes (R395, R396) -/

/-- A flush freezes what is not in flash, and no MCB write holds it up. -/
theorem startFlush_freezes {s : State} (write : s.flash.mcbWrite = none) : s.startFlush.alm.flushing = true ∧
    (s.alm.flushing = false → ∀ r ∈ s.startFlush.alm.ring, r.flushed = true ∨ r.frozen = true) := by
  cases run : s.alm.flushing with
  | true =>
    rw [State.startFlush, if_pos run]
    exact ⟨run, fun h => absurd h (by simp)⟩
  | false =>
    rw [State.startFlush, if_neg (by simp [run]), if_neg (by simp [write])]
    refine ⟨rfl, fun _ r mem => ?_⟩
    obtain ⟨x, -, rfl⟩ := List.mem_map.1 mem
    cases done : x.flushed with
    | true => exact .inl (by rw [if_pos rfl]; exact done)
    | false => exact .inr rfl

theorem flushLevel_startFlush (s : State) : s.startFlush.alm.flushLevel = s.alm.flushLevel := by
  unfold State.startFlush
  split
  · rfl
  · split <;> rfl

theorem exec_almCtrlFlush {s : State} (q : s.Quiet) (up : s.linkUp = true) (v : Word64) : exec (.almCtrlFlush v) s = .next (s.writeAlmCtrl v) := by
  show Host.Outcome.next (if s.linkUp then s.tlp.writeAlmCtrl v else s) = _
  rw [if_pos up, q.tlp]

/-- The state when a flush has ended, before the commands that waited for it. -/
def State.flushEnded (s : State) : State := s.flushNow.payLost.flushNow.onAlm fun a => { a with flushing := false }

/-- An MCB write that waited for the flush takes its turn. -/
def Flash.mcbTurn (f : Flash) : Flash :=
  match f.mcbWrite, f.mcbNext with
  | none, some w => { f with mcbWrite := some w, mcbNext := none }
  | _, _ => f

theorem exec_almanacFlushEnd {s : State} (run : s.alm.flushing = true) (write : s.flash.mcbWrite = none) :
    exec .almanacFlushEnd s = .next (s.flushEnded.endFlushCommands.onFlash Flash.mcbTurn) := if_neg (by simp [run, write])

theorem flushed_flushNow (s : State) : ∀ r ∈ s.flushNow.alm.ring, r.flushed = true := by
  intro r mem
  obtain ⟨x, -, rfl⟩ := List.mem_map.1 mem
  rfl

theorem flash_flushEnded (s : State) : s.flushEnded.flash = s.flash := by
  have news : s.flushEnded.sansNews = s.sansNews := by
    rw [State.flushEnded, news_onAlm, news_flushNow, (notices_payLost _).news, news_flushNow]
  exact field_of_news news State.flash fun _ => rfl

theorem news_endFlushCommands (s : State) : s.endFlushCommands.sansNews = s.sansNews := by
  have ended (u : State) (r : Route) : (u.endCommand (some r) stOk []).sansNews = u.sansNews := by
    unfold State.endCommand
    dsimp only
    split
    · exact (respond_answers u r _ _).1.news
    · rfl
  unfold State.endFlushCommands
  exact foldl_proj State.sansNews (fun u r => by rw [apply_ite State.sansNews, ended, ite_self]) _ s

/-! ### The erase ahead (R397) -/

/-- The sector after sector k of the part of the area that goes round. -/
def Alm.nextSector (a : Alm) (k : Nat) : Nat := if k + 1 < 128 then k + 1 else a.keepUnits / 2

/-- The first of the two sectors ahead of the next write. -/
def Alm.aheadSector (a : Alm) : Nat := if a.head % 2048 = 0 then a.head / 2048 else a.nextSector (a.head / 2048)

/-- A sector that may be erased: not erased yet, and not the one being filled. -/
def Alm.mayErase (a : Alm) (k : Nat) : Bool := !a.erased.contains k && (decide (k ≠ a.head / 2048) || a.head % 2048 == 0)

theorem mayErase_iff (a : Alm) (k : Nat) : a.mayErase k = true ↔ k ∉ a.erased ∧ (k ≠ a.head / 2048 ∨ a.head % 2048 = 0) := by simp [Alm.mayErase]

theorem exec_almanacSectorErase {s : State} (keep : s.alm.bySeverity = false) (idle : s.alm.flushing = false) (write : s.flash.mcbWrite = none)
    (on : s.aoUp = true) {k : Nat} (found : [s.alm.aheadSector, s.alm.nextSector s.alm.aheadSector].find? s.alm.mayErase = some k) :
    exec .almanacSectorErase s = .next (s.onAlm fun x => x.erase k) := by
  have ran : exec .almanacSectorErase s = match [s.alm.aheadSector, s.alm.nextSector s.alm.aheadSector].find? s.alm.mayErase with
      | some k => .next (s.onAlm fun x => x.erase k)
      | none => .next s := if_neg (by simp [keep, idle, write, on])
  rw [ran, found]

/-- The first of the two that may be erased is chosen. -/
theorem find_mayErase {a : Alm} {i j k : Nat} (choice : a.mayErase i = true ∧ k = i ∨ ¬a.mayErase i = true ∧ a.mayErase j = true ∧ k = j) :
    [i, j].find? a.mayErase = some k := by
  obtain ⟨can, rfl⟩ | ⟨cannot, can, rfl⟩ := choice
  · exact List.find?_cons_of_pos can
  · rw [List.find?_cons_of_neg cannot, List.find?_cons_of_pos can]

theorem erase_sector (a : Alm) (k : Nat) : k ∈ (a.erase k).erased ∧ (∀ p ∈ (a.erase k).flash, inSector k p = false) ∧
    ∀ p ∈ a.flash, inSector k p = false → p ∈ (a.erase k).flash := by
  unfold Alm.erase
  refine ⟨?_, fun p mem => by simpa using (List.mem_filter.1 mem).2, fun p mem out => List.mem_filter.2 ⟨mem, by simp [out]⟩⟩
  show k ∈ if k ∈ a.erased then a.erased else a.erased ++ [k]
  split
  · assumption
  · simp

end Sys2Proof.Machine
end

section
namespace Sys2Proof.Proofs
open Sys2Proof.Machine Sys2Proof.Laws

/-- Settles O60: an event folds or takes the next place, a flush freezes and flushes all, and one sector ahead is erased. -/
theorem almanacRecords : Obligations.AlmanacRecords := by
  intro s q
  refine ⟨fun code sev kind index p => ⟨fun last newest folds => ?folds, fun apart room paid paid' level => ?appends⟩,
    fun v up => ⟨_, exec_almCtrlFlush q up v, ?level, fun on write => ?flush, fun off => ?leaves⟩,
    fun run write => ⟨_, exec_almanacFlushEnd run write, ?ended, fun w waits => ?turn, ?all⟩,
    fun keep idle write on k choice => ⟨_, exec_almanacSectorErase keep idle write on (find_mayErase ?choice), erase_sector s.alm k⟩⟩
  case folds =>
    have into : foldsInto last (s.eventRec code sev kind index p) = true := folds
    have folded : s.report code sev kind index p = _ := report_of_quiet q code sev kind index p
    have records : (s.report code sev kind index p).alm = s.alm.withFold last := by
      rw [folded, newest]
      dsimp only
      rw [if_pos into, alm_recMessages_fold]
    simp only [records]
    exact ⟨rfl, rfl, rfl⟩
  case appends =>
    have taken : s.report code sev kind index p = s.takeRec (s.eventRec code sev kind index p) := by
      rw [report_of_quiet q]
      split
      · rename_i last newest
        have alone : foldsInto last (s.eventRec code sev kind index p) = false := apart last newest
        rw [if_neg (by simp [alone])]
      · rfl
    have plain : s.takeRec (s.eventRec code sev kind index p) = _ := takeRec_of_room room paid paid' level _
    have ring : (s.alm.appended (s.eventRec code sev kind index p)).ring.map (·.seq) = s.alm.ring.map (·.seq) ++ [s.alm.nextSeq] := by
      rw [Alm.appended, List.map_append]
      rfl
    have records : (s.report code sev kind index p).alm.nextSeq = s.alm.nextSeq + 1 ∧
        (s.report code sev kind index p).alm.ring.map (·.seq) = s.alm.ring.map (·.seq) ++ [s.alm.nextSeq] ∧
        (sev ≠ .fault → (s.report code sev kind index p).alm = s.alm.appended (s.eventRec code sev kind index p)) := by
      rw [taken, plain]
      obtain same | ⟨fault, u, same, flushes⟩ := alm_recMessages { s with alm := s.alm.appended (s.eventRec code sev kind index p) }
        (s.eventRec code sev kind index p)
      · rw [same]
        exact ⟨rfl, ring, fun _ => rfl⟩
      · obtain ⟨next, seqs⟩ := startFlush_records u
        rw [flushes, next, seqs, same]
        exact ⟨rfl, ring, fun other => absurd fault other⟩
    obtain ⟨next, seqs, whole⟩ := records
    refine ⟨next, ?_, ?_, fun other => by rw [whole other]; rfl, fun fault => ?_⟩
    · rw [← List.getLast?_map, seqs]
      simp
    · have sizes := congrArg List.length seqs
      simpa using sizes
    · subst fault
      by_cases quietCode : BitVec.ofNat 16 code = 0x0A09
      · refine .inr ?_
        have number := congrArg BitVec.toNat quietCode
        simpa using number
      · refine .inl ?_
        rw [taken]
        exact faulted_takeRec s rfl quietCode
  case choice =>
    rw [mayErase_iff, mayErase_iff]
    exact choice
  case level =>
    unfold State.writeAlmCtrl
    dsimp only
    split
    · exact flushLevel_startFlush _
    · rfl
  case flush =>
    rw [State.writeAlmCtrl]
    rw [if_pos on]
    exact startFlush_freezes (s := s.onAlm fun a => { a with flushLevel := fld v 16 12 }) write
  case leaves =>
    rw [State.writeAlmCtrl]
    rw [if_neg (by omega)]
    exact ⟨rfl, rfl⟩
  case ended =>
    rw [onFlash_alm, alm_endFlushCommands]
    rfl
  case turn =>
    have flash : s.flushEnded.endFlushCommands.flash = s.flash :=
      (field_of_news (news_endFlushCommands _) State.flash fun _ => rfl).trans (flash_flushEnded s)
    rw [onFlash_flash, flash, Flash.mcbTurn, write, waits]
    exact ⟨rfl, rfl⟩
  case all =>
    rw [onFlash_alm, alm_endFlushCommands]
    exact flushed_flushNow _

end Sys2Proof.Proofs
end

section
/-! Ethernet ports and FDT (R321 to R329): what a port and the peer of a connection keep while packets are sent, what a frame and a
packet that are taken change, and the effect of each packet and timer. -/

namespace Sys2Proof.Machine

open Sys2Proof.Laws

/-! ### What sending keeps: the states of the ports, and whom each connection is open to -/

/-- The state of a connection and the peer it has. -/
def Conn.peer (c : Conn) : ConnState × Nat × Word32 := (c.state, c.remote, c.remoteId)

/-- The states of the Ethernet ports and the peers of the connections. -/
def State.links (s : State) : (Nat → Nat) × (Nat → ConnState × Nat × Word32) := (fun i => (s.ethPort i).state, fun k => (s.conn k).peer)

section
variable {s t : State}

theorem links_of_eth (h : t.eth = s.eth) : t.links = s.links := by
  simp only [State.links, State.ethPort, State.conn, h]

theorem portState_of_links (h : t.links = s.links) (i : Nat) : (t.ethPort i).state = (s.ethPort i).state :=
  congrFun (congrArg Prod.fst h) i

theorem peer_of_links (h : t.links = s.links) (k : Nat) : (t.conn k).peer = (s.conn k).peer := congrFun (congrArg Prod.snd h) k

theorem lineRate_of_links (h : t.links = s.links) (ports : Nat) : t.lineRate ports = s.lineRate ports := by
  simp only [State.lineRate, portState_of_links h]

theorem pickPort_of_links (h : t.links = s.links) (c : Conn) : t.pickPort c = s.pickPort c := by
  simp only [State.pickPort, portState_of_links h]

variable (s)

theorem links_onConn (k : Nat) {f : Conn → Conn} (h : ∀ c, (f c).peer = c.peer := by exact fun _ => rfl) : (s.onConn k f).links = s.links := by
  refine Prod.ext rfl (funext fun j => ?_)
  show ((s.onConn k f).conn j).peer = _
  rcases eq_or_ne k j with rfl | other
  · rw [conn_onConn_same, h]; rfl
  · rw [conn_onConn_other _ f other]; rfl

theorem links_onEthPort (i : Nat) {f : EthPort → EthPort} (h : ∀ e, (f e).state = e.state := by exact fun _ => rfl) : (s.onEthPort i f).links = s.links := by
  refine Prod.ext (funext fun j => ?_) rfl
  show ((s.onEthPort i f).ethPort j).state = _
  rcases eq_or_ne i j with rfl | other
  · rw [ethPort_onEthPort_same, h]; rfl
  · rw [ethPort_onEthPort_other _ f other]; rfl

theorem links_sendFrame (port remote source : Nat) (b : List Byte) : (s.sendFrame port remote source b).links = s.links := by
  unfold State.sendFrame
  dsimp only
  split
  · exact links_onEthPort s port
  · exact links_onEthPort s port (f := fun e => { e with txFrames := inc e.txFrames })

theorem links_fdtSend (k type flags : Nat) (psn msg : Word32) (off : Nat) (header data : List Byte) :
    (s.fdtSend k type flags psn msg off header data).links = s.links := by
  unfold State.fdtSend
  dsimp only
  split
  · rfl
  · exact (links_sendFrame _ _ _ _ _).trans (links_onConn s k)

theorem links_fdtTransmit (k : Nat) (psn : Word32) (p : FdtPart) (retx : Bool) : (s.fdtTransmit k psn p retx).links = s.links :=
  (links_onConn (s.fdtSend k ftData (partFlags p retx) psn p.msg p.offset p.header p.data) k).trans (links_fdtSend s k _ _ _ _ _ _ _)

theorem links_fdtPumpFrom (k : Nat) (l : List FdtPart) (s : State) : (s.fdtPumpFrom k l).links = s.links := by
  induction l generalizing s with
  | nil => exact links_onConn s k
  | cons p l ih =>
    unfold State.fdtPumpFrom
    dsimp only
    split
    · rw [ih, links_onConn, links_fdtTransmit]
    · exact links_onConn s k

theorem links_fdtPump (k : Nat) : (s.fdtPump k).links = s.links := links_fdtPumpFrom k _ s

theorem links_fdtMessage (k kind : Nat) (post : List Byte) (addr : Nat) (data : List Byte) (owner : FdtOwner) :
    (s.fdtMessage k kind post addr data owner).links = s.links :=
  (links_fdtPump (s.onConn k _) k).trans (links_onConn s k)

theorem links_ringSend (key : Nat) (d : List Byte) : (s.ringSend key d).links = s.links := by
  unfold State.ringSend
  dsimp only
  split
  · exact links_fdtMessage s _ _ _ _ _ _
  · rfl

theorem links_ringPump : s.ringPump.links = s.links :=
  foldl_proj State.links (fun u (d : Nat × List Byte) => links_ringSend u d.1 d.2) _ _

/-! ### What ends of operations, records and passing time keep -/

theorem eth_endCommand (r : Option Route) (st : Word16) (resp : List Byte) : (s.endCommand r st resp).eth = s.eth := by
  unfold State.endCommand
  cases r with
  | none => rfl
  | some r =>
    dsimp only
    split
    · obtain ⟨⟨answered, -⟩, -⟩ := respond_answers s r st resp
      rw [answered]
    · rfl

theorem eth_report (code : Nat) (sev : Severity) (kind index : Nat) (p : List Byte) : (s.report code sev kind index p).eth = s.eth :=
  (notices_report s code sev kind index p).field State.eth

theorem eth_msix (v : Nat) : (s.msix v).eth = s.eth := (notices_msix s v).field State.eth

theorem eth_dropPending (k : Nat) : (s.dropPending k).eth = s.eth := by
  have copies (l : List (Word32 × FdtOwner)) : (l.foldl (fun s p => match p.2 with
      | .core c => s.fdtCopy c k p.1 .timeout
      | _ => s) s).eth = s.eth := by
    refine foldl_proj State.eth (fun u p => ?_) l s
    split <;> rfl
  have exported (u : State) : (match u.comp.export_ with
      | some e => if e.slot = k then (u.endCommand e.route stTimeout []).onComp fun t => { t with export_ := some { e with route := none } } else u
      | none => u).eth = u.eth := by
    split
    · split
      · exact eth_endCommand _ _ _ _
      · rfl
    · rfl
  unfold State.dropPending
  dsimp only
  split
  · split
    · exact (eth_endCommand _ _ _ _).trans ((exported _).trans (copies _))
    · exact (exported _).trans (copies _)
  · exact (exported _).trans (copies _)

theorem conn_of_eth {s t : State} (h : t.eth = s.eth) (k : Nat) : t.conn k = s.conn k := by rw [State.conn, h]; rfl

theorem conn_connStop (k : Nat) (st : ConnState) : (s.connStop k st).conn k = { s.conn k with
    state := st, openRoute := none, sendQ := [], unacked := [], pending := [], timer := none, dupAcks := 0, reorder := [], msgs := []
    rxAhead := [], unackedRx := 0 } := by
  unfold State.connStop
  rw [conn_onConn_same, conn_of_eth ((eth_endCommand _ _ _ _).trans (eth_dropPending s k))]

theorem ports_connStop (k : Nat) (st : ConnState) : (s.connStop k st).eth.ports = s.eth.ports := by
  have ended : ((s.dropPending k).endCommand (s.conn k).openRoute stTimeout []).eth = s.eth :=
    (eth_endCommand _ _ _ _).trans (eth_dropPending s k)
  exact (congrArg Eth.ports ended :)

theorem eth_connLost (k cause : Nat) : (s.connLost k cause).eth = (s.connStop k .lost).eth := by
  unfold State.connLost
  dsimp only
  rw [eth_msix, eth_report]

end
end Sys2Proof.Machine
end

section
/-! Frames, packets and timers of FDT. -/

namespace Sys2Proof.Machine

open Sys2Proof.Laws

/-! ### Passing time -/

/-- What passing time keeps of Ethernet and FDT. -/
def State.ethKept (s : State) : Sparse Conn × Nat × Nat × (Nat → Nat) × (Nat → ConnState × Nat × Word32) :=
  (s.eth.conns, s.eth.retryLimit, s.eth.gShift, s.links)

section
variable (s : State)

theorem ethKept_of_eth {s t : State} (h : t.eth = s.eth) : t.ethKept = s.ethKept := by
  rw [State.ethKept, links_of_eth h, h]
  rfl

theorem ethKept_onEthPort (i : Nat) {f : EthPort → EthPort} (h : ∀ e, (f e).state = e.state := by exact fun _ => rfl) :
    (s.onEthPort i f).ethKept = s.ethKept := by
  rw [State.ethKept, links_onEthPort s i h]
  rfl

theorem ethKept_endPause (i : Nat) : (s.endPause i).ethKept = s.ethKept := by
  have emitted (l : List Out) : (l.foldl State.emit s).ethKept = s.ethKept :=
    foldl_proj State.ethKept (fun u o => ethKept_of_eth (emit_eth u o)) l s
  unfold State.endPause
  dsimp only
  split
  · rfl
  · rw [ethKept_onEthPort, emitted]

theorem ethKept_onBoot (f : Boot → Boot) : (s.onBoot f).ethKept = s.ethKept := rfl

theorem ethKept_epoch (k : Nat) : (s.epoch k).ethKept = s.ethKept :=
  (ethKept_of_eth (eth_report _ _ _ _ _ _)).trans (ethKept_onBoot s _)

theorem ethKept_pass (n : Nat) : (s.pass n).ethKept = s.ethKept := by
  have wrapped (f : Nat → Nat) (l : List Nat) (u : State) : (l.foldl (fun s i => s.epoch (f i)) u).ethKept = u.ethKept :=
    foldl_proj State.ethKept (fun v i => ethKept_epoch v (f i)) l u
  have counted : (s.countTicks n).ethKept = s.ethKept := rfl
  unfold State.pass
  split
  · rfl
  · dsimp only
    rw [ethKept_endPause, ethKept_endPause, ethKept_onBoot, wrapped, counted]

theorem ethKept_passTo (t : Nat) : (s.passTo t).ethKept = s.ethKept := by
  unfold State.passTo
  split
  · exact ethKept_pass s _
  · rfl

theorem links_passTo (t : Nat) : (s.passTo t).links = s.links := congrArg (·.2.2.2) (ethKept_passTo s t)
theorem retryLimit_passTo (t : Nat) : (s.passTo t).eth.retryLimit = s.eth.retryLimit := congrArg (·.2.1) (ethKept_passTo s t)
theorem gShift_passTo (t : Nat) : (s.passTo t).eth.gShift = s.eth.gShift := congrArg (·.2.2.1) (ethKept_passTo s t)

theorem conn_passTo (t k : Nat) : (s.passTo t).conn k = s.conn k := by
  rw [State.conn, show (s.passTo t).eth.conns = s.eth.conns from congrArg Prod.fst (ethKept_passTo s t)]
  rfl

end

/-! ### Frames (R321, R322) -/

section
variable {s : State} (q : s.Quiet) (i : Nat) (rx : EthRx)
include q

/-- The frame of a port whose MAC counts it, with no fault injected. -/
theorem ethFrame_of_quiet : s.ethFrame i rx =
    let s := s.onEthPort i fun e => { e with fecCorr := addW e.fecCorr rx.fecCorr }
    if rx.fcsOk = false then (false, s.onEthPort i fun e => { e with fcsErr := inc e.fcsErr })
    else if 9216 < rx.len then (false, s)
    else
      let s := s.onEthPort i fun e => { e with rxFrames := inc e.rxFrames }
      if rx.fits then (true, s) else (false, s.onEthPort i fun e => { e with rxDrop := inc e.rxDrop }) := by
  unfold State.ethFrame
  simp only [q.fires, q.injEnd, Bool.false_eq_true, false_or, Bool.not_eq_true']

/-- A port's frame leaves everything but the ports as it was. -/
theorem ethFrame_but_ports : (∃ ports, (s.ethFrame i rx).2 = { s with eth := { s.eth with ports := ports } }) ∧
    (s.ethFrame i rx).2.links = s.links := by
  rw [ethFrame_of_quiet q]
  dsimp only
  have counted {u : State} (h : u.links = s.links) {f : EthPort → EthPort} (hf : ∀ e, (f e).state = e.state) :
      (u.onEthPort i f).links = s.links := (links_onEthPort u i hf).trans h
  have fec := counted rfl (f := fun e => { e with fecCorr := addW e.fecCorr rx.fecCorr }) fun _ => rfl
  split
  · exact ⟨⟨_, rfl⟩, counted fec fun _ => rfl⟩
  · split
    · exact ⟨⟨_, rfl⟩, fec⟩
    · have received := counted fec (f := fun e => { e with rxFrames := inc e.rxFrames }) fun _ => rfl
      split
      · exact ⟨⟨_, rfl⟩, received⟩
      · exact ⟨⟨_, rfl⟩, counted received fun _ => rfl⟩

theorem ethFrame_accepted (fcs : rx.fcsOk = true) (len : rx.len ≤ 9216) (fits : rx.fits = true) : (s.ethFrame i rx).1 = true := by
  rw [ethFrame_of_quiet q]
  simp [fcs, fits, Nat.not_lt.2 len]

end

theorem pause_of_pos (s : State) (i : Nat) {n : Nat} (pos : 0 < n) :
    s.pause i n = s.onEthPort i fun e => { e with pausedTo := s.now + (128 * n + 999) / 1000 } := by
  refine if_pos (.inr ?_)
  rw [ethPort_onEthPort_same]
  show s.now < s.now + (128 * n + 999) / 1000
  omega

end Sys2Proof.Machine
end

section
/-! Packets of FDT that are taken (R322 to R329). -/

namespace Sys2Proof.Machine

open Sys2Proof.Laws

/-! ### What arrives -/

/-- The packet is heard on slot k: the ports count its frame, a CNP may go out, and of the connection only its last port and the
ticks of its last packet and its last CNP may differ. -/
structure State.Heard (s u : State) (k : Nat) : Prop where
  rest : s.OnlyEth u
  links : u.links = s.links
  conn : ∃ p h t, u.conn k = { s.conn k with lastPort := p, lastHeard := h, cnpTick := t }

section
variable {s : State} {pkt : FdtPacket} {type : Nat} {ok : ConnState → Bool}

theorem fdtMark_heard (s : State) (k : Nat) (ce : Bool) : s.Heard (s.fdtMark k ce) k := by
  have either (due : Prop) [Decidable due] :
      s.Heard (if due then (s.onConn k fun c => { c with cnpTick := some s.now }).fdtSend k ftCnp 0 0 0 0 [] [] else s) k := by
    split
    · obtain ⟨-, p, h, sent⟩ := conn_fdtSend (s.onConn k fun c => { c with cnpTick := some s.now }) k ftCnp 0 0 0 0 [] []
      refine ⟨(onlyEth_onConn s k _).trans (onlyEth_fdtSend _ _ _ _ _ _ _ _ _), ?_, p, h, some s.now, ?_⟩
      · rw [links_fdtSend, links_onConn]
      · rw [sent, conn_onConn_same]
    · exact ⟨.refl s, rfl, _, _, _, rfl⟩
  exact either _

theorem State.Heard.trans {s t u : State} {k : Nat} (h : s.Heard t k) (h' : t.Heard u k) : s.Heard u k := by
  obtain ⟨p, x, c, conn⟩ := h.conn
  obtain ⟨p', x', c', conn'⟩ := h'.conn
  exact ⟨h.rest.trans h'.rest, h'.links.trans h.links, p', x', c', by rw [conn', conn]⟩

variable (q : s.Quiet) (up : (s.ethPort pkt.port.val).state = 1) (tk : s.TakesPacket pkt) (ht : be pkt.bytes 0 1 % 16 = type)
include q up tk ht

/-- A packet that is taken reaches the step of its type with its frame counted. -/
theorem fdtReceive_taken : ∃ u, s.ethFrame pkt.port.val pkt.rx = (true, u) ∧ s.OnlyEth u ∧ u.eth.conns = s.eth.conns ∧ u.links = s.links ∧
    (type = ftOpen → s.fdtReceive pkt type ok = some (none, u)) ∧
    ∀ k, type ≠ ftOpen → s.fdtSlot (BitVec.ofNat 32 (be pkt.bytes 4 4)) ok = some k → s.fdtReceive pkt type ok = some (some k,
      let v := u.onConn k fun c => { c with lastHeard := u.now }
      if (v.conn k).state = .open_ then v.fdtMark k pkt.ce else v) := by
  obtain ⟨fcs, len, fits, port, sum, good⟩ := tk
  have accepted := ethFrame_accepted q pkt.port.val pkt.rx fcs len fits
  obtain ⟨⟨ports, rest⟩, links⟩ := ethFrame_but_ports q pkt.port.val pkt.rx
  generalize framed : s.ethFrame pkt.port.val pkt.rx = f at accepted rest links
  obtain ⟨passes, u⟩ := f
  obtain rfl : passes = true := accepted
  dsimp only at rest links
  have sameRest : s.OnlyEth u := by subst rest; exact rfl
  have conns : u.eth.conns = s.eth.conns := by rw [rest]
  have slots : u.alm.slots = [] := by rw [rest]; exact q.1
  have sameSlot (id : Word32) : u.fdtSlot id ok = s.fdtSlot id ok := by simp only [State.fdtSlot, State.conn, conns]
  refine ⟨u, rfl, sameRest, conns, links, fun open_ => ?_, fun k other slot => ?_⟩
  · unfold State.fdtReceive
    simp only [up, good, ht, framed, port, sum, sameSlot, opportunity_of_slots_nil slots, open_]
    cases s.fdtSlot (BitVec.ofNat 32 (be pkt.bytes 4 4)) ok <;> simp
  · unfold State.fdtReceive
    simp only [up, good, ht, framed, port, sum, sameSlot, slot, opportunity_of_slots_nil slots, other]
    simp

theorem fdtReceive_heard (other : type ≠ ftOpen) {k : Nat} (slot : s.fdtSlot (BitVec.ofNat 32 (be pkt.bytes 4 4)) ok = some k) :
    ∃ u, s.fdtReceive pkt type ok = some (some k, u) ∧ s.Heard u k := by
  obtain ⟨u, -, sameRest, conns, links, -, taken⟩ := fdtReceive_taken (ok := ok) q up tk ht
  refine ⟨_, taken k other slot, ?_⟩
  dsimp only
  have heard : s.Heard (u.onConn k fun c => { c with lastHeard := u.now }) k := by
    refine ⟨sameRest.trans (onlyEth_onConn u k _), (links_onConn u k).trans links, (s.conn k).lastPort, u.now, (s.conn k).cnpTick, ?_⟩
    rw [conn_onConn_same, State.conn, conns]
    rfl
  split
  · exact heard.trans (fdtMark_heard _ _ _)
  · exact heard

end

end Sys2Proof.Machine
end

section
/-! The effect of each packet and timer of FDT (R325 to R328). -/

namespace Sys2Proof.Machine

open Sys2Proof.Laws

/-! ### Sends -/

section
variable (s : State)

/-- A DATA packet sent keeps its connection but the last port and tick and the counters. -/
theorem conn_fdtTransmit (k : Nat) (psn : Word32) (p : FdtPart) (retx : Bool) : ∃ i h n r,
    (s.fdtTransmit k psn p retx).conn k = { s.conn k with lastPort := i, lastHeard := h, txBytes := n, retx := r } := by
  unfold State.fdtTransmit
  obtain ⟨-, i, h, sent⟩ := conn_fdtSend s k ftData (partFlags p retx) psn p.msg p.offset p.header p.data
  rw [conn_onConn_same, sent]
  exact ⟨i, h, _, _, rfl⟩

/-- Packets that go out again keep their connection but for that and their own marks. -/
theorem conn_fdtResend (k : Nat) (p : FdtSent → Bool) : ∃ i h n r t, (s.fdtResend k p).conn k = { s.conn k with
    lastPort := i, lastHeard := h, txBytes := n, retx := r
    unacked := (s.conn k).unacked.map fun u => if p u then { u with tick := t, retx := true } else u } := by
  have sent (l : List FdtSent) : ∃ i h n r, (l.foldl (fun s u => if p u then s.fdtTransmit k u.psn u.part true else s) s).conn k =
      { s.conn k with lastPort := i, lastHeard := h, txBytes := n, retx := r } := by
    induction l generalizing s with
    | nil => exact ⟨_, _, _, _, rfl⟩
    | cons u l ih =>
      rw [List.foldl_cons]
      split
      · obtain ⟨i, h, n, r, rest⟩ := ih (s.fdtTransmit k u.psn u.part true)
        obtain ⟨_, _, _, _, first⟩ := conn_fdtTransmit s k u.psn u.part true
        exact ⟨i, h, n, r, by rw [rest, first]⟩
      · exact ih s
  unfold State.fdtResend
  dsimp only
  obtain ⟨i, h, n, r, sent⟩ := sent (s.conn k).unacked
  rw [conn_onConn_same, sent]
  exact ⟨i, h, n, r, _, rfl⟩

/-- Packets that all go out again all carry RETX. -/
theorem unacked_fdtResend_all (k : Nat) {p : FdtSent → Bool} (all : ∀ u, p u = true) :
    ((s.fdtResend k p).conn k).unacked.length = (s.conn k).unacked.length ∧ ∀ u ∈ ((s.fdtResend k p).conn k).unacked, u.retx = true := by
  obtain ⟨_, _, _, _, t, resent⟩ := conn_fdtResend s k p
  simp only [resent, all, if_true, List.length_map, List.mem_map, true_and]
  rintro u ⟨x, -, rfl⟩
  rfl

/-- With nothing waiting, the window brings nothing on its way. -/
theorem fdtPump_of_nil {s : State} {k : Nat} (h : (s.conn k).sendQ = []) : s.fdtPump k = s.onConn k fun c => { c with sendQ := [] } := by
  unfold State.fdtPump
  rw [h]
  rfl

theorem lastHeard_fdtSend {k : Nat} (h : (s.pickPort (s.conn k)).isSome = true) (type flags : Nat) (psn msg : Word32) (off : Nat)
    (header data : List Byte) : ((s.fdtSend k type flags psn msg off header data).conn k).lastHeard = s.now := by
  obtain ⟨i, picked⟩ := Option.isSome_iff_exists.1 h
  unfold State.fdtSend State.sendFrame
  dsimp only
  rw [picked]
  dsimp only
  have sent : ((s.onConn k fun c => { c with lastPort := i, lastHeard := s.now }).conn k).lastHeard = s.now := by rw [conn_onConn_same]
  split <;> exact sent

/-- An acknowledgement sent: no DATA packet is unacknowledged. -/
theorem conn_fdtAckNow (k : Nat) (ce : Bool) : ∃ p h,
    (s.fdtAckNow k ce).conn k = { s.conn k with lastPort := p, lastHeard := h, unackedRx := 0 } := by
  unfold State.fdtAckNow State.fdtReply
  obtain ⟨-, p, h, sent⟩ := conn_fdtSend s k ftAck (2 * bit false + 8 * bit ce) 0 (s.conn k).doneMsg 0 [] []
  rw [conn_onConn_same, sent]
  exact ⟨p, h, rfl⟩

theorem onlyEth_fdtAckNow (k : Nat) (ce : Bool) : s.OnlyEth (s.fdtAckNow k ce) := by
  unfold State.fdtAckNow State.fdtReply
  exact (onlyEth_fdtSend s k _ _ _ _ _ _ _).trans (onlyEth_onConn _ k _)

end

/-! ### Acknowledgements that come -/

/-- What an acknowledgement makes of its connection before anything goes out (R326): packets released, a round-trip sample, repeats. -/
def Conn.acked (c : Conn) (now : Nat) (nak : Bool) (ack : Word32) (window : Nat) : Conn :=
  let d := (ack - c.base).toNat
  let fresh : Bool := decide (0 < d) && decide (d ≤ c.unacked.length)
  let gone := if fresh then c.unacked.take d else []
  let c := { c with unacked := if fresh then c.unacked.drop d else c.unacked, window := window }
  if fresh then
    let c : Conn := match gone.getLast? with
      | some u => if u.retx then c else rttSample c (now - u.tick)
      | none => c
    { c with timer := if c.unacked.isEmpty then none else some now, expiries := 0, dupAcks := 0, lastAck := ack }
  else if !nak ∧ ack = c.lastAck ∧ !c.unacked.isEmpty then { c with dupAcks := c.dupAcks + 1 }
  else { c with lastAck := ack, dupAcks := 0 }

section
variable (c : Conn) (now : Nat) (nak : Bool) (ack : Word32) (window : Nat)

theorem acked_kept : (c.acked now nak ack window).pending = c.pending ∧ (c.acked now nak ack window).sendQ = c.sendQ ∧
    (c.acked now nak ack window).window = window := by
  unfold Conn.acked
  dsimp only
  split
  · split
    · split <;> exact ⟨rfl, rfl, rfl⟩
    · exact ⟨rfl, rfl, rfl⟩
  · split <;> exact ⟨rfl, rfl, rfl⟩

/-- An ACK_PSN beyond the first packet sent releases what comes before it. -/
theorem acked_fresh (some_ : 0 < (ack - c.base).toNat) (sent : (ack - c.base).toNat ≤ c.unacked.length) :
    (c.acked now nak ack window).unacked = c.unacked.drop (ack - c.base).toNat ∧ (c.acked now nak ack window).dupAcks = 0 := by
  unfold Conn.acked
  simp only [some_, sent, decide_true, Bool.and_self, if_true, and_true]
  split
  · split <;> rfl
  · rfl

/-- An ACK_PSN of the first packet releases none. -/
theorem acked_stale (first : (ack - c.base).toNat = 0) : (c.acked now nak ack window).unacked = c.unacked := by
  unfold Conn.acked
  simp only [first, Nat.lt_irrefl, decide_false, Bool.false_and, Bool.false_eq_true, if_false]
  split <;> rfl

end

section
variable {s : State} {k : Nat} {nak reject : Bool} {ack : Word32} {sack window : Nat} {msg : Word32}

/-- With no operation pending, an acknowledgement changes its connection and sends. -/
theorem fdtAcked_of_idle (pending : (s.conn k).pending = []) : s.fdtAcked k nak reject ack sack window msg = ([],
    let a := (s.conn k).acked s.now nak ack window
    let t := s.onConn k fun _ => { a with pending := [] }
    (if nak ∨ decide (a.dupAcks = 3) then t.fdtResend k (missing ack sack) else t).fdtPump k) := by
  have parts : ∃ ends f, s.fdtAcked k nak reject ack sack window msg =
      let a := (s.conn k).acked s.now nak ack window
      let t := s.onConn k fun _ => { a with pending := a.pending.filter fun p => !ends p }
      ((a.pending.filter ends).map fun p => (p.2, reject),
        ((a.pending.filter ends).foldl f (if nak ∨ decide (a.dupAcks = 3) then t.fdtResend k (missing ack sack) else t)).fdtPump k) := ⟨_, _, rfl⟩
  obtain ⟨ends, f, parts⟩ := parts
  obtain ⟨kept, -⟩ := acked_kept (s.conn k) s.now nak ack window
  rw [parts]
  dsimp only
  rw [kept, pending]
  rfl

variable (pending : (s.conn k).pending = []) (queue : (s.conn k).sendQ = [])
include pending queue

/-- An ACK that releases packets. -/
theorem fdtAcked_fresh (some_ : 0 < (ack - (s.conn k).base).toNat) (sent : (ack - (s.conn k).base).toNat ≤ (s.conn k).unacked.length) :
    let r := s.fdtAcked k false reject ack sack window msg
    r.1 = [] ∧ (r.2.conn k).unacked = (s.conn k).unacked.drop (ack - (s.conn k).base).toNat ∧ (r.2.conn k).window = window := by
  obtain ⟨-, keptQueue, keptWindow⟩ := acked_kept (s.conn k) s.now false ack window
  obtain ⟨unacked, dup⟩ := acked_fresh (s.conn k) s.now false ack window some_ sent
  rw [fdtAcked_of_idle pending]
  dsimp only
  rw [if_neg (by rw [dup]; simp)]
  generalize released : s.onConn k _ = t
  have conn : t.conn k = { (s.conn k).acked s.now false ack window with pending := [] } := by rw [← released, conn_onConn_same]
  rw [fdtPump_of_nil (by rw [conn]; exact keptQueue.trans queue), conn_onConn_same, conn]
  exact ⟨rfl, unacked, keptWindow⟩

/-- A NAK of the first packet that marks none: all go out again. -/
theorem fdtAcked_nak (first : (ack - (s.conn k).base).toNat = 0) :
    let r := s.fdtAcked k true reject ack 0 window msg
    r.1 = [] ∧ (r.2.conn k).unacked.length = (s.conn k).unacked.length ∧ ∀ u ∈ (r.2.conn k).unacked, u.retx = true := by
  obtain ⟨-, keptQueue, -⟩ := acked_kept (s.conn k) s.now true ack window
  have unacked := acked_stale (s.conn k) s.now true ack window first
  have all (u : FdtSent) : missing ack 0 u = true := by simp [missing, bitOf]
  rw [fdtAcked_of_idle pending]
  dsimp only
  rw [if_pos (.inl rfl)]
  generalize released : s.onConn k _ = t
  have conn : t.conn k = { (s.conn k).acked s.now true ack window with pending := [] } := by rw [← released, conn_onConn_same]
  obtain ⟨length, retx⟩ := unacked_fdtResend_all t k all
  obtain ⟨_, _, _, _, _, resent⟩ := conn_fdtResend t k (missing ack 0)
  rw [fdtPump_of_nil (by rw [resent, conn]; exact keptQueue.trans queue), conn_onConn_same]
  refine ⟨rfl, length.trans ?_, retx⟩
  rw [conn]
  exact congrArg List.length unacked

end

end Sys2Proof.Machine
end

section
/-! The rows of the Ethernet ports and of FDT (R321 to R328). -/

namespace Sys2Proof.Machine

open Sys2Proof.Laws

/-! ### A DATA packet in order (R326, R327) -/

/-- A message with a piece placed, where the piece fits in it. -/
def FdtMsg.placedAt (m : FdtMsg) (off : Nat) (d : List Byte) : FdtMsg := { m with
  placed := (off, d.length) :: m.placed
  data := if off + d.length ≤ m.len then Memory.write m.data off d else m.data }

section
variable {s : State} {k : Nat} {m : FdtMsg} (msgs : (s.conn k).msgs = [m]) (kind : m.kind = 1)
include msgs kind

theorem fdtPlace_control (off : Nat) (d : List Byte) : s.OnlyEth (s.fdtPlace k m.id off d) ∧
    (s.fdtPlace k m.id off d).conn k = { s.conn k with msgs := [m.placedAt off d] } := by
  have found : (s.conn k).msgs.find? (·.id == m.id) = some m := by simp [msgs]
  have noRing : s.ringUnitOf m.kind m.addr m.len = none := if_pos (.inr (.inl (by omega)))
  unfold State.fdtPlace
  rw [found]
  dsimp only
  rw [noRing, if_neg (by omega)]
  refine ⟨onlyEth_onConn s k _, ?_⟩
  rw [conn_onConn_same]
  simp only [msgs, List.map_cons, List.map_nil, if_true, kind, FdtMsg.placedAt]
  by_cases fits : off + d.length ≤ m.len <;> simp [fits]

omit kind in
/-- A piece of the message being received is taken. -/
theorem fdtTake_known (off : Nat) (d : List Byte) : s.fdtTake k false m.id off [] d = (true, s.fdtPlace k m.id off d) := by
  unfold State.fdtTake
  simp [msgs]

end

/-- No message completes before the next one in order is here. -/
theorem fdtCompleteFrom_of_absent {s : State} {k : Nat} (h : (s.conn k).msgs.find? (·.id == (s.conn k).doneMsg + 1) = none) (n : Nat) :
    s.fdtCompleteFrom k n = ([], s) := by
  cases n with
  | zero => rfl
  | succ n =>
    unfold State.fdtCompleteFrom
    dsimp only
    rw [h]

theorem acceptPsn_next {c : Conn} (h : c.rxAhead = []) : acceptPsn c c.rxPsn = { c with rxPsn := c.rxPsn + 1, rxAhead := [] } := by
  simp [acceptPsn, h, advancePsn]

theorem ringRun_of_nil {s : State} (h : s.chd.ringIn = []) : s.ringRun = s := by
  unfold State.ringRun
  rw [h]
  rfl

section
variable {s : State} {k : Nat} {pkt : FdtPacket} {m : FdtMsg}

/-- The next DATA packet in order, of a message that does not complete with it. -/
theorem fdtDataIn_next (psn : be pkt.bytes 12 4 = (s.conn k).rxPsn.toNat) (ahead : (s.conn k).rxAhead = [])
    (rest : bitOf (be pkt.bytes 1 1) 7 = false) (msgs : (s.conn k).msgs = [m]) (id : m.id = BitVec.ofNat 32 (be pkt.bytes 24 4))
    (later : m.id ≠ (s.conn k).doneMsg + 1) (kind : m.kind = 1) : ∃ t, s.fdtDataIn k pkt = ([], t) ∧ s.OnlyEth t ∧
      (t.conn k).rxPsn = (s.conn k).rxPsn + 1 ∧ (t.conn k).rxAhead = [] ∧
      (t.conn k).msgs = [m.placedAt (be pkt.bytes 28 4) (slice pkt.bytes 32 (be pkt.bytes 2 2))] := by
  have inOrder : (BitVec.ofNat 32 (be pkt.bytes 12 4) : Word32) = (s.conn k).rxPsn := by rw [psn, BitVec.ofNat_toNat, BitVec.setWidth_eq]
  have take := fdtTake_known msgs (be pkt.bytes 28 4) (slice pkt.bytes 32 (be pkt.bytes 2 2))
  obtain ⟨placedRest, placed⟩ := fdtPlace_control msgs kind (be pkt.bytes 28 4) (slice pkt.bytes 32 (be pkt.bytes 2 2))
  generalize s.fdtPlace k m.id _ _ = v at take placedRest placed
  have samePsn : (v.conn k).rxPsn = (s.conn k).rxPsn := by rw [placed]
  have next := acceptPsn_next (c := v.conn k) (by rw [placed]; exact ahead)
  rw [samePsn] at next
  unfold State.fdtDataIn
  simp only [inOrder, BitVec.sub_self, rest, ahead, ← id, Bool.false_eq_true, if_false, List.length_nil, Nat.add_zero, take, false_and]
  rw [if_neg (by simp), if_neg (by simp), if_neg (by simp), if_neg (by simp)]
  generalize hw : v.onConn k _ = w
  have rest' : s.OnlyEth w := by rw [← hw]; exact placedRest.trans (onlyEth_onConn v k _)
  have conn : (w.conn k).rxPsn = (s.conn k).rxPsn + 1 ∧ (w.conn k).rxAhead = [] ∧
      (w.conn k).msgs = [m.placedAt (be pkt.bytes 28 4) (slice pkt.bytes 32 (be pkt.bytes 2 2))] ∧ (w.conn k).doneMsg = (s.conn k).doneMsg := by
    rw [← hw, conn_onConn_same, next, placed]
    exact ⟨rfl, rfl, rfl, rfl⟩
  obtain ⟨rxPsn, rxAhead, held, done⟩ := conn
  have absent : (w.conn k).msgs.find? (·.id == (w.conn k).doneMsg + 1) = none := by
    rw [held, done]
    simpa [FdtMsg.placedAt] using later
  simp only [fdtCompleteFrom_of_absent absent]
  split
  · obtain ⟨_, _, acked⟩ := conn_fdtAckNow w k pkt.ce
    refine ⟨_, rfl, rest'.trans (onlyEth_fdtAckNow w k _), ?_⟩
    rw [acked]
    exact ⟨rxPsn, rxAhead, held⟩
  · exact ⟨w, rfl, rest', rxPsn, rxAhead, held⟩

end

/-! ### Opening and closing (R325) -/

section
variable (s : State) (k : Nat)

theorem peer_openWith (id : Word32) : ((s.openWith k id).conn k).peer = (.open_, (s.conn k).remote, id) := by
  unfold State.openWith
  rw [peer_of_links (links_ringPump _), conn_onConn_same]
  rfl

theorem peer_acceptOpen (pkt : FdtPacket) (id : Word32) : ((s.acceptOpen k pkt id).conn k).peer = (.open_, pkt.src, id) := by
  unfold State.acceptOpen
  dsimp only
  rw [peer_of_links (links_fdtSend _ _ _ _ _ _ _ _ _), peer_openWith, conn_onConn_same]

end

/-! ### Packets -/

section
variable {s : State} {pkt : FdtPacket} {k : Nat} (q : s.Quiet) (up : (s.ethPort pkt.port.val).state = 1) (tk : s.TakesPacket pkt)
include q up tk

section
variable (slot : s.fdtSlot (BitVec.ofNat 32 (be pkt.bytes 4 4)) isOpen = some k)
include slot

theorem exec_fdtData (ht : be pkt.bytes 0 1 % 16 = 1) {m : FdtMsg} (psn : be pkt.bytes 12 4 = (s.conn k).rxPsn.toNat)
    (ahead : (s.conn k).rxAhead = []) (rest : bitOf (be pkt.bytes 1 1) 7 = false) (ring : s.chd.ringIn = [])
    (msgs : (s.conn k).msgs = [m]) (id : m.id = BitVec.ofNat 32 (be pkt.bytes 24 4)) (later : m.id ≠ (s.conn k).doneMsg + 1)
    (kind : m.kind = 1) : ∃ t, exec (.fdtData pkt) s = .next t ∧ (t.conn k).rxPsn = (s.conn k).rxPsn + 1 ∧ (t.conn k).rxAhead = [] ∧
      (t.conn k).msgs = [m.placedAt (be pkt.bytes 28 4) (slice pkt.bytes 32 (be pkt.bytes 2 2))] := by
  obtain ⟨u, got, heard⟩ := fdtReceive_heard (type := ftData) q up tk ht (by decide) slot
  obtain ⟨_, _, _, conn⟩ := heard.conn
  obtain ⟨t, data, dataRest, effect⟩ := fdtDataIn_next (s := u) (k := k) (pkt := pkt) (m := m) (by rw [conn]; exact psn)
    (by rw [conn]; exact ahead) rest (by rw [conn]; exact msgs) id (by rw [conn]; exact later) kind
  have sameRing : t.chd.ringIn = [] := ((heard.rest.trans dataRest).field fun x => x.chd.ringIn).trans ring
  rw [conn] at effect
  refine ⟨t, ?_, effect⟩
  show execFdtData pkt s = _
  unfold execFdtData
  rw [got]
  dsimp only
  rw [data]
  exact congrArg Host.Outcome.next (ringRun_of_nil sameRing)

theorem exec_fdtAck (ht : be pkt.bytes 0 1 % 16 = 2) {ack : Word32} (hack : ack = BitVec.ofNat 32 (be pkt.bytes 16 4))
    (sent : ackBeyond (s.conn k) ack (be pkt.bytes 20 2) = false)
    (some_ : 0 < (ack - (s.conn k).base).toNat) (few : (ack - (s.conn k).base).toNat ≤ (s.conn k).unacked.length)
    (pending : (s.conn k).pending = []) (queue : (s.conn k).sendQ = []) : ∃ t, exec (.fdtAck pkt) s = .next t ∧
      (t.conn k).unacked = (s.conn k).unacked.drop (ack - (s.conn k).base).toNat ∧ (t.conn k).window = be pkt.bytes 22 2 := by
  obtain ⟨u, got, heard⟩ := fdtReceive_heard (type := ftAck) q up tk ht (by decide) slot
  obtain ⟨p, h, c, conn⟩ := heard.conn
  have known : ackBeyond (u.conn k) ack (be pkt.bytes 20 2) = false := by rw [conn]; exact sent
  obtain ⟨ended, effect⟩ := fdtAcked_fresh (s := u) (k := k) (reject := bitOf (be pkt.bytes 1 1) 1 && !false) (ack := ack) (sack := be pkt.bytes 20 2)
    (window := be pkt.bytes 22 2) (msg := BitVec.ofNat 32 (be pkt.bytes 24 4)) (by rw [conn]; exact pending) (by rw [conn]; exact queue)
    (by rw [conn]; exact some_) (by rw [conn]; exact few)
  rw [conn] at effect
  refine ⟨_, ?_, effect⟩
  show execFdtAck pkt s = _
  unfold execFdtAck State.ackIn ackOf
  rw [got]
  dsimp only
  rw [← hack, known, ended]
  rfl

theorem exec_fdtNak (ht : be pkt.bytes 0 1 % 16 = 3) {ack : Word32} (hack : ack = BitVec.ofNat 32 (be pkt.bytes 16 4))
    (first : (ack - (s.conn k).base).toNat = 0) (sack : be pkt.bytes 20 2 = 0)
    (pending : (s.conn k).pending = []) (queue : (s.conn k).sendQ = []) : ∃ t, exec (.fdtNak pkt) s = .next t ∧
      (t.conn k).unacked.length = (s.conn k).unacked.length ∧ ∀ u ∈ (t.conn k).unacked, u.retx = true := by
  obtain ⟨u, got, heard⟩ := fdtReceive_heard (type := ftNak) q up tk ht (by decide) slot
  obtain ⟨p, h, c, conn⟩ := heard.conn
  have firstHere : (ack - (u.conn k).base).toNat = 0 := by rw [conn]; exact first
  have known : ackBeyond (u.conn k) ack 0 = false := by simp [ackBeyond, firstHere, bitOf]
  obtain ⟨ended, effect⟩ := fdtAcked_nak (s := u) (k := k) (reject := bitOf (be pkt.bytes 1 1) 1 && !true) (ack := ack)
    (window := be pkt.bytes 22 2) (msg := BitVec.ofNat 32 (be pkt.bytes 24 4)) (by rw [conn]; exact pending) (by rw [conn]; exact queue) firstHere
  rw [conn] at effect
  refine ⟨_, ?_, effect⟩
  show execFdtNak pkt s = _
  unfold execFdtNak State.ackIn ackOf
  rw [got]
  dsimp only
  rw [← hack, sack, known, ended]
  rfl

theorem exec_fdtCnp (ht : be pkt.bytes 0 1 % 16 = 7) : ∃ t, exec (.fdtCnp pkt) s = .next t ∧ (t.conn k).target = (s.conn k).rate ∧
    (t.conn k).cnp = (s.conn k).cnp + 1 ∧ (t.conn k).rate =
      max 1000 (min ((s.conn k).rate - (s.conn k).rate * (s.conn k).alpha / 131072) (s.lineRate (s.conn k).ports)) := by
  obtain ⟨u, got, heard⟩ := fdtReceive_heard (type := ftCnp) q up tk ht (by decide) slot
  obtain ⟨_, _, _, conn⟩ := heard.conn
  refine ⟨u.rateCut k, ?_, ?_⟩
  · show execFdtCnp pkt s = _
    unfold execFdtCnp
    rw [got]
  · unfold State.rateCut State.clampRate
    rw [conn_onConn_same, conn]
    dsimp only
    rw [lineRate_of_links heard.links]
    exact ⟨rfl, rfl, rfl⟩

theorem exec_fdtProbe (ht : be pkt.bytes 0 1 % 16 = 8) : ∃ t, exec (.fdtProbe pkt) s = .next t ∧ (t.conn k).unackedRx = 0 := by
  obtain ⟨u, got, -⟩ := fdtReceive_heard (type := ftProbe) q up tk ht (by decide) slot
  obtain ⟨_, _, conn⟩ := conn_fdtAckNow u k pkt.ce
  refine ⟨u.fdtAckNow k pkt.ce, ?_, by rw [conn]⟩
  show execFdtProbe pkt s = _
  unfold execFdtProbe
  rw [got]

end

section
variable (slot : s.fdtSlot (BitVec.ofNat 32 (be pkt.bytes 4 4)) (fun c => c == .opening || c == .open_) = some k)
include slot

theorem exec_fdtOpenAck (ht : be pkt.bytes 0 1 % 16 = 5) (opening : (s.conn k).state = .opening) : ∃ t,
    exec (.fdtOpenAck pkt) s = .next t ∧ (t.conn k).state = .open_ ∧ (t.conn k).remoteId = BitVec.ofNat 32 (be pkt.bytes 8 4) := by
  obtain ⟨u, got, heard⟩ := fdtReceive_heard (type := ftOpenAck) q up tk ht (by decide) slot
  obtain ⟨_, _, _, conn⟩ := heard.conn
  have waits : (u.conn k).state = .opening := by rw [conn]; exact opening
  refine ⟨((u.openWith k (BitVec.ofNat 32 (be pkt.bytes 8 4))).onConn k fun c => { c with openRoute := none }).endCommand (u.conn k).openRoute stOk [],
    ?_, ?_⟩
  · show execFdtOpenAck pkt s = _
    unfold execFdtOpenAck
    rw [got]
    dsimp only
    rw [if_neg (not_not.2 waits)]
  · generalize opened : State.endCommand _ _ _ _ = t
    have peer : (t.conn k).peer = (.open_, (u.conn k).remote, BitVec.ofNat 32 (be pkt.bytes 8 4)) := by
      rw [← opened, peer_of_links (links_of_eth (eth_endCommand _ _ _ _)), peer_of_links (links_onConn _ k), peer_openWith]
    exact ⟨congrArg Prod.fst peer, congrArg (·.2.2) peer⟩

theorem exec_fdtClose (ht : be pkt.bytes 0 1 % 16 = 6) : ∃ t,
    exec (.fdtClose pkt) s = .next t ∧ (t.conn k).state = .closed ∧ (t.conn k).unacked = [] := by
  obtain ⟨u, got, -⟩ := fdtReceive_heard (type := ftClose) q up tk ht (by decide) slot
  refine ⟨u.connStop k .closed, ?_, by rw [conn_connStop], by rw [conn_connStop]⟩
  show execFdtClose pkt s = _
  unfold execFdtClose
  rw [got]

end

/-- An OPEN of a peer without a live connection opens the lowest free slot. -/
theorem exec_fdtOpen (ht : be pkt.bytes 0 1 % 16 = 4) (hk : k < 64) (free : (s.conn k).state = .closed ∨ (s.conn k).state = .lost)
    (new : ∀ j, j < 64 → ((s.conn j).state == .opening || (s.conn j).state == .open_) = true → (s.conn j).remote ≠ pkt.src)
    (lowest : ∀ j, j < k → (s.conn j).state ≠ .closed ∧ (s.conn j).state ≠ .lost) : ∃ t, exec (.fdtOpen pkt) s = .next t ∧
      (t.conn k).peer = (.open_, pkt.src, BitVec.ofNat 32 (be pkt.bytes 8 4)) := by
  obtain ⟨u, framed, -, conns, -, taken, -⟩ := fdtReceive_taken (ok := isOpen) q up tk ht
  have conn (j : Nat) : u.conn j = s.conn j := by rw [State.conn, conns]; rfl
  obtain ⟨-, -, -, port, sum, good⟩ := tk
  have passes : s.fdtTaken pkt = true := by simp [State.fdtTaken, framed, port, sum]
  have noPeer : (List.range 64).find? (fun j => ((u.conn j).state == .open_ || (u.conn j).state == .opening) && (u.conn j).remote == pkt.src) =
      none := by
    rw [List.find?_eq_none]
    intro j hj
    rw [conn, Bool.and_eq_true, beq_iff_eq, Bool.or_comm]
    exact fun live => new j (List.mem_range.1 hj) live.1 live.2
  have slot : (List.range 64).find? (fun j => (u.conn j).state == .closed || (u.conn j).state == .lost) = some k := by
    rw [List.find?_range_eq_some]
    refine ⟨by simpa [conn] using free, List.mem_range.2 hk, fun j hj => ?_⟩
    simpa [conn] using lowest j hj
  refine ⟨u.acceptOpen k pkt (BitVec.ofNat 32 (be pkt.bytes 8 4)), ?_, peer_acceptOpen u k pkt _⟩
  show execFdtOpen pkt s = _
  unfold execFdtOpen
  rw [show s.fdtReceive pkt ftOpen isOpen = some (none, u) from taken rfl]
  dsimp only
  rw [if_neg (by simp [good, passes]), noPeer]
  dsimp only
  rw [slot]

end

/-- An OPEN that is not taken opens nothing. -/
theorem exec_fdtOpen_refused {s : State} {pkt : FdtPacket} (q : s.Quiet) (up : (s.ethPort pkt.port.val).state = 1)
    (ht : be pkt.bytes 0 1 % 16 = 4) (refused : s.fdtTaken pkt = false) :
    ∃ t, exec (.fdtOpen pkt) s = .next t ∧ t.eth.conns = s.eth.conns := by
  obtain ⟨⟨ports, rest⟩, -⟩ := ethFrame_but_ports q pkt.port.val pkt.rx
  have conns : (s.ethFrame pkt.port.val pkt.rx).2.eth.conns = s.eth.conns := by rw [rest]
  have dropped : ∃ u, s.fdtReceive pkt ftOpen isOpen = some (none, u) ∧ u.eth.conns = s.eth.conns := by
    unfold State.fdtReceive
    rw [if_neg (by simp [up, ht, ftOpen])]
    dsimp only
    have cases := refused
    unfold State.fdtTaken at cases
    generalize s.ethFrame pkt.port.val pkt.rx = f at cases conns
    obtain ⟨passed, u⟩ := f
    cases passed with
    | false => exact ⟨u, rfl, conns⟩
    | true =>
      rw [if_neg (by simp)]
      by_cases port : pkt.dstPort = s.eth.udpPort
      · have sum : pkt.checkOk = false := by simpa [port] using cases
        rw [if_neg (not_not.2 port), if_pos (by rw [sum]; rfl)]
        exact ⟨u, rfl, conns⟩
      · rw [if_pos port]
        exact ⟨_, rfl, conns⟩
  obtain ⟨u, got, same⟩ := dropped
  refine ⟨u, ?_, same⟩
  show execFdtOpen pkt s = _
  unfold execFdtOpen
  rw [got]
  dsimp only
  rw [if_pos (.inr (by rw [refused]; rfl))]

end Sys2Proof.Machine
end

section
/-! The Ethernet ports and the timers of FDT. -/

namespace Sys2Proof.Machine

open Sys2Proof.Laws

/-! ### Frames (R321, R322, R328) -/

/-- The port has counted the corrections of a frame. -/
def State.corrected (s : State) (i : Nat) (rx : EthRx) : State := s.onEthPort i fun e => { e with fecCorr := addW e.fecCorr rx.fecCorr }

/-- The port has counted a frame that it accepts. -/
def State.received (s : State) (i : Nat) (rx : EthRx) : State := (s.corrected i rx).onEthPort i fun e => { e with rxFrames := inc e.rxFrames }

section
variable (s : State) (i : Nat) (rx : EthRx)

theorem ethPort_corrected : (s.corrected i rx).ethPort i =
    { s.ethPort i with fecCorr := (s.ethPort i).fecCorr + BitVec.ofNat 64 rx.fecCorr } := ethPort_onEthPort_same _ _ _

theorem ethPort_received : (s.received i rx).ethPort i = { s.ethPort i with
    fecCorr := (s.ethPort i).fecCorr + BitVec.ofNat 64 rx.fecCorr, rxFrames := (s.ethPort i).rxFrames + 1 } := by
  unfold State.received
  rw [ethPort_onEthPort_same, ethPort_corrected]
  rfl

/-- Counting a frame keeps the port's own addresses. -/
theorem ownAddr_received (kind : EthKind) : (s.received i rx).ownAddr i kind = s.ownAddr i kind := by
  have addr : ((s.received i rx).ethPort i).addr = (s.ethPort i).addr := by rw [ethPort_received]; rfl
  cases kind <;> simp only [State.ownAddr, addr]

end

section
variable {s : State} (q : s.Quiet) {i : Fin 2} {rx : EthRx} (kind : EthKind) (up : (s.ethPort i).state = 1)
include q up

/-- A frame that fails its FCS. -/
theorem exec_ethFrameReceive_bad (fcs : rx.fcsOk = false) : exec (.ethFrameReceive i kind rx) s =
    .next ((s.corrected i rx).onEthPort i fun e => { e with fcsErr := inc e.fcsErr }) := by
  show execEthFrameReceive i kind rx s = _
  unfold execEthFrameReceive
  rw [if_neg (not_not.2 up), ethFrame_of_quiet q]
  simp only [fcs, if_true]
  rfl

theorem exec_ethFrameReceive_long (fcs : rx.fcsOk = true) (len : 9216 < rx.len) : exec (.ethFrameReceive i kind rx) s =
    .next (s.corrected i rx) := by
  show execEthFrameReceive i kind rx s = _
  unfold execEthFrameReceive
  rw [if_neg (not_not.2 up), ethFrame_of_quiet q]
  simp only [fcs, len, if_true, Bool.true_eq_false, if_false]
  rfl

variable (fcs : rx.fcsOk = true) (len : rx.len ≤ 9216)
include fcs len

/-- A frame that finds no room. -/
theorem exec_ethFrameReceive_dropped (fits : rx.fits = false) : exec (.ethFrameReceive i kind rx) s =
    .next ((s.received i rx).onEthPort i fun e => { e with rxDrop := inc e.rxDrop }) := by
  show execEthFrameReceive i kind rx s = _
  unfold execEthFrameReceive
  rw [if_neg (not_not.2 up), ethFrame_of_quiet q]
  simp only [fcs, Nat.not_lt.2 len, fits, Bool.true_eq_false, Bool.false_eq_true, if_false]
  rfl

/-- A frame that is accepted is answered, obeyed or counted by its kind. -/
theorem exec_ethFrameReceive_accepted (fits : rx.fits = true) : exec (.ethFrameReceive i kind rx) s =
    let u := s.received i rx
    if s.ownAddr i kind then .next ((u.onEthPort i fun e => { e with txFrames := inc e.txFrames }).emit (.ethReply i.val kind))
    else match kind, (u.ethPort i).pfc with
      | .pfcPause n, true => .next (u.pause i n)
      | _, _ => .next (u.onEthPort i fun e => { e with other := inc e.other }) := by
  show execEthFrameReceive i kind rx s = _
  unfold execEthFrameReceive
  rw [if_neg (not_not.2 up), ethFrame_of_quiet q]
  simp only [fcs, Nat.not_lt.2 len, fits, Bool.true_eq_false, Bool.not_true, Bool.false_eq_true, if_false, if_true]
  rw [← ownAddr_received s i rx kind]
  rfl

theorem exec_ethFrameReceive_own (fits : rx.fits = true) (own : s.ownAddr i kind = true) : exec (.ethFrameReceive i kind rx) s =
    .next (((s.received i rx).onEthPort i fun e => { e with txFrames := inc e.txFrames }).emit (.ethReply i.val kind)) :=
  (exec_ethFrameReceive_accepted q kind up fcs len fits).trans (if_pos own)

theorem exec_ethFrameReceive_pause (fits : rx.fits = true) {n : Nat} (pfc : (s.ethPort i).pfc = true) :
    exec (.ethFrameReceive i (.pfcPause n) rx) s = .next ((s.received i rx).pause i n) := by
  have on : ((s.received i rx).ethPort i).pfc = true := by rw [ethPort_received]; exact pfc
  rw [exec_ethFrameReceive_accepted q _ up fcs len fits]
  dsimp only
  rw [if_neg (by simp [State.ownAddr]), on]

theorem exec_ethFrameReceive_other (fits : rx.fits = true) (own : s.ownAddr i kind = false)
    (free : (∀ n, kind ≠ .pfcPause n) ∨ (s.ethPort i).pfc = false) : exec (.ethFrameReceive i kind rx) s =
      .next ((s.received i rx).onEthPort i fun e => { e with other := inc e.other }) := by
  have same : ((s.received i rx).ethPort i).pfc = (s.ethPort i).pfc := by rw [ethPort_received]
  rw [exec_ethFrameReceive_accepted q _ up fcs len fits]
  dsimp only
  rw [if_neg (by simp [own]), same]
  split
  next n pfc => exact absurd free (by simp [pfc])
  · rfl

end

end Sys2Proof.Machine
end

section
/-! The Ethernet ports going down and up, and the timers of FDT (R325, R326, R328). -/

namespace Sys2Proof.Machine

open Sys2Proof.Laws

/-! ### Frames that are accepted -/

theorem ethPort_emit (s : State) (o : Out) (i : Nat) : (s.emit o).ethPort i = s.ethPort i := by
  rw [State.ethPort, emit_eth]
  rfl

/-- A pause, whatever its time, keeps what the port counts of frames received. -/
theorem counts_pause (s : State) (i n : Nat) : ((s.pause i n).ethPort i).fecCorr = (s.ethPort i).fecCorr ∧
    ((s.pause i n).ethPort i).rxFrames = (s.ethPort i).rxFrames := by
  unfold State.pause
  generalize paused : s.onEthPort i _ = u
  have port : (u.ethPort i).fecCorr = (s.ethPort i).fecCorr ∧ (u.ethPort i).rxFrames = (s.ethPort i).rxFrames := by
    rw [← paused, ethPort_onEthPort_same]
    exact ⟨rfl, rfl⟩
  have emitted (l : List Out) : (l.foldl State.emit u).ethPort i = u.ethPort i :=
    foldl_proj (fun v : State => v.ethPort i) (fun v o => ethPort_emit v o i) l u
  unfold State.endPause
  dsimp only
  split
  · exact port
  · rw [ethPort_onEthPort_same, emitted]
    exact port

section
variable {s : State} (q : s.Quiet) {i : Fin 2} {rx : EthRx} (kind : EthKind) (up : (s.ethPort i).state = 1) (fcs : rx.fcsOk = true)
  (len : rx.len ≤ 9216)
include q up fcs len

/-- A frame of a length that the port accepts: it is counted, then dropped, answered, obeyed or counted as of another kind. -/
theorem exec_ethFrameReceive_counted : ∃ t, exec (.ethFrameReceive i kind rx) s = .next t ∧
    (t.ethPort i).fecCorr = (s.ethPort i).fecCorr + BitVec.ofNat 64 rx.fecCorr ∧ (t.ethPort i).rxFrames = (s.ethPort i).rxFrames + 1 ∧
    (rx.fits = false → (t.ethPort i).rxDrop = (s.ethPort i).rxDrop + 1 ∧ t.out = s.out) ∧
    (rx.fits = true → s.ownAddr i kind = true → (t.ethPort i).txFrames = (s.ethPort i).txFrames + 1 ∧ t.out = .ethReply i kind :: s.out) ∧
    (rx.fits = true → s.ownAddr i kind = false → (∀ n, kind ≠ .pfcPause n) ∨ (s.ethPort i).pfc = false →
      (t.ethPort i).other = (s.ethPort i).other + 1 ∧ t.out = s.out) ∧
    (∀ n, rx.fits = true → kind = .pfcPause n → (s.ethPort i).pfc = true → 0 < n →
      (t.ethPort i).pausedTo = s.now + (128 * n + 999) / 1000 ∧ t.out = s.out) := by
  rcases Bool.eq_false_or_eq_true rx.fits with fits | fits
  case inr =>
    refine ⟨_, exec_ethFrameReceive_dropped q kind up fcs len fits, ?_⟩
    rw [ethPort_onEthPort_same, ethPort_received, fits]
    exact ⟨rfl, rfl, fun _ => ⟨rfl, rfl⟩, fun h => absurd h Bool.false_ne_true, fun h => absurd h Bool.false_ne_true,
      fun _ h => absurd h Bool.false_ne_true⟩
  case inl =>
    have drops : rx.fits ≠ false := by simp [fits]
    rcases Bool.eq_false_or_eq_true (s.ownAddr i kind) with own | own
    · refine ⟨_, exec_ethFrameReceive_own q kind up fcs len fits own, ?_⟩
      rw [ethPort_emit, ethPort_onEthPort_same, ethPort_received, own]
      refine ⟨rfl, rfl, fun h => absurd h drops, fun _ _ => ⟨rfl, rfl⟩, fun _ h => absurd h.symm Bool.false_ne_true, fun n _ h => ?_⟩
      rw [h] at own
      exact absurd own Bool.false_ne_true
    · by_cases free : (∀ n, kind ≠ .pfcPause n) ∨ (s.ethPort i).pfc = false
      · refine ⟨_, exec_ethFrameReceive_other q kind up fcs len fits own free, ?_⟩
        rw [ethPort_onEthPort_same, ethPort_received, own]
        refine ⟨rfl, rfl, fun h => absurd h drops, fun _ h => absurd h Bool.false_ne_true, fun _ _ _ => ⟨rfl, rfl⟩, fun n _ h pfc => ?_⟩
        exact absurd free (by simp [h, pfc])
      · obtain ⟨⟨n, rfl⟩, pfc⟩ : (∃ n, kind = .pfcPause n) ∧ (s.ethPort i).pfc = true := by simpa using free
        refine ⟨_, exec_ethFrameReceive_pause q up fcs len fits pfc, ?_⟩
        obtain ⟨fec, frames⟩ := counts_pause (s.received i rx) i n
        rw [fec, frames, ethPort_received]
        refine ⟨rfl, rfl, fun h => absurd h drops, fun _ h => absurd h Bool.false_ne_true, fun _ _ h => absurd h free, ?_⟩
        rintro _ _ ⟨⟩ _ pos
        rw [pause_of_pos _ _ pos, ethPort_onEthPort_same]
        exact ⟨rfl, rfl⟩

end

/-! ### Ports -/

section
variable {s : State} {i : Fin 2}

theorem exec_ethPortDown (up : (s.ethPort i).state = 1) : ∃ t, exec (.ethPortDown i) s = .next t ∧ (t.ethPort i).state = 0 := by
  refine ⟨_, if_neg (not_not.2 up), ?_⟩
  rw [State.ethPort, foldl_proj (fun u : State => u.eth.ports) (fun u k => ?_), eth_msix]
  · exact congrArg EthPort.state (ethPort_onEthPort_same s i _)
  · split
    · rw [eth_connLost, ports_connStop]
    · rfl

theorem exec_ethPortUp (on : s.boot.mainOn = true) (down : (s.ethPort i).state ≠ 1) :
    ∃ t, exec (.ethPortUp i) s = .next t ∧ (t.ethPort i).state = 1 := by
  refine ⟨_, if_neg (by simp [on, down]), ?_⟩
  rw [portState_of_links (foldl_proj State.links (fun u k => links_fdtPump u k) _ _), ethPort_onEthPort_same]

end

/-! ### Timers -/

theorem conn_connLost (s : State) (k cause : Nat) : (s.connLost k cause).conn k = (s.connStop k .lost).conn k := conn_of_eth (eth_connLost s k cause) k

section
variable {s : State} {k : Fin 64} (open_ : (s.conn k).state = .open_)
include open_

/-- The retransmission timeout of an open connection. -/
theorem exec_fdtRetxTimeout {x : Nat} (timer : (s.conn k).timer = some x) : exec (.fdtRetxTimeout k) s =
    let u := s.passTo (x + (s.conn k).rto)
    .next (if s.eth.retryLimit ≤ (s.conn k).expiries + 1 then u.connLost k 0
      else (u.onConn k fun c => { c with
        expiries := (s.conn k).expiries + 1, rto := min 6400000 (2 * c.rto), rate := if c.state = .open_ then max 1000 (c.rate / 2) else c.rate
        timer := some u.now }).fdtResend k fun _ => true) := by
  show execFdtRetxTimeout k s = _
  unfold execFdtRetxTimeout
  dsimp only
  rw [timer]
  dsimp only
  rw [if_neg (by simp [open_])]
  have conn := conn_passTo s (x + (s.conn k).rto) k
  have limit := retryLimit_passTo s (x + (s.conn k).rto)
  generalize s.passTo (x + (s.conn k).rto) = u at conn limit
  rw [conn, limit]
  split
  · rfl
  · rw [if_neg]
    rw [conn_onConn_same, conn]
    simp [open_]

theorem exec_fdtRetxTimeout_again {x : Nat} (timer : (s.conn k).timer = some x) (few : (s.conn k).expiries + 1 < s.eth.retryLimit) :
    ∃ t, exec (.fdtRetxTimeout k) s = .next t ∧ (t.conn k).expiries = (s.conn k).expiries + 1 ∧
      (t.conn k).rto = min 6400000 (2 * (s.conn k).rto) ∧ (t.conn k).unacked.length = (s.conn k).unacked.length ∧
      ∀ u ∈ (t.conn k).unacked, u.retx = true := by
  refine ⟨_, (exec_fdtRetxTimeout open_ timer).trans (congrArg Host.Outcome.next (if_neg (Nat.not_le.2 few))), ?_⟩
  have conn := conn_passTo s (x + (s.conn k).rto) k
  generalize s.passTo (x + (s.conn k).rto) = u at conn
  generalize expired : u.onConn k _ = v
  have fields : (v.conn k).expiries = (s.conn k).expiries + 1 ∧ (v.conn k).rto = min 6400000 (2 * (s.conn k).rto) ∧
      (v.conn k).unacked = (s.conn k).unacked := by
    rw [← expired, conn_onConn_same, conn]
    exact ⟨rfl, rfl, rfl⟩
  obtain ⟨expiries, rto, unacked⟩ := fields
  obtain ⟨length, retx⟩ := unacked_fdtResend_all v k (p := fun _ => true) fun _ => rfl
  obtain ⟨_, _, _, _, _, resent⟩ := conn_fdtResend v k fun _ => true
  refine ⟨by rw [resent]; exact expiries, by rw [resent]; exact rto, by rw [length, unacked], retx⟩

theorem exec_fdtRetxTimeout_lost {x : Nat} (timer : (s.conn k).timer = some x) (many : s.eth.retryLimit ≤ (s.conn k).expiries + 1) :
    ∃ t, exec (.fdtRetxTimeout k) s = .next t ∧ (t.conn k).state = .lost ∧ (t.conn k).unacked = [] := by
  refine ⟨_, (exec_fdtRetxTimeout open_ timer).trans (congrArg Host.Outcome.next (if_pos many)), ?_⟩
  rw [conn_connLost, conn_connStop]
  exact ⟨rfl, rfl⟩

theorem exec_fdtAckTimer (due : (s.conn k).unackedRx ≠ 0) : ∃ t, exec (.fdtAckTimer k) s = .next t ∧ (t.conn k).unackedRx = 0 := by
  refine ⟨_, if_neg (by simp [open_, due]), ?_⟩
  obtain ⟨_, _, acked⟩ := conn_fdtAckNow (s.passTo ((s.conn k).ackTick + 1000)) k false
  rw [acked]

theorem exec_fdtProbeTimer (port : (s.pickPort (s.conn k)).isSome = true) :
    ∃ t, exec (.fdtProbeTimer k) s = .next t ∧ (t.conn k).lastHeard = t.now := by
  refine ⟨_, if_neg (not_not.2 open_), ?_⟩
  have conn := conn_passTo s ((s.conn k).lastHeard + 1000000) k
  have links := links_passTo s ((s.conn k).lastHeard + 1000000)
  generalize s.passTo ((s.conn k).lastHeard + 1000000) = u at conn links
  rw [lastHeard_fdtSend u (by rw [conn, pickPort_of_links links]; exact port)]
  exact ((onlyEth_fdtSend u k ftProbe 0 0 0 0 [] []).field State.now).symm

theorem exec_fdtRatePeriod : ∃ t, exec (.fdtRatePeriod k) s = .next t ∧ (t.conn k).sinceCut = (s.conn k).sinceCut + 1 ∧
    (t.conn k).alpha = (s.conn k).alpha - (s.conn k).alpha / 2 ^ s.eth.gShift := by
  refine ⟨_, if_neg (not_not.2 open_), ?_⟩
  unfold State.rateRaise
  rw [conn_onConn_same, conn_passTo, gShift_passTo]
  exact ⟨rfl, rfl⟩

end

end Sys2Proof.Machine
end

section
/-! The statement on Ethernet and FDT. -/

namespace Sys2Proof.Proofs

open Sys2Proof.Machine Sys2Proof.Laws

/-- Settles O59, clause by clause: a frame by what the MAC makes of it, the ports, each packet that is taken, and the timers. -/
theorem ethernetAndFdt : Obligations.EthernetAndFdt := by
  intro s q
  refine ⟨?frames, fun i => exec_ethPortDown, fun i => exec_ethPortUp, ?packets, ?refused, ?timers⟩
  case frames =>
    intro i kind rx up
    rcases Bool.eq_false_or_eq_true rx.fcsOk with fcs | fcs
    · by_cases len : rx.len ≤ 9216
      · obtain ⟨t, counted, fec, effect⟩ := exec_ethFrameReceive_counted q kind up fcs len
        exact ⟨t, counted, fec, fun h => absurd h (by simp [fcs]), fun _ h => absurd h (Nat.not_lt.2 len), fun _ _ => effect⟩
      · refine ⟨_, exec_ethFrameReceive_long q kind up fcs (Nat.lt_of_not_le len), ?_⟩
        dsimp only
        rw [ethPort_corrected]
        exact ⟨rfl, fun h => absurd h (by simp [fcs]), fun _ _ => ⟨rfl, rfl⟩, fun _ h => absurd h len⟩
    · refine ⟨_, exec_ethFrameReceive_bad q kind up fcs, ?_⟩
      dsimp only
      rw [ethPort_onEthPort_same, ethPort_corrected]
      have bad : rx.fcsOk ≠ true := by simp [fcs]
      exact ⟨rfl, fun _ => ⟨rfl, rfl, rfl⟩, fun h => absurd h bad, fun h => absurd h bad⟩
  case packets =>
    intro pkt k up tk
    refine ⟨fun slot => ⟨?_, fun ht sent some_ few pending queue => exec_fdtAck q up tk slot ht rfl sent some_ few pending queue,
      fun ht first sack pending queue => exec_fdtNak q up tk slot ht rfl first sack pending queue, fun ht => exec_fdtCnp q up tk slot ht,
      fun ht => exec_fdtProbe q up tk slot ht⟩, fun slot => ⟨fun ht opening => exec_fdtOpenAck q up tk slot ht opening,
      fun ht => exec_fdtClose q up tk slot ht⟩, fun ht hk free new lowest => ?_⟩
    · intro ht _ psn ahead rest ring m msgs id later kind
      exact exec_fdtData q up tk slot ht psn ahead rest ring msgs id later kind
    · obtain ⟨t, opened, peer⟩ := exec_fdtOpen q up tk ht hk free new lowest
      exact ⟨t, opened, congrArg Prod.fst peer, congrArg (·.2.1) peer, congrArg (·.2.2) peer⟩
  case refused => exact fun pkt up ht refused => exec_fdtOpen_refused q up ht refused
  case timers =>
    intro k
    refine ⟨fun x timer open_ => ?_, fun open_ => ⟨exec_fdtAckTimer open_, exec_fdtProbeTimer open_, exec_fdtRatePeriod open_⟩⟩
    rcases Nat.lt_or_ge ((s.conn k).expiries + 1) s.eth.retryLimit with few | many
    · obtain ⟨t, again, effect⟩ := exec_fdtRetxTimeout_again open_ timer few
      exact ⟨t, again, fun _ => effect, fun many => absurd many (Nat.not_le.2 few)⟩
    · obtain ⟨t, lost, effect⟩ := exec_fdtRetxTimeout_lost open_ timer many
      exact ⟨t, lost, fun few => absurd few (Nat.not_lt.2 many), fun _ => effect⟩

end Sys2Proof.Proofs
end

end
